-- ==== Sys2Proof/Word.lean ====
section
/-! DEFINITION. The words of the device and the names of its numbered parts (R11, R18, R30). -/

namespace Sys2Proof

/-- One byte. -/
abbrev Byte := BitVec 8
/-- A 32-bit word: FP32 patterns, U32 fields. -/
abbrev Word := BitVec 32
/-- A 64-byte memory granule: a scratchpad word (R70), a window granule (R375). -/
abbrev Granule := BitVec 512

/-- Cores C0–C15 (R18). -/
abbrev CoreId := Fin 16
/-- The eight queue contexts of a core (R170). -/
abbrev CtxId := Fin 8
/-- Partitions 0–3 (R161). -/
abbrev PartId := Fin 4
/-- Quadrants Q0–Q3; also update engines U0–U3 and optical engines E0–E3 (R18, R19, R20). -/
abbrev QuadId := Fin 4
/-- Bulk channels M0–M15 (R20). -/
abbrev ChanId := Fin 16
/-- Ports P0–P7 (R19). -/
abbrev PortId := Fin 8
/-- Lanes: lane l of port p is 4p + l (R265). -/
abbrev LaneId := Fin 32
/-- Logical links 0–31 (R248). -/
abbrev LinkId := Fin 32
/-- Traffic classes 0–7 (R260). -/
abbrev TcId := Fin 8
/-- Bore connections 0–4,095 (R282). -/
abbrev ConnId := Fin 4096
/-- Memory-key table indexes (R289). -/
abbrev KeyIdx := Fin 16384
/-- Stream contexts 0–47 (R268). -/
abbrev StreamId := Fin 48
/-- Bulk regions 0–63 (R142). -/
abbrev RegionId := Fin 64
/-- Tile slots of a core (R172). -/
abbrev SlotId := Fin 256
/-- Scratchpad words of a core: 1,572,864 of 64 B (R136). -/
abbrev WordIdx := Fin 1572864
/-- Locks 0–15 (R356). -/
abbrev LockId := Fin 16
/-- Management sessions 1–16, numbered from 0 here (R371). -/
abbrev SessionId := Fin 16
/-- Valid node IDs (R4). -/
abbrev NodeId := Fin 12288
/-- The eight concurrent SPDM sessions (R320). -/
abbrev SpdmId := Fin 8
/-- Job key slots 1–15, numbered from 0 here (R337). -/
abbrev JobSlot := Fin 15

end Sys2Proof
end

