-- ==== Sys2Proof/Syntax.lean ====
section
/-! DEFINITION. The commands of the JRN-1664 as this model takes them: one constructor per row of
spec/opcode_table.json, with the operands the spec gives each step. Where a step takes what the outside world
supplies (a packet, a frame, a sensor reading, the outcome of a flash write), that is an operand. -/

namespace Sys2Proof

/-- The four paths to the dictionary, in the priority order of R355; coded as PATH of R354. -/
inductive Path where
  | firmware | chain | mgmt | pcie
  deriving DecidableEq, Repr

/-- A dictionary master: the owner ID of R354, by path and TAGNO. -/
structure Master where
  path : Path
  tag  : BitVec 14
  deriving DecidableEq, Repr

/-- One dictionary PDU with the master that sent it (R348). `session` is the SESSION field; on the chain `seq`
is the frame's SEQ (R363), `bcast` says that its ADDR is the broadcast one (R362), and
`inverted` that it was decoded in the inverted sense of the pair (R366). -/
structure DictReq where
  master   : Master
  seq      : BitVec 4
  bcast    : Bool
  inverted : Bool
  op       : Byte
  last     : Bool
  rsv      : BitVec 6
  tag      : BitVec 16
  index    : BitVec 16
  subindex : Byte
  session  : Byte
  len      : BitVec 16
  offset   : Word
  data     : List Byte
  deriving DecidableEq, Repr

/-- The operand fields of a vector instruction, every field of R180 but OPC. -/
structure VecOps where
  dst  : BitVec 6
  ds   : Bool
  src1 : BitVec 7
  src2 : BitVec 7
  src3 : BitVec 7
  flg  : BitVec 3
  fdst : BitVec 3
  bind : BitVec 3
  imm  : BitVec 16
  half : Bool
  deriving DecidableEq, Repr

/-- The operand fields of an update microcode instruction (R222). -/
structure UpdOps where
  d : BitVec 5
  a : BitVec 5
  b : BitVec 5
  c : BitVec 5
  deriving DecidableEq, Repr

/-- The HARDWARE fault codes of R202. -/
inductive HwFault where
  | memory | check | hung
  deriving DecidableEq, Repr

/-- What an ECC check finds in what a scrub reads (R138, R159). -/
inductive EccFind where
  | clean | corrected | uncorrectable
  deriving DecidableEq, Repr

/-- The seven vault-wipe triggers in the order of R133; numbered 1–7 by R135. -/
inductive WipeTrigger where
  | reset | lifeCycle | tamper | handOver | sessionEnded | fenced | off
  deriving DecidableEq, Repr

/-- The writable subindexes of a region record (R142). -/
inductive RegionField where
  | base | size | attr | owner
  deriving DecidableEq, Repr

/-- The causes of event 0x0B10 (R378) and PCIE_PERST_N, which acts as a link down (R438). -/
inductive PcieCause where
  | hotReset | linkDown | flr | perst
  deriving DecidableEq, Repr

/-- Bore packet kinds (R279). -/
inductive PktKind where
  | send | write | writeAcc | readReq | readResp | fetchAdd | cmpSwap | atomicResp
  | ack | nak | connect | accept | close | barrierArrive | barrierRelease
  deriving DecidableEq, Repr

/-- A Bore packet: the base header of R279, the extension of R280, the payload, and the fields that CONNECT and
ACCEPT (R283) and the barrier packets (R303) carry as their payload. `ce` is the CE mark of R297. -/
structure Packet where
  kind    : PktKind
  ver     : BitVec 4
  first   : Bool
  last    : Bool
  ackReq  : Bool
  ece     : Bool
  dconn   : BitVec 12
  keyId   : BitVec 4
  psn     : BitVec 24
  abrt    : Bool
  snode   : BitVec 14
  offset  : BitVec 31
  rkey    : Word
  raddr   : BitVec 44
  len     : Word
  origin  : Word
  accf    : Bool
  stepRd  : Bool
  immv    : Bool
  imm     : Word
  opnd1   : BitVec 64
  opnd2   : BitVec 64
  sconn   : BitVec 12
  part    : BitVec 2
  jobId   : Word
  epoch   : BitVec 16
  atomic  : Bool
  group   : BitVec 12
  gen     : BitVec 16
  tag     : BitVec 128
  ce      : Bool
  payload : List Byte
  deriving DecidableEq, Repr

/-- Causes for which a member is reported failed or its job is held (R243). -/
inductive FailCause where
  | programFault | coreLost | bulkRead | updateHardware | updateParameter | heartbeat | portsDown | digest
  deriving DecidableEq, Repr

/-- Why a lane leaves service (R253, R267). -/
inductive LaneCause where
  | user | los | fec
  deriving DecidableEq, Repr

/-- The lane announce of R249: sender's node, port and physical lane. -/
structure Announce where
  node : BitVec 14
  port : BitVec 3
  lane : BitVec 2
  deriving DecidableEq, Repr

/-- What the MAC finds in a received Ethernet frame (R257, R258, R268): its length, its error flags, its tags, its
EtherType class and, for a datagram, its UDP port and contents. -/
structure Frame where
  len       : Nat
  fcsError  : Bool
  symError  : Bool
  control   : Bool
  sTag      : Option (BitVec 12)
  cTag      : Option (BitVec 12)
  pcp       : BitVec 3
  service   : Bool
  fragment  : Bool
  badSum    : Bool
  udpPort   : Option (BitVec 16)
  dstMac    : BitVec 48
  ssrc      : Option Word
  bytes     : List Byte
  deriving DecidableEq, Repr

/-- An RTP datagram of a stream (R270, R272): its timestamp, extended sequence number, marker, SSRC, the F bit and
sampling it declares, and its line segments (line, byte offset in the stored line, bytes). `overRate` says the packet
lies beyond a rate limit of R269, and `gap` how many sequence numbers are missing before it. -/
structure RtpPacket where
  ts       : Word
  marker   : Bool
  ssrc     : Word
  fbit     : Bool
  sampling : BitVec 8
  overRate : Bool
  gap      : Nat
  segs     : List (Nat × Nat × List Byte)
  deriving DecidableEq, Repr

/-- The tamper sources of R339. -/
inductive TamperSource where
  | supply | clock | temperature | fuse | selfCheck
  deriving DecidableEq, Repr

/-- One millisecond's raw readings (R404): 24 temperatures in 0.01 °C, 15 monitors in mV, package power, four
quadrant powers and six rail powers in 0.1 W, and the two fan speeds. -/
structure Readings where
  temps   : List Int
  mons    : List Nat
  package : Nat
  quads   : List Nat
  rails   : List Nat
  fans    : List Nat
  deriving DecidableEq, Repr

/-- How a core self-test ends (R421). -/
inductive TestResult where
  | passed | sram | array | vector | sequencer
  deriving DecidableEq, Repr

/-- The commands of the device: one constructor per row of the table of operations and events, in the
table's order but for rare events of the chain and commands without operands, which stand last. The rule that governs each stands
with its meaning. -/
inductive Instr where
  /-- MATMUL (R176). -/
  | matmul (core : CoreId) (ctx : CtxId)
  /-- DRAIN (R178). -/
  | drain (core : CoreId) (ctx : CtxId)
  /-- VEC (R179). -/
  | vec (core : CoreId) (ctx : CtxId)
  /-- MOVE (R181). -/
  | move (core : CoreId) (ctx : CtxId)
  /-- GATHER (R116). -/
  | gather (core : CoreId) (ctx : CtxId)
  /-- SCATTER (R116). -/
  | scatter (core : CoreId) (ctx : CtxId)
  /-- SCATTER_ADD (R116). -/
  | scatterAdd (core : CoreId) (ctx : CtxId)
  /-- WINDOW (R118). -/
  | window (core : CoreId) (ctx : CtxId)
  /-- SPILL (R184). -/
  | spill (core : CoreId) (ctx : CtxId)
  /-- PREFETCH (R152). -/
  | prefetch (core : CoreId) (ctx : CtxId)
  /-- COLL (R185). -/
  | coll (core : CoreId) (ctx : CtxId)
  /-- REDUCE_SCATTER (R228). -/
  | reduceScatter (coll : Nat) (peers : List (List Word))
  /-- ALL_GATHER (R185). -/
  | allGather (coll : Nat) (peers : List (List Byte))
  /-- ALL_REDUCE (R228). -/
  | allReduce (coll : Nat) (peers : List (List Word)) (sums : List (List Byte))
  /-- RING_PASS (R233). -/
  | ringPass (coll : Nat) (incoming : List Byte)
  /-- BORE (R186). -/
  | bore (core : CoreId) (ctx : CtxId)
  /-- FENCE (R189). -/
  | fence (core : CoreId) (ctx : CtxId)
  /-- SIGNAL (R195). -/
  | signal (core : CoreId) (ctx : CtxId)
  /-- WAIT (R195). -/
  | wait (core : CoreId) (ctx : CtxId)
  /-- BARRIER (R195). -/
  | barrier (core : CoreId) (ctx : CtxId)
  /-- PHASE (R198). -/
  | phase (core : CoreId) (ctx : CtxId)
  /-- SLOT (R187). -/
  | slot (core : CoreId) (ctx : CtxId)
  /-- END (R188). -/
  | endQueue (core : CoreId) (ctx : CtxId)
  /-- DESTINATION_READY (R173). -/
  | destinationReady (core : CoreId) (ctx : CtxId) (slot : SlotId)
  /-- BELL_RELEASE (R197). -/
  | bellRelease (core : CoreId) (ctx : CtxId)
  /-- CLOCK_GATE (R197). -/
  | clockGate (core : CoreId)
  /-- ADD (R93). -/
  | vAdd (core : CoreId) (o : VecOps)
  /-- SUB (R93). -/
  | vSub (core : CoreId) (o : VecOps)
  /-- MUL (R93). -/
  | vMul (core : CoreId) (o : VecOps)
  /-- FMA (R93). -/
  | vFma (core : CoreId) (o : VecOps)
  /-- MIN (R93). -/
  | vMin (core : CoreId) (o : VecOps)
  /-- MAX (R93). -/
  | vMax (core : CoreId) (o : VecOps)
  /-- ABS (R92). -/
  | vAbs (core : CoreId) (o : VecOps)
  /-- NEG (R92). -/
  | vNeg (core : CoreId) (o : VecOps)
  /-- CMP_EQ (R93). -/
  | vCmpEq (core : CoreId) (o : VecOps)
  /-- CMP_NE (R93). -/
  | vCmpNe (core : CoreId) (o : VecOps)
  /-- CMP_LT (R93). -/
  | vCmpLt (core : CoreId) (o : VecOps)
  /-- CMP_LE (R93). -/
  | vCmpLe (core : CoreId) (o : VecOps)
  /-- CMP_UNORD (R93). -/
  | vCmpUnord (core : CoreId) (o : VecOps)
  /-- SEL (R92). -/
  | vSel (core : CoreId) (o : VecOps)
  /-- IADD (R93). -/
  | vIadd (core : CoreId) (o : VecOps)
  /-- ISUB (R93). -/
  | vIsub (core : CoreId) (o : VecOps)
  /-- AND (R92). -/
  | vAnd (core : CoreId) (o : VecOps)
  /-- OR (R92). -/
  | vOr (core : CoreId) (o : VecOps)
  /-- XOR (R92). -/
  | vXor (core : CoreId) (o : VecOps)
  /-- NOT (R92). -/
  | vNot (core : CoreId) (o : VecOps)
  /-- SHL (R93). -/
  | vShl (core : CoreId) (o : VecOps)
  /-- SHR (R93). -/
  | vShr (core : CoreId) (o : VecOps)
  /-- SAR (R93). -/
  | vSar (core : CoreId) (o : VecOps)
  /-- IMUL (R92). -/
  | vImul (core : CoreId) (o : VecOps)
  /-- CVT (R93). -/
  | vCvt (core : CoreId) (o : VecOps)
  /-- EXP2 (R94). -/
  | vExp2 (core : CoreId) (o : VecOps)
  /-- LOG2 (R94). -/
  | vLog2 (core : CoreId) (o : VecOps)
  /-- RCP (R94). -/
  | vRcp (core : CoreId) (o : VecOps)
  /-- RSQ (R94). -/
  | vRsq (core : CoreId) (o : VecOps)
  /-- RSUM (R95). -/
  | vRsum (core : CoreId) (o : VecOps)
  /-- RMAX (R95). -/
  | vRmax (core : CoreId) (o : VecOps)
  /-- RMIN (R95). -/
  | vRmin (core : CoreId) (o : VecOps)
  /-- RAND16 (R99). -/
  | vRand16 (core : CoreId) (o : VecOps)
  /-- RAND32 (R99). -/
  | vRand32 (core : CoreId) (o : VecOps)
  /-- LDS (R97). -/
  | vLds (core : CoreId) (o : VecOps)
  /-- LDC (R97). -/
  | vLdc (core : CoreId) (o : VecOps)
  /-- LDT (R97). -/
  | vLdt (core : CoreId) (o : VecOps)
  /-- STC (R97). -/
  | vStc (core : CoreId) (o : VecOps)
  /-- STT (R97). -/
  | vStt (core : CoreId) (o : VecOps)
  /-- UPD_ADD (R222). -/
  | updAdd (eng : QuadId) (o : UpdOps)
  /-- UPD_SUB (R222). -/
  | updSub (eng : QuadId) (o : UpdOps)
  /-- UPD_MUL (R222). -/
  | updMul (eng : QuadId) (o : UpdOps)
  /-- UPD_DIV (R222). -/
  | updDiv (eng : QuadId) (o : UpdOps)
  /-- UPD_MIN (R222). -/
  | updMin (eng : QuadId) (o : UpdOps)
  /-- UPD_MAX (R222). -/
  | updMax (eng : QuadId) (o : UpdOps)
  /-- UPD_FMA (R222). -/
  | updFma (eng : QuadId) (o : UpdOps)
  /-- UPD_SQRT (R222). -/
  | updSqrt (eng : QuadId) (o : UpdOps)
  /-- UPD_ABS (R222). -/
  | updAbs (eng : QuadId) (o : UpdOps)
  /-- UPD_NEG (R222). -/
  | updNeg (eng : QuadId) (o : UpdOps)
  /-- UPD_LT (R222). -/
  | updLt (eng : QuadId) (o : UpdOps)
  /-- UPD_SEL (R222). -/
  | updSel (eng : QuadId) (o : UpdOps)
  /-- UPD_NF (R222). -/
  | updNf (eng : QuadId) (o : UpdOps)
  /-- QMASK (R164). -/
  | qmask (m : Master) (p : PartId) (v : Byte)
  /-- LOAD (R167). -/
  | load (m : Master) (p : PartId)
  /-- START (R162). -/
  | start (m : Master) (p : PartId)
  /-- STOP (R162). -/
  | stop (m : Master) (p : PartId)
  /-- ABORT (R162). -/
  | abortPart (m : Master) (p : PartId)
  /-- RESUME (R162). -/
  | resume (m : Master) (p : PartId)
  /-- DISSOLVE (R163). -/
  | dissolve (m : Master) (p : PartId)
  /-- STEP_START (R199). -/
  | stepStart (p : PartId)
  /-- STEP_BOUNDARY (R200). -/
  | stepBoundary (p : PartId)
  /-- STEP_TIMEOUT (R203). -/
  | stepTimeout (p : PartId)
  /-- HUNG (R202). -/
  | hung (core : CoreId) (ctx : CtxId)
  /-- CORE_FENCE (R206). -/
  | coreFence (core : CoreId) (ctx : CtxId) (cause : HwFault) (info : BitVec 64)
  /-- RERUN_START (R208). -/
  | rerunStart (core : CoreId)
  /-- RETURN (R211). -/
  | coreReturn (m : Master) (core : CoreId) (v : Byte)
  /-- UPDATE_PHASE_START (R218). -/
  | updatePhaseStart (p : PartId)
  /-- UPDATE_ELEMENT (R220). -/
  | updateElement (p : PartId) (entry : Nat) (elem : Nat)
  /-- WORKING_COPY_TILE (R229). -/
  | workingCopyTile (p : PartId) (entry : Nat) (block : Nat) (data : List Byte)
  /-- UPDATE_PHASE_COMPLETE (R229). -/
  | updatePhaseComplete (p : PartId)
  /-- DIGEST_REPORT (R237). -/
  | digestReport (rank : Nat) (step : Word) (wc : BitVec 64) (master : BitVec 64)
  /-- COLLECTIVE_COMPLETE (R218). -/
  | collectiveComplete (coll : Nat)
  /-- STALE_FETCH_SERVE (R230). -/
  | staleFetchServe (conn : ConnId)
  /-- HOLD (R127). -/
  | hold (core : CoreId) (word : WordIdx) (data : Granule)
  /-- HOLD_WRITEBACK (R127). -/
  | holdWriteback (core : CoreId)
  /-- VAULT_WIPE (R134). -/
  | vaultWipe (core : CoreId) (trigger : WipeTrigger)
  /-- SCRATCHPAD_ZEROING (R136). -/
  | scratchpadZeroing (core : CoreId)
  /-- SRAM_SCRUB (R138). -/
  | sramScrub (core : CoreId) (found : EccFind)
  /-- RETENTION_ENTRY (R130). -/
  | retentionEntry (q : QuadId)
  /-- RETENTION_WAKE (R131). -/
  | retentionWake (q : QuadId)
  /-- PLL_LOCK (R385). -/
  | pllLock (core : CoreId)
  /-- PLL_STOP (R385). -/
  | pllStop (core : CoreId)
  /-- BULK_REREAD (R153). -/
  | bulkReread (ch : ChanId) (unit : Nat) (good : Bool) (p : PartId)
  /-- ZEROING (R155). -/
  | zeroing (ch : ChanId)
  /-- REGION_ZEROING (R156). -/
  | regionZeroing (r : RegionId)
  /-- PATROL_SCRUB (R159). -/
  | patrolScrub (ch : ChanId) (found : EccFind)
  /-- SLAB_MAP_WRITE (R141). -/
  | slabMapWrite (m : Master) (v : Byte)
  /-- REGION_WRITE (R142). -/
  | regionWrite (m : Master) (r : RegionId) (f : RegionField) (v : BitVec 16)
  /-- BREATH_PERIOD (R394). -/
  | breathPeriod (wanted : List Nat) (busy : List Nat)
  /-- ARBITRATION_SLOT (R355). -/
  | arbitrationSlot (reqs : List DictReq)
  /-- DICT_READ (R349). -/
  | dictRead (r : DictReq)
  /-- DICT_WRITE (R349). -/
  | dictWrite (r : DictReq)
  /-- DESCRIBE (R349). -/
  | describe (r : DictReq)
  /-- OPEN (R371). -/
  | openSession (r : DictReq) (src : BitVec 128)
  /-- CLOSE (R371). -/
  | closeSession (r : DictReq)
  /-- ACQUIRE (R357). -/
  | acquire (m : Master) (n : LockId)
  /-- RELEASE (R357). -/
  | release (m : Master) (n : LockId)
  /-- REPAIRED (R357). -/
  | repaired (m : Master) (n : LockId)
  /-- ASSIGN (R365). -/
  | assign (slot : Byte) (pod : Byte) (rsv : BitVec 16) (daisyIn : Bool) (inverted : Bool)
  /-- RATE (R362). -/
  | rate (code : Byte) (broadcast : Bool) (inverted : Bool)
  /-- WINDOW_READ (R375). -/
  | windowRead (x : Nat) (n : Nat)
  /-- WINDOW_WRITE (R375). -/
  | windowWrite (x : Nat) (data : List Byte)
  /-- PCIE_RESET (R376). -/
  | pcieReset (cause : PcieCause)
  /-- HOST_WINDOW_ACCESS (R28). -/
  | hostWindowAccess (p : PartId) (addr : Nat) (write : Option (List Byte)) (len : Nat)
  /-- CONN_OPEN (R283). -/
  | connOpen (m : Master) (c : ConnId)
  /-- CONN_CLOSE (R283). -/
  | connClose (m : Master) (c : ConnId)
  /-- CONNECT_RESEND (R283). -/
  | connectResend (c : ConnId)
  /-- CONNECT_TIMEOUT (R283). -/
  | connectTimeout (c : ConnId)
  /-- CLOSE_TIMEOUT (R283). -/
  | closeTimeout (c : ConnId)
  /-- REGISTER (R290). -/
  | registerKey (m : Master) (k : KeyIdx)
  /-- INVALIDATE (R290). -/
  | invalidateKey (m : Master) (k : KeyIdx)
  /-- WE_SEND (R285). -/
  | weSend (c : ConnId)
  /-- WE_RECV (R285). -/
  | weRecv (c : ConnId)
  /-- WE_WRITE (R285). -/
  | weWrite (c : ConnId)
  /-- WE_WRITE_ACC (R300). -/
  | weWriteAcc (c : ConnId)
  /-- WE_READ (R285). -/
  | weRead (c : ConnId)
  /-- WE_FETCH_ADD (R293). -/
  | weFetchAdd (c : ConnId)
  /-- WE_CMP_SWAP (R293). -/
  | weCmpSwap (c : ConnId)
  /-- CHAIN_RELEASE (R299). -/
  | chainRelease (c : ConnId)
  /-- SEND (R288). -/
  | rxSend (pkt : Packet)
  /-- WRITE (R285). -/
  | rxWrite (pkt : Packet)
  /-- WRITE_ACC (R300). -/
  | rxWriteAcc (pkt : Packet)
  /-- READ_REQ (R285). -/
  | rxReadReq (pkt : Packet)
  /-- READ_RESP (R285). -/
  | rxReadResp (pkt : Packet)
  /-- FETCH_ADD (R293). -/
  | rxFetchAdd (pkt : Packet)
  /-- CMP_SWAP (R293). -/
  | rxCmpSwap (pkt : Packet)
  /-- ATOMIC_RESP (R285). -/
  | rxAtomicResp (pkt : Packet)
  /-- ACK (R295). -/
  | rxAck (pkt : Packet) (rtt : Nat)
  /-- NAK (R281). -/
  | rxNak (pkt : Packet)
  /-- CONNECT (R283). -/
  | rxConnect (pkt : Packet)
  /-- ACCEPT (R283). -/
  | rxAccept (pkt : Packet)
  /-- CLOSE_PKT (R283). -/
  | rxClose (pkt : Packet)
  /-- BARRIER_ARRIVE (R303). -/
  | barrierArrive (pkt : Packet)
  /-- BARRIER_RELEASE (R303). -/
  | barrierRelease (pkt : Packet)
  /-- ACK_TIMER (R295). -/
  | ackTimer (c : ConnId)
  /-- RETRANSMIT_TIMEOUT (R295). -/
  | retransmitTimeout (c : ConnId)
  /-- RNR_RESEND (R288). -/
  | rnrResend (c : ConnId)
  /-- BUSY_RESEND (R298). -/
  | busyResend (c : ConnId)
  /-- PLACEMENT_TIMEOUT (R298). -/
  | placementTimeout (pkt : Packet)
  /-- HEARTBEAT (R235). -/
  | heartbeat (node : NodeId)
  /-- HEARTBEAT_LOSS (R235). -/
  | heartbeatLoss (node : NodeId)
  /-- DEPUTY_TAKEOVER (R235). -/
  | deputyTakeover (confirmed : Bool)
  /-- FAILURE_REPORT (R243). -/
  | failureReport (rank : Nat) (cause : FailCause)
  /-- SPARE_TAKEOVER (R244). -/
  | spareTakeover (rank : Nat)
  /-- RESTORE (R244). -/
  | restore (rank : Nat) (fromBuddy : Bool)
  /-- BEGIN (R240). -/
  | ckptBegin (slot : Bool) (step : Word) (jobId : Word) (rank : BitVec 14) (len : BitVec 64)
  /-- RECORDS (R240). -/
  | ckptRecords (slot : Bool) (off : Nat) (data : List Byte)
  /-- CKPT_END (R240). -/
  | ckptEnd (slot : Bool) (digest : BitVec 64)
  /-- CKPT_COMPLETE (R241). -/
  | ckptComplete (rank : Nat) (step : Word)
  /-- CHECKPOINT_STREAM (R240). -/
  | checkpointStream (n : Nat)
  /-- PORT_ENABLE (R250). -/
  | portEnable (m : Master) (port : PortId) (v : Byte)
  /-- LANE_READY (R250). -/
  | laneReady (lane : LaneId) (announce : Option Announce) (phys : Fin 4)
  /-- AM_BOUNDARY (R254). -/
  | amBoundary (link : LinkId)
  /-- LINK_START_TIMEOUT (R250). -/
  | linkStartTimeout (link : LinkId)
  /-- LANE_OUT (R253). -/
  | laneOut (lane : LaneId) (cause : LaneCause) (txLit : Bool)
  /-- LOS_CLEAR (R255). -/
  | losClear (lane : LaneId) (txLit : Bool)
  /-- SERVICE (R265). -/
  | service (m : Master) (lane : LaneId) (v : Byte)
  /-- LANE_STATUS (R254). -/
  | laneStatus (link : LinkId) (status : BitVec 4)
  /-- FRAME_RECEIVE (R257). -/
  | frameReceive (link : LinkId) (f : Frame)
  /-- PAUSE_FRAME (R259). -/
  | pauseFrame (link : LinkId) (pfc : Bool) (mask : Byte) (times : List Nat)
  /-- PAUSE_EXPIRY (R259). -/
  | pauseExpiry (link : LinkId) (tc : TcId)
  /-- PFC_STORM (R259). -/
  | pfcStorm (link : LinkId) (tc : TcId)
  /-- PFC_SEND (R259). -/
  | pfcSend (link : LinkId) (tc : TcId) (bytes : Nat)
  /-- GATE_ENTRY (R260). -/
  | gateEntry (link : LinkId)
  /-- CONFIG_TIME (R260). -/
  | configTime (m : Master) (port : PortId) (v : BitVec 64)
  /-- CLOCK_STEP (R262). -/
  | clockStep (m : Master) (v : BitVec 64)
  /-- RTP_PACKET (R272). -/
  | rtpPacket (stream : StreamId) (pk : RtpPacket)
  /-- FRAME_TIMEOUT (R272). -/
  | frameTimeout (stream : StreamId)
  /-- TARGET_HUSH (R382). -/
  | targetHush (m : Master)
  /-- TARGET_REST (R381). -/
  | targetRest (m : Master)
  /-- TARGET_IDLE (R382). -/
  | targetIdle (m : Master)
  /-- PWR_GOOD (R408). -/
  | pwrGood (level : Bool)
  /-- RAIL_UNDERVOLTAGE (R434). -/
  | railUndervoltage (rail : Fin 9)
  /-- BOOT_DONE (R409). -/
  | bootDone (ids : List Byte) (usToRest : Word) (usToIdle : Word)
  /-- DUTY_ADJUST (R389). -/
  | dutyAdjust (avg : Nat)
  /-- THERMTRIP (R391). -/
  | thermtrip (sensor : Fin 14) (reading : Int)
  /-- FAN_FAIL (R392). -/
  | fanFail (g : Fin 2)
  /-- FAN_CLEAR (R392). -/
  | fanClear (g : Fin 2)
  /-- TAMPER (R340). -/
  | tamper (src : TamperSource)
  /-- OBOE_TASK (R399). -/
  | oboeTask (lane : LaneId) (heaterPct : Nat)
  /-- LASER_AGEING (R400). -/
  | laserAgeing (eng : QuadId) (low : Bool) (biasPct : Nat)
  /-- WEAR_LEVELLING (R401). -/
  | wearLevelling (sector : Nat) (failed : Bool)
  /-- PERSIST_WRITE (R423). -/
  | persistWrite (failed : Option Nat)
  /-- TELEMETRY_SAMPLE (R404). -/
  | telemetrySample (rd : Readings)
  /-- LOG_READ (R424). -/
  | logRead (m : Master) (persist : Bool)
  /-- REQUEST (R313). -/
  | request (m : Master) (target : Byte) (burnOk : Bool)
  /-- COMMIT (R318). -/
  | commit (m : Master) (cls : Byte)
  /-- CAL_COMMIT (R403). -/
  | calCommit (m : Master) (flashOk : Bool)
  /-- NETWORK_RECORD_STORE (R414). -/
  | networkRecordStore (m : Master) (v : Byte)
  /-- SPDM_MESSAGE (R321). -/
  | spdmMessage (m : Master) (msg : List Byte)
  /-- BIND (R322). -/
  | bind (sess : SpdmId) (p : Byte) (leaf : BitVec 384) (mutAuth : Bool)
  /-- RELEASE_SECRET (R322). -/
  | releaseSecret (sess : SpdmId) (rs : BitVec 256)
  /-- JOBKEY (R322). -/
  | jobkey (sess : SpdmId) (slot : Byte) (jobId : Word) (secret : BitVec 384)
  /-- REVOKE (R322). -/
  | revoke (sess : SpdmId) (slot : Byte)
  /-- GRANT (R322). -/
  | grant (sess : SpdmId) (v : Byte)
  /-- LOG (R322). -/
  | logRequest (sess : SpdmId) (seq : BitVec 24)
  /-- SESSION_END (R323). -/
  | sessionEnd (sess : SpdmId) (cause : Byte)
  /-- SEALED (R324). -/
  | sealed (m : Master) (p : PartId) (v : Byte)
  /-- PKG (R331). -/
  | pkg (m : Master) (p : PartId) (addr : BitVec 64)
  /-- PKG_LOAD (R334). -/
  | pkgLoad (m : Master)
  /-- PKG_EXPORT (R335). -/
  | pkgExport (m : Master)
  /-- SLOT_KEY_LOAD (R337). -/
  | slotKeyLoad (m : Master) (k : JobSlot)
  /-- SLOT_KEY_REVOKE (R337). -/
  | slotKeyRevoke (m : Master) (k : JobSlot)
  /-- ERASE (R411). -/
  | erase (m : Master) (ok : Bool)
  /-- DATA (R411). -/
  | recoveryData (m : Master) (data : List Byte) (ok : Bool)
  /-- CHECK (R411). -/
  | recoveryCheck (m : Master)
  /-- REBOOT (R411). -/
  | reboot (m : Master)
  /-- LANE_TEST_MODE (R417). -/
  | laneTestMode (m : Master) (lane : LaneId) (v : Byte)
  /-- BULK_TEST_START (R418). -/
  | bulkTestStart (m : Master) (ch : ChanId)
  /-- BULK_TEST_STOP (R418). -/
  | bulkTestStop (m : Master) (ch : ChanId)
  /-- SELF_TEST_START (R421). -/
  | selfTestStart (m : Master) (core : CoreId)
  /-- BULK_TEST_END (R418). -/
  | bulkTestEnd (ch : ChanId) (bad : Word) (first : BitVec 64)
  /-- SELF_TEST_END (R421). -/
  | selfTestEnd (core : CoreId) (result : TestResult) (word : Word)
  /-- CHECKER_LOCK (R417). -/
  | checkerLock (lane : LaneId)
  /-- CHECKER_LOCK_LOSS (R417). -/
  | checkerLockLoss (lane : LaneId) (bits : BitVec 64) (errors : BitVec 64)
  /-- PCIE_LINK_UP (R376). -/
  | pcieLinkUp (width : Byte) (gen : Byte)
  /-- LOCKSTEP_MISMATCH (R426). -/
  | lockstepMismatch (pair : Fin 2) (within10s : Bool)
  /-- SP_RESTART (R426). -/
  | spRestart (pair : Fin 2)
  /-- BAR2_WRITE (R375). -/
  | bar2Write (off : Nat) (data : List Byte)
  /-- SESSION_TIMEOUT (R371). -/
  | sessionTimeout (n : SessionId)
  /-- SNAPSHOT_TIMEOUT (R352). -/
  | snapshotTimeout (m : Master)
  /-- SEGMENT_TIMEOUT (R353). -/
  | segmentTimeout (m : Master)
  /-- BREAK (R367). -/
  | chainBreak (chars : Nat)
  /-- STUCK (R367). -/
  | stuck (short : Fin 4)
  /-- SHORT (R368). -/
  | shortFault (kind : Fin 4)
  /-- RETRY (R367). -/
  | retry (idle : Bool)
  /-- RESTORED (R367). -/
  | restored (seconds : Nat)
  /-- SILENT (R369). -/
  | silent (seconds : Nat)
  /-- DAISY_OUT_RISE (R365). -/
  | daisyOutRise
  /-- RATE_APPLY (R362). -/
  | rateApply
  /-- GO (R374). -/
  | go
  /-- RETIRE (R244). -/
  | retire
  /-- ALL_PORTS_DOWN (R256). -/
  | allPortsDown
  /-- WAKE_TIMER (R384). -/
  | wakeTimer
  /-- PORST_N (R412). -/
  | porstN
  /-- WARM_RST_N (R412). -/
  | warmRstN
  /-- BOOT (R409). -/
  | boot
  /-- GOVERNOR_GRANT (R390). -/
  | governorGrant
  /-- TRANSITION_COMPLETE (R382). -/
  | transitionComplete
  /-- PACKAGE_LOAD_COMPLETED (R334). -/
  | packageLoadCompleted
  /-- IDLE_GAP (R361). -/
  | idleGap
  deriving DecidableEq, Repr

end Sys2Proof
end

