-- ==== Sys2Proof/Machine/Bits.lean ====
section
/-! DEFINITION. Bit fields, byte order and signed readings (R11, R12). -/

namespace Sys2Proof.Machine

/-- The field of `n` bits that starts at bit `lo`. -/
def fieldAt (w lo n : Nat) : Nat := w / 2 ^ lo % 2 ^ n

/-- One bit of a number. -/
def bitAt (w i : Nat) : Bool := w / 2 ^ i % 2 == 1

/-- Little-endian bytes of a number (R11). -/
def bytesOf : Nat → Nat → List Byte
  | 0, _ => []
  | n + 1, v => BitVec.ofNat 8 v :: bytesOf n (v / 256)

/-- The number that bytes spell, little-endian (R11). -/
def natOf : List Byte → Nat
  | [] => 0
  | b :: r => b.toNat + 256 * natOf r

/-- A field of `n` bits read as two's complement. -/
def signedOf (n v : Nat) : Int := if v < 2 ^ (n - 1) then (v : Int) else (v : Int) - (2 : Int) ^ n

/-- The two's complement field of `n` bits that spells an integer. -/
def fieldOf (n : Nat) (v : Int) : Nat := (v % (2 : Int) ^ n).toNat

/-- ⌈a / b⌉. -/
def ceilDiv (a b : Nat) : Nat := (a + b - 1) / b

/-- The bytes of a granule, lowest address first. -/
def granuleBytes (g : Granule) : List Byte := bytesOf 64 g.toNat

/-- The granule that 64 bytes make. -/
def granuleOf (bs : List Byte) : Granule := BitVec.ofNat 512 (natOf bs)

/-- Cut a list into pieces of `n` (the last may be short), at most `fuel` of them. -/
def chunks {α : Type} (n : Nat) : Nat → List α → List (List α)
  | 0, _ => []
  | fuel + 1, l => if l.isEmpty then [] else l.take n :: chunks n fuel (l.drop n)

end Sys2Proof.Machine
end

