-- ==== Sys2Proof/Config.lean ====
section
/-! DEFINITION. What an implementation fixes and what the spec leaves open. Every constant here has no body: no
proof can use a value of it. -/

namespace Sys2Proof.Config

/-- A fused CONST value, by object index and subindex (R7, R34, R36): fixed for the life of the part. -/
opaque fuse : Nat → Nat → Nat
/-- The temperature grade in the ordering code (R5): true for X, whose inlet limit is 45 °C. -/
opaque gradeX : Bool
/-- Base of the fused block of 64 MAC addresses (R414). -/
opaque macBase : BitVec 48
/-- The n-th 64 bits of the entropy source (R100, R283, R308): no rule fixes them. -/
opaque entropy : Nat → BitVec 64
/-- The n-th draw of a FREE-mode generator (R100): it depends on timing, which the model leaves out. -/
opaque freeDraw : Nat → BitVec 64
/-- What the n-th read of a server byte through an outbound host window returns, by server address (R28, R377). -/
opaque hostByte : Nat → Nat → Byte
/-- What scratchpad data with an error of three or more bits may read as is not covered (R137): unused bits of the
n-th open value. -/
opaque openValue : Nat → Nat
/-- SHA-384 of a byte string: the spec names the standard and does not define it (R236, R317, R319). -/
opaque sha384 : List Byte → BitVec 384
/-- ECDSA P-384 verification: public key, digest, signature r then s (R312, R317, R328). -/
opaque ecdsaOk : BitVec 776 → BitVec 384 → BitVec 768 → Bool
/-- ECDSA P-384 signature by the device identity key over a digest (R335). -/
opaque ecdsaSign : BitVec 384 → BitVec 768
/-- HKDF-SHA-384 to 32 bytes: salt, input key, info (R332, R336). -/
opaque hkdf : List Byte → List Byte → List Byte → BitVec 256
/-- AES-256-GCM opening: key, nonce, associated data, ciphertext, tag (R304, R332). -/
opaque gcmOpen : BitVec 256 → BitVec 96 → List Byte → List Byte → BitVec 128 → Option (List Byte)
/-- AES-256-GCM sealing: key, nonce, associated data, plaintext; the ciphertext (R304). -/
opaque gcmSeal : BitVec 256 → BitVec 96 → List Byte → List Byte → List Byte
/-- The authentication tag of that sealing (R304). -/
opaque gcmTag : BitVec 256 → BitVec 96 → List Byte → List Byte → BitVec 128
/-- HPKE open with the device identity key: encapsulated key, info, aad, wrapped key (R331). -/
opaque hpkeOpen : BitVec 776 → List Byte → List Byte → BitVec 384 → Option (BitVec 256)
/-- HPKE seal to a recipient key: recipient, info, aad, key; the 256-byte recipient entry (R330, R335). -/
opaque hpkeSeal : BitVec 776 → List Byte → List Byte → BitVec 256 → List Byte
/-- Fused SHA-384 fingerprints: life-cycle key (R312), firmware key and test key (R317), calibration key (R402). -/
opaque lifeCycleKeyFpr : BitVec 384
opaque firmwareKeyFpr : BitVec 384
opaque testKeyFpr : BitVec 384
opaque calibrationKey : BitVec 776
/-- The life-cycle public key whose fingerprint is fused (R312). -/
opaque lifeCycleKey : BitVec 776
/-- The device identity public key (R308). -/
opaque identityKey : BitVec 776
/-- The bytes the SPDM 1.2 responder answers to the n-th message delivered (R320, R321). -/
opaque spdmResponse : Nat → List Byte → List Byte
/-- The flash content the board supplies, byte by flash offset, before the device writes it (R406, R407). -/
opaque flashByte : Nat → Byte
/-- A MATMUL, vector or update result the spec leaves unstated, by the operands (log). -/
opaque openResult : Nat → Word → Word → Word

/-- Which way a CVT between FP32 and I32 goes, by the instruction's bits: the format word of R43 has no code for I32
(R92, R180; log 17). -/
opaque cvtToInt : Nat → Bool

/-- Whether the fuses of an origin word fail their integrity check, by object index (R39). -/
opaque originBad : Nat → Bool

/-- What the n-th fetch from another node delivers, by byte (R121, R282): the content of that node's memory. -/
opaque peerByte : Nat → Nat → Byte
/-- Whether the n-th fetch is answered NAK STALE (R230). -/
opaque fetchStale : Nat → Bool

end Sys2Proof.Config
end

