-- ==== Sys2Proof/Machine/ObjTable.lean ====
section
/-! DEFINITION. The object dictionary's table (R15, R343, R345): every object and subindex of the spec with its type,
its access code and the value it holds after PORST_N (R14). A row stands for `count` consecutive objects and `nsub`
consecutive subindexes of one shape. FUSE values of CONST objects are `Config.fuse`; BOOT and CAL values are 0 until
the boot sets them (log 3). -/

namespace Sys2Proof.Machine

/-- The object types of R345. -/
inductive ObjType where
  | bool | u8 | u16 | u32 | u64 | i16 | i32 | i64 | f32
  | str (n : Nat)
  | domain (n : Nat)
  deriving DecidableEq, Repr

/-- The access codes of R15. -/
inductive Access where
  | ro | rw | wo | rws | w1c | rc | const
  deriving DecidableEq, Repr

/-- Size in bytes (R345). -/
def ObjType.size : ObjType → Nat
  | .bool => 1 | .u8 => 1 | .u16 => 2 | .u32 => 4 | .u64 => 8 | .i16 => 2 | .i32 => 4 | .i64 => 8 | .f32 => 4
  | .str n => n | .domain n => n

/-- Type code of DESCRIBE (R345). -/
def ObjType.code : ObjType → Nat
  | .bool => 1 | .u8 => 2 | .u16 => 3 | .u32 => 4 | .u64 => 5 | .i16 => 7 | .i32 => 8 | .i64 => 9 | .f32 => 10
  | .str _ => 11 | .domain _ => 12

/-- Access code of DESCRIBE (R345). -/
def Access.code : Access → Nat
  | .ro => 1 | .rw => 2 | .wo => 3 | .rws => 4 | .const => 5 | .w1c => 6 | .rc => 7

/-- The reset column of R14: a number, or a fused value. -/
inductive ResetVal where
  | num (v : Nat)
  | fuse
  deriving DecidableEq, Repr

/-- One row of the table. `lo` and `hi` bound what a write may carry (R346, 0x0302); `warm` marks "(warm: kept)". -/
structure ObjRow where
  base  : Nat
  count : Nat
  sub   : Nat
  nsub  : Nat
  ty    : ObjType
  acc   : Access
  reset : ResetVal
  warm  : Bool
  lo    : Nat
  hi    : Nat
  deriving DecidableEq, Repr

/-- Does the row hold this object and subindex? -/
def ObjRow.holds (r : ObjRow) (i k : Nat) : Bool :=
  r.base ≤ i && i < r.base + r.count && r.sub ≤ k && k < r.sub + r.nsub

/-- Objects of the range that starts at 0x1000. -/
def objIdentity : List ObjRow :=
  [ ⟨0x1000, 1, 0x01, 1, (.str 16), .const, .fuse, false, 0, 0⟩ -- serial number (R34)
  , ⟨0x1000, 1, 0x02, 1, (.domain 48), .const, .fuse, false, 0, 0⟩ -- identity key fingerprint (R34)
  , ⟨0x1000, 1, 0x03, 1, .u8, .const, .num 1, false, 0, 255⟩ -- contract level (R34)
  , ⟨0x1001, 1, 0x00, 1, (.str 16), .const, .fuse, false, 0, 0⟩ -- ordering code (R7)
  , ⟨0x1010, 13, 0x01, 1, (.domain 12), .const, .fuse, false, 0, 0⟩ -- origin word (R35 R36)
  , ⟨0x1020, 8, 0x01, 4, .u8, .ro, .num 0, true, 0, 255⟩ -- LPDDR5X MR5 MR6 MR7 MR8 (R37)
  ]

/-- Objects of the range that starts at 0x1100. -/
def objComm : List ObjRow :=
  [ ⟨0x1100, 1, 0x01, 1, .u8, .rws, .num 255, true, 0, 63⟩ -- SLOT (R370)
  , ⟨0x1100, 1, 0x02, 1, .u8, .rws, .num 255, true, 0, 191⟩ -- POD (R370)
  , ⟨0x1100, 1, 0x03, 1, .u16, .ro, .num 65535, true, 0, 65535⟩ -- node ID (R370)
  , ⟨0x1100, 1, 0x04, 1, .u8, .ro, .num 0, true, 0, 255⟩ -- POLARITY (R370)
  , ⟨0x1100, 1, 0x05, 1, .u8, .ro, .num 1, false, 0, 255⟩ -- rate code (R370)
  , ⟨0x1100, 1, 0x06, 1, .u8, .ro, .num 0, false, 0, 255⟩ -- chain STATE (R370)
  , ⟨0x1100, 1, 0x07, 1, .u8, .ro, .num 0, false, 0, 255⟩ -- SHORT_KIND (R370)
  , ⟨0x1100, 1, 0x08, 1, .u16, .rw, .num 30, false, 0, 65535⟩ -- SILENT (R370)
  , ⟨0x1100, 1, 0x09, 1, .bool, .ro, .num 0, false, 0, 255⟩ -- DAISY_IN level (R370)
  , ⟨0x1100, 1, 0x0A, 4, .u32, .rc, .num 0, false, 0, 4294967295⟩ -- chain counters: CRC errors, framing and gap errors, kept responses, fallback retries (R370)
  , ⟨0x1110, 1, 0x01, 1, .u8, .rw, .num 0, false, 0, 255⟩ -- management IP version (R372)
  , ⟨0x1110, 1, 0x02, 1, (.domain 16), .rw, .num 0, false, 0, 0⟩ -- management address (R372)
  , ⟨0x1110, 1, 0x03, 1, .u8, .rw, .num 0, false, 0, 255⟩ -- prefix length (R372)
  , ⟨0x1110, 1, 0x04, 1, (.domain 16), .rw, .num 0, false, 0, 0⟩ -- gateway (R372)
  , ⟨0x1110, 1, 0x05, 1, .u16, .rw, .num 48200, false, 0, 65535⟩ -- PORT (R372)
  , ⟨0x1110, 1, 0x06, 1, (.domain 16), .rw, .num 0, false, 0, 0⟩ -- NOTIFY address (R372)
  , ⟨0x1110, 1, 0x07, 1, .u16, .rw, .num 48201, false, 0, 65535⟩ -- NOTIFY port (R372)
  , ⟨0x1110, 1, 0x08, 1, (.domain 16), .rw, .num 0, false, 0, 0⟩ -- ALLOW prefix (R372)
  , ⟨0x1110, 1, 0x09, 1, .u8, .rw, .num 0, false, 0, 255⟩ -- ALLOW length (R372)
  , ⟨0x1110, 1, 0x0A, 1, .u8, .ro, .num 0, false, 0, 255⟩ -- sessions open (R372)
  , ⟨0x1110, 1, 0x0B, 1, .u32, .rc, .num 0, false, 0, 4294967295⟩ -- datagrams discarded (R372)
  , ⟨0x1111, 1, 0x00, 1, .u8, .wo, .num 0, false, 1, 1⟩ -- store network record (R414)
  , ⟨0x1140, 16, 0x01, 1, .u64, .rws, .num 0, false, 0, 18446743523953737728⟩ -- HOST_BASE (R377)
  , ⟨0x1140, 16, 0x02, 1, .bool, .rw, .num 0, false, 0, 255⟩ -- host window ENABLE (R377)
  , ⟨0x1140, 16, 0x03, 2, .u64, .ro, .num 0, false, 0, 18446744073709551615⟩ -- bytes read, bytes written through the host window (R377)
  , ⟨0x1180, 16, 0x01, 1, .u8, .wo, .num 0, false, 1, 3⟩ -- lock CONTROL (R356)
  , ⟨0x1180, 16, 0x02, 1, .u8, .ro, .num 0, false, 0, 255⟩ -- lock STATE (R356)
  , ⟨0x1180, 16, 0x03, 1, .u16, .ro, .num 0, false, 0, 65535⟩ -- lock OWNER (R356)
  , ⟨0x1180, 16, 0x04, 1, .u32, .ro, .num 0, false, 0, 4294967295⟩ -- lock EPOCH (R356)
  , ⟨0x1180, 16, 0x05, 1, .u32, .rc, .num 0, false, 0, 4294967295⟩ -- locks broken (R356)
  ]

/-- Objects of the range that starts at 0x1200. -/
def objSecurity : List ObjRow :=
  [ ⟨0x1200, 1, 0x01, 1, .u8, .ro, .num 2, false, 0, 255⟩ -- life-cycle STATE (R315 (FUSE))
  , ⟨0x1200, 1, 0x02, 1, (.domain 256), .wo, .num 0, false, 0, 0⟩ -- TOKEN (R315)
  , ⟨0x1200, 1, 0x03, 1, .u8, .wo, .num 0, false, 0, 255⟩ -- REQUEST (R315)
  , ⟨0x1200, 1, 0x04, 1, .u8, .ro, .num 0, false, 0, 255⟩ -- RESULT (R315)
  , ⟨0x1200, 1, 0x05, 1, .u8, .ro, .num 2, false, 0, 255⟩ -- intent rows burned (R315 (FUSE))
  , ⟨0x1210, 1, 0x01, 4, .u8, .ro, .num 0, false, 0, 255⟩ -- rollback counters of classes 1-4 (R318 (FUSE))
  , ⟨0x1210, 1, 0x05, 4, .u8, .ro, .num 0, false, 0, 255⟩ -- SVN of the running images (R318)
  , ⟨0x1210, 1, 0x09, 1, .u8, .ro, .num 0, false, 0, 255⟩ -- copies running (R318)
  , ⟨0x1210, 1, 0x0A, 1, .u8, .wo, .num 0, false, 0, 255⟩ -- COMMIT (R318)
  , ⟨0x1220, 1, 0x01, 6, (.domain 48), .ro, .num 0, false, 0, 0⟩ -- measurements (R319)
  , ⟨0x1220, 1, 0x10, 4, (.domain 48), .ro, .num 0, false, 0, 0⟩ -- measurements (R319)
  , ⟨0x1220, 1, 0x18, 4, (.domain 48), .ro, .num 0, false, 0, 0⟩ -- measurements (R319)
  , ⟨0x1220, 1, 0x20, 4, (.domain 48), .ro, .num 0, false, 0, 0⟩ -- measurements (R319)
  , ⟨0x1230, 4, 0x01, 1, .bool, .rws, .num 0, false, 0, 255⟩ -- SEALED (R329)
  , ⟨0x1230, 4, 0x02, 1, .u64, .rws, .num 0, false, 0, 18446744073709551615⟩ -- PKG (R329)
  , ⟨0x1230, 4, 0x03, 1, .u8, .ro, .num 0, false, 0, 255⟩ -- PKG_RESULT (R329)
  , ⟨0x1230, 4, 0x04, 1, (.domain 48), .ro, .num 0, false, 0, 0⟩ -- OWNER fingerprint (R329)
  , ⟨0x1230, 4, 0x05, 1, .u8, .ro, .num 0, false, 0, 255⟩ -- SESSION (R329)
  , ⟨0x1230, 4, 0x06, 1, .u8, .ro, .num 0, false, 0, 255⟩ -- GRANT (R329)
  , ⟨0x1230, 4, 0x07, 1, .u32, .rc, .num 0, false, 0, 4294967295⟩ -- closed accesses (R329)
  , ⟨0x1240, 1, 0x01, 1, .u8, .rw, .num 0, false, 0, 3⟩ -- package partition (R334)
  , ⟨0x1240, 1, 0x02, 1, .u64, .rw, .num 0, false, 0, 18446744073709551615⟩ -- load table address (R334)
  , ⟨0x1240, 1, 0x03, 1, .u16, .rw, .num 0, false, 0, 65535⟩ -- load table entries (R334)
  , ⟨0x1240, 1, 0x04, 1, .u8, .wo, .num 0, false, 1, 2⟩ -- package CONTROL (R334)
  , ⟨0x1240, 1, 0x05, 1, .u8, .ro, .num 0, false, 0, 255⟩ -- package RESULT (R334)
  , ⟨0x1240, 1, 0x06, 1, .u64, .ro, .num 0, false, 0, 18446744073709551615⟩ -- plaintext bytes done (R334)
  , ⟨0x1240, 1, 0x07, 1, .u64, .rw, .num 0, false, 0, 18446744073709551615⟩ -- export target address (R334)
  , ⟨0x1251, 15, 0x01, 1, .u8, .rws, .num 255, false, 0, 255⟩ -- job key slot partition (R337)
  , ⟨0x1251, 15, 0x02, 1, .u32, .rws, .num 0, false, 0, 4294967295⟩ -- job key JOB_ID (R337)
  , ⟨0x1251, 15, 0x03, 1, (.domain 48), .wo, .num 0, false, 0, 0⟩ -- job master secret (R337)
  , ⟨0x1251, 15, 0x04, 1, .u8, .wo, .num 0, false, 1, 2⟩ -- job key CONTROL (R337)
  , ⟨0x1251, 15, 0x05, 1, .u8, .ro, .num 0, false, 0, 255⟩ -- job key STATE (R337)
  , ⟨0x1260, 1, 0x01, 1, .u8, .ro, .num 0, true, 0, 255⟩ -- tamper source (R341)
  , ⟨0x1260, 1, 0x02, 1, .u32, .ro, .num 0, true, 0, 4294967295⟩ -- tamper alarms (R341)
  , ⟨0x1260, 1, 0x03, 1, .u64, .ro, .num 0, true, 0, 18446744073709551615⟩ -- tamper time (R341)
  , ⟨0x1270, 1, 0x01, 1, (.domain 4096), .rw, .num 0, false, 0, 0⟩ -- SPDM message (R321)
  , ⟨0x1270, 1, 0x02, 1, .u8, .ro, .num 0, false, 0, 255⟩ -- SPDM response pending (R321)
  , ⟨0x1270, 1, 0x03, 1, .u8, .rw, .num 0, false, 0, 255⟩ -- HeartbeatPeriod (R321)
  ]

/-- Objects of the range that starts at 0x2000. -/
def objPower : List ObjRow :=
  [ ⟨0x2000, 1, 0x01, 1, .u8, .ro, .num 1, false, 0, 255⟩ -- power STATE (R380)
  , ⟨0x2000, 1, 0x02, 1, .u8, .wo, .num 0, false, 0, 2⟩ -- TARGET (R380)
  , ⟨0x2000, 1, 0x03, 1, .u32, .rw, .num 0, true, 0, 4294967295⟩ -- HUSH wake timer (R380)
  , ⟨0x2000, 1, 0x04, 1, .u8, .ro, .num 0, false, 0, 255⟩ -- wake cause (R380)
  , ⟨0x2000, 1, 0x05, 1, .u8, .ro, .num 0, false, 0, 255⟩ -- transition in progress (R380)
  , ⟨0x2010, 1, 0x01, 1, .u16, .rw, .num 420, false, 150, 420⟩ -- POWER_LIMIT (R393)
  , ⟨0x2010, 1, 0x02, 1, .u16, .ro, .num 420, false, 0, 65535⟩ -- effective limit (R393)
  , ⟨0x2010, 1, 0x03, 1, .u8, .ro, .num 0, false, 0, 255⟩ -- active caps (R393)
  , ⟨0x2010, 1, 0x04, 1, .u16, .ro, .num 800, false, 0, 65535⟩ -- VCORE_REQ (R393)
  , ⟨0x2010, 1, 0x05, 1, .u16, .ro, .num 0, false, 0, 65535⟩ -- VDD_CORE measured (R393)
  , ⟨0x2010, 1, 0x06, 1, .u32, .rc, .num 0, false, 0, 4294967295⟩ -- periods with D below 16 (R393)
  , ⟨0x2010, 1, 0x07, 1, .u32, .rw, .num 1000, false, 10, 1000000⟩ -- PLL_HOLD (R393)
  , ⟨0x2011, 4, 0x01, 1, .u8, .rw, .num 2, false, 0, 2⟩ -- requested point (R393)
  , ⟨0x2011, 4, 0x02, 1, .u8, .ro, .num 2, false, 0, 255⟩ -- point in force (R393)
  , ⟨0x2011, 4, 0x03, 1, .u8, .ro, .num 16, false, 0, 255⟩ -- duty D (R393)
  , ⟨0x2011, 4, 0x04, 1, .u32, .rc, .num 0, false, 0, 4294967295⟩ -- step boundaries held by R387 (R393)
  , ⟨0x2020, 1, 0x01, 2, .u16, .ro, .num 0, false, 0, 65535⟩ -- fan speeds (R393)
  , ⟨0x2020, 1, 0x03, 2, .u8, .ro, .num 30, false, 0, 255⟩ -- fan duties (R393)
  , ⟨0x2020, 1, 0x05, 1, .u8, .rw, .num 30, false, 30, 100⟩ -- FAN_MIN (R393)
  , ⟨0x2020, 1, 0x06, 1, .u8, .ro, .num 0, false, 0, 255⟩ -- failed fan groups (R393)
  ]

/-- Objects of the range that starts at 0x2100. -/
def objBreath : List ObjRow :=
  [ ⟨0x2100, 1, 0x01, 1, .u32, .const, .num 0x186A0, false, 0, 4294967295⟩ -- breath period in ns (R398)
  , ⟨0x2100, 1, 0x02, 1, .u16, .ro, .num 1, false, 0, 65535⟩ -- SHARE total, bank cycles (R398)
  , ⟨0x2100, 1, 0x03, 1, .u16, .ro, .num 145, false, 0, 65535⟩ -- SHARE total, bulk (R398)
  , ⟨0x2100, 1, 0x04, 1, .u16, .ro, .num 58, false, 0, 65535⟩ -- SHARE total, service-processor time (R398)
  , ⟨0x2101, 1, 0x01, 1, .u8, .const, .num 0, false, 0, 255⟩ -- activity resource (R398 R395)
  , ⟨0x2101, 1, 0x02, 1, .bool, .ro, .num 0, false, 0, 255⟩ -- activity suspended (R398)
  , ⟨0x2101, 1, 0x03, 1, .u8, .rw, .num 1, false, 0, 64⟩ -- SHARE (R395)
  , ⟨0x2101, 1, 0x04, 1, .u32, .ro, .num 0, false, 0, 4294967295⟩ -- consumed last period (R398)
  , ⟨0x2101, 1, 0x05, 1, .u32, .rc, .num 0, false, 0, 4294967295⟩ -- periods exhausted (R398)
  , ⟨0x2101, 1, 0x06, 1, .u32, .ro, .num 0, false, 0, 4294967295⟩ -- debt (R398 R397)
  , ⟨0x2101, 1, 0x07, 1, .u16, .rw, .num 64, false, 0, 4096⟩ -- DEBT_MAX (R398)
  , ⟨0x2102, 1, 0x01, 1, .u8, .const, .num 1, false, 0, 255⟩ -- activity resource (R398 R395)
  , ⟨0x2102, 1, 0x02, 1, .bool, .ro, .num 0, false, 0, 255⟩ -- activity suspended (R398)
  , ⟨0x2102, 1, 0x03, 1, .u8, .rw, .num 1, false, 0, 64⟩ -- SHARE (R395)
  , ⟨0x2102, 1, 0x04, 1, .u32, .ro, .num 0, false, 0, 4294967295⟩ -- consumed last period (R398)
  , ⟨0x2102, 1, 0x05, 1, .u32, .rc, .num 0, false, 0, 4294967295⟩ -- periods exhausted (R398)
  , ⟨0x2102, 1, 0x06, 1, .u32, .ro, .num 0, false, 0, 4294967295⟩ -- debt (R398 R397)
  , ⟨0x2102, 1, 0x07, 1, .u16, .rw, .num 64, false, 0, 4096⟩ -- DEBT_MAX (R398)
  , ⟨0x2103, 1, 0x01, 1, .u8, .const, .num 1, false, 0, 255⟩ -- activity resource (R398 R395)
  , ⟨0x2103, 1, 0x02, 1, .bool, .ro, .num 0, false, 0, 255⟩ -- activity suspended (R398)
  , ⟨0x2103, 1, 0x03, 1, .u8, .rw, .num 128, false, 1, 192⟩ -- SHARE (R395)
  , ⟨0x2103, 1, 0x04, 1, .u32, .ro, .num 0, false, 0, 4294967295⟩ -- consumed last period (R398)
  , ⟨0x2103, 1, 0x05, 1, .u32, .rc, .num 0, false, 0, 4294967295⟩ -- periods exhausted (R398)
  , ⟨0x2103, 1, 0x06, 1, .u32, .ro, .num 0, false, 0, 4294967295⟩ -- debt (R398 R397)
  , ⟨0x2103, 1, 0x07, 1, .u16, .rw, .num 64, false, 0, 4096⟩ -- DEBT_MAX (R398)
  , ⟨0x2104, 1, 0x01, 1, .u8, .const, .num 2, false, 0, 255⟩ -- activity resource (R398 R395)
  , ⟨0x2104, 1, 0x02, 1, .bool, .ro, .num 0, false, 0, 255⟩ -- activity suspended (R398)
  , ⟨0x2104, 1, 0x03, 1, .u8, .rw, .num 16, false, 1, 128⟩ -- SHARE (R395)
  , ⟨0x2104, 1, 0x04, 1, .u32, .ro, .num 0, false, 0, 4294967295⟩ -- consumed last period (R398)
  , ⟨0x2104, 1, 0x05, 1, .u32, .rc, .num 0, false, 0, 4294967295⟩ -- periods exhausted (R398)
  , ⟨0x2104, 1, 0x06, 1, .u32, .ro, .num 0, false, 0, 4294967295⟩ -- debt (R398 R397)
  , ⟨0x2104, 1, 0x07, 1, .u16, .rw, .num 64, false, 0, 4096⟩ -- DEBT_MAX (R398)
  , ⟨0x2105, 1, 0x01, 1, .u8, .const, .num 3, false, 0, 255⟩ -- activity resource (R398 R395)
  , ⟨0x2105, 1, 0x02, 1, .bool, .ro, .num 0, false, 0, 255⟩ -- activity suspended (R398)
  , ⟨0x2105, 1, 0x03, 1, .u8, .rw, .num 32, false, 8, 128⟩ -- SHARE (R395)
  , ⟨0x2105, 1, 0x04, 1, .u32, .ro, .num 0, false, 0, 4294967295⟩ -- consumed last period (R398)
  , ⟨0x2105, 1, 0x05, 1, .u32, .rc, .num 0, false, 0, 4294967295⟩ -- periods exhausted (R398)
  , ⟨0x2105, 1, 0x06, 1, .u32, .ro, .num 0, false, 0, 4294967295⟩ -- debt (R398 R397)
  , ⟨0x2105, 1, 0x07, 1, .u16, .rw, .num 64, false, 0, 4096⟩ -- DEBT_MAX (R398)
  , ⟨0x2106, 1, 0x01, 1, .u8, .const, .num 3, false, 0, 255⟩ -- activity resource (R398 R395)
  , ⟨0x2106, 1, 0x02, 1, .bool, .ro, .num 0, false, 0, 255⟩ -- activity suspended (R398)
  , ⟨0x2106, 1, 0x03, 1, .u8, .rw, .num 2, false, 1, 32⟩ -- SHARE (R395)
  , ⟨0x2106, 1, 0x04, 1, .u32, .ro, .num 0, false, 0, 4294967295⟩ -- consumed last period (R398)
  , ⟨0x2106, 1, 0x05, 1, .u32, .rc, .num 0, false, 0, 4294967295⟩ -- periods exhausted (R398)
  , ⟨0x2106, 1, 0x06, 1, .u32, .ro, .num 0, false, 0, 4294967295⟩ -- debt (R398 R397)
  , ⟨0x2106, 1, 0x07, 1, .u16, .rw, .num 64, false, 0, 4096⟩ -- DEBT_MAX (R398)
  , ⟨0x2107, 1, 0x01, 1, .u8, .const, .num 3, false, 0, 255⟩ -- activity resource (R398 R395)
  , ⟨0x2107, 1, 0x02, 1, .bool, .ro, .num 0, false, 0, 255⟩ -- activity suspended (R398)
  , ⟨0x2107, 1, 0x03, 1, .u8, .rw, .num 8, false, 1, 64⟩ -- SHARE (R395)
  , ⟨0x2107, 1, 0x04, 1, .u32, .ro, .num 0, false, 0, 4294967295⟩ -- consumed last period (R398)
  , ⟨0x2107, 1, 0x05, 1, .u32, .rc, .num 0, false, 0, 4294967295⟩ -- periods exhausted (R398)
  , ⟨0x2107, 1, 0x06, 1, .u32, .ro, .num 0, false, 0, 4294967295⟩ -- debt (R398 R397)
  , ⟨0x2107, 1, 0x07, 1, .u16, .rw, .num 64, false, 0, 4096⟩ -- DEBT_MAX (R398)
  , ⟨0x2108, 1, 0x01, 1, .u8, .const, .num 3, false, 0, 255⟩ -- activity resource (R398 R395)
  , ⟨0x2108, 1, 0x02, 1, .bool, .ro, .num 0, false, 0, 255⟩ -- activity suspended (R398)
  , ⟨0x2108, 1, 0x03, 1, .u8, .rw, .num 16, false, 1, 64⟩ -- SHARE (R395)
  , ⟨0x2108, 1, 0x04, 1, .u32, .ro, .num 0, false, 0, 4294967295⟩ -- consumed last period (R398)
  , ⟨0x2108, 1, 0x05, 1, .u32, .rc, .num 0, false, 0, 4294967295⟩ -- periods exhausted (R398)
  , ⟨0x2108, 1, 0x06, 1, .u32, .ro, .num 0, false, 0, 4294967295⟩ -- debt (R398 R397)
  , ⟨0x2108, 1, 0x07, 1, .u16, .rw, .num 64, false, 0, 4096⟩ -- DEBT_MAX (R398)
  ]

/-- Objects of the range that starts at 0x2200. -/
def objTelemetry : List ObjRow :=
  [ ⟨0x2200, 1, 0x01, 1, (.domain 528), .ro, .num 0, false, 0, 0⟩ -- live calibration record (R403)
  , ⟨0x2200, 1, 0x02, 1, (.domain 528), .rw, .num 0, false, 0, 0⟩ -- staging calibration record (R403)
  , ⟨0x2200, 1, 0x03, 1, .u8, .wo, .num 0, false, 1, 1⟩ -- calibration CONTROL (R403)
  , ⟨0x2200, 1, 0x04, 1, .u8, .ro, .num 0, false, 0, 255⟩ -- calibration ORIGIN (R403)
  , ⟨0x2200, 1, 0x05, 1, .u8, .ro, .num 0, false, 0, 255⟩ -- calibration RESULT (R403)
  , ⟨0x2200, 1, 0x06, 1, (.domain 528), .ro, .num 0, false, 0, 0⟩ -- calibration EXPORT (R403)
  , ⟨0x2300, 1, 0x01, 24, .i16, .ro, .num 0, false, 0, 65535⟩ -- temperatures T0-T23 (R404)
  , ⟨0x2301, 1, 0x01, 15, .u16, .ro, .num 0, false, 0, 65535⟩ -- monitors 0-14 (R404)
  , ⟨0x2302, 1, 0x01, 11, .u16, .ro, .num 0, false, 0, 65535⟩ -- package, quadrant and rail power (R404)
  , ⟨0x2302, 1, 0x0C, 1, .u64, .ro, .num 0, false, 0, 18446744073709551615⟩ -- energy (R404)
  , ⟨0x2303, 1, 0x01, 1, .i16, .ro, .num 0, false, 0, 65535⟩ -- inlet estimate (R404)
  , ⟨0x2400, 2, 0x01, 1, .u32, .ro, .num 0, false, 0, 4294967295⟩ -- SEQ of the next record (R424)
  , ⟨0x2400, 2, 0x02, 1, .u32, .ro, .num 0, false, 0, 4294967295⟩ -- records held (R424)
  , ⟨0x2400, 2, 0x03, 1, .u32, .rw, .num 0, false, 0, 16777215⟩ -- CURSOR (R424)
  , ⟨0x2400, 2, 0x04, 1, (.domain 1024), .ro, .num 0, false, 0, 0⟩ -- log records (R424)
  , ⟨0x2400, 2, 0x05, 1, .u32, .rc, .num 0, false, 0, 4294967295⟩ -- records dropped (R424)
  ]

/-- Objects of the range that starts at 0x3000. -/
def objCores : List ObjRow :=
  [ ⟨0x3000, 1, 0x01, 1, .u8, .const, .num 1, false, 0, 255⟩ -- contract level (R169)
  , ⟨0x3000, 1, 0x02, 1, .u32, .const, .num 255, false, 0, 4294967295⟩ -- capability bits (R169)
  , ⟨0x3000, 1, 0x03, 1, .u16, .const, .num 16, false, 0, 65535⟩ -- cores (R169)
  , ⟨0x3000, 1, 0x04, 1, .u16, .const, .num 256, false, 0, 65535⟩ -- slots per core (R169)
  , ⟨0x3000, 1, 0x05, 1, .u16, .const, .num 4096, false, 0, 65535⟩ -- sync objects (R169)
  , ⟨0x3000, 1, 0x06, 1, .u8, .const, .num 4, false, 0, 255⟩ -- partitions (R169)
  , ⟨0x3000, 1, 0x07, 1, .u32, .const, .num 0x40000, false, 0, 4294967295⟩ -- commands per queue (R169)
  , ⟨0x3010, 16, 0x01, 1, .u8, .ro, .num 3, false, 0, 255⟩ -- core state (R212)
  , ⟨0x3010, 16, 0x02, 1, .u8, .ro, .num 255, false, 0, 255⟩ -- core partition (R212)
  , ⟨0x3010, 16, 0x03, 1, .u8, .ro, .num 255, false, 0, 255⟩ -- takeover core (R212)
  , ⟨0x3010, 16, 0x04, 1, .u8, .ro, .num 0, false, 0, 255⟩ -- latest fault code (R212)
  , ⟨0x3010, 16, 0x05, 1, .u64, .ro, .num 0, false, 0, 18446744073709551615⟩ -- NaN elements drained (R212 R59)
  , ⟨0x3010, 16, 0x06, 1, .u64, .ro, .num 0, false, 0, 18446744073709551615⟩ -- saturated elements drained (R212 R59)
  , ⟨0x3010, 16, 0x07, 1, .u64, .ro, .num 0, false, 0, 18446744073709551615⟩ -- commands issued (R212)
  , ⟨0x3010, 16, 0x08, 1, .u32, .rc, .num 0, false, 0, 4294967295⟩ -- clock-gated waits (R212)
  , ⟨0x3010, 16, 0x09, 1, .bool, .rws, .num 0, false, 0, 255⟩ -- RETURN (R212)
  , ⟨0x3040, 16, 0x01, 2, .u64, .ro, .num 0, false, 0, 18446744073709551615⟩ -- broadcast cycles, MACs (R89)
  , ⟨0x3040, 16, 0x03, 4, .u32, .rc, .num 0, false, 0, 4294967295⟩ -- feed conflicts, accumulator waits, panel waits, drain deferrals (R89)
  , ⟨0x3050, 4, 0x01, 1, .u8, .rws, .num 0, false, 0, 1⟩ -- random MODE (R104)
  , ⟨0x3050, 4, 0x02, 1, .u64, .wo, .num 0, false, 0, 18446744073709551615⟩ -- SEED (R104)
  , ⟨0x3060, 16, 0x01, 1, .u64, .ro, .num 0, false, 0, 18446744073709551615⟩ -- vector instructions issued (R98)
  , ⟨0x3060, 16, 0x02, 3, .u32, .rc, .num 0, false, 0, 4294967295⟩ -- port waits, generator waits, list entries out of range (R98)
  , ⟨0x3100, 4, 0x01, 1, .u8, .rws, .num 0, false, 0, 15⟩ -- QMASK (R164)
  , ⟨0x3100, 4, 0x02, 1, .u8, .ro, .num 0, false, 0, 255⟩ -- partition STATE (R164)
  , ⟨0x3100, 4, 0x03, 1, .u64, .rws, .num 0, false, 0, 18446744073709551615⟩ -- IMAGE (R164)
  , ⟨0x3100, 4, 0x04, 1, .u8, .wo, .num 0, false, 0, 255⟩ -- partition CONTROL (R164)
  , ⟨0x3100, 4, 0x05, 1, .u8, .ro, .num 0, false, 0, 255⟩ -- LOAD_RESULT (R164)
  , ⟨0x3100, 4, 0x06, 1, .u32, .ro, .num 0, false, 0, 4294967295⟩ -- STEP (R164)
  , ⟨0x3100, 4, 0x07, 1, .u8, .ro, .num 0, false, 0, 255⟩ -- PHASE (R164)
  , ⟨0x3100, 4, 0x08, 1, .u32, .rws, .num 0, false, 0, 4294967295⟩ -- FIRST_STEP (R164)
  , ⟨0x3100, 4, 0x09, 1, .u32, .rw, .num 0, false, 0, 4294967295⟩ -- STEPS_TO_RUN (R164)
  , ⟨0x3100, 4, 0x0A, 1, .u32, .rw, .num 10000, false, 0, 4294967295⟩ -- STEP_TIMEOUT (R164)
  , ⟨0x3100, 4, 0x0B, 2, .u32, .rc, .num 0, false, 0, 4294967295⟩ -- blocked accesses, re-runs started (R164)
  , ⟨0x3100, 4, 0x0D, 2, .u16, .ro, .num 0, false, 0, 65535⟩ -- LIVE, HELD_CAUSE (R164)
  ]

/-- Objects of the range that starts at 0x3400. -/
def objMemory : List ObjRow :=
  [ ⟨0x3400, 16, 0x01, 2, .u64, .ro, .num 0, false, 0, 18446744073709551615⟩ -- mover words written, read (R129)
  , ⟨0x3400, 16, 0x03, 2, .u32, .rc, .num 0, false, 0, 4294967295⟩ -- mover bank waits, writes moved to the holding buffer (R129)
  , ⟨0x3400, 16, 0x05, 1, .u16, .ro, .num 0, false, 0, 65535⟩ -- words held (R129)
  , ⟨0x3400, 16, 0x06, 1, .u16, .rc, .num 0, false, 0, 65535⟩ -- largest holding occupancy (R129)
  , ⟨0x3400, 16, 0x07, 3, .u32, .rc, .num 0, false, 0, 4294967295⟩ -- holding-full cycles, words corrected, words uncorrectable (R129)
  , ⟨0x3410, 1, 0x01, 1, .u8, .rws, .num 16, false, 4, 128⟩ -- W, wide slabs (R141)
  , ⟨0x3410, 1, 0x02, 1, .u8, .ro, .num 28, false, 0, 255⟩ -- A, affine slabs per quadrant (R141)
  , ⟨0x3420, 64, 0x01, 3, .u16, .rws, .num 0, false, 0, 65535⟩ -- region BASE, SIZE, ATTR (R142)
  , ⟨0x3420, 64, 0x04, 1, .u8, .rws, .num 255, false, 0, 255⟩ -- region OWNER (R142)
  , ⟨0x3420, 64, 0x05, 2, .u8, .ro, .num 0, false, 0, 255⟩ -- region LIVE, state (R142)
  , ⟨0x3460, 1, 0x01, 16, .u16, .ro, .num 0, false, 0, 65535⟩ -- zeroing fronts M0-M15 (R157)
  , ⟨0x3460, 1, 0x11, 1, .bool, .ro, .num 0, false, 0, 255⟩ -- all channels complete (R157)
  , ⟨0x3470, 16, 0x01, 2, .u64, .ro, .num 0, false, 0, 18446744073709551615⟩ -- bytes read, written (R160)
  , ⟨0x3470, 16, 0x03, 3, .u32, .rc, .num 0, false, 0, 4294967295⟩ -- link errors corrected, re-reads, uncorrectable reads (R160)
  , ⟨0x3470, 16, 0x06, 1, .u32, .ro, .num 0, true, 0, 4294967295⟩ -- patrol passes (R160)
  , ⟨0x3470, 16, 0x07, 1, .u64, .ro, .num 0, false, 0, 18446744073709551615⟩ -- latest uncorrectable address (R160)
  , ⟨0x3480, 4, 0x01, 5, .u64, .rc, .num 0, false, 0, 18446744073709551615⟩ -- LATE_TILE, LATE_PREFETCH, SPILL_FULL, UPDATE_WAIT, ZERO_FRONT (R154)
  , ⟨0x3480, 4, 0x06, 2, .u32, .rc, .num 0, false, 0, 4294967295⟩ -- REREAD, BULK_UE (R154)
  , ⟨0x3490, 4, 0x01, 1, .bool, .rw, .num 1, false, 0, 255⟩ -- retention enable (R132)
  , ⟨0x3490, 4, 0x02, 1, .u32, .rw, .num 1000, false, 100, 10000000⟩ -- retention delay (R132)
  , ⟨0x3490, 4, 0x03, 1, .u8, .ro, .num 0, false, 0, 255⟩ -- retention state (R132)
  , ⟨0x3490, 4, 0x04, 1, .u32, .rc, .num 0, false, 0, 4294967295⟩ -- wakes from RETAINED (R132)
  , ⟨0x34A0, 1, 0x01, 16, .u32, .ro, .num 0, true, 0, 4294967295⟩ -- vault wipes per core (R135)
  , ⟨0x34A0, 1, 0x11, 1, .u8, .ro, .num 0, true, 0, 255⟩ -- latest wipe trigger (R135)
  ]

/-- Objects of the range that starts at 0x3500. -/
def objTraining : List ObjRow :=
  [ ⟨0x3500, 1, 0x01, 1, .u32, .rws, .num 0, false, 0, 4294967295⟩ -- JOB_ID (R234)
  , ⟨0x3500, 1, 0x02, 1, .u8, .rws, .num 0, false, 0, 3⟩ -- ROLE (R234)
  , ⟨0x3500, 1, 0x03, 1, .u16, .rws, .num 0, false, 0, 65535⟩ -- LEAD (R234)
  , ⟨0x3500, 1, 0x04, 1, .u16, .rws, .num 0, false, 0, 65535⟩ -- RANK (R234)
  , ⟨0x3500, 1, 0x05, 1, .u16, .rws, .num 1, false, 1, 12288⟩ -- NREP (R234)
  , ⟨0x3500, 1, 0x06, 1, .u64, .rws, .num 0, false, 0, 18446744073709551615⟩ -- MEMBERS (R234)
  , ⟨0x3500, 1, 0x07, 1, .u64, .rws, .num 0, false, 0, 18446744073709551615⟩ -- SPARES (R234)
  , ⟨0x3500, 1, 0x08, 1, .u16, .rws, .num 0, false, 0, 64⟩ -- NSPARE (R234)
  , ⟨0x3500, 1, 0x09, 1, .u16, .rws, .num 1, false, 1, 12287⟩ -- BUDDY_OFS (R234)
  , ⟨0x3500, 1, 0x0A, 1, .u64, .rws, .num 0, false, 0, 18446744073709551615⟩ -- UPDATE_LIST (R234)
  , ⟨0x3500, 1, 0x0B, 1, .u32, .rws, .num 0, false, 0, 4294967295⟩ -- update list entries (R234)
  , ⟨0x3500, 1, 0x0C, 1, .u64, .rws, .num 0, false, 0, 18446744073709551615⟩ -- PHASE_MAPS (R234)
  , ⟨0x3500, 1, 0x0D, 1, .u32, .rws, .num 0, false, 0, 4294967295⟩ -- CKPT_INTERVAL (R234)
  , ⟨0x3500, 1, 0x0E, 1, .u32, .rws, .num 0, false, 0, 4294967295⟩ -- DIGEST_INTERVAL (R234)
  , ⟨0x3500, 1, 0x0F, 1, .u16, .rws, .num 10, false, 1, 1000⟩ -- HB_PERIOD (R234)
  , ⟨0x3500, 1, 0x10, 1, .u8, .rws, .num 0, false, 0, 3⟩ -- job partition (R234)
  , ⟨0x3500, 1, 0x11, 1, .u16, .rws, .num 65535, false, 0, 65535⟩ -- HOME (R234)
  , ⟨0x3500, 1, 0x12, 1, .u8, .rws, .num 255, false, 0, 255⟩ -- WARD (R234)
  , ⟨0x3500, 1, 0x13, 1, .u8, .ro, .num 0, false, 0, 255⟩ -- JSTATE (R234)
  , ⟨0x3500, 1, 0x14, 1, .u32, .ro, .num 0, false, 0, 4294967295⟩ -- CKPT_STEP (R234)
  , ⟨0x3500, 1, 0x15, 1, .u64, .rws, .num 0, false, 0, 18446744073709551615⟩ -- KEEP (R234)
  , ⟨0x3500, 1, 0x16, 1, .u8, .rws, .num 0, false, 0, 1⟩ -- deputy order (R234)
  , ⟨0x3500, 1, 0x17, 2, .u64, .rc, .num 0, false, 0, 18446744073709551615⟩ -- non-finite gradients, keep-pool tiles (R234)
  , ⟨0x3510, 16, 0x01, 1, .u8, .rws, .num 0, false, 0, 3⟩ -- KIND (R219)
  , ⟨0x3510, 16, 0x02, 1, .f32, .rws, .num 0, false, 0, 4294967295⟩ -- LR (R219)
  , ⟨0x3510, 16, 0x03, 1, .f32, .rws, .num 0x3F666666, false, 0, 4294967295⟩ -- B1 (R219)
  , ⟨0x3510, 16, 0x04, 1, .f32, .rws, .num 0x3DCCCCCD, false, 0, 4294967295⟩ -- B1C (R219)
  , ⟨0x3510, 16, 0x05, 1, .f32, .rws, .num 0x3F7FBE77, false, 0, 4294967295⟩ -- B2 (R219)
  , ⟨0x3510, 16, 0x06, 1, .f32, .rws, .num 0x3A83126F, false, 0, 4294967295⟩ -- B2C (R219)
  , ⟨0x3510, 16, 0x07, 1, .f32, .rws, .num 0x322BCC77, false, 0, 4294967295⟩ -- EPS (R219)
  , ⟨0x3510, 16, 0x08, 1, .f32, .rws, .num 0, false, 0, 4294967295⟩ -- WD (R219)
  , ⟨0x3510, 16, 0x09, 1, .f32, .rws, .num 0x3F800000, false, 0, 4294967295⟩ -- GSCALE (R219)
  , ⟨0x3510, 16, 0x0A, 1, .u32, .rws, .num 0, false, 0, 4294967295⟩ -- T0 (R219)
  , ⟨0x3510, 16, 0x0B, 1, .u64, .rws, .num 0, false, 0, 18446744073709551615⟩ -- microcode address (R219)
  , ⟨0x3510, 16, 0x0C, 1, .u8, .rws, .num 0, false, 1, 64⟩ -- microcode length (R219)
  , ⟨0x3510, 16, 0x0D, 3, .f32, .rws, .num 0, false, 0, 4294967295⟩ -- U0, U1, U2 (R219)
  , ⟨0x3520, 1, 0x01, 2, .u32, .ro, .num 0, false, 0, 4294967295⟩ -- steps of home slots 0, 1 (R242)
  , ⟨0x3520, 1, 0x03, 1, .u8, .ro, .num 0, false, 0, 255⟩ -- home slot states (R242)
  , ⟨0x3520, 1, 0x04, 1, .u32, .ro, .num 0, false, 0, 4294967295⟩ -- checkpoint 64 KiB units streamed (R242)
  , ⟨0x3520, 1, 0x05, 2, .u32, .rc, .num 0, false, 0, 4294967295⟩ -- restreams, deferred captures (R242)
  ]

/-- Objects of the range that starts at 0x4000. -/
def objPorts : List ObjRow :=
  [ ⟨0x4000, 8, 0x01, 1, .u8, .rws, .num 1, false, 0, 3⟩ -- port MODE (R264)
  , ⟨0x4000, 8, 0x02, 1, .bool, .rw, .num 1, false, 0, 255⟩ -- port ENABLE (R264)
  , ⟨0x4000, 8, 0x03, 1, .u16, .rw, .num 9216, false, 1518, 9600⟩ -- MAXFRAME (R264)
  , ⟨0x4000, 8, 0x04, 1, .bool, .rw, .num 0, false, 0, 255⟩ -- DELIVER_BAD (R264)
  , ⟨0x4000, 8, 0x05, 1, .u8, .rw, .num 255, false, 0, 255⟩ -- DIAG_CTX (R264)
  , ⟨0x4000, 8, 0x06, 1, .u8, .rws, .num 0, false, 0, 1⟩ -- RX_MAP (R264)
  , ⟨0x4000, 8, 0x07, 1, .u8, .ro, .num 0, false, 0, 255⟩ -- FIBRE (R264)
  , ⟨0x4000, 8, 0x08, 2, .u32, .rw, .num 0, false, 0, 4294967295⟩ -- gate BASE_TIME low, high (R264)
  , ⟨0x4000, 8, 0x0A, 1, .u32, .rw, .num 0xF4240, false, 0, 4294967295⟩ -- CYCLE_TIME (R264)
  , ⟨0x4000, 8, 0x0B, 1, .u16, .rw, .num 0, false, 0, 256⟩ -- gate LENGTH (R264)
  , ⟨0x4000, 8, 0x0C, 1, (.domain 2048), .rw, .num 0, false, 0, 0⟩ -- administrative gate list (R264)
  , ⟨0x4000, 8, 0x0D, 1, .u64, .rw, .num 0, false, 0, 18446744073709551615⟩ -- CONFIG_TIME (R264)
  , ⟨0x4000, 8, 0x0E, 1, (.domain 2048), .ro, .num 0, false, 0, 0⟩ -- operating gate list (R264)
  , ⟨0x4000, 8, 0x0F, 1, (.domain 16), .rw, .num 0, false, 0, 0⟩ -- XOFF and XON (R264)
  , ⟨0x4000, 8, 0x10, 1, .u32, .rc, .num 0, false, 0, 4294967295⟩ -- link-start restarts (R264)
  , ⟨0x4020, 32, 0x01, 1, .u8, .ro, .num 0, false, 0, 255⟩ -- lane state (R265)
  , ⟨0x4020, 32, 0x02, 1, .bool, .rw, .num 1, false, 0, 255⟩ -- SERVICE (R265)
  , ⟨0x4020, 32, 0x03, 2, .i16, .ro, .num 0, false, 0, 65535⟩ -- received power, monitor power (R265)
  , ⟨0x4020, 32, 0x05, 1, .u64, .ro, .num 0, false, 0, 18446744073709551615⟩ -- codewords corrected (R265)
  , ⟨0x4020, 32, 0x06, 1, .u32, .rc, .num 0, false, 0, 4294967295⟩ -- codewords uncorrectable (R265)
  , ⟨0x4020, 32, 0x07, 1, .u8, .ro, .num 0, false, 0, 255⟩ -- physical receive lane (R265)
  , ⟨0x4040, 32, 0x01, 1, (.domain 6), .rw, .num 0, false, 0, 281474976710655⟩ -- MAC address (R266)
  , ⟨0x4040, 32, 0x02, 1, .u8, .rw, .num 0, false, 0, 2⟩ -- TXTAG (R266)
  , ⟨0x4040, 32, 0x03, 2, .u16, .rw, .num 0, false, 1, 4094⟩ -- CVID, SVID (R266)
  , ⟨0x4040, 32, 0x05, 1, .u8, .rw, .num 0, false, 0, 2⟩ -- FLOW (R266)
  , ⟨0x4040, 32, 0x06, 1, .u8, .rw, .num 255, false, 0, 255⟩ -- PFC class mask (R266)
  , ⟨0x4040, 32, 0x07, 1, .u8, .rw, .num 255, false, 0, 255⟩ -- AGG (R266)
  , ⟨0x4040, 32, 0x08, 2, .u8, .ro, .num 0, false, 0, 255⟩ -- link state, PEER (R266)
  , ⟨0x4060, 32, 0x01, 4, .u64, .ro, .num 0, false, 0, 18446744073709551615⟩ -- frames and bytes sent, frames and bytes received (R266)
  , ⟨0x4060, 32, 0x05, 6, .u32, .rc, .num 0, false, 0, 4294967295⟩ -- FCS errors, runts, oversize, symbol errors, UNMATCHED, GATE_OVERRUN (R266)
  , ⟨0x4060, 32, 0x0B, 10, .u64, .ro, .num 0, false, 0, 18446744073709551615⟩ -- pause frames received, ignored, quanta obeyed per class (R266)
  , ⟨0x40A0, 1, 0x01, 1, .u64, .ro, .num 0, false, 0, 18446744073709551615⟩ -- device clock in ns (R262)
  , ⟨0x40A0, 1, 0x02, 1, .i32, .rw, .num 0, false, 0, 4294967295⟩ -- frequency adjustment (R262)
  , ⟨0x40A0, 1, 0x03, 1, .i64, .wo, .num 0, false, 0, 18446744073709551615⟩ -- clock Step (R262)
  , ⟨0x40A0, 1, 0x04, 1, .u8, .rw, .num 255, false, 0, 255⟩ -- IEEE 1588 link (R262)
  , ⟨0x40A0, 1, 0x05, 1, .u8, .ro, .num 0, false, 0, 255⟩ -- sync state (R262)
  ]

/-- Objects of the range that starts at 0x4100. -/
def objStreams : List ObjRow :=
  [ ⟨0x4100, 48, 0x01, 1, .bool, .rw, .num 0, false, 0, 255⟩ -- stream ENABLE (R276)
  , ⟨0x4100, 48, 0x02, 1, .u8, .rws, .num 0, false, 0, 1⟩ -- stream KIND (R276)
  , ⟨0x4100, 48, 0x03, 1, .u8, .rws, .num 0, false, 0, 255⟩ -- PORTS (R276)
  , ⟨0x4100, 48, 0x04, 1, .u16, .rws, .num 65535, false, 0, 65535⟩ -- VID (R276)
  , ⟨0x4100, 48, 0x05, 1, .u16, .rws, .num 0, false, 0, 65535⟩ -- UDP port (R276)
  , ⟨0x4100, 48, 0x06, 1, .u32, .rws, .num 0, false, 0, 4294967295⟩ -- SSRC (R276)
  , ⟨0x4100, 48, 0x07, 1, .u8, .rws, .num 0, false, 0, 255⟩ -- SSRC_CHK (R276)
  , ⟨0x4100, 48, 0x08, 1, (.domain 6), .rws, .num 0, false, 0, 281474976710655⟩ -- multicast MAC (R276)
  , ⟨0x4100, 48, 0x09, 1, .u8, .rws, .num 0, false, 0, 4⟩ -- SAMPLING (R276)
  , ⟨0x4100, 48, 0x0A, 2, .u16, .rws, .num 0, false, 1, 16384⟩ -- W, H (R276)
  , ⟨0x4100, 48, 0x0C, 1, .u8, .rws, .num 0, false, 0, 1⟩ -- OUT (R276)
  , ⟨0x4100, 48, 0x0D, 1, .u8, .rws, .num 0, false, 0, 63⟩ -- capture region (R276)
  , ⟨0x4100, 48, 0x0E, 1, .u16, .rws, .num 0, false, 0, 65535⟩ -- SLOTS (R276)
  , ⟨0x4100, 48, 0x0F, 1, .u8, .rws, .num 0, false, 0, 16⟩ -- FREEZE (R276)
  , ⟨0x4100, 48, 0x10, 1, .u16, .rws, .num 100, false, 1, 10000⟩ -- FRAME_TIMEOUT (R276)
  , ⟨0x4100, 48, 0x11, 1, .u64, .ro, .num 0, false, 0, 18446744073709551615⟩ -- frames closed (R276)
  , ⟨0x4100, 48, 0x12, 4, .u32, .rc, .num 0, false, 0, 4294967295⟩ -- bad frames, packets lost, LATE, OVER_RATE (R276)
  ]

/-- Objects of the range that starts at 0x4200. -/
def objBoreT : List ObjRow :=
  [ ⟨0x4200, 1, 0x01, 1, .u16, .ro, .num 0, false, 0, 65535⟩ -- NODE (R305)
  , ⟨0x4200, 1, 0x02, 1, .u8, .rws, .num 4, false, 0, 255⟩ -- Bore IP version (R305)
  , ⟨0x4200, 1, 0x03, 1, (.domain 16), .rws, .num 0, false, 0, 0⟩ -- IPBASE (R305)
  , ⟨0x4200, 1, 0x04, 1, .u8, .rws, .num 18, false, 0, 114⟩ -- PREFIX (R305)
  , ⟨0x4200, 1, 0x05, 1, (.domain 16), .rws, .num 0, false, 0, 0⟩ -- Bore gateway (R305)
  , ⟨0x4200, 1, 0x06, 1, .u16, .rws, .num 48100, false, 0, 65535⟩ -- Bore PORT (R305)
  , ⟨0x4200, 1, 0x07, 1, .u32, .rw, .num 1024, false, 8, 16384⟩ -- CWND_INIT (R305)
  , ⟨0x4200, 1, 0x08, 1, .u16, .rw, .num 64, false, 1, 16384⟩ -- AI (R305)
  , ⟨0x4200, 1, 0x09, 1, .u16, .rw, .num 1000, false, 0, 65535⟩ -- RNR_LIMIT (R305)
  , ⟨0x4200, 1, 0x0A, 1, .u16, .ro, .num 0, false, 0, 65535⟩ -- EPOCH (R305 (FUSE))
  , ⟨0x4200, 1, 0x0B, 1, .u64, .rw, .num 0, false, 0, 18446744073709551615⟩ -- barrier group table (R305)
  , ⟨0x4200, 1, 0x0C, 1, .u16, .rw, .num 0, false, 0, 4096⟩ -- group entries (R305)
  , ⟨0x4201, 1, 0x01, 4, .u64, .ro, .num 0, false, 0, 18446744073709551615⟩ -- packets sent, received, payload bytes sent, received (R306)
  , ⟨0x4201, 1, 0x05, 10, .u32, .rc, .num 0, false, 0, 4294967295⟩ -- retransmitted, timeouts, RNR received, BUSY sent, ECE echoes, duplicates, outside, authentication failures, violations received, caused (R306)
  , ⟨0x4201, 1, 0x0F, 1, .u16, .ro, .num 0, false, 0, 65535⟩ -- connections OPEN (R306)
  , ⟨0x4210, 1, 0x00, 1, .u16, .rw, .num 0, false, 0, 4095⟩ -- CSEL (R305)
  , ⟨0x4211, 1, 0x01, 1, (.domain 64), .rw, .num 0, false, 0, 0⟩ -- connection record (R305 R282)
  , ⟨0x4211, 1, 0x02, 1, .u8, .wo, .num 0, false, 1, 2⟩ -- connection CONTROL (R305)
  , ⟨0x4220, 1, 0x00, 1, .u16, .rw, .num 0, false, 0, 16383⟩ -- KSEL (R305)
  , ⟨0x4221, 1, 0x01, 1, (.domain 32), .rw, .num 0, false, 0, 0⟩ -- key record (R305 R289)
  , ⟨0x4221, 1, 0x02, 1, .u8, .wo, .num 0, false, 1, 2⟩ -- key CONTROL (R305)
  ]

/-- Objects of the range that starts at 0x5000. -/
def objTests : List ObjRow :=
  [ ⟨0x5000, 32, 0x01, 1, .u8, .rw, .num 0, false, 0, 3⟩ -- lane test MODE (R417)
  , ⟨0x5000, 32, 0x02, 1, .u8, .rw, .num 0, false, 0, 2⟩ -- lane test PATTERN (R417)
  , ⟨0x5000, 32, 0x03, 2, .u64, .ro, .num 0, false, 0, 18446744073709551615⟩ -- bits checked, bit errors (R417)
  , ⟨0x5000, 32, 0x05, 1, .bool, .ro, .num 0, false, 0, 255⟩ -- checker locked (R417)
  , ⟨0x5000, 32, 0x06, 1, .u32, .rc, .num 0, false, 0, 4294967295⟩ -- losses of checker lock (R417)
  , ⟨0x5020, 16, 0x01, 1, .u8, .rw, .num 0, false, 0, 4⟩ -- bulk test PATTERN (R418)
  , ⟨0x5020, 16, 0x02, 1, .u16, .rw, .num 0, false, 0, 4095⟩ -- FIRST chunk (R418)
  , ⟨0x5020, 16, 0x03, 1, .u16, .rw, .num 4096, false, 1, 4096⟩ -- NCHUNK (R418)
  , ⟨0x5020, 16, 0x04, 1, .u8, .wo, .num 0, false, 1, 2⟩ -- bulk test CONTROL (R418)
  , ⟨0x5020, 16, 0x05, 1, .u8, .ro, .num 0, false, 0, 255⟩ -- bulk test STATE (R418)
  , ⟨0x5020, 16, 0x06, 1, .u64, .ro, .num 0, false, 0, 18446744073709551615⟩ -- bytes checked (R418)
  , ⟨0x5020, 16, 0x07, 1, .u32, .ro, .num 0, false, 0, 4294967295⟩ -- bad units (R418)
  , ⟨0x5020, 16, 0x08, 1, .u64, .ro, .num 0, false, 0, 18446744073709551615⟩ -- first error address (R418)
  , ⟨0x5030, 1, 0x01, 2, .u8, .ro, .num 0, false, 0, 255⟩ -- PCIe width, rate (R419)
  , ⟨0x5030, 1, 0x03, 9, .u32, .rc, .num 0, false, 0, 4294967295⟩ -- link retrains, receiver errors lanes 0-7 (R419)
  , ⟨0x5040, 1, 0x01, 1, (.domain 256), .rw, .num 0, false, 0, 0⟩ -- loopback domain (R420)
  , ⟨0x5040, 1, 0x02, 1, (.domain 256), .const, .num 0xFEFD06C2F9C2151D793CE81BBBC52A0EA6BC16E6BD07D3CCB3A16FDA551C680999AFC96643FAD50E4A637AC72C208012226AE368E546C3E8F764A90B9F81EFC877768B617CE90A8EB49E7C05D5E2950F5B560B735E83E9E651D8BFED22863C04C4D7E4BB29F562872D31B56396184001113571B472A369F473B25C85C7C0FFEC33B34DB0B6748D4F5A473E02EAF14A8FA5AB0DB1A741FCFB28E457F69943160A626BF25D94F2B14B9E90DAB9C3042808889AB8D23159BCFA39D12642EBE07FFE11D9AED853324EA7AD2397097570A547D2DD86D0DBA8F6759C7A2BF34CA18305393DF92ECA7158ADCF486554E182140C4C4D5C6918ACDE7D14E093217DF83FF, false, 0, 0⟩ -- PRBS9 domain (R420)
  , ⟨0x5050, 16, 0x01, 1, .u8, .wo, .num 0, false, 1, 1⟩ -- self-test CONTROL (R421)
  , ⟨0x5050, 16, 0x02, 1, .u8, .ro, .num 0, false, 0, 255⟩ -- self-test RESULT (R421)
  , ⟨0x5050, 16, 0x03, 1, .u32, .ro, .num 0xFFFFFFFF, false, 0, 4294967295⟩ -- first failing word (R421)
  , ⟨0x5050, 16, 0x04, 1, .u32, .ro, .num 0, true, 0, 4294967295⟩ -- self-tests run (R421)
  , ⟨0x5060, 1, 0x01, 1, .u8, .rw, .num 0, false, 1, 4⟩ -- recovery CLASS (R411)
  , ⟨0x5060, 1, 0x02, 1, .u8, .rw, .num 0, false, 0, 1⟩ -- recovery COPY (R411)
  , ⟨0x5060, 1, 0x03, 1, .u32, .rw, .num 0, false, 0, 4294967295⟩ -- recovery OFFSET (R411)
  , ⟨0x5060, 1, 0x04, 1, (.domain 1024), .wo, .num 0, false, 0, 0⟩ -- recovery DATA (R411)
  , ⟨0x5060, 1, 0x05, 1, .u8, .wo, .num 0, false, 1, 3⟩ -- recovery CONTROL (R411)
  , ⟨0x5060, 1, 0x06, 1, .u8, .ro, .num 0, false, 0, 255⟩ -- recovery RESULT (R411)
  ]

/-- The whole table, by index range (R343). -/
def objTable (i : Nat) : List ObjRow :=
  if i < 0x1100 then objIdentity else if i < 0x1200 then objComm else if i < 0x2000 then objSecurity
  else if i < 0x2100 then objPower else if i < 0x2200 then objBreath else if i < 0x3000 then objTelemetry
  else if i < 0x3400 then objCores else if i < 0x3500 then objMemory else if i < 0x4000 then objTraining
  else if i < 0x4100 then objPorts else if i < 0x4200 then objStreams else if i < 0x5000 then objBoreT
  else objTests

/-- The row of an object and subindex, if the spec defines it. -/
def objRow (i k : Nat) : Option ObjRow := (objTable i).find? (·.holds i k)

/-- Does the spec define an object with this index (R343)? -/
def objDefined (i : Nat) : Bool := (objTable i).any fun r => r.base ≤ i && i < r.base + r.count

/-- A RECORD's highest subindex (R344). -/
def objHighest (i : Nat) : Nat :=
  (objTable i).foldl (fun h r => if r.base ≤ i && i < r.base + r.count then max h (r.sub + r.nsub - 1) else h) 0

/-- What an object holds after PORST_N (R14); 0 where nothing is defined. -/
def objReset (i k : Nat) : Nat :=
  match objRow i k with
  | none => 0
  | some r =>
    match r.reset with
    | .num v => v
    | .fuse => Config.fuse i k % 256 ^ r.ty.size

/-- The store key of an object and subindex: subindexes are below 256 (R348). -/
def objKey (i k : Nat) : Nat := i * 256 + k

/-- `objReset` by store key. -/
def objResetKey (n : Nat) : Nat := objReset (n / 256) (n % 256)

/-- Is the object's value kept by WARM_RST_N (R14)? By store key. -/
def objWarm (n : Nat) : Bool :=
  match objRow (n / 256) (n % 256) with
  | none => false
  | some r => r.warm || r.acc == .const

end Sys2Proof.Machine
end

