-- ==== Sys2Proof/Machine/Tab.lean ====
section
/-! DEFINITION. Tables of plain data: everything the device holds by number (memory bytes, registers, slots, cores,
connections). A table lists, in strictly rising order of key, only the entries that differ from what an unlisted key
reads as, so that equal contents are equal data. -/

namespace Sys2Proof.Machine

/-- A table whose unlisted key `k` reads as `d k`. -/
structure Tab {α : Type} (d : Nat → α) where
  entries : List (Nat × α)
  deriving DecidableEq, Repr

/-- The value at a key in a list of entries. -/
def Tab.find {α : Type} (d : Nat → α) (k : Nat) : List (Nat × α) → α
  | [] => d k
  | (k', v) :: r => if k = k' then v else Tab.find d k r

/-- The entries with one more in its place. -/
def Tab.insert {α : Type} (k : Nat) (v : α) : List (Nat × α) → List (Nat × α)
  | [] => [(k, v)]
  | (k', v') :: r => if k < k' then (k, v) :: (k', v') :: r else (k', v') :: Tab.insert k v r

/-- The empty table: every key reads as its default. -/
def Tab.empty {α : Type} {d : Nat → α} : Tab d := ⟨[]⟩

/-- Read one key. -/
def Tab.get {α : Type} {d : Nat → α} (t : Tab d) (k : Nat) : α := Tab.find d k t.entries

/-- Write one key; writing what an unlisted key reads as removes the entry. -/
def Tab.set {α : Type} [DecidableEq α] {d : Nat → α} (t : Tab d) (k : Nat) (v : α) : Tab d :=
  let rest := t.entries.filter fun e => e.1 ≠ k
  if v = d k then ⟨rest⟩ else ⟨Tab.insert k v rest⟩

/-- Change one key by a function of what it holds. -/
def Tab.modify {α : Type} [DecidableEq α] {d : Nat → α} (t : Tab d) (k : Nat) (f : α → α) : Tab d :=
  t.set k (f (t.get k))

/-- Every key from `lo` up to but not `hi` reads as its default. -/
def Tab.clear {α : Type} {d : Nat → α} (t : Tab d) (lo hi : Nat) : Tab d :=
  ⟨t.entries.filter fun e => e.1 < lo || hi ≤ e.1⟩

/-- Keep only the entries whose key satisfies `p`. -/
def Tab.keep {α : Type} {d : Nat → α} (t : Tab d) (p : Nat → Bool) : Tab d :=
  ⟨t.entries.filter fun e => p e.1⟩

/-- Write a list of values at consecutive keys. -/
def Tab.setList {α : Type} [DecidableEq α] {d : Nat → α} (t : Tab d) (k : Nat) : List α → Tab d
  | [] => t
  | v :: r => Tab.setList (t.set k v) (k + 1) r

/-- Write `n` consecutive keys from `k`, key `k + i` with `f i`: one pass over the entries. -/
def Tab.fill {α : Type} [DecidableEq α] {d : Nat → α} (t : Tab d) (k n : Nat) (f : Nat → α) : Tab d :=
  ⟨(t.entries.filter fun e => e.1 < k)
    ++ ((List.range n).filterMap fun i => if f i = d (k + i) then none else some (k + i, f i))
    ++ (t.entries.filter fun e => k + n ≤ e.1)⟩

/-- The canonical form: keys strictly rise and no entry equals what an unlisted key reads as. -/
abbrev Tab.wf {α : Type} {d : Nat → α} (t : Tab d) : Prop :=
  t.entries.Pairwise (fun a b => a.1 < b.1) ∧ ∀ e ∈ t.entries, e.2 ≠ d e.1

end Sys2Proof.Machine
end

