-- ==== Sys2Proof/Machine/State.lean ====
section
/-! DEFINITION. The state of the device: everything the spec gives it to hold, as plain data. What the object
dictionary shows as a register lives in `State.objs` under its object number; what engines hold lives in the
structures below. `State.reset` is the device as PORST_N leaves it, before BOOT. -/

namespace Sys2Proof.Machine

/-! ### Tables of numbers -/

/-- What unlisted bytes read as: scratchpad is zeroed after every reset (R136) and unwritten bulk memory always
reads as zero (R155). -/
def zeroByte (_ : Nat) : Byte := 0
/-- Accumulators, vector registers and scalar registers start at zero (R88, R90). -/
def zeroWord (_ : Nat) : Word := 0
/-- Generator words (R99). -/
def zeroWord64 (_ : Nat) : BitVec 64 := 0
/-- Flags of 512 lanes: F0 is all ones, F1–F7 are clear (R90). -/
def flagReset (k : Nat) : BitVec 512 := if k = 0 then BitVec.allOnes 512 else 0
/-- Counts kept by number. -/
def zeroNat (_ : Nat) : Nat := 0
/-- What the boot flash holds where the device has not written it (R406). -/
def flashReset (k : Nat) : Byte := Config.flashByte k

/-- Memory, by device address (R23). -/
abbrev ByteTab := Tab zeroByte

/-- Memory is in canonical form: addresses strictly rise, and no entry equals what an unlisted address reads as. -/
abbrev Memory.wf (m : ByteTab) : Prop := m.wf
abbrev WordTab := Tab zeroWord
abbrev Word64Tab := Tab zeroWord64
abbrev FlagTab := Tab flagReset
abbrev NatTab := Tab zeroNat
abbrev FlashTab := Tab flashReset
/-- The dictionary's registers, by `objKey`. -/
abbrev ObjTab := Tab objResetKey

/-! ### Cores -/

/-- Scoreboard state of a tile slot (R173). -/
inductive SlotSt where
  | empty | writing | ready
  deriving DecidableEq, Repr

/-- A tile slot (R172): content, kind, scoreboard state, reader count, and the number of SLOT commands applied to it
in this step (R177). -/
structure Slot where
  content : BitVec 256 := 0
  kind    : BitVec 3 := 0
  st      : SlotSt := .empty
  readers : Nat := 0
  rebinds : Nat := 0
  deriving DecidableEq, Repr

def slotReset (_ : Nat) : Slot := {}

/-- What a queue context is blocked on (R195, R197, R198). -/
inductive Blocked where
  | no
  | wait (sync : Nat) (target : Nat)
  | barrier (sync : Nat) (gen : Nat)
  | phase (n : Nat)
  deriving DecidableEq, Repr

/-- A queue context of a core sequencer (R170): the queue it reads, its place in it, and the records R191, R198 and
R209 keep for it. `unfenced` has bit k set while a write is not covered by a FENCE of scope k or wider; `phase` has bit
n set once PHASE n has been issued or passed in the step. -/
structure QCtx where
  live     : Bool := false
  base     : Nat := 0
  len      : Nat := 0
  ptr      : Nat := 0
  ended    : Bool := false
  blocked  : Blocked := .no
  phase    : Nat := 0
  unfenced : BitVec 4 := 0
  effects  : List Nat := []
  skip     : List Nat := []
  deriving DecidableEq, Repr

def qctxReset (_ : Nat) : QCtx := {}

/-- A command issued and not complete (R173, R188, R189): its context, its index, the destination slot it will make
READY, and what it waits for. -/
structure Outst where
  ctx    : Nat
  index  : Nat
  slot   : Nat
  /-- The Bore entry or collective that completes it; `none` when its last destination word does. -/
  entry  : Option Nat
  effect : Bool
  deriving DecidableEq, Repr

/-- The panel operand that a half of the panel store holds (R69, R177): queue context, slot, and the number of SLOT
commands applied to it. -/
structure PanelTag where
  ctx     : Nat
  slot    : Nat
  rebinds : Nat
  /-- Format and K positions loaded. -/
  fmt     : Nat
  k       : Nat
  deriving DecidableEq, Repr

/-- The vector command a core's vector row runs (R179): bindings, masks, draw permission and key. -/
structure VecRun where
  ctx    : Nat := 0
  binds  : List Nat := []
  wmask  : Byte := 0
  used   : Byte := 0
  draws  : Bool := false
  rkey   : Word := 0
  /-- Reseeded already in this command (R101). -/
  seeded : Bool := false
  deriving DecidableEq, Repr

/-- A word in the holding buffer (R127): its index in the scratchpad and its bytes. -/
structure HeldWord where
  word : Nat
  data : Granule
  deriving DecidableEq, Repr

/-- A tile kept in a core's keep pool (R231): the KEEP table's address, the block index, and where it lies. -/
structure KeptTile where
  table : Nat
  block : Nat
  addr  : Nat
  len   : Nat
  deriving DecidableEq, Repr

/-- One core: its engines, its slots, its queue contexts. Its object-dictionary registers are objects 0x3010 + n,
0x3040 + n, 0x3060 + n and 0x3400 + n. -/
structure Core where
  /-- ACC0 and ACC1 (R66): element (r, c) at key r × 64 + c. -/
  acc0      : WordTab := .empty
  acc1      : WordTab := .empty
  /-- The MQ context whose pass result a set holds undrained (R171). -/
  undrained0 : Option Nat := none
  undrained1 : Option Nat := none
  /-- The MQ context the array serves (R171). -/
  mqCtx     : Option Nat := none
  /-- The operands of the two panel-store halves (R69). -/
  panel0    : Option PanelTag := none
  panel1    : Option PanelTag := none
  /-- What the halves hold: the code of element (r, k) at r × 1,024 + k, the scale of row r and K block q at
  2^20 + r × 32 + q. -/
  pdata0    : NatTab := .empty
  pdata1    : NatTab := .empty
  /-- V0–V63: element of register v in lane l at key v × 512 + l (R90). -/
  vreg      : WordTab := .empty
  /-- S0–S63 (R90). -/
  sreg      : WordTab := .empty
  /-- F0–F7 (R90). -/
  flags     : FlagTab := .empty
  /-- The vector command in progress (R179). -/
  vec       : VecRun := {}
  /-- Generator words: a of lane l at 2l, b at 2l + 1 (R99). -/
  gen       : Word64Tab := .empty
  /-- Slots 0–255 of the core, and at 256–511 those of the core whose work it carries (R172, R208). -/
  slots     : Tab slotReset := .empty
  /-- The shadow copy of its own slots held since LOAD (R199). -/
  shadow    : Tab slotReset := .empty
  /-- Queue contexts 0–7 (R170). -/
  ctxs      : Tab qctxReset := .empty
  /-- The queues placed in its scratchpad at LOAD: context, base offset and commands (R166, R174). -/
  queues    : List (Nat × Nat × Nat) := []
  /-- Commands issued and not complete. -/
  outst     : List Outst := []
  /-- The holding buffer, oldest word first (R127). -/
  held      : List HeldWord := []
  /-- Working range (R166) and logical number (R168). -/
  wrLo      : Nat := 0
  wrHi      : Nat := 0
  logical   : Nat := 0
  /-- The failed core whose work contexts 4–7 carry (R208). -/
  carries   : Option Nat := none
  /-- Effects of the failed core recorded and not yet passed in the re-run, as context × 2^18 + index (R209). -/
  rerunLeft : List Nat := []
  /-- The clock runs (R197, R385), the PLL is locked, and the issue ramp A (R390). -/
  clock     : Bool := false
  gated     : Bool := false
  pll       : Bool := false
  pllStarting : Bool := false
  ramp      : Nat := 0
  /-- The duty D that has taken effect on the core (R389, R390). -/
  duty      : Nat := 16
  /-- The keep pool's tiles (R231). -/
  kept      : List KeptTile := []
  /-- The next word SRAM scrub reads (R138). -/
  scrub     : Nat := 0
  deriving DecidableEq, Repr

def coreReset (_ : Nat) : Core := {}

/-- The redirect of a failed core's working range to its takeover core's re-run reserve (R208). -/
structure Redirect where
  failed   : Nat
  takeover : Nat
  lo       : Nat
  hi       : Nat
  rrOff    : Nat
  deriving DecidableEq, Repr

/-! ### Sync objects, partitions, collectives -/

/-- A sync object (R193, R195): the partition it is allocated to, its table entry, its count, barrier generation and
arrivals, and for a fabric barrier the children that have arrived (R303). -/
structure Sync where
  part     : Option Nat := none
  kind     : BitVec 2 := 0
  scope    : BitVec 2 := 1
  grp      : Nat := 0
  init     : Word := 0
  need     : Nat := 0
  count    : Word := 0
  gen      : Nat := 0
  arrivals : Nat := 0
  sentUp   : Bool := false
  children : List Nat := []
  nextGen  : List Nat := []
  deriving DecidableEq, Repr

def syncReset (_ : Nat) : Sync := {}

/-- A group entry of the installed phase map (R226). -/
structure Group where
  group : Nat
  alg   : Nat
  accf  : Bool
  nmem  : Nat
  mlist : Nat
  conn  : Nat
  sbase : Nat
  deriving DecidableEq, Repr

/-- A collective the sequencer holds (R185, R218, R233). -/
structure Coll where
  id     : Nat
  part   : Nat
  core   : Nat
  ctx    : Nat
  index  : Nat
  kind   : Nat
  group  : Group
  src    : Nat
  dst    : Nat
  ftile  : Nat
  nt     : Nat
  /-- The owned shards are summed, or the incoming tiles are written. -/
  done   : Bool
  /-- A re-run entry recorded as complete makes no outside effect (R209). -/
  silent : Bool
  deriving DecidableEq, Repr

/-- One entry of the update list as the engines have read it (R216). -/
structure UpdEntry where
  wc      : BitVec 256
  gid     : Nat
  opt     : Nat
  decay   : Bool
  skipnf  : Bool
  sharded : Bool
  first   : Nat
  nblk    : Nat
  mbase   : Nat
  gbase   : Nat
  agrp    : Nat
  deriving DecidableEq, Repr

/-- Where an update phase stands (R218, R229). -/
inductive UpdPhase where
  | idle | running | complete | faulted
  deriving DecidableEq, Repr

/-- A partition's engine state. Its registers are objects 0x3100 + p, 0x3050 + p, 0x1230 + p, 0x2011 + p, 0x3480 + p. -/
structure Part where
  /-- From the image header (R165). -/
  rerun      : Bool := false
  rrOff      : Nat := 0
  rrSize     : Nat := 0
  syncCount  : Nat := 0
  /-- Physical sync object of each logical number (R168, R194). -/
  syncMap    : List Nat := []
  imageHash  : BitVec 384 := 0
  /-- Where the image in force lies: IMAGE as it was at LOAD. -/
  imageAt    : Nat := 0
  /-- STOP written; steps run since START; a step is in progress and its number of milliseconds is timed (R200, R203). -/
  stopReq    : Bool := false
  stepsRun   : Nat := 0
  /-- The last step completed: what STEP reads outside RUNNING (R164). -/
  lastStep   : Nat := 0
  inStep     : Bool := false
  stepStart  : Nat := 0
  /-- PHASE values completed in the step, as a bit mask (R198). -/
  phased     : Nat := 0
  /-- The groups of the phase in force (R227). -/
  groups     : List Group := []
  /-- The three phase words read at START (R225). -/
  phaseWords : List (BitVec 64) := []
  /-- The update phase (R218): its state, the list read at its start, regions updated in the step (R146), regions whose
  half not LIVE an engine has begun to write (R230), elements done and peers' tiles written, as entry × 2^48 + number. -/
  upd        : UpdPhase := .idle
  updList    : List UpdEntry := []
  updated    : List Nat := []
  begun      : List Nat := []
  updDone    : NatTab := .empty
  peerTiles  : NatTab := .empty
  /-- The keep pool descriptor in force (R231): offset, size, KEEP table addresses. -/
  poolOff    : Nat := 0
  poolSize   : Nat := 0
  keepTabs   : List Nat := []
  /-- Owner tables checked, by address, with the generation checked (R122). -/
  tables     : List (Nat × Word) := []
  /-- Keys and identities of a sealed partition (R325, R327, R332): region key, weight key, release secret, owner and
  recipient keys, image key, MODEL_ID; whether a package was exported, its address and hash; the SPDM session bound. -/
  xtsKeys    : Option (BitVec 512) := none
  wk         : Option (BitVec 256) := none
  rs         : Option (BitVec 256) := none
  ownerPub   : BitVec 776 := 0
  exportPub  : BitVec 776 := 0
  imageKey   : BitVec 384 := 0
  modelId    : BitVec 128 := 0
  exported   : Bool := false
  pkgAddr    : Nat := 0
  pkgHash    : BitVec 384 := 0
  bound      : Option Nat := none
  /-- Step boundaries with D at 4 for 10 ms pending, and the point to return to (R389). -/
  lowered    : Bool := false
  fullDuty   : Bool := true
  deriving DecidableEq, Repr

def partReset (_ : Nat) : Part := {}

/-- One update engine: microcode registers 0–15 of the element it works on, the optimiser set and the t it uses
(R222), and its hardware state. -/
structure UpdEngine where
  regs : WordTab := .empty
  set  : Nat := 0
  part : Nat := 0
  deriving DecidableEq, Repr

def engineReset (_ : Nat) : UpdEngine := {}

/-! ### Bulk memory -/

/-- Region zeroing in progress (R156): the bulk offset reached and the end. -/
structure ZeroJob where
  region : Nat
  pos    : Nat
  stop   : Nat
  deriving DecidableEq, Repr

/-- An entry of a spill ring (R151, R152), with the bulk address of its header. -/
structure SpillEntry where
  addr     : Nat
  step     : Word
  tensor   : Nat
  tile     : Nat
  size     : Nat
  valid    : Bool
  consumed : Bool
  /-- Read once more by a re-run (R210). -/
  reread   : Bool
  deriving DecidableEq, Repr

/-- A spill ring, oldest entry first; `head` is the next byte offset from the region's base (R152). -/
structure SpillRing where
  head    : Nat := 0
  entries : List SpillEntry := []
  deriving DecidableEq, Repr

def ringReset (_ : Nat) : SpillRing := {}

/-! ### Dictionary -/

/-- A read snapshot (R352). -/
structure Snapshot where
  index    : Nat
  subindex : Nat
  size     : Nat
  value    : Nat
  deriving DecidableEq, Repr

/-- The buffer of a segmented write (R353). -/
structure SegBuf where
  index    : Nat
  subindex : Nat
  data     : List Byte
  deriving DecidableEq, Repr

/-- A response PDU (R348). -/
structure DictResp where
  req    : DictReq
  status : BitVec 16
  data   : List Byte
  deriving DecidableEq, Repr

/-- What the dictionary keeps for one owner ID: its epoch (R354), the latched high halves by object (R351), the snapshot, the
write buffer, the log cursors (R424) and the SPDM response waiting (R321). -/
structure MasterSt where
  epoch   : Word := 0
  latch   : List (Nat × Nat) := []
  snap    : Option Snapshot := none
  seg     : Option SegBuf := none
  cursor0 : Nat := 0
  cursor1 : Nat := 0
  spdm    : Option (List Byte) := none
  deriving DecidableEq, Repr

def masterReset (_ : Nat) : MasterSt := {}

/-- A management session (R371): open, and its last 8 responses, newest first. -/
structure Session where
  isOpen : Bool := false
  kept   : List DictResp := []
  deriving DecidableEq, Repr

def sessionReset (_ : Nat) : Session := {}

/-- The mailbox states of R374. -/
inductive MbState where
  | idle | busy | done | aborted
  deriving DecidableEq, Repr

/-- The chain interface (R359–R369) beside object 0x1100. -/
structure Chain where
  daisyIn   : Bool := false
  daisyOut  : Bool := false
  /-- An ASSIGN reply ended and DAISY_OUT is due (R365). -/
  outDue    : Bool := false
  /-- The rate a RATE frame selected, not yet in force (R362). -/
  rateNext  : Option Nat := none
  driverOn  : Bool := true
  biasOn    : Bool := true
  /-- A retry found the pair idle, so a valid frame restores the chain (R367, R368). -/
  retryIdle : Bool := false
  attempts  : Nat := 0
  silentLogged : Bool := false
  /-- A BREAK of 10 ms or more is seen and no valid frame since (R354). -/
  breakLong : Bool := false
  /-- SEQ and CRC of the previous request and the response kept for it (R364). -/
  keptReq   : Option DictReq := none
  keptResp  : Option DictResp := none
  deriving DecidableEq, Repr

/-! ### Bore -/

/-- A work entry (R284) with the core, context and queue index that posted it, its ORIGIN (R300), the slot it makes
READY, and where it stands. -/
structure WorkEntry where
  id     : Nat
  op     : Nat
  cqe    : Bool
  immv   : Bool
  stepRd : Bool
  accf   : Bool
  chain  : Bool
  cconn  : Nat
  ctgt   : Word
  laddr  : Nat
  len    : Nat
  rkey   : Word
  raddr  : Nat
  opnd1  : BitVec 64
  opnd2  : BitVec 64
  imm    : Word
  wid    : Word
  core   : Nat
  ctx    : Nat
  index  : Nat
  origin : Word
  step   : Word
  rdy    : Option Nat
  /-- Packets sent, first PSN, packets acknowledged or bytes of responses placed, RNR count, withdrawn. -/
  sent   : Nat
  psn    : BitVec 24
  got    : Nat
  rnr    : Nat
  withdrawn : Bool
  /-- The last packet sent is the one with LAST and ABRT of R301. -/
  abrt   : Bool
  /-- RECV: the buffer is posted. -/
  armed  : Bool
  deriving DecidableEq, Repr

/-- An atomic result kept by the responder (R293). -/
structure AtomicRec where
  psn    : BitVec 24
  origin : Word
  old    : BitVec 64
  deriving DecidableEq, Repr

/-- A WRITE_ACC origin kept by the responder with the bytes already added (R300). -/
structure OriginRec where
  origin : Word
  bytes  : Nat
  deriving DecidableEq, Repr

/-- Connection states (R282). -/
inductive ConnSt where
  | free | opening | isOpen | error | closing
  deriving DecidableEq, Repr

/-- A connection context (R282): its record, its queues, and the records of R288, R293, R297 and R300. -/
structure Conn where
  st       : ConnSt := .free
  part     : Nat := 0
  atomic   : Bool := false
  atomicAgreed : Bool := false
  fetch    : Bool := false
  rnode    : Nat := 0
  rconn    : Nat := 0
  link     : Nat := 0
  tc       : Nat := 0
  vid      : Nat := 0
  keysel   : Nat := 0
  cqbase   : Nat := 0
  cqlen    : Nat := 0
  fkey     : Word := 0
  spsn     : BitVec 24 := 0
  upsn     : BitVec 24 := 0
  epsn     : BitVec 24 := 0
  /-- cwnd in bytes, bytes acknowledged towards its next rise, unacknowledged payload bytes (R297). -/
  cwnd     : Nat := 0
  acked    : Nat := 0
  inflight : Nat := 0
  srtt     : Nat := 20000
  tcut     : Nat := 0
  rto      : Nat := 50000
  timeouts : Nat := 0
  ccount   : Word := 0
  err      : Byte := 0
  peerEpoch : BitVec 16 := 0
  sendQ    : List WorkEntry := []
  recvQ    : List WorkEntry := []
  /-- Completion ring position and lap (R286). -/
  cqPos    : Nat := 0
  lap      : Byte := 0
  /-- Bytes of the current SEND message placed in the head buffer (R288). -/
  recvGot  : Nat := 0
  /-- The key check of the current message passed at its first packet (R291); truncation seen. -/
  msgOk    : Bool := false
  trunc    : Bool := false
  /-- Packets placed since the last acknowledgement; CE seen since then; time of the last NAK SEQ (R294, R295, R297). -/
  unacked  : Nat := 0
  ceSeen   : Bool := false
  nakAt    : Option Nat := none
  authFails : Nat := 0
  atomics  : List AtomicRec := []
  /-- Those of the current step, by ORIGIN (R293). -/
  atomicStep : List AtomicRec := []
  origins  : List OriginRec := []
  /-- Reads of R230 that wait for the owner's flip: the request packets. -/
  fetches  : List Packet := []
  /-- The sender waits to resend: 1 after NAK RNR (R288), 2 after NAK BUSY (R298). -/
  stall    : Nat := 0
  resendAt : BitVec 24 := 0
  /-- PSN of the CLOSE sent (R283). -/
  closePsn : Option (BitVec 24) := none
  /-- Wraps of the PSNs sent and of those received (R304). -/
  wraps    : Word := 0
  rwraps   : Word := 0
  deriving DecidableEq, Repr

def connReset (_ : Nat) : Conn := {}

/-- A memory key (R289). -/
structure Key where
  base  : Nat := 0
  len   : Nat := 0
  rd    : Bool := false
  wr    : Bool := false
  at_   : Bool := false
  valid : Bool := false
  part  : Nat := 0
  tag   : BitVec 12 := 0
  bind  : Nat := 0x1000
  deriving DecidableEq, Repr

def keyReset (_ : Nat) : Key := {}

/-! ### Job -/

/-- A checkpoint slot's state (R239, R240). -/
inductive CkSt where
  | empty | filling | complete
  deriving DecidableEq, Repr

/-- A home slot or buddy slot as its engine tracks it (R238–R240). -/
structure CkSlot where
  st     : CkSt := .empty
  step   : Word := 0
  rank   : Nat := 0
  jobId  : Word := 0
  len    : Nat := 0
  digest : BitVec 64 := 0
  /-- Bytes received, in order, for the digest. -/
  got    : Nat := 0
  deriving DecidableEq, Repr

/-- The lead's and the member's job state beside objects 0x3500 and 0x3520. -/
structure Job where
  home0    : CkSlot := {}
  home1    : CkSlot := {}
  ward0    : CkSlot := {}
  ward1    : CkSlot := {}
  /-- A capture is due in the next update phase, into this home slot (R238). -/
  capture  : Option Bool := none
  capStep  : Word := 0
  /-- A due capture was deferred (R238). -/
  due      : Bool := false
  /-- The latest job-complete checkpoint, if there is one (R241): CKPT_STEP. -/
  jobDone  : Option Word := none
  /-- Bytes of the home slot still to stream, and the buddy slot streamed to (R240). -/
  stream   : Option (Bool × Nat) := none
  /-- Ranks that have reported the checkpoint complete (R241). -/
  reported : List Nat := []
  /-- Digests reported for the step (R237): rank, working-copy digest, master digest. -/
  digests  : List (Nat × BitVec 64 × BitVec 64) := []
  digStep  : Word := 0
  /-- Master digests kept for repeated steps: rank, step, digest (R237). -/
  keptDig  : List (Nat × Word × BitVec 64) := []
  /-- Heartbeats missed by node (R235). -/
  missed   : NatTab := .empty
  /-- Failed ranks under recovery with their nodes, those a spare was admitted for in this recovery, spares used, and the
  ranks restored so far (R244, R247). -/
  failed   : List (Nat × Nat) := []
  admitted : List Nat := []
  spares   : Nat := 0
  restored : List Nat := []
  declared : Nat := 0
  /-- Spares admitted: rank given and node (R244); the step in progress at the failure (R246). -/
  given    : List (Nat × Nat) := []
  failStep : Nat := 0
  /-- The service processor holds this device retired (R244, R426). -/
  retired  : Bool := false
  deriving DecidableEq, Repr

/-! ### Ports, MAC, streams -/

/-- A logical link's MAC state (R249–R260). -/
structure Link where
  /-- Physical lanes in service, READY lanes waiting for a boundary, and lanes leaving at it. -/
  announces : List (Option Announce) := []
  peerStatus : BitVec 4 := 0
  newPeer    : Bool := false
  /-- Remaining pause quanta per class, the length of the pause in force without break, storm logged (R259). -/
  pause     : NatTab := .empty
  storm     : NatTab := .empty
  /-- Receive buffer bytes per class, and whether a PFC pause has been sent (R259). -/
  rxBytes   : NatTab := .empty
  xoffSent  : NatTab := .empty
  /-- The gate entry in force, and whether all gates are open after a clock step (R260). -/
  gate      : Nat := 0
  openAll   : Bool := true
  deriving DecidableEq, Repr

def linkReset (_ : Nat) : Link := {}

/-- A capture slot's state (R274). -/
inductive CapSt where
  | free | filling | closed | frozen
  deriving DecidableEq, Repr

/-- A capture slot (R274): its state, its frame number and what its header reports. -/
structure CapSlot where
  st      : CapSt := .free
  frameNo : Word := 0
  ts      : Word := 0
  ssrc    : Word := 0
  tFirst  : BitVec 64 := 0
  tLast   : BitVec 64 := 0
  lost    : Word := 0
  /-- Bytes written in the frame data, as (offset, length) runs. -/
  runs    : List (Nat × Nat) := []
  deriving DecidableEq, Repr

def capReset (_ : Nat) : CapSlot := {}

/-- A stream context's engine state (R272, R275). -/
structure Stream where
  slots    : Tab capReset := .empty
  /-- The slot being filled. -/
  filling  : Option Nat := none
  frames   : Word := 0
  lastTs   : Option Word := none
  /-- The second of the latest OVER_RATE event (R269), plus one; 0 for none. -/
  rateSec  : Nat := 0
  deriving DecidableEq, Repr

def streamReset (_ : Nat) : Stream := {}

/-! ### Events and outputs -/

/-- An event record (R422). -/
structure Event where
  time     : BitVec 64
  unit     : Nat
  code     : Nat
  detail   : BitVec 128
  seq      : Nat
  persist  : Bool
  redacted : Bool
  notice   : Bool
  freeclk  : Bool
  gap      : Bool
  deriving DecidableEq, Repr

/-- What the device sends to the outside: newest first in `State.out`. -/
inductive Output where
  /-- A dictionary response with the master it goes to (R348). -/
  | resp (m : Master) (r : DictResp)
  /-- The status of a command that is a dictionary write with a behaviour of its own. -/
  | status (m : Master) (code : BitVec 16)
  /-- A NOTICE datagram (R371). -/
  | notice (e : Event)
  /-- A reply to ASSIGN: ADDR, node ID and serial number (R365). -/
  | assignReply (addr : Nat) (node : Nat) (serial : Nat)
  /-- A Bore packet sent (R278). -/
  | packet (c : Nat) (p : Packet)
  /-- A PAUSE or PFC frame sent: link, class, pause time (R259). -/
  | pfc (link : Nat) (tc : Nat) (quanta : Nat)
  /-- A read or write of server memory through an outbound host window (R377). -/
  | hostRead (addr : Nat) (len : Nat)
  | hostWrite (addr : Nat) (data : List Byte)
  /-- The answer to a BAR0 read (R375). -/
  | windowData (x : Nat) (data : List Byte)
  /-- MSI-X vector raised (R373). -/
  | msix (v : Nat)
  /-- A message to the job's lead, a member or the deputy (R235, R241, R243). -/
  | jobMessage (node : Nat) (what : Nat) (arg : Nat)
  /-- Checkpoint records streamed to the buddy, or an ACK or NAK of END (R240). -/
  | ckptBytes (slot : Bool) (off : Nat) (data : List Byte)
  | ckptAnswer (ack : Bool) (step : Word)
  /-- Working-copy tile sent to the members of a group (R229). -/
  | tile (group : Nat) (entry : Nat) (block : Nat) (data : List Byte)
  /-- Collective tiles sent to a member (R228, R233). -/
  | collTiles (coll : Nat) (member : Nat) (data : List Byte)
  /-- A frame delivered to the service processor or a stream (R257). -/
  | frame (link : Nat) (dest : Nat) (f : Frame)
  /-- The data of a fetched block brought over the mesh or over Bore (R121, R282). -/
  | fetch (conn : Nat) (addr : Nat) (len : Nat)
  /-- The answer to an SPDM vendor request: accepted or the SPDM error (R322). -/
  | spdm (sess : Nat) (ok : Bool) (data : List Byte)
  deriving DecidableEq, Repr

/-! ### Power, boot, security -/

/-- Where the device stands between power-on and IDLE (R408–R411). -/
inductive BootSt where
  /-- No rail, or reset held, or booting: the dictionary answers on no path. -/
  | down
  /-- REST reached and the boot goes on to IDLE by itself. -/
  | restBooting
  /-- The boot is done. -/
  | up
  /-- Stopped in REST with the recovery service: R39, R317 (refused class), R310 (SCRAPPED). -/
  | recoveryOrigin
  | recoveryImage
  | recoveryScrapped
  /-- Stopped in REST after a tamper alarm (R340). -/
  | tamperRest
  /-- HUSH (R379). -/
  | hush
  /-- Clocks stopped by THERMTRIP (R391). -/
  | tripped
  deriving DecidableEq, Repr

/-- An SPDM session with a verifier (R322). -/
structure SpdmSession where
  isOpen : Bool := false
  part   : Option Nat := none
  slots  : List Nat := []
  deriving DecidableEq, Repr

def spdmReset (_ : Nat) : SpdmSession := {}

/-- A job key slot's secrets (R336); its registers are object 0x1251 + n. -/
structure JobKey where
  key    : Option (BitVec 256) := none
  secret : BitVec 384 := 0
  deriving DecidableEq, Repr

def jobKeyReset (_ : Nat) : JobKey := {}

/-- A package load or export in progress (R334, R335). -/
structure PkgRun where
  part     : Nat
  export_  : Bool
  regions  : List Nat
  written  : List (Nat × Nat)
  /-- RESULT once it completes, and the chunk a failure is logged with (R342). -/
  result   : Nat
  chunk    : Nat
  deriving DecidableEq, Repr

/-- The reasons a step of the model stops with a fault. No meaning raises one: the spec gives every response of the
device as state. The host's interface needs the type. -/
inductive Fault where
  /-- Raised by nothing; safe. -/
  | never
  deriving DecidableEq, Repr

/-- The reasons a command has no meaning. -/
inductive Refusal where
  /-- Raised by `exec` for a command whose meaning is not written yet; safe. -/
  | notModelled (mnemonic : String)
  deriving DecidableEq, Repr

/-- The state of the device. -/
structure State where
  /-- Commands waiting, first in first out. -/
  pending   : List Instr
  /-- The dictionary's registers, by object number (R343). -/
  objs      : ObjTab
  /-- Scratchpads and bulk memory, by device address (R23). -/
  mem       : ByteTab
  /-- 32-byte scratchpad halves that hold an uncorrectable error, by address / 32 (R137). -/
  sramBad   : NatTab
  /-- 64-byte bulk units that are uncorrectable, by address / 64 (R153, R159). -/
  bulkBad   : NatTab
  /-- Cores C0–C15. -/
  cores     : Tab coreReset
  /-- Redirects in force (R208). -/
  redirects : List Redirect
  /-- Sync objects 0–4,095 (R194). -/
  syncs     : Tab syncReset
  /-- Partitions 0–3. -/
  parts     : Tab partReset
  /-- Collectives held, and the number of the next (R185). -/
  colls     : List Coll
  collNext  : Nat
  /-- Update engines U0–U3 (R217). -/
  engines   : Tab engineReset
  /-- Region zeroing in progress (R156). -/
  zeroJobs  : List ZeroJob
  /-- Spill rings by region (R151). -/
  rings     : Tab ringReset
  /-- The next 64 B unit each channel's patrol scrub reads (R159). -/
  patrol    : NatTab
  /-- Bank-cycle, bulk and service-processor debts in the unit of the resource, by activity (R397), and shares that
  apply from the next period (R396). -/
  debts     : NatTab
  shares    : NatTab
  /-- Dictionary masters by owner ID (R354). -/
  masters   : Tab masterReset
  sessions  : Tab sessionReset
  /-- The request the mailbox has submitted and the dictionary has not committed (R374, R376). -/
  mbWaiting : Option DictReq
  /-- MB_REQ and MB_RSP bytes, by BAR2 offset; MB_CTRL and WIN_BASE (R374). -/
  bar2      : ByteTab
  mbState   : MbState
  mbIrq     : Bool
  mbTag     : BitVec 16
  winBase   : BitVec 18
  mbDropped : Nat
  /-- A server is linked (R28). -/
  serverUp  : Bool
  chain     : Chain
  /-- Bore: connections, keys, the next work entry number, frames discarded (R282, R289, R283). -/
  conns     : Tab connReset
  keys      : Tab keyReset
  entryNext : Nat
  boreDrops : Nat
  job       : Job
  links     : Tab linkReset
  streams   : Tab streamReset
  /-- The port lasers and heaters are on, by port (R248). -/
  lasers    : NatTab
  /-- Receive lanes in loss of signal (R251), by lane. -/
  los       : NatTab
  /-- The gate list in force, by port × 4: a new list armed, entries, BASE_TIME, CYCLE_TIME (R260). -/
  gates     : NatTab
  /-- Event logs, newest first (R423), records waiting for flash, the next SEQ, the end of the block of SEQ values
  reserved, events in this millisecond, which millisecond, and a GAP due. -/
  log       : List Event
  plog      : List Event
  pwait     : List Event
  seqNext   : Nat
  seqEnd    : Nat
  msCount   : Nat
  msIndex   : Nat
  gapDue    : Bool
  /-- Window accesses discarded, counted in the PCIe unit's event log (R25). -/
  winDrops  : Nat
  /-- Power: boot state, pins, cause of the next boot (R413), the always-on store (R383), the wake timer expired. -/
  bootSt    : BootSt
  pwrGood   : Bool
  tripLow   : Bool
  bootCause : Nat
  store     : Option (Nat × Nat × Nat × Nat)
  wakeDue   : Bool
  selfRefresh : Bool
  /-- Duty: 100 µs periods with D at 4 over the limit (R389); the core the governor served last (R390). -/
  dutyLow   : Nat
  granted   : Nat
  dutyDue   : List Nat
  /-- Laser ageing logged, by engine (R400); flash sector erases, by sector (R401). -/
  laserLogged : NatTab
  laserBias : NatTab
  erases    : NatTab
  /-- What the management paths see while a partition is sealed (R327): sums at 0 on, shown power at 100 on, shown
  temperatures at 200 on, samples counted at 300. -/
  tele      : NatTab
  /-- The range a bulk test runs over, by channel: first chunk, and at 16 on the chunks (R418). -/
  tests     : NatTab
  /-- Boot flash (R406), image copies accepted at this boot, by class and copy (R411, R317). -/
  flash     : FlashTab
  accepted  : NatTab
  onChipHash : NatTab
  /-- Membership record (R414): JOB_ID and ROLE; network record: objects 0x1110.01–.09. -/
  member    : Option (Word × Nat)
  network   : Option (List Nat)
  /-- Life-cycle fuses: intent rows and state rows burned, bit j for the change to PROVISIONED, FIELD, RETURNED and SCRAPPED
  in turn (R312–R314); the identity key fuse block burned out (R313). -/
  intentRows : Nat
  stateRows : Nat
  keysGone  : Bool
  jtagOpen  : Bool
  spdm      : Tab spdmReset
  jobKeys   : Tab jobKeyReset
  pkgRun    : Option PkgRun
  /-- Service-processor pairs that restart (R426). -/
  spDown0   : Bool
  spDown1   : Bool
  /-- The model's own field: how many free values it has taken (log 4). -/
  freeCtr   : Nat
  /-- What the device has sent, newest first (the model's own record of its outputs). -/
  out       : List Output
  deriving DecidableEq, Repr

/-- The device as PORST_N leaves it with PWR_GOOD high, before BOOT: every register at its Reset column (R14), memory
zero (R136, R155, R156), nothing configured. -/
def State.reset : State where
  pending := []
  objs := .empty
  mem := .empty
  sramBad := .empty
  bulkBad := .empty
  cores := .empty
  redirects := []
  syncs := .empty
  parts := .empty
  colls := []
  collNext := 0
  engines := .empty
  zeroJobs := []
  rings := .empty
  patrol := .empty
  debts := .empty
  shares := .empty
  masters := .empty
  sessions := .empty
  mbWaiting := none
  bar2 := .empty
  mbState := .idle
  mbIrq := false
  mbTag := 0
  winBase := 0x4000
  mbDropped := 0
  serverUp := false
  chain := {}
  conns := .empty
  keys := .empty
  entryNext := 0
  boreDrops := 0
  job := {}
  links := .empty
  streams := .empty
  lasers := .empty
  los := .empty
  gates := .empty
  log := []
  plog := []
  pwait := []
  seqNext := 0
  seqEnd := 0
  msCount := 0
  msIndex := 0
  gapDue := false
  winDrops := 0
  bootSt := .down
  pwrGood := true
  tripLow := false
  bootCause := 1
  store := none
  wakeDue := false
  selfRefresh := false
  dutyLow := 0
  granted := 15
  dutyDue := []
  laserLogged := .empty
  laserBias := .empty
  erases := .empty
  tele := .empty
  tests := .empty
  flash := .empty
  accepted := .empty
  onChipHash := .empty
  member := none
  network := none
  intentRows := 3
  stateRows := 3
  keysGone := false
  jtagOpen := false
  spdm := .empty
  jobKeys := .empty
  pkgRun := none
  spDown0 := false
  spDown1 := false
  freeCtr := 0
  out := []

end Sys2Proof.Machine
end

