-- ==== Sys2Proof/Machine/Flags.lean ====
section
/-! DEFINITION. Status codes, fault codes and counters: the numbers the device answers and counts with. -/

namespace Sys2Proof.Machine

/-! ### Status codes (R346) -/

def stOk : BitVec 16 := 0x0000
def stNoObject : BitVec 16 := 0x0101
def stNoSub : BitVec 16 := 0x0102
def stReadOnly : BitVec 16 := 0x0201
def stWriteOnly : BitVec 16 := 0x0202
def stWrongState : BitVec 16 := 0x0203
def stLength : BitVec 16 := 0x0301
def stRange : BitVec 16 := 0x0302
def stSuperseded : BitVec 16 := 0x0401
def stLocked : BitVec 16 := 0x0402
def stAbandoned : BitVec 16 := 0x0403
def stSealed : BitVec 16 := 0x0501

/-! ### Fault codes (R202) -/

def fFormat : Nat := 0x01
def fParameter : Nat := 0x02
def fAddress : Nat := 0x03
def fOpcode : Nat := 0x04
def fSlot : Nat := 0x05
def fOrder : Nat := 0x06
def fSync : Nat := 0x07
def fIsolation : Nat := 0x08
def fTimeout : Nat := 0x09
def fCoreLost : Nat := 0x13

/-- The code of a HARDWARE fault (R202). -/
def hwCode : HwFault → Nat
  | .memory => 0x10
  | .check => 0x11
  | .hung => 0x12

/-- Why a command does not complete in a step: it waits, or it takes a fault of R202 (slot concerned and INFO), with
the partition aimed at for ISOLATION (R205). -/
inductive Stop where
  | wait
  | prog (code slot info : Nat)
  | iso (slot info : Nat) (aim : Option Nat)
  | hard (cause : HwFault) (slot info : Nat)
  deriving DecidableEq, Repr

/-- A result, or the reason for none. -/
abbrev Chk (α : Type) := Except Stop α

def paramFault {α : Type} : Chk α := .error (.prog fParameter 0 0)
def formatFault {α : Type} (word : Nat) : Chk α := .error (.prog fFormat 0 word)
def addressFault {α : Type} (a : Nat) : Chk α := .error (.prog fAddress 0 a)

/-- Go on when `c` holds. -/
def need (c : Bool) (e : Stop) : Chk Unit := if c then .ok () else .error e

/-- Go on when `c` holds, else the parameter fault. -/
def needParam (c : Bool) : Chk Unit := need c (.prog fParameter 0 0)

/-- A check made for a slot: the fault it takes concerns that slot (R201) unless it names one itself. -/
def atSlot {α : Type} (sl : Nat) : Chk α → Chk α
  | .error (.prog code 0 info) => .error (.prog code sl info)
  | .error (.iso 0 info aim) => .error (.iso sl info aim)
  | .error (.hard cause 0 info) => .error (.hard cause sl info)
  | x => x

/-- The detail of a fault event (R201). -/
def faultDetail (code ctx slot index info : Nat) : Nat :=
  code % 256 + ctx % 256 * 2 ^ 8 + slot % 256 * 2 ^ 16 + index % 2 ^ 32 * 2 ^ 32 + info % 2 ^ 64 * 2 ^ 64

/-! ### Counters -/

/-- A counter of `w` bits that has reached `v`. What a counter reads past its maximum is not stated (log 11). -/
def counterAt (w v : Nat) : Nat := if v < 2 ^ w then v else Config.openValue v % 2 ^ w

/-- A counter that saturates (R89). -/
def saturateAt (w v : Nat) : Nat := min v (2 ^ w - 1)

end Sys2Proof.Machine
end

