-- ==== Sys2Proof/Machine/Ops.lean ====
section
/-! DEFINITION. The named operations over State: registers, events, the address map, memory, wipes, zeroing and
faults. -/

namespace Sys2Proof.Machine

/-! ### Registers of the dictionary -/

/-- The value of a register. -/
def State.obj (s : State) (i k : Nat) : Nat := s.objs.get (objKey i k)

/-- Write a register. -/
def State.setObj (s : State) (i k v : Nat) : State := { s with objs := s.objs.set (objKey i k) v }

/-- Advance a counter of `w` bits by `n` (log 11). -/
def State.count (s : State) (i k w n : Nat) : State := s.setObj i k (counterAt w (s.obj i k + n))

/-- Advance a saturating counter (R89). -/
def State.countSat (s : State) (i k w n : Nat) : State := s.setObj i k (saturateAt w (s.obj i k + n))

def State.core (s : State) (n : Nat) : Core := s.cores.get n
def State.setCore (s : State) (n : Nat) (c : Core) : State := { s with cores := s.cores.set n c }
def State.part (s : State) (p : Nat) : Part := s.parts.get p
def State.setPart (s : State) (p : Nat) (x : Part) : State := { s with parts := s.parts.set p x }
def State.sync (s : State) (n : Nat) : Sync := s.syncs.get n
def State.setSync (s : State) (n : Nat) (x : Sync) : State := { s with syncs := s.syncs.set n x }
def State.conn (s : State) (c : Nat) : Conn := s.conns.get c
def State.setConn (s : State) (c : Nat) (x : Conn) : State := { s with conns := s.conns.set c x }
def State.link (s : State) (l : Nat) : Link := s.links.get l
def State.setLink (s : State) (l : Nat) (x : Link) : State := { s with links := s.links.set l x }
def State.stream (s : State) (c : Nat) : Stream := s.streams.get c
def State.setStream (s : State) (c : Nat) (x : Stream) : State := { s with streams := s.streams.set c x }

/-- Apply an operation for each number of a list. -/
def State.each (s : State) (l : List Nat) (f : State → Nat → State) : State := l.foldl f s

/-- Send something to the outside. -/
def State.emit (s : State) (o : Output) : State := { s with out := o :: s.out }

/-- The device clock in ns (R261, R262). -/
def State.now (s : State) : Nat := s.obj 0x40A0 0x01

/-- Take the next free 64-bit value and advance the model's own counter (log 4). -/
def State.takeFree (s : State) : BitVec 64 × State := (Config.entropy s.freeCtr, { s with freeCtr := s.freeCtr + 1 })

/-! ### Events (R422–R424) -/

/-- Codes whose records go to the persistent log (R423). -/
def persistCode (c : Nat) : Bool :=
  c == 0x0701 || (0x0A01 ≤ c && c ≤ 0x0A09) || c == 0x0C03 || c == 0x0C04 || c == 0x0C07
    || (0x0D01 ≤ c && c ≤ 0x0D05) || (0x0110 ≤ c && c ≤ 0x0112) || c == 0x0301

/-- Codes that are also sent as a NOTICE (R367–R369, R378). -/
def noticeCode (c : Nat) : Bool := (0x0B03 ≤ c && c ≤ 0x0B08) || c == 0x0B10 || c == 0x0B20

/-- The partition whose fault or violation an event reports, if it is one of those that R327 redacts. -/
def State.eventPart (s : State) (unit code detail : Nat) : Option Nat :=
  if unit < 16 ∧ 0x0100 < code ∧ code < 0x0200 then (if s.obj (0x3010 + unit) 2 < 4 then some (s.obj (0x3010 + unit) 2) else none)
  else if code = 0x0901 then some (s.conn (fieldAt detail 16 12)).part
  else if code = 0x0902 then
    (s.conns.entries.find? fun e => e.2.rnode == fieldAt detail 0 14 && e.2.rconn == fieldAt detail 16 12).map (·.2.part)
  else none

/-- Does a sealed partition hide what grant bit `k` would open: 0 counters, 1 fault detail (R327)? -/
def State.hides (s : State) (p k : Nat) : Bool := s.obj (0x1230 + p) 1 == 1 && !bitAt (s.obj (0x1230 + p) 6) k

/-- A new record, numbered when it is made (R424). One that R327 redacts keeps its full detail for LOG and is marked. -/
def State.newEvent (s : State) (unit code detail : Nat) : Event where
  time := BitVec.ofNat 64 s.now
  unit := unit
  code := code
  detail := BitVec.ofNat 128 detail
  seq := s.seqNext % 2 ^ 24
  persist := persistCode code
  redacted := match s.eventPart unit code detail with
    | some p => s.hides p 1
    | none => false
  notice := noticeCode code
  freeclk := s.obj 0x40A0 0x05 != 2
  gap := s.gapDue

/-- Log an event: dropped beyond the first 1,024 of its millisecond (R423); SEQ values come from reserved blocks of
4,096 (R424); a NOTICE goes to the management MAC (R371) and raises MSI-X vector 1 on a linked server (R373). -/
def State.logEvent (s : State) (unit code detail : Nat) : State :=
  let ms := s.now / 1000000
  let n := if ms = s.msIndex then s.msCount else 0
  if n ≥ 1024 then
    ({ s with msIndex := ms, msCount := n + 1, gapDue := true }).count 0x2400 5 32 1
  else
    let e := s.newEvent unit code detail
    { s with
      msIndex := ms
      msCount := n + 1
      gapDue := false
      log := (e :: s.log).take 4096
      pwait := if e.persist then s.pwait ++ [e] else s.pwait
      seqNext := s.seqNext + 1
      seqEnd := if s.seqNext < s.seqEnd then s.seqEnd else s.seqNext + 4096
      out := if e.notice then (if s.serverUp then .msix 1 :: .notice e :: s.out else .notice e :: s.out) else s.out }

/-! ### Partitions and cores -/

/-- The partition of a core (R161, R212.02); `none` outside every partition. -/
def State.partOf (s : State) (core : Nat) : Option Nat :=
  let p := s.obj (0x3010 + core) 2
  if p < 4 then some p else none

/-- STATE of a partition (R164): 0 FREE, 1 DEFINED, 2 LOADED, 3 RUNNING, 4 HELD. -/
def State.pstate (s : State) (p : Nat) : Nat := s.obj (0x3100 + p) 2

/-- State of a core (R212.01): 0 LIVE, 1 FENCED, 2 REJOINING, 3 UNASSIGNED. -/
def State.cstate (s : State) (c : Nat) : Nat := s.obj (0x3010 + c) 1

/-- The cores of a partition, ascending (R168). -/
def State.coresOf (s : State) (p : Nat) : List Nat := (List.range 16).filter fun c => s.partOf c == some p

/-- Is a step in progress in a partition (R142, R104)? -/
def State.stepping (s : State) (p : Nat) : Bool := s.pstate p == 3

/-- SEALED of a partition (R329). -/
def State.isSealed (s : State) (p : Nat) : Bool := s.obj (0x1230 + p) 1 == 1

/-! ### The address map (R23–R29) -/

/-- Where a device address lies. -/
inductive Place where
  | scratch (core off : Nat)
  | vault (core off : Nat)
  | control (unit : Nat)
  | bulk (off : Nat)
  | host (w off : Nat)
  | nowhere
  deriving DecidableEq, Repr

/-- Unit IDs in use (R30). -/
def unitUsed (u : Nat) : Bool :=
  u ≤ 0x13 || (0x20 ≤ u && u ≤ 0x37) || (0x40 ≤ u && u ≤ 0x42) || (0x50 ≤ u && u ≤ 0x53) || u == 0x60
    || (0x70 ≤ u && u ≤ 0x72) || u == 0x78 || u == 0x79

/-- Base of a core's window (R23). -/
def winOf (core : Nat) : Nat := core * 0x8000000
/-- Bytes of a scratchpad, and the vault's first offset (R24). -/
def scratchSize : Nat := 0x6000000
def vaultOff : Nat := 0x5C00000
def bulkBase : Nat := 0x10000000000
def bulkSize : Nat := 0x2000000000
def hostBase : Nat := 0x80000000000
def hostSize : Nat := 0x8000000000

/-- The address map (R23, R24, R27, R28). -/
def placeOf (a : Nat) : Place :=
  if a < 0x80000000 then
    let c := a / 0x8000000
    let o := a % 0x8000000
    if o < vaultOff then .scratch c o else if o < scratchSize then .vault c o else .nowhere
  else if 0x100000000 ≤ a ∧ a < 0x110000000 then
    let u := (a - 0x100000000) / 0x1000
    if unitUsed u then .control u else .nowhere
  else if bulkBase ≤ a ∧ a < bulkBase + bulkSize then .bulk (a - bulkBase)
  else if hostBase ≤ a ∧ a < 2 ^ 44 then .host ((a - hostBase) / hostSize) ((a - hostBase) % hostSize)
  else .nowhere

/-- The redirect of a failed core's working range (R208). -/
def redirectBy (rs : List Redirect) (a : Nat) : Nat :=
  match rs with
  | [] => a
  | r :: rest =>
    if winOf r.failed + r.lo ≤ a ∧ a < winOf r.failed + r.hi then winOf r.takeover + r.rrOff + (a - winOf r.failed - r.lo)
    else redirectBy rest a

/-- Does the address lie in a redirected range whose re-run has not passed its recorded commands (R209)? -/
def State.redirectBusy (s : State) (a n : Nat) : Option Nat :=
  (s.redirects.find? fun r =>
    !(s.core r.takeover).rerunLeft.isEmpty
      && decide (a < winOf r.failed + r.hi) && decide (winOf r.failed + r.lo < a + n)).map (·.takeover)

/-- Is a window usable: enabled, with a server linked (R28)? -/
def State.hostOpen (s : State) (w : Nat) : Bool := s.serverUp && s.obj (0x1140 + w) 2 == 1

/-! ### Bulk memory: interleave, regions, fronts (R139–R156) -/

/-- The channel and the channel address of a bulk offset (R140). -/
def bulkMap (w off : Nat) : Nat × Nat :=
  let slab := off / 2 ^ 30
  let o := off % 2 ^ 30
  let g := o / 256
  if slab < w then (Nat.xor (g % 16) (g / 16 % 16), slab * 2 ^ 26 + g / 16 * 256 + o % 256)
  else
    let aq := (128 - w) / 4
    let a := slab - w
    let q := a / aq
    (4 * q + Nat.xor (g % 4) (g / 4 % 4), (w + 4 * (a % aq)) * 2 ^ 26 + g / 4 * 256 + o % 256)

/-- A region record (R142, R143). -/
structure Region where
  base  : Nat
  size  : Nat
  attr  : Nat
  owner : Nat
  live  : Nat
  deriving DecidableEq, Repr

def Region.start (r : Region) : Nat := r.base * 0x200000
def Region.bytes (r : Region) : Nat := r.size * 0x200000
def Region.stop (r : Region) : Nat := r.start + r.bytes
/-- CLASS: 0 BOOT, 1 WPAIR, 2 MASTER, 3 SPILL, 4 CKPT, 5 CAPTURE, 6 POSTED, 7 HOME (R143). -/
def Region.cls (r : Region) : Nat := fieldAt r.attr 3 4
def Region.affine (r : Region) : Bool := bitAt r.attr 0
def Region.aq (r : Region) : Nat := fieldAt r.attr 1 2
def Region.cmp (r : Region) : Bool := bitAt r.attr 7
def Region.xts (r : Region) : Bool := bitAt r.attr 8
def Region.serve (r : Region) : Bool := bitAt r.attr 9

def State.region (s : State) (r : Nat) : Region :=
  ⟨s.obj (0x3420 + r) 1, s.obj (0x3420 + r) 2, s.obj (0x3420 + r) 3, s.obj (0x3420 + r) 4, s.obj (0x3420 + r) 5⟩

/-- The enabled region that holds a span of bulk offsets whole. -/
def State.regionOf (s : State) (off n : Nat) : Option Nat :=
  (List.range 64).find? fun r =>
    let g := s.region r
    decide (0 < g.size) && decide (g.start ≤ off) && decide (off + n ≤ g.stop)

/-- Has every channel's front passed the span (R155)? Checked per 256-byte granule. -/
def State.frontPassed (s : State) (off n : Nat) : Bool :=
  (List.range 16).all (fun m => s.obj 0x3460 (m + 1) == 4096)
    || (List.range ((n + 511) / 256)).all fun i =>
        let o := min (off + i * 256) (off + n - 1)
        let m := bulkMap (s.obj 0x3410 1) o
        decide (m.2 / 0x200000 < s.obj 0x3460 (m.1 + 1))

/-- Has every region front passed the span (R156)? -/
def State.zeroPassed (s : State) (off n : Nat) : Bool :=
  s.zeroJobs.all fun j => decide (off + n ≤ j.pos) || decide (j.stop ≤ off)

/-- May the span be accessed now, or does the access wait for a front (R155, R156) or for self-refresh to end (R381)? -/
def State.bulkReady (s : State) (off n : Nat) : Bool := !s.selfRefresh && s.frontPassed off n && s.zeroPassed off n

/-! ### Bytes -/

/-- A word of a core's scratchpad held in the holding buffer, if any (R127). -/
def heldData (l : List HeldWord) (w : Nat) : Option Granule := (l.find? fun h => h.word == w).map (·.data)

/-- The byte at a physical address; a held word is served from the holding buffer (R127). -/
def State.rawByte (s : State) (a : Nat) : Byte :=
  if a < 0x80000000 then
    match heldData (s.core (a / 0x8000000)).held (a % 0x8000000 / 64) with
    | some g => BitVec.ofNat 8 (g.toNat / 256 ^ (a % 64))
    | none => s.mem.get a
  else s.mem.get a

/-- The byte an engine sees at a device address, after any redirect (R208). -/
def State.byteAt (s : State) (a : Nat) : Byte := s.rawByte (redirectBy s.redirects a)

/-- `n` bytes from an address. -/
def State.bytesAt (s : State) (a n : Nat) : List Byte := (List.range n).map fun i => s.byteAt (a + i)

/-- `n` bytes read as a little-endian number (R11). -/
def State.natAt (s : State) (a n : Nat) : Nat := natOf (s.bytesAt a n)

/-- Words held for banks that the words `w0` to `w1` lie in are written back before a later write (R127). -/
def sameBanks (w0 w1 : Nat) (h : HeldWord) : Bool := (h.word % 48 + 48 - w0 % 48) % 48 ≤ w1 - w0

/-- Write held words back, oldest first (R127). -/
def putHeld (core : Nat) (m : ByteTab) : List HeldWord → ByteTab
  | [] => m
  | h :: rest => putHeld core (m.setList (winOf core + 64 * h.word) (granuleBytes h.data)) rest

/-- The number of words held is object 0x3400.05 (R129). -/
def State.setHeld (s : State) (core : Nat) (l : List HeldWord) : State :=
  (s.setCore core { s.core core with held := l }).setObj (0x3400 + core) 5 l.length

/-- Words written through a core's mover port (R125, R129). -/
def State.portWrites (s : State) (core n : Nat) : State := if n = 0 then s else s.count (0x3400 + core) 1 64 n

/-- Write back the held words of some banks, through the mover port (R125, R127). -/
def State.flushHeld (s : State) (core w0 w1 : Nat) : State :=
  let h := (s.core core).held
  if h.isEmpty then s
  else
    let due := h.filter (sameBanks w0 w1)
    let s := { s with mem := putHeld core s.mem due }
    (s.setHeld core (h.filter fun x => !sameBanks w0 w1 x)).portWrites core due.length

/-- Units of `u` bytes that a write of `n` bytes covers whole; their errors are cleared (R445, R159). -/
def clearBad (t : NatTab) (u a n : Nat) : NatTab :=
  if n < u then t else t.clear (ceilDiv a u) ((a + n) / u)

/-- Server address of a device address in an outbound host window (R28, R377). -/
def State.hostAddr (s : State) (a : Nat) : Nat := s.obj (0x1140 + (a - hostBase) / hostSize) 1 + (a - hostBase) % hostSize

/-- What one outbound host window moves: subindex 3 bytes read, 4 written (R377). -/
def State.countHost (s : State) (k a n : Nat) : State :=
  if n = 0 then s else s.count (0x1140 + (a - hostBase) / hostSize) k 64 n

/-- Read through the outbound host windows: each window's part is requested of the server (R28, R377). -/
def State.hostGet (s : State) (a n : Nat) : State :=
  let m := min n (hostSize - (a - hostBase) % hostSize)
  let s := { s with freeCtr := s.freeCtr + 1 }
  let s := (s.emit (.hostRead (s.hostAddr a) m)).countHost 3 a m
  if n = m then s else (s.emit (.hostRead (s.hostAddr (a + m)) (n - m))).countHost 3 (a + m) (n - m)

/-- Write through the outbound host windows (R28, R377). -/
def State.hostPut (s : State) (a : Nat) (bs : List Byte) : State :=
  let m := min bs.length (hostSize - (a - hostBase) % hostSize)
  let s := (s.emit (.hostWrite (s.hostAddr a) (bs.take m))).countHost 4 a m
  if bs.length = m then s
  else (s.emit (.hostWrite (s.hostAddr (a + m)) (bs.drop m))).countHost 4 (a + m) (bs.length - m)

/-- Bytes that a span in bulk memory moves through each channel: subindex 1 read, 2 written (R160; log 33). A read of server
memory is made through its window. -/
def State.countBulk (s : State) (k a n : Nat) : State :=
  if bulkBase ≤ a ∧ a < hostBase then
    (List.range 16).foldl (fun s m =>
      let c := ((List.range n).filter fun i => (bulkMap (s.obj 0x3410 1) (a + i - bulkBase)).1 == m).length
      if c = 0 then s else s.count (0x3470 + m) k 64 c) s
  else if hostBase ≤ a ∧ k = 1 ∧ 0 < n then s.hostGet a n
  else s

/-- A request for a bank of a RETAINED or OFF quadrant wakes it (R131): counted from RETAINED; the PLLs of its cores start. -/
def State.wakeQuad (s : State) (q : Nat) : State :=
  let st := s.obj (0x3490 + q) 3
  if st = 0 then s
  else
    let s := (if st = 1 then s.count (0x3490 + q) 4 32 1 else s).setObj (0x3490 + q) 3 0
    s.each [4 * q, 4 * q + 1, 4 * q + 2, 4 * q + 3] fun s c => s.setCore c { s.core c with pllStarting := !(s.core c).pll }

/-- An access to scratchpad wakes its quadrant. -/
def State.touch (s : State) (a : Nat) : State := if a < 0x80000000 then s.wakeQuad (a / 0x20000000) else s

/-- Store bytes at a physical address. -/
def State.putBytes (s : State) (a : Nat) (bs : List Byte) : State :=
  let n := bs.length
  if n = 0 then s
  else
    let s := if a < 0x80000000 then (s.touch a).flushHeld (a / 0x8000000) (a % 0x8000000 / 64) ((a + n - 1) % 0x8000000 / 64)
      else s.countBulk 2 a n
    { s with
      mem := s.mem.fill a n fun i => bs.getD i 0
      sramBad := if a < 0x80000000 then clearBad s.sramBad 32 a n else s.sramBad
      bulkBad := if a < 0x80000000 then s.bulkBad else clearBad s.bulkBad 64 a n }

/-- Store bytes at a device address, after any redirect (R208). -/
def State.writeAt (s : State) (a : Nat) (bs : List Byte) : State := s.putBytes (redirectBy s.redirects a) bs

/-- Does a scratchpad span touch a half that holds an uncorrectable error, reading whole words (R137)? -/
def State.sramError (s : State) (a n : Nat) : Bool :=
  let a := redirectBy s.redirects a
  a < 0x80000000 && s.sramBad.entries.any fun e => decide (a / 64 * 2 ≤ e.1) && decide (e.1 < ceilDiv (a + n) 64 * 2)

/-- Does a write cover an uncorrectable half in part (R445)? -/
def State.sramPartial (s : State) (a n : Nat) : Bool :=
  let a := redirectBy s.redirects a
  a < 0x80000000 && s.sramBad.entries.any fun e =>
    decide (a < e.1 * 32 + 32) && decide (e.1 * 32 < a + n)
      && !(decide (a ≤ e.1 * 32) && decide (e.1 * 32 + 32 ≤ a + n))

/-- Does a bulk span touch a unit that is uncorrectable (R153)? -/
def State.bulkError (s : State) (a n : Nat) : Bool :=
  bulkBase ≤ a && s.bulkBad.entries.any fun e => decide (a < e.1 * 64 + 64) && decide (e.1 * 64 < a + n)

/-! ### Wipes, zeroing, resets of engines (R133–R136, R90, R100) -/

/-- Number of a wipe trigger (R135). -/
def wipeNum : WipeTrigger → Nat
  | .reset => 1 | .lifeCycle => 2 | .tamper => 3 | .handOver => 4 | .sessionEnded => 5 | .fenced => 6 | .off => 7

/-- Clear bytes of one core's scratchpad: no held word and no error stays. -/
def State.clearScratch (s : State) (core lo hi : Nat) : State :=
  let s := s.setHeld core ((s.core core).held.filter fun h => decide (h.word * 64 + 64 ≤ lo) || decide (hi ≤ h.word * 64))
  { s with
    mem := s.mem.clear (winOf core + lo) (winOf core + hi)
    sramBad := s.sramBad.clear ((winOf core + lo) / 32) ((winOf core + hi) / 32) }

/-- Abort the commands a core has in flight (R134). -/
def State.abortCore (s : State) (core : Nat) : State := s.setCore core { s.core core with outst := [] }

/-- A vault wipe: content, counter, latest trigger, event (R133–R135). -/
def State.wipeVault (s : State) (core : Nat) (t : WipeTrigger) : State :=
  let s := (s.clearScratch core vaultOff scratchSize).abortCore core
  ((s.count 0x34A0 (core + 1) 32 1).setObj 0x34A0 0x11 (wipeNum t)).logEvent core 0x0201 (wipeNum t)

/-- Scratchpad zeroing (R136). -/
def State.zeroScratch (s : State) (core : Nat) : State := s.clearScratch core 0 scratchSize

/-- Vector registers and flags at their reset values (R90). -/
def Core.clearVector (c : Core) : Core := { c with vreg := .empty, sreg := .empty, flags := .empty, vec := {} }

/-- Seed the generators from the entropy source (R100): words a and b of 512 lanes. -/
def State.reseed (s : State) (core : Nat) : State :=
  let n := s.freeCtr
  { (s.setCore core { s.core core with gen := Tab.empty.fill 0 1024 fun i => Config.entropy (n + i) }) with
    freeCtr := n + 1024 }

/-! ### Faults of class PROGRAM (R201, R204) -/

/-- Tell the job's lead device (R204, R243): message `what`, argument `arg`. -/
def State.tellLead (s : State) (what arg : Nat) : State := s.emit (.jobMessage (s.obj 0x3500 3) what arg)

/-- Number of a failure cause, in the order of R243, as the member reports it. -/
def failNum : FailCause → Nat
  | .programFault => 1 | .coreLost => 2 | .bulkRead => 3 | .updateHardware => 4 | .updateParameter => 5 | .heartbeat => 6
  | .portsDown => 7 | .digest => 8

/-- This member reports a cause of R243 to the lead, with its rank. -/
def State.reportFailure (s : State) (cause : FailCause) : State := s.tellLead (0x200 + failNum cause) (s.obj 0x3500 4)

/-- The device moves between IDLE and RUN by itself (R379), and logs it (R405; log 29). -/
def State.settlePower (s : State) : State :=
  let runs := (List.range 4).any (fun p => s.pstate p == 3) || (List.range 16).any fun c => (s.core c).clock
  if s.obj 0x2000 1 = 2 ∧ runs then (s.setObj 0x2000 1 3).logEvent 0x41 0x0C01 (2 + 3 * 256)
  else if s.obj 0x2000 1 = 3 ∧ !runs then (s.setObj 0x2000 1 2).logEvent 0x41 0x0C01 (3 + 2 * 256)
  else s

/-- A partition enters HELD: the step and its update end; STEP reads the last step completed (R162, R164). -/
def State.enterHeld (s : State) (p cause : Nat) : State :=
  let s := ((s.setObj (0x3100 + p) 2 4).setObj (0x3100 + p) 0x0E cause).setObj (0x3100 + p) 6 (s.part p).lastStep
  (s.setPart p { s.part p with inStep := false, upd := .idle }).settlePower

/-- A partition enters HELD on its own; the job's lead is informed (R204, R243). -/
def State.hold (s : State) (p cause : Nat) : State := (s.enterHeld p cause).tellLead cause p

/-- A fault of class PROGRAM taken by a core's command: record, latest code, event, HELD (R201, R204). A sealed partition's
command stopped at an outbound host window is a closed access (R326). -/
def State.programFault (s : State) (core ctx slot index code info : Nat) : State :=
  let s := (s.setObj (0x3010 + core) 4 code).logEvent core (0x0100 + code) (faultDetail code ctx slot index info)
  match s.partOf core with
  | some p =>
    let s := if code = fAddress ∧ hostBase ≤ info ∧ s.isSealed p then s.count (0x1230 + p) 7 32 1 else s
    s.hold p code
  | none => s

/-- What a blocked access counts and logs at both partitions (R205). -/
def State.isolationNote (s : State) (p : Nat) (aim : Option Nat) : State :=
  let s := s.count (0x3100 + p) 0x0B 32 1
  match aim with
  | some q => (s.count (0x3100 + q) 0x0B 32 1).logEvent 0x40 0x0601 p
  | none => s

end Sys2Proof.Machine
end

