-- ==== Sys2Proof/Machine/Clock.lean ====
section
/-! DEFINITION. What happens by itself while no command waits (log 2). -/

namespace Sys2Proof.Machine

/-- Does the device clock run (R379, R391)? -/
def State.clockRuns (s : State) : Bool :=
  match s.bootSt with
  | .down => false
  | .hush => false
  | .tripped => false
  | _ => true

/-- One idle tick: the device clock advances by 1 ns while it runs (R261, R262; log 2). -/
def State.idleTick (s : State) : State :=
  if s.clockRuns then s.setObj 0x40A0 1 ((s.now + 1) % 2 ^ 64) else s

end Sys2Proof.Machine
end

