-- ==== Sys2Proof/Machine/Float.lean ====
section
/-! DEFINITION. Number formats and arithmetic (R40–R64): decoding, exact sums, rounding, the FP32 operations of the
vector row and the update engines (R93, R94, R220), and the block formats. -/

namespace Sys2Proof.Machine

/-- A value: NaN, an infinity, or (−1)^neg × m × 2^e; zero keeps its sign (R46). -/
inductive Fp where
  | nan
  | inf (neg : Bool)
  | fin (neg : Bool) (m : Nat) (e : Int)
  deriving DecidableEq, Repr

/-- A floating-point element format (R45). -/
structure FpFmt where
  mbits  : Nat
  ebits  : Nat
  bias   : Nat
  hasInf : Bool
  /-- The codes, without sign, of the largest finite value and of the canonical NaN. -/
  maxFin : Nat
  nanC   : Nat
  deriving DecidableEq, Repr

def fp32 : FpFmt := ⟨23, 8, 127, true, 0x7F7FFFFF, 0x7FC00000⟩
def bf16 : FpFmt := ⟨7, 8, 127, true, 0x7F7F, 0x7FC0⟩
def e4m3 : FpFmt := ⟨3, 4, 7, false, 0x7E, 0x7F⟩
def e5m2 : FpFmt := ⟨2, 5, 15, true, 0x7B, 0x7F⟩

/-- Bits of one element. -/
def FpFmt.bits (f : FpFmt) : Nat := f.mbits + f.ebits + 1

/-- Exponent of the smallest normal. -/
def FpFmt.emin (f : FpFmt) : Int := 1 - (f.bias : Int)

/-- The code of +∞ in a format that has one. -/
def FpFmt.infC (f : FpFmt) : Nat := f.maxFin + 1

/-- A code with its sign. -/
def FpFmt.signed (f : FpFmt) (neg : Bool) (c : Nat) : Nat := if neg then 2 ^ (f.mbits + f.ebits) + c else c

/-- The value of a code (R45, R46). -/
def FpFmt.decode (f : FpFmt) (x : Nat) : Fp :=
  let neg := bitAt x (f.mbits + f.ebits)
  let c := x % 2 ^ (f.mbits + f.ebits)
  let ex := c / 2 ^ f.mbits
  let man := c % 2 ^ f.mbits
  if c ≤ f.maxFin then
    if ex = 0 then .fin neg man (f.emin - f.mbits) else .fin neg (2 ^ f.mbits + man) ((ex : Int) - f.bias - f.mbits)
  else if f.hasInf ∧ c = f.infC then .inf neg
  else .nan

/-- Rounding modes (R43, R60); SR carries its 16-bit draw. -/
inductive Rnd where
  | rne | rtz | sr (draw : Nat)
  deriving DecidableEq, Repr

/-- m / 2^sh rounded to an integer (R60, R62). -/
def roundShift (r : Rnd) (m sh : Nat) : Nat :=
  let q := m / 2 ^ sh
  let rem := m % 2 ^ sh
  match r with
  | .rtz => q
  | .rne => if rem * 2 > 2 ^ sh ∨ (rem * 2 = 2 ^ sh ∧ q % 2 = 1) then q + 1 else q
  | .sr d => (m * 2 ^ 16 / 2 ^ sh + d) / 2 ^ 16

/-- The code, without sign and without an upper bound, of m × 2^e rounded to the format (R60, R61). -/
def FpFmt.roundCode (f : FpFmt) (r : Rnd) (m : Nat) (e : Int) : Nat :=
  if m = 0 then
    match r with
    | .sr d => d / 2 ^ 16
    | _ => 0
  else
    let top := e + (Nat.log2 m : Int)
    let ee := max top f.emin
    let u := ee - f.mbits
    let q := if e ≥ u then roundShift r (m * 2 ^ (e - u).toNat) 0 else roundShift r m (u - e).toNat
    (ee - f.emin).toNat * 2 ^ f.mbits + q

/-- What is written when a finite value overflows (R61), without sign. -/
def FpFmt.overflow (f : FpFmt) (r : Rnd) (sat : Bool) : Nat :=
  if sat then f.maxFin
  else match r with
    | .rtz => f.maxFin
    | _ => if f.hasInf then f.infC else f.nanC

/-- A written element: its code, and what R59 counts of it. -/
structure Written where
  code : Nat
  sat  : Bool
  deriving DecidableEq, Repr

/-- Conversion to a format (R60–R62). -/
def FpFmt.write (f : FpFmt) (r : Rnd) (sat : Bool) (x : Fp) : Written :=
  match x with
  | .nan => ⟨f.nanC, false⟩
  | .inf neg =>
    ⟨if sat then f.signed neg f.maxFin else if f.hasInf then f.signed neg f.infC else f.nanC, false⟩
  | .fin neg m e =>
    let c := f.roundCode r m e
    if c ≤ f.maxFin then ⟨f.signed neg c, false⟩
    else
      let o := f.overflow r sat
      ⟨if o = f.nanC ∧ ¬ f.hasInf then f.nanC else f.signed neg o, true⟩

/-- RN of R220: the FP32 pattern nearest to a value. -/
def rn32 (x : Fp) : Word := BitVec.ofNat 32 (fp32.write .rne false x).code

/-- The value of an FP32 pattern. -/
def val32 (w : Word) : Fp := fp32.decode w.toNat

/-- The canonical FP32 NaN (R45). -/
def nan32 : Word := 0x7FC00000

/-! ### Exact sums and products -/

/-- An exact dyadic number m × 2^e. -/
structure Dy where
  m : Int
  e : Int
  deriving DecidableEq, Repr

def Dy.zero : Dy := ⟨0, 0⟩

/-- The exact sum. -/
def Dy.add (a b : Dy) : Dy :=
  let e := min a.e b.e
  ⟨a.m * (2 : Int) ^ (a.e - e).toNat + b.m * (2 : Int) ^ (b.e - e).toNat, e⟩

/-- The exact product. -/
def Dy.mul (a b : Dy) : Dy := ⟨a.m * b.m, a.e + b.e⟩

/-- The signed number of a finite value. -/
def dyOf (neg : Bool) (m : Nat) (e : Int) : Dy := ⟨if neg then -(m : Int) else m, e⟩

/-- A dyadic as a value; an exact zero takes the sign given. -/
def Dy.toFp (d : Dy) (zeroNeg : Bool) : Fp :=
  if d.m = 0 then .fin zeroNeg 0 0 else .fin (decide (d.m < 0)) d.m.natAbs d.e

/-- IEEE 754 addition, exact before rounding. -/
def Fp.add (a b : Fp) : Fp :=
  match a, b with
  | .nan, _ => .nan
  | _, .nan => .nan
  | .inf s, .inf t => if s = t then .inf s else .nan
  | .inf s, .fin .. => .inf s
  | .fin .., .inf t => .inf t
  | .fin s m e, .fin t n f => ((dyOf s m e).add (dyOf t n f)).toFp (s && t && m == 0 && n == 0)

/-- IEEE 754 multiplication, exact before rounding. -/
def Fp.mul (a b : Fp) : Fp :=
  match a, b with
  | .nan, _ => .nan
  | _, .nan => .nan
  | .inf s, .inf t => .inf (s != t)
  | .inf s, .fin t n _ => if n = 0 then .nan else .inf (s != t)
  | .fin s m _, .inf t => if m = 0 then .nan else .inf (s != t)
  | .fin s m e, .fin t n f => .fin (s != t) (m * n) (e + f)

/-- Sign change. -/
def Fp.neg : Fp → Fp
  | .nan => .nan
  | .inf s => .inf (!s)
  | .fin s m e => .fin (!s) m e

/-! ### FP32 operations (R93, R94, R220) -/

def fadd (a b : Word) : Word := rn32 ((val32 a).add (val32 b))
def fsub (a b : Word) : Word := rn32 ((val32 a).add (val32 b).neg)
def fmul (a b : Word) : Word := rn32 ((val32 a).mul (val32 b))
/-- a × b + c, rounded once. -/
def ffma (a b c : Word) : Word := rn32 (((val32 a).mul (val32 b)).add (val32 c))

/-- Is the pattern a NaN? -/
def isNan32 (a : Word) : Bool := val32 a == .nan
/-- Is the pattern a NaN or an infinity (R221, R222)? -/
def nonFinite32 (a : Word) : Bool := match val32 a with | .fin .. => false | _ => true

/-- The order of two values that are not NaN, as an integer comparison: −1, 0 or 1. -/
def Fp.cmp (a b : Fp) : Int :=
  match a, b with
  | .inf s, .inf t => if s = t then 0 else if s then -1 else 1
  | .inf s, _ => if s then -1 else 1
  | _, .inf t => if t then 1 else -1
  | .fin s m e, .fin t n f => ((dyOf s m e).add (dyOf (!t) n f)).m.sign
  | _, _ => 0

def fcmp (a b : Word) : Int := (val32 a).cmp (val32 b)

/-- The canonical form of what is written: any NaN becomes the canonical one (R46). -/
def canon32 (a : Word) : Word := if isNan32 a then nan32 else a

/-- MIN (R93): NaN if either is, and −0 below +0. -/
def fmin (a b : Word) : Word :=
  if isNan32 a || isNan32 b then nan32
  else if fcmp a b < 0 then a else if fcmp a b > 0 then b
  else if a.msb then a else b

/-- MAX (R93). -/
def fmax (a b : Word) : Word :=
  if isNan32 a || isNan32 b then nan32
  else if fcmp a b > 0 then a else if fcmp a b < 0 then b
  else if a.msb then b else a

def fabs (a : Word) : Word := if isNan32 a then nan32 else a &&& 0x7FFFFFFF
def fneg (a : Word) : Word := if isNan32 a then nan32 else a ^^^ 0x80000000

/-- An exact quotient m / n × 2^e with the bits below a precise one gathered in a sticky bit. -/
def quotient (m n : Nat) (e : Int) : Nat × Int :=
  let k := 64 + Nat.log2 n
  let q := m * 2 ^ k / n
  (2 * q + (if m * 2 ^ k % n = 0 then 0 else 1), e - k - 1)

/-- IEEE 754 division. -/
def Fp.div (a b : Fp) : Fp :=
  match a, b with
  | .nan, _ => .nan
  | _, .nan => .nan
  | .inf _, .inf _ => .nan
  | .inf s, .fin t _ _ => .inf (s != t)
  | .fin s _ _, .inf t => .fin (s != t) 0 0
  | .fin s m e, .fin t n f =>
    if n = 0 then (if m = 0 then .nan else .inf (s != t))
    else if m = 0 then .fin (s != t) 0 0
    else let q := quotient m n (e - f); .fin (s != t) q.1 q.2

def fdiv (a b : Word) : Word := rn32 ((val32 a).div (val32 b))

/-- The integer square root, bit by bit. -/
def isqrtGo : Nat → Nat → Nat → Nat
  | 0, n, r => if (r + 1) * (r + 1) ≤ n then r + 1 else r
  | i + 1, n, r =>
    let r' := r + 2 ^ (i + 1)
    isqrtGo i n (if r' * r' ≤ n then r' else r)

/-- ⌊√n⌋. -/
def isqrt (n : Nat) : Nat := isqrtGo (Nat.log2 n / 2 + 1) n 0

/-- √(m × 2^e) with a sticky bit. -/
def rootOf (m : Nat) (e : Int) : Nat × Int :=
  let odd := e % 2 = 1
  let n := (if odd then 2 * m else m) * 2 ^ 128
  let h := (if odd then e - 1 else e) / 2
  let r := isqrt n
  (2 * r + (if r * r = n then 0 else 1), h - 64 - 1)

/-- IEEE 754 square root. -/
def Fp.sqrt : Fp → Fp
  | .nan => .nan
  | .inf s => if s then .nan else .inf false
  | .fin s m e => if m = 0 then .fin s 0 0 else if s then .nan else let r := rootOf m e; .fin false r.1 r.2

def fsqrt (a : Word) : Word := rn32 (val32 a).sqrt

/-- RCP (R94). -/
def frcp (a : Word) : Word := rn32 ((Fp.fin false 1 0).div (val32 a))

/-- RSQ (R94): +∞ at both zeros, NaN below zero. -/
def frsq (a : Word) : Word :=
  match val32 a with
  | .nan => nan32
  | .inf s => if s then nan32 else 0
  | .fin s m e =>
    if m = 0 then 0x7F800000
    else if s then nan32
    else
      let odd := e % 2 = 1
      let m' := if odd then 2 * m else m
      let h := (if odd then e - 1 else e) / 2
      let n := 2 ^ 192 / m'
      let r := isqrt n
      rn32 (.fin false (2 * r + (if r * r * m' = 2 ^ 192 then 0 else 1)) (-h - 96 - 1))

/-! ### EXP2 and LOG2 by interval arithmetic (R94)

The result is the exact function rounded once. Both ends of an interval that holds the exact value are rounded; they
agree, and that is the result. -/

/-- Fraction bits of the intervals. -/
def ivBits : Nat := 400

/-- The product of the interval with the interval constants 2^(2^−i) for the set bits of the fraction, most
significant first; the arguments are the bits left, the constant and the product. -/
def exp2Go : Nat → Nat → Nat × Nat → Nat × Nat → Nat × Nat
  | 0, _, _, p => p
  | n + 1, r, c, p =>
    let c' := (isqrt (c.1 * 2 ^ ivBits), isqrt (c.2 * 2 ^ ivBits) + 1)
    let p' := if bitAt r n then (p.1 * c'.1 / 2 ^ ivBits, p.2 * c'.2 / 2 ^ ivBits + 1) else p
    exp2Go n r c' p'

/-- EXP2 (R94). -/
def fexp2 (a : Word) : Word :=
  match val32 a with
  | .nan => nan32
  | .inf s => if s then 0 else 0x7F800000
  | .fin s m e =>
    if m = 0 then 0x3F800000
    else if e + (Nat.log2 m : Int) ≥ 8 then (if s then 0 else 0x7F800000)
    else
      let v : Int := if s then -(m : Int) else m
      let fb := (-e).toNat
      let n : Int := if e ≥ 0 then v * (2 : Int) ^ e.toNat else v / (2 : Int) ^ fb
      let r := if e ≥ 0 then 0 else (v % (2 : Int) ^ fb).toNat
      if r = 0 then rn32 (.fin false 1 n)
      else
        let p := exp2Go fb r (2 * 2 ^ ivBits, 2 * 2 ^ ivBits) (2 ^ ivBits, 2 ^ ivBits)
        let lo := rn32 (.fin false p.1 (n - ivBits))
        let hi := rn32 (.fin false p.2 (n - ivBits))
        if lo = hi then lo else Config.openResult 0 a 0

/-- Bits of log2 of an interval in [1, 2), most significant first, with how many were decided. -/
def log2Go : Nat → Nat × Nat → Nat × Nat → Nat × Nat
  | 0, _, acc => acc
  | n + 1, y, acc =>
    let lo := y.1 * y.1 / 2 ^ ivBits
    let hi := y.2 * y.2 / 2 ^ ivBits + 1
    if lo ≥ 2 * 2 ^ ivBits then log2Go n (lo / 2, hi / 2 + 1) (2 * acc.1 + 1, acc.2 + 1)
    else if hi < 2 * 2 ^ ivBits then log2Go n (lo, hi) (2 * acc.1, acc.2 + 1)
    else acc

/-- LOG2 (R94). -/
def flog2 (a : Word) : Word :=
  match val32 a with
  | .nan => nan32
  | .inf s => if s then nan32 else 0x7F800000
  | .fin s m e =>
    if m = 0 then 0xFF800000
    else if s then nan32
    else
      let l := Nat.log2 m
      let k : Int := e + l
      if m = 2 ^ l then rn32 ((Dy.mk k 0).toFp false)
      else
        let y := m * 2 ^ ivBits / 2 ^ l
        let b := log2Go 160 (y, y) (0, 0)
        let lo := rn32 ((Dy.mk (k * (2 : Int) ^ b.2 + b.1) (-(b.2 : Int))).toFp false)
        let hi := rn32 ((Dy.mk (k * (2 : Int) ^ b.2 + b.1 + 1) (-(b.2 : Int))).toFp false)
        if lo = hi then lo else Config.openResult 1 a 0

/-- CVT from FP32 to I32 (R93). -/
def cvtI32 (a : Word) : Word :=
  match val32 a with
  | .nan => 0
  | .inf s => if s then 0x80000000 else 0x7FFFFFFF
  | .fin s m e =>
    let t := if e ≥ 0 then m * 2 ^ e.toNat else m / 2 ^ (-e).toNat
    if s then (if t ≥ 2 ^ 31 then 0x80000000 else BitVec.ofInt 32 (-(t : Int)))
    else if t ≥ 2 ^ 31 then 0x7FFFFFFF else BitVec.ofNat 32 t

/-- CVT from I32 to FP32 (R92, R93). -/
def cvtFromI32 (a : Word) : Word := rn32 ((Dy.mk a.toInt 0).toFp false)

/-- Exact power of a value (R220: RN(B1^t) is the exact power rounded once). -/
def fpow (a : Word) (t : Nat) : Word :=
  match val32 a with
  | .nan => if t = 0 then 0x3F800000 else nan32
  | .inf s => if t = 0 then 0x3F800000 else rn32 (.inf (s && t % 2 == 1))
  | .fin s m e => rn32 (.fin (s && t % 2 == 1) (m ^ t) (e * t))

/-! ### Block formats (R47–R54, R64) -/

/-- The scale 2^(X − 127) of an E8M0 byte as an exponent (R47). -/
def scaleExp (x : Nat) : Int := (x : Int) - 127

/-- A value times 2^k. -/
def Fp.scale (x : Fp) (k : Int) : Fp :=
  match x with
  | .fin s m e => .fin s m (e + k)
  | y => y

/-- E2M1 codes (R48) as values. -/
def e2m1 (c : Nat) : Fp :=
  let m := c % 8
  let mag := match m with | 0 => 0 | 1 => 1 | 2 => 2 | 3 => 3 | 4 => 4 | 5 => 6 | 6 => 8 | _ => 12
  .fin (bitAt c 3) mag (-1)

/-- E2M3 codes (R48, R53): q/8. -/
def e2m3mag (c : Nat) : Nat :=
  let ex := c / 8 % 4
  let m := c % 8
  if ex = 0 then m else (8 + m) * 2 ^ (ex - 1)

def e2m3 (c : Nat) : Fp := .fin (bitAt c 5) (e2m3mag c) (-3)

/-- R51: the j-plane magnitude of an element whose k planes, most significant first, spell `mag`. -/
def readMagnitude (k j : Nat) (prnd : Bool) (mag : Nat) : Nat :=
  let m := mag / 2 ^ (k - j)
  if prnd && decide (j < k) && bitAt mag (k - j - 1) then min (m + 1) (2 ^ j - 1) else m

/-- R50: the value of a JP element read with j planes. -/
def jpValue (x : Nat) (neg : Bool) (j m : Nat) : Fp :=
  if x = 255 then .nan else .fin neg m (3 - (j : Int) + scaleExp x)

/-- The greatest magnitude of the finite values of a block, as ⌊log2⌋, if any is non-zero. -/
def topExp (vs : List Fp) : Option Int :=
  vs.foldl (fun acc v => match v with
    | .fin _ m e => if m = 0 then acc else
        let t := e + (Nat.log2 m : Int)
        match acc with | none => some t | some u => some (max t u)
    | _ => acc) none

/-- R52: a JP-k block of 32 values: scale byte and, for each element, sign and k-bit magnitude, with the draws for SR. -/
def quantJp (k : Nat) (rnd : Nat → Rnd) (sat : Bool) (vs : List Fp) : Nat × List (Bool × Nat) :=
  let nanBlock := (255, vs.map fun _ => (false, 0))
  if vs.any (· == .nan) then nanBlock
  else if !sat && vs.any (fun v => match v with | .inf _ => true | _ => false) then nanBlock
  else
    let vs' := vs.map fun v => match v with | .inf s => Fp.fin s (2 ^ 24 - 1) 104 | w => w
    let x : Nat := match topExp vs' with
      | none => 0
      | some t => (max 0 (min 254 (t - 2 + 127))).toNat
    (x, vs'.mapIdx fun i v => match v with
      | .fin s m e =>
        let e' := e - scaleExp x - (3 - (k : Int))
        let q := if e' ≥ 0 then roundShift (rnd i) (m * 2 ^ e'.toNat) 0 else roundShift (rnd i) m (-e').toNat
        (s, min q (2 ^ k - 1))
      | _ => (false, 0))

/-- R64: an MXFP8 block: scale byte and element codes, with what R59 counts. -/
def quantMx (f : FpFmt) (rnd : Nat → Rnd) (sat : Bool) (vs : List Fp) : Nat × List Written :=
  let emax : Int := if f = e4m3 then 8 else 15
  let x : Nat := match topExp vs with
    | none => 0
    | some t => (max 0 (min 254 (t - emax + 127))).toNat
  (x, vs.mapIdx fun i v => match v with
    | .fin .. => f.write (rnd i) true (v.scale (-(scaleExp x)))
    | w => f.write (rnd i) sat w)

/-! ### The format word (R43, R44) -/

/-- A decoded format word. -/
structure FmtWord where
  fmt  : Nat
  kst  : Nat
  krd  : Nat
  prnd : Bool
  rnd  : Nat
  sat  : Bool
  rsv  : Nat
  deriving DecidableEq, Repr

def fmtWord (w : Nat) : FmtWord :=
  ⟨fieldAt w 0 4, fieldAt w 4 3, fieldAt w 7 3, bitAt w 10, fieldAt w 11 2, bitAt w 13, fieldAt w 14 2⟩

/-- R44: is the word acceptable? `load` says it names a tile-mover load source. -/
def FmtWord.ok (f : FmtWord) (load : Bool) : Bool :=
  decide (f.fmt ≤ 8) && decide (f.rnd ≠ 3) && decide (f.rsv = 0)
    && (decide (f.fmt = 8) || (decide (f.kst = 0) && decide (f.krd = 0) && !f.prnd))
    && decide (f.krd ≤ f.kst) && (load || (decide (f.fmt ≠ 6) && decide (f.fmt ≠ 7)))

/-- Planes stored and read of a JP-k word (R43), and planes fetched (R110). -/
def FmtWord.k (f : FmtWord) : Nat := f.kst + 1
def FmtWord.j (f : FmtWord) : Nat := f.krd + 1
def FmtWord.planes (f : FmtWord) : Nat := if f.prnd && decide (f.j < f.k) then f.j + 1 else f.j

/-- The element format of FP32, BF16, FP8 and of MXFP8 elements. -/
def elemFmt (fmt : Nat) : FpFmt :=
  match fmt with
  | 0 => fp32
  | 1 => bf16
  | 2 => e4m3
  | 3 => e5m2
  | 4 => e4m3
  | _ => e5m2

/-- Element size in bytes of the plain formats and of MXFP8 elements. -/
def elemSize (fmt : Nat) : Nat := match fmt with | 0 => 4 | 1 => 2 | _ => 1

/-- The rounding mode of a format word (R43), with the draw for SR. -/
def rndOf (code draw : Nat) : Rnd := match code with | 0 => .rne | 1 => .rtz | _ => .sr draw

end Sys2Proof.Machine
end

