-- ==== Sys2Proof/Machine/Operands.lean ====
section
/-! DEFINITION. Operand forms: command words, slots, tensor descriptors and every layout (R72, R105–R111, R446), walk
descriptors (R79–R83), owner tables (R121–R123), and the spans of memory they name (R23–R29, R144, R205, R448). -/

namespace Sys2Proof.Machine

/-- Who issues a command: the core that runs it, its queue context, the core whose work it is (R208), the partition,
the command's index and its 32 bytes. -/
structure Env where
  core : Nat
  ctx  : Nat
  home : Nat
  p    : Nat
  idx  : Nat
  word : Nat
  deriving DecidableEq, Repr

/-- A field of the command word. -/
def Env.f (e : Env) (lo n : Nat) : Nat := fieldAt e.word lo n
/-- One bit of the command word. -/
def Env.b (e : Env) (i : Nat) : Bool := bitAt e.word i

/-! ### Spans of memory -/

/-- May a command of `home`'s work reach `n` bytes at `a` (R25, R26, R29, R205, R142, R326, R448)? Answers the address to use:
in a WPAIR region that of the LIVE half (R146). `wr` marks a write. -/
def spanCheck (s : State) (e : Env) (wr : Bool) (a n : Nat) : Chk Nat :=
  match placeOf a with
  | .scratch c o =>
    if s.partOf c ≠ some e.p then .error (.iso 0 a (s.partOf c))
    else if o + n > scratchSize then addressFault (winOf c + scratchSize)
    else if o + n > vaultOff then paramFault
    else match s.redirectBusy a n with
      | some t => if t = e.core then .ok a else .error .wait
      | none => .ok a
  | .vault c o =>
    if s.partOf c ≠ some e.p then .error (.iso 0 a (s.partOf c))
    else if c ≠ e.home then addressFault a
    else if o + n > scratchSize then addressFault (winOf c + scratchSize)
    else .ok a
  | .bulk o =>
    if wr then paramFault
    else match s.regionOf o 1 with
      | none => addressFault a
      | some r =>
        let g := s.region r
        if g.owner < 4 ∧ g.owner ≠ e.p then .error (.iso 0 a (some g.owner))
        else
          let half := if g.cls = 1 then g.bytes / 2 else g.bytes
          if o + n > g.start + half then addressFault a
          else if g.cls = 0 ∨ g.cls = 5 ∨ g.cls = 6 then .ok a
          else if g.cls = 1 then .ok (a + (if g.live = 1 then half else 0))
          else addressFault a
  | .host w o =>
    if s.isSealed e.p || !s.hostOpen w then addressFault a
    else if o + n > hostSize ∧ !s.hostOpen (w + 1) then addressFault (hostBase + (w + 1) * hostSize)
    else .ok a
  | .control _ => addressFault a
  | .nowhere => addressFault a

/-- Is the span in the scratchpad of the core whose work this is? -/
def inOwnScratch (e : Env) (a : Nat) : Bool :=
  match placeOf a with
  | .scratch c _ => c == e.home
  | .vault c _ => c == e.home
  | _ => false

/-- Is the span in some scratchpad? -/
def inScratch (a : Nat) : Bool :=
  match placeOf a with
  | .scratch .. => true
  | .vault .. => true
  | _ => false

/-- Bytes as a command's engine reads them. What a server answers through an outbound host window is free (log 4). -/
def State.fetchByte (s : State) (a : Nat) : Byte :=
  if hostBase ≤ a then Config.hostByte s.freeCtr (s.obj (0x1140 + (a - hostBase) / hostSize) 1 + (a - hostBase) % hostSize)
  else s.byteAt a

def State.fetchNat (s : State) (a n : Nat) : Nat := natOf ((List.range n).map fun i => s.fetchByte (a + i))

/-! ### Reads and writes of a command -/

/-- Bytes a command reads or writes: runs of (address, length). -/
abbrev Spans := List (Nat × Nat)

/-- A read of spans: a scratchpad error is a MEMORY fault (R137), an uncorrectable or unzeroed bulk unit makes the
command wait (R153, R155). -/
def readSpans (s : State) (l : Spans) : Chk Unit :=
  match l.find? fun x => s.sramError x.1 x.2 with
  | some x => .error (.hard .memory 0 x.1)
  | none =>
    if l.all fun x => !(decide (bulkBase ≤ x.1) && decide (x.1 < hostBase))
        || (s.bulkReady (x.1 - bulkBase) x.2 && !s.bulkError x.1 x.2) then .ok ()
    else .error .wait

/-- Bytes to write, by address; of two entries for one address the later wins. -/
abbrev Cells := List (Nat × Byte)

/-- Cells from consecutive bytes. -/
def cellsAt (a : Nat) (bs : List Byte) : Cells := bs.mapIdx fun i b => (a + i, b)

/-- An uncorrectable half that the cells cover in part (R445): the address of it. -/
def partialHalf (s : State) (l : Cells) : Option Nat :=
  (s.sramBad.entries.find? fun e =>
    let hit := l.filter fun c => c.1 < 0x80000000 && c.1 / 32 == e.1
    !hit.isEmpty && !((List.range 32).all fun i => hit.any fun c => c.1 % 32 == i)).map fun e => e.1 * 32

/-- Store cells; errors of halves covered whole are cleared (R445), and held words of the banks go first (R127). -/
def storeCells (s : State) (l : Cells) : State :=
  let s := l.foldl (fun s c => if c.1 < 0x80000000 then s.flushHeld (c.1 / 0x8000000) (c.1 % 0x8000000 / 64) (c.1 % 0x8000000 / 64) else s) s
  { s with
    mem := l.foldl (fun m c => m.set c.1 c.2) s.mem
    sramBad := s.sramBad.keep fun h => !(l.any fun c => c.1 / 32 == h) }

/-- Write cells through the redirect; a half that is uncorrectable and not covered whole takes the MEMORY fault (R445). -/
def commitCells (s : State) (l : Cells) : Chk State :=
  let l := l.map fun c => (redirectBy s.redirects c.1, c.2)
  match partialHalf s l with
  | some a => .error (.hard .memory 0 a)
  | none => .ok (storeCells s l)

/-! ### Tensor descriptors (R106, R107, R446) -/

/-- A decoded tensor descriptor. -/
structure Tensor where
  word   : Nat
  f      : FmtWord
  layout : Nat
  order  : Nat
  str    : Nat
  stc    : Nat
  kaxis  : Bool
  rows   : Nat
  cols   : Nat
  base   : Nat
  stride : Nat
  pitch  : Nat
  rsv    : Nat
  deriving DecidableEq, Repr

/-- The fields of R106. -/
def tensorOf (w : Nat) : Tensor where
  word := fieldAt w 0 16
  f := fmtWord (fieldAt w 0 16)
  layout := fieldAt w 16 4
  order := fieldAt w 20 2
  str := fieldAt w 22 4 + 1
  stc := fieldAt w 26 4 + 1
  kaxis := bitAt w 30
  rows := fieldAt w 32 24
  cols := fieldAt w 56 24
  base := fieldAt w 80 44
  stride := fieldAt w 128 32
  pitch := fieldAt w 160 24
  rsv := fieldAt w 31 1 + fieldAt w 124 4 + fieldAt w 184 72

/-- Tile rows and columns, super-tile rows and columns (R108). -/
def Tensor.tr (t : Tensor) : Nat := ceilDiv t.rows 512
def Tensor.tc (t : Tensor) : Nat := ceilDiv t.cols 64
def Tensor.srn (t : Tensor) : Nat := ceilDiv t.tr t.str
def Tensor.scn (t : Tensor) : Nat := ceilDiv t.tc t.stc

/-- Tiles of a tensor (R447). -/
def Tensor.tiles (t : Tensor) : Nat := if t.layout = 0 then t.srn * t.scn * t.str * t.stc else t.tr * t.tc

/-- Tile index of a tile position (R108); row-major outside BLOCKED (R447). -/
def Tensor.tileIndex (t : Tensor) (tr tc : Nat) : Nat :=
  if t.layout ≠ 0 then tr * t.tc + tc
  else
    let sr := tr / t.str; let ir := tr % t.str; let sc := tc / t.stc; let ic := tc % t.stc
    let outer := if bitAt t.order 1 then sc * t.srn + sr else sr * t.scn + sc
    let inner := if bitAt t.order 0 then ic * t.str + ir else ir * t.stc + ic
    outer * t.str * t.stc + inner

/-- Tile position of a tile index: the inverse of `tileIndex`. -/
def Tensor.tilePos (t : Tensor) (i : Nat) : Nat × Nat :=
  if t.layout ≠ 0 then (i / t.tc, i % t.tc)
  else
    let n := t.str * t.stc
    let outer := i / n; let inner := i % n
    let sr := if bitAt t.order 1 then outer % t.srn else outer / t.scn
    let sc := if bitAt t.order 1 then outer / t.srn else outer % t.scn
    let ir := if bitAt t.order 0 then inner % t.str else inner / t.stc
    let ic := if bitAt t.order 0 then inner / t.str else inner % t.stc
    (sr * t.str + ir, sc * t.stc + ic)

/-- Block index of a block row and column (R108). -/
def Tensor.block (t : Tensor) (br bc : Nat) : Nat := t.tileIndex (br / 16) (bc / 2) * 32 + br % 16 * 2 + bc % 2

/-- Bytes per block of each area (R109); a format without areas has one area, the block (R148). -/
def areaBytes (fmt k : Nat) : List Nat :=
  match fmt with
  | 0 => [4096]
  | 1 => [2048]
  | 2 => [1024]
  | 3 => [1024]
  | 6 => [32, 512]
  | 7 => [32, 768]
  | 8 => 32 :: List.replicate (k + 1) 128
  | _ => [32, 1024]

def Tensor.areas (t : Tensor) : List Nat := areaBytes t.f.fmt t.f.k

/-- Address of a block's share of an area (R108, R109). -/
def Tensor.areaAddr (t : Tensor) (a blk : Nat) : Nat := t.base + a * t.stride * 64 + blk * t.areas.getD a 0

/-- Words of a JP-k weight block in the feed placement (R72). -/
def Tensor.feedL (t : Tensor) : Nat := 5 + 4 * t.f.planes

/-- Byte address of word `w` of K block `q` in that placement (R72). -/
def Tensor.feedWord (t : Tensor) (q w : Nat) : Nat := t.base + 512 * ((t.feedL + 1) * (q / 8) + w) + 64 * (q % 8)

/-- Byte offset of weight row `k` at FP8 (R72). -/
def feedRow (k : Nat) : Nat := 16384 * (k / 256) + 512 * (k % 32) + 64 * (k / 32 % 8)

/-- Pixels in a stored input row of a CHANNELS_LAST tensor, and its rows, as a copy sees them (log 12). -/
def Tensor.rowPix (t : Tensor) : Nat := max 1 (t.pitch * 64 / (32 * elemSize t.f.fmt))
def Tensor.pixRows (t : Tensor) : Nat := ceilDiv t.rows t.rowPix

/-- Bytes from BASE over all areas (R107). -/
def Tensor.extent (t : Tensor) : Nat :=
  let es := elemSize t.f.fmt
  match t.layout with
  | 0 => (t.areas.length - 1) * t.stride * 64 + t.tiles * 32 * t.areas.getLastD 0
  | 1 => (t.rows - 1) * t.pitch + t.cols * es
  | 2 => 64 * (ceilDiv t.cols 32 * t.pixRows) * t.pitch
  | 3 => if t.f.fmt = 1 then 1024 * t.cols else if t.f.fmt = 4 ∨ t.f.fmt = 5 then 512 * 33 * ceilDiv t.cols 32 else 512 * t.cols
  | _ =>
    if t.f.fmt = 8 then
      let q := ceilDiv t.rows 32 - 1
      512 * ((t.feedL + 1) * (q / 8) + (t.feedL - 1)) + 64 * (min q 7) + 64
    else if t.f.fmt = 1 then 256 * (t.rows - 1) + 128
    else
      let m := (t.rows - 1) % 256 + 1
      16384 * ((t.rows - 1) / 256) + (if m < 32 then 512 * (m - 1) + 64 else max (512 * 31 + 64 * (m / 32)) (512 * ((m - 1) % 32) + 64 * ((m - 1) / 32) + 64))

/-- Does the layout accept the format, within its extent (R446)? -/
def Tensor.layoutOk (t : Tensor) : Bool :=
  match t.layout with
  | 0 => true
  | 1 => t.f.fmt ≤ 3
  | 2 => 1 ≤ t.f.fmt && t.f.fmt ≤ 3
  | 3 => 1 ≤ t.f.fmt && t.f.fmt ≤ 5 && t.rows ≤ 512
  | 4 => (t.f.fmt == 1 || t.f.fmt == 2 || t.f.fmt == 3 || t.f.fmt == 8) && t.cols ≤ 64
  | _ => false

/-- Plane and block-scaled formats. -/
def hasAreas (fmt : Nat) : Bool := 4 ≤ fmt

/-- The cases of R107 that a descriptor's own bits decide. -/
def Tensor.fieldsOk (t : Tensor) : Bool :=
  decide (t.layout ≤ 4) && decide (t.rsv = 0) && t.layoutOk && decide (0 < t.rows) && decide (0 < t.cols)
    && (t.layout == 0 || (t.order == 0 && t.str == 1 && t.stc == 1))
    && decide (t.base % 64 = 0)
    && (if t.layout = 1 then t.pitch % 64 == 0 else t.layout == 2 || t.pitch == 0)
    && (t.layout != 0 || !hasAreas t.f.fmt || decide (t.tiles * 32 * t.areas.foldl max 0 ≤ t.stride * 64))
    && (!(t.layout == 3 || t.layout == 4) || decide (t.base % 512 = 0))

/-- Does the tensor lie in a compressed WPAIR region (R147)? -/
def inCompressed (s : State) (a : Nat) : Bool :=
  match placeOf a with
  | .bulk o => match s.regionOf o 1 with
    | some r => (s.region r).cmp
    | none => false
  | _ => false

/-- A tensor is acceptable as a command names it (R107): its format, its fields, its extent. `load` marks a tile-mover
load source (R44), `wr` a destination. In a compressed region BASE is the directory and the tiles follow it (R147).
Answers the tensor with BASE at the address to use. -/
def tensorCheck (s : State) (e : Env) (load wr : Bool) (w : Nat) : Chk Tensor :=
  let t := tensorOf w
  if !t.f.ok load then formatFault t.word
  else if !t.fieldsOk then paramFault
  else if inCompressed s t.base then
    if ¬ (t.f.fmt = 1 ∨ t.f.fmt = 2 ∨ t.f.fmt = 3 ∨ t.f.fmt = 8) then formatFault t.word
    else if t.layout ≠ 0 then paramFault
    else do
      let a ← spanCheck s e wr t.base (t.tiles * 8)
      .ok { t with base := a }
  else do
    let a ← spanCheck s e wr t.base t.extent
    .ok { t with base := a }

/-! ### Elements -/

/-- Address of element (r, c): plain formats and the elements of MXFP8. -/
def Tensor.codeAddr (t : Tensor) (r c : Nat) : Nat :=
  let es := elemSize t.f.fmt
  match t.layout with
  | 0 => t.areaAddr (if hasAreas t.f.fmt then 1 else 0) (t.block (r / 32) (c / 32)) + (r % 32 * 32 + c % 32) * es
  | 1 => t.base + r * t.pitch + c * es
  | 2 => t.base + 64 * (c / 32 * t.pixRows + r / t.rowPix) * t.pitch + (r % t.rowPix) * (32 * es) + c % 32 * es
  | 3 =>
    if t.f.fmt = 1 then t.base + 1024 * c + 2 * r
    else if hasAreas t.f.fmt then t.base + 512 * (33 * (c / 32) + c % 32) + r
    else t.base + 512 * c + r
  | _ => if t.f.fmt = 1 then t.base + 256 * r + 2 * c else t.base + feedRow r + c

/-- The scale line within a block and the position on it (R109). -/
def Tensor.line (t : Tensor) (r c : Nat) : Nat := if t.kaxis then r % 32 else c % 32
def Tensor.pos (t : Tensor) (r c : Nat) : Nat :=
  if t.layout = 4 then r % 32 else if t.layout = 3 then c % 32 else if t.kaxis then c % 32 else r % 32

/-- Address of an element's scale byte (R72, R109). -/
def Tensor.scaleAddr (t : Tensor) (r c : Nat) : Nat :=
  match t.layout with
  | 3 => t.base + 512 * (33 * (c / 32) + 32) + r
  | 4 => t.feedWord (r / 32) 0 + c
  | _ => t.areaAddr 0 (t.block (r / 32) (c / 32)) + t.line r c

/-- Address of the 32-bit word of plane `n` (0 the sign plane) that holds a JP-k element's line (R72, R109). -/
def Tensor.planeAddr (t : Tensor) (n r c : Nat) : Nat :=
  if t.layout = 4 then t.feedWord (r / 32) (1 + 4 * n + c / 16) + c % 16 * 4
  else t.areaAddr (1 + n) (t.block (r / 32) (c / 32)) + 4 * t.line r c

/-- The number that `n` planes of a JP-k element spell, plane 1 first. -/
def Tensor.planesAt (s : State) (t : Tensor) (n r c : Nat) : Nat :=
  (List.range n).foldl (fun m i => 2 * m + (if bitAt (s.fetchNat (t.planeAddr (i + 1) r c) 4) (t.pos r c) then 1 else 0)) 0

/-- Code of an MXFP4 or MXFP6 element, packed with element 0 in the low bits (R48, R109; log 13). -/
def Tensor.mxCode (s : State) (t : Tensor) (r c : Nat) : Nat :=
  let n := if t.f.fmt = 6 then 16 else 24
  let b := if t.f.fmt = 6 then 4 else 6
  fieldAt (s.fetchNat (t.areaAddr 1 (t.block (r / 32) (c / 32)) + n * t.line r c) n) (b * t.pos r c) b

/-- The value of element (r, c) as an operand (R45–R51); padding reads +0 (R111). -/
def Tensor.value (s : State) (t : Tensor) (r c : Nat) : Fp :=
  if r ≥ t.rows ∨ c ≥ t.cols then .fin false 0 0
  else if !hasAreas t.f.fmt then (elemFmt t.f.fmt).decode (s.fetchNat (t.codeAddr r c) (elemSize t.f.fmt))
  else
    let x := (s.fetchByte (t.scaleAddr r c)).toNat
    if x = 255 then .nan
    else match t.f.fmt with
      | 6 => (e2m1 (t.mxCode s r c)).scale (scaleExp x)
      | 7 => (e2m3 (t.mxCode s r c)).scale (scaleExp x)
      | 8 =>
        let neg := bitAt (s.fetchNat (t.planeAddr 0 r c) 4) (t.pos r c)
        let p := t.f.planes
        jpValue x neg t.f.j (readMagnitude p t.f.j t.f.prnd (t.planesAt s p r c))
      | _ => ((elemFmt t.f.fmt).decode (s.fetchNat (t.codeAddr r c) 1)).scale (scaleExp x)

/-- Cells of an element code. -/
def Tensor.codeCells (t : Tensor) (r c code : Nat) : Cells := cellsAt (t.codeAddr r c) (bytesOf (elemSize t.f.fmt) code)

/-- Bits of a plane word from the elements of a line: bit b is position b. -/
def planeWord (l : List Bool) : Nat := natBits l
where
  natBits : List Bool → Nat
    | [] => 0
    | b :: r => (if b then 1 else 0) + 2 * natBits r

/-- Cells of a whole JP-k line at the line of (r, c): scale, signs, planes 1 to `n` of `k`-bit magnitudes; planes
beyond `k` are zero (R53). -/
def Tensor.jpCells (t : Tensor) (k n r c scale : Nat) (els : List (Bool × Nat)) : Cells :=
  [(t.scaleAddr r c, BitVec.ofNat 8 scale)]
    ++ cellsAt (t.planeAddr 0 r c) (bytesOf 4 (planeWord (els.map (·.1))))
    ++ ((List.range n).flatMap fun p =>
        cellsAt (t.planeAddr (p + 1) r c)
          (bytesOf 4 (planeWord (els.map fun x => decide (p < k) && bitAt x.2 (k - 1 - p)))))

/-- The 32 element positions of the scale line that holds (r, c). -/
def Tensor.linePos (t : Tensor) (r c : Nat) : List (Nat × Nat) :=
  let alongCols := if t.layout = 3 then true else if t.layout = 4 then false else t.kaxis
  (List.range 32).map fun i => if alongCols then (r, c / 32 * 32 + i) else (r / 32 * 32 + i, c)

/-- Are these a scale line's first element? -/
def Tensor.lineHead (t : Tensor) (r c : Nat) : Bool := t.pos r c == 0

/-- Cells of a scale line written from values (R52, R64, R111): padding counts as zero and is written +0. `rnd` gives
each element's rounding, by position. -/
def Tensor.lineCells (t : Tensor) (rnd : Nat → Rnd) (val : Nat → Nat → Fp) (r c : Nat) : Cells :=
  let ps := t.linePos r c
  let vs := ps.map fun q => if q.1 ≥ t.rows ∨ q.2 ≥ t.cols then Fp.fin false 0 0 else val q.1 q.2
  if t.f.fmt = 8 then
    let w := quantJp t.f.k rnd t.f.sat vs
    let els := (w.2.zip ps).map fun x => if x.2.1 ≥ t.rows ∨ x.2.2 ≥ t.cols then (false, 0) else x.1
    t.jpCells t.f.k (if t.layout = 4 then t.f.planes else t.f.k) r c w.1 els
  else
    let w := quantMx (elemFmt t.f.fmt) rnd t.f.sat vs
    (t.scaleAddr r c, BitVec.ofNat 8 w.1) :: (w.2.zip ps).flatMap fun x => t.codeCells x.2.1 x.2.2 x.1.code

/-- Spans a matrix pass reads of its operand: K columns of a FEED_ACT tensor, K rows of a FEED_WGT one (R72). -/
def Tensor.feedSpans (t : Tensor) (k : Nat) : Spans :=
  if t.layout = 3 then
    [(t.base, if t.f.fmt = 1 then 1024 * k else if hasAreas t.f.fmt then 512 * 33 * ceilDiv k 32 else 512 * k)]
  else if t.f.fmt = 8 then
    (List.range (ceilDiv k 32)).flatMap fun q => (List.range t.feedL).map fun w => (t.feedWord q w, 64)
  else (List.range k).map fun i => if t.f.fmt = 1 then (t.base + 256 * i, 128) else (t.base + feedRow i, 64)

/-- Bytes of a tile of a BLOCKED tensor, area by area. -/
def Tensor.tileSpans (t : Tensor) (i : Nat) : Spans :=
  t.areas.mapIdx fun a b => (t.areaAddr a (i * 32), 32 * b)

/-! ### Convolution walks (R79–R83) -/

/-- A decoded walk descriptor (R79). -/
structure Walk where
  inW : Nat
  inH : Nat
  outW : Nat
  outH : Nat
  cg : Nat
  groups : Nat
  batch : Nat
  gsel : Nat
  kw : Nat
  kh : Nat
  sx : Nat
  sy : Nat
  dx : Nat
  dy : Nat
  padL : Nat
  padT : Nat
  mBase : Nat
  pitch : Nat
  rsv : Nat
  deriving DecidableEq, Repr

/-- The fields of R79; `kw`, `sx`, `dx` and their like are the true counts. -/
def walkOf (w : Nat) : Walk where
  inW := fieldAt w 0 16
  inH := fieldAt w 16 16
  outW := fieldAt w 32 16
  outH := fieldAt w 48 16
  cg := fieldAt w 64 16
  groups := fieldAt w 80 16
  batch := fieldAt w 96 16
  gsel := fieldAt w 112 16
  kw := fieldAt w 128 4 + 1
  kh := fieldAt w 132 4 + 1
  sx := fieldAt w 136 2 + 1
  sy := fieldAt w 138 2 + 1
  dx := fieldAt w 140 3 + 1
  dy := fieldAt w 143 3 + 1
  padL := fieldAt w 146 7
  padT := fieldAt w 153 7
  mBase := fieldAt w 160 32
  pitch := fieldAt w 192 24
  rsv := fieldAt w 216 40

/-- The cases of R80 that the descriptor's own bits decide. -/
def Walk.fieldsOk (w : Walk) : Bool :=
  let dim (x : Nat) := decide (1 ≤ x) && decide (x ≤ 16384)
  dim w.inW && dim w.inH && dim w.outW && dim w.outH && decide (1 ≤ w.cg) && decide (1 ≤ w.groups)
    && decide (1 ≤ w.batch) && decide (w.gsel < w.groups) && decide (w.kw ≤ 15) && decide (w.kh ≤ 15)
    && decide (1 ≤ w.pitch) && decide (w.rsv = 0)
    && decide (w.padL ≤ (w.kw - 1) * w.dx) && decide (w.padT ≤ (w.kh - 1) * w.dy)
    && decide ((w.outW - 1) * w.sx + (w.kw - 1) * w.dx ≤ w.inW - 1 + (w.kw - 1) * w.dx + w.padL)
    && decide ((w.outH - 1) * w.sy + (w.kh - 1) * w.dy ≤ w.inH - 1 + (w.kh - 1) * w.dy + w.padT)
    && decide (w.batch * w.outH * w.outW ≤ 2 ^ 32)

/-- R80 with the activation's format. -/
def Walk.ok (w : Walk) (fmt : Nat) : Bool :=
  w.fieldsOk && decide (1 ≤ fmt) && decide (fmt ≤ 3) && decide (ceilDiv (w.inW * (32 * elemSize fmt)) 64 ≤ w.pitch)

/-- Channel blocks stored, and K blocks of a tap (R80, R82). -/
def Walk.ncb (w : Walk) : Nat := ceilDiv (w.cg * w.groups) 32
def Walk.kblk (w : Walk) : Nat := ceilDiv w.cg 32

/-- Bytes of the stored input (R81). -/
def Walk.inputBytes (w : Walk) : Nat := 64 * (w.batch * w.ncb * w.inH) * w.pitch

/-- Byte address of a pixel's channel (R81). -/
def Walk.addr (w : Walk) (base es b y x ch : Nat) : Nat :=
  base + 64 * ((b * w.ncb + ch / 32) * w.inH + y) * w.pitch + x * (32 * es) + ch % 32 * es

/-- Input coordinate of an output position and tap along one axis (R83); `none` outside the input. -/
def tapCoord (o stride pad k dil size : Nat) : Option Nat :=
  let v := o * stride + k * dil
  if v < pad then none else if v - pad < size then some (v - pad) else none

/-- Input value at flattened position `m`, tap (ky, kx) and channel `ch` (R83): `none` outside the input. -/
def Walk.input (s : State) (w : Walk) (t : Tensor) (m ky kx ch : Nat) : Option Fp :=
  let ox := m % w.outW; let oy := m / w.outW % w.outH; let b := m / (w.outW * w.outH)
  match tapCoord oy w.sy w.padT ky w.dy w.inH, tapCoord ox w.sx w.padL kx w.dx w.inW with
  | some y, some x =>
    some ((elemFmt t.f.fmt).decode (s.fetchNat (w.addr t.base (elemSize t.f.fmt) b y x ch) (elemSize t.f.fmt)))
  | _, _ => none

/-- Positions of the output (R82). -/
def Walk.positions (w : Walk) : Nat := w.batch * w.outH * w.outW

/-! ### Owner tables (R121–R123) -/

/-- One entry of an owner table (R121). -/
structure Owner where
  first : Nat
  nblk  : Nat
  node  : Nat
  core  : Nat
  tier  : Nat
  rsv   : Nat
  off   : Nat
  deriving DecidableEq, Repr

def ownerOf (w : Nat) : Owner :=
  ⟨fieldAt w 0 32, fieldAt w 32 32, fieldAt w 64 14, fieldAt w 78 4, fieldAt w 82 1, fieldAt w 83 5, fieldAt w 88 40⟩

/-- An owner table: its header fields and its entries (R121). -/
structure OwnerTable where
  addr    : Nat
  bb      : Nat
  gen     : Nat
  stride  : Nat
  entries : List Owner
  rsv     : Nat
  deriving DecidableEq, Repr

def tableAt (s : State) (a : Nat) : OwnerTable :=
  let h := s.fetchNat a 16
  let n := fieldAt h 0 16
  ⟨a, fieldAt h 16 16, fieldAt h 32 32, fieldAt h 64 32,
    (List.range (min n 4096)).map fun i => ownerOf (s.fetchNat (a + 16 + 16 * i) 16),
    fieldAt h 96 32 + (if n = 0 ∨ n > 4096 then 1 else 0)⟩

/-- Bytes that a range covers over its areas. -/
def Owner.bytes (t : OwnerTable) (o : Owner) : Nat := o.nblk * t.bb * 64

/-- The check of R122. -/
def OwnerTable.ok (t : OwnerTable) : Bool :=
  decide (t.rsv = 0) && decide (1 ≤ t.bb) && decide (t.bb ≤ 64)
    && t.entries.all (fun o =>
        decide (1 ≤ o.nblk) && decide (o.node < 12288) && decide (o.rsv = 0) && decide (o.off % 64 = 0)
          && (if o.tier = 0 then decide (o.off + o.bytes t ≤ vaultOff) else decide (o.core = 0) && decide (o.off + o.bytes t ≤ bulkSize)))
    && ((t.entries.zip (t.entries.drop 1)).all fun x => decide (x.1.first < x.2.first) && decide (x.1.first + x.1.nblk ≤ x.2.first))

/-- The entry that covers a block (R123). -/
def OwnerTable.find (t : OwnerTable) (b : Nat) : Option Owner :=
  t.entries.find? fun o => decide (o.first ≤ b) && decide (b < o.first + o.nblk)

end Sys2Proof.Machine
end

