-- ==== Sys2Proof/Machine/BoreBase.lean ====
section
/-! DEFINITION. What every part of Bore shares: packets and their headers (R279, R280, R304), completions (R286, R299),
sending (R279, R285), errors and flushes (R283, R292), withdrawal (R301), fabric barriers (R302, R303). -/

namespace Sys2Proof.Machine

/-- Code of a packet kind (R279). -/
def kindCode : PktKind → Nat
  | .send => 0x01 | .write => 0x02 | .writeAcc => 0x03 | .readReq => 0x04 | .readResp => 0x05 | .fetchAdd => 0x06
  | .cmpSwap => 0x07 | .atomicResp => 0x08 | .ack => 0x10 | .nak => 0x11 | .connect => 0x20 | .accept => 0x21
  | .close => 0x22 | .barrierArrive => 0x30 | .barrierRelease => 0x31

/-- Kinds that carry the extension of R280. -/
def dataKind (k : PktKind) : Bool := kindCode k ≤ 8

/-- Node of this device (R305). -/
def State.node (s : State) : Nat := s.obj 0x4200 1

/-- A packet of connection `c` with every field that has no use zero. -/
def blankPacket (s : State) (c : Nat) (k : PktKind) (psn : BitVec 24) : Packet where
  kind := k
  ver := 1
  first := false
  last := false
  ackReq := false
  ece := false
  dconn := BitVec.ofNat 12 (s.conn c).rconn
  keyId := BitVec.ofNat 4 (s.conn c).keysel
  psn := psn
  abrt := false
  snode := BitVec.ofNat 14 s.node
  offset := 0
  rkey := 0
  raddr := 0
  len := 0
  origin := 0
  accf := false
  stepRd := false
  immv := false
  imm := 0
  opnd1 := 0
  opnd2 := 0
  sconn := BitVec.ofNat 12 c
  part := BitVec.ofNat 2 (s.conn c).part
  jobId := BitVec.ofNat 32 (s.obj 0x3500 1)
  epoch := BitVec.ofNat 16 (s.obj 0x4200 0x0A)
  atomic := (s.conn c).atomic
  group := 0
  gen := 0
  tag := 0
  ce := false
  payload := []

/-- One bit as a number. -/
def bit (b : Bool) : Nat := if b then 1 else 0

/-- The base header (R279) and, for data kinds, the extension (R280), as bytes. -/
def headerBytes (p : Packet) : List Byte :=
  let base := kindCode p.kind + p.ver.toNat * 2 ^ 8 + bit p.first * 2 ^ 12 + bit p.last * 2 ^ 13 + bit p.ackReq * 2 ^ 14
    + bit p.ece * 2 ^ 15 + p.dconn.toNat * 2 ^ 16 + p.keyId.toNat * 2 ^ 28 + p.psn.toNat * 2 ^ 32 + bit p.abrt * 2 ^ 56
    + p.snode.toNat * 2 ^ 64 + p.offset.toNat * 2 ^ 96
  let ext := p.rkey.toNat + p.raddr.toNat * 2 ^ 32 + p.len.toNat * 2 ^ 96 + p.origin.toNat * 2 ^ 128
    + bit p.accf * 2 ^ 160 + bit p.stepRd * 2 ^ 161 + bit p.immv * 2 ^ 162 + p.imm.toNat * 2 ^ 192
  bytesOf 16 base ++ if dataKind p.kind then bytesOf 32 ext else []

/-- The nonce of R304. -/
def nonceOf (snode sconn : Nat) (psn : BitVec 24) (wraps : Word) : BitVec 96 :=
  BitVec.ofNat 96 (snode * 2 ^ 82 + sconn * 2 ^ 70 + psn.toNat * 2 ^ 46 + wraps.toNat * 2 ^ 14)

/-- The key of a connection, if it has a job key slot (R304, R336). -/
def State.connKey (s : State) (c : Nat) : Option (BitVec 256) :=
  if (s.conn c).keysel = 0 then none else (s.jobKeys.get (s.conn c).keysel).key

/-- Kinds that carry a PSN of the peer's numbering: answers to what it sent. -/
def answerKind : PktKind → Bool
  | .readResp => true
  | .atomicResp => true
  | .ack => true
  | .nak => true
  | _ => false

/-- The wrap count that goes with a PSN near `near`, whose own count is `w` (R304). -/
def wrapsFor (near : BitVec 24) (w : Word) (psn : BitVec 24) : Word :=
  if (psn - near).toNat < 2 ^ 23 then (if psn.toNat < near.toNat then w + 1 else w)
  else if near.toNat < psn.toNat then w - 1 else w

/-- Links of a LINK value (R282): one link, or the members of an aggregate. -/
def State.linksOf (s : State) (link : Nat) : List Nat :=
  if link < 32 then [link] else (List.range 32).filter fun l => s.obj (0x4040 + l) 7 == link - 32

/-- Bytes of the frame that carries a packet on a link (R258, R278). -/
def State.frameSize (s : State) (l : Nat) (p : Packet) : Nat :=
  18 + 4 * s.obj (0x4040 + l) 2 + (if s.obj 0x4200 2 = 6 then 40 else 20) + 8 + (headerBytes p).length
    + (if p.kind = .connect ∨ p.kind = .accept then 32 else p.payload.length) + (if p.keyId = 0 then 0 else 16)

/-- A frame leaves on the first link of the connection's that is UP (R255), and is counted there (R266; log 33). -/
def State.countFrame (s : State) (link : Nat) (p : Packet) : State :=
  match (s.linksOf link).find? fun l => s.obj (0x4040 + l) 8 != 0 with
  | some l => (s.count (0x4060 + l) 1 64 1).count (0x4060 + l) 2 64 (s.frameSize l p)
  | none => s

/-- Send a packet on a connection: sealed under its job key (R304), and counted (R306). -/
def State.sendPacket (s : State) (c : Nat) (p : Packet) : State :=
  let x := s.conn c
  let p := match s.connKey c with
    | none => p
    | some k =>
      let w := if answerKind p.kind then wrapsFor x.epsn x.rwraps p.psn else wrapsFor x.spsn x.wraps p.psn
      let n := nonceOf s.node c p.psn w
      { p with payload := Config.gcmSeal k n (headerBytes p) p.payload, tag := Config.gcmTag k n (headerBytes p) p.payload }
  (((s.count 0x4201 1 64 1).count 0x4201 3 64 p.payload.length).countFrame x.link p).emit (.packet c p)

/-- Advance the next PSN to send by `n`, counting its wraps (R294, R304). -/
def Conn.advance (x : Conn) (n : Nat) : Conn :=
  { x with spsn := x.spsn + BitVec.ofNat 24 n, wraps := x.wraps + BitVec.ofNat 32 ((x.spsn.toNat + n) / 2 ^ 24) }

/-- Connections the device holds anything for, by number. -/
def State.connList (s : State) : List Nat := s.conns.entries.map (·.1)

/-! ### Work entries (R284, R285) -/

/-- Packets of a message (R285). -/
def packetsOf (len : Nat) : Nat := max 1 (ceilDiv len 4096)

/-- Kind of the packets an entry sends (R284, R285); entries of fabric barriers keep their packet code. -/
def entryKind (op : Nat) : PktKind :=
  match op with
  | 1 => .send
  | 3 => .write
  | 4 => .writeAcc
  | 5 => .readReq
  | 6 => .fetchAdd
  | 7 => .cmpSwap
  | 0x30 => .barrierArrive
  | _ => .barrierRelease

/-- SEND, WRITE and WRITE_ACC carry the message; the others send one packet. -/
def WorkEntry.isData (e : WorkEntry) : Bool := e.op == 1 || e.op == 3 || e.op == 4
def WorkEntry.isAtomic (e : WorkEntry) : Bool := e.op == 6 || e.op == 7
def WorkEntry.isBarrier (e : WorkEntry) : Bool := 0x30 ≤ e.op
def WorkEntry.packets (e : WorkEntry) : Nat := if e.isData then packetsOf e.len else 1
/-- PSNs the entry takes: a READ's responses come on its own PSNs (R285). -/
def WorkEntry.psns (e : WorkEntry) : Nat :=
  if e.abrt then e.sent else if e.isData || e.op == 5 then packetsOf e.len else 1
/-- Nothing more of the entry is to be sent. -/
def WorkEntry.allSent (e : WorkEntry) : Bool := e.withdrawn || decide (e.packets ≤ e.sent)
/-- Is packet `i` the closing packet of R301? -/
def WorkEntry.abrtAt (e : WorkEntry) (i : Nat) : Bool := e.abrt && i + 1 == e.sent
/-- Payload bytes of packet `i`. -/
def WorkEntry.pay (e : WorkEntry) (i : Nat) : Nat := if !e.isData || e.abrtAt i then 0 else min 4096 (e.len - 4096 * i)
/-- PSN after the entry's last. -/
def WorkEntry.endPsn (e : WorkEntry) : BitVec 24 := e.psn + BitVec.ofNat 24 e.psns

/-- The entry whose turn it is to be sent: entries start in send-queue order (R285). -/
def Conn.toSend (x : Conn) : Option WorkEntry := x.sendQ.find? fun e => !e.allSent

/-! ### What Bore reaches and writes (R25, R29, R144) -/

/-- May Bore reach `n` bytes at `a` for partition `p`: its scratchpads below the vault, a POSTED region, or an open host
window? -/
def State.boreReach (s : State) (p a n : Nat) : Bool :=
  match placeOf a with
  | .scratch c o => s.partOf c == some p && decide (o + n ≤ vaultOff)
  | .bulk o => match s.regionOf o n with
    | some r => (s.region r).cls == 6 && (decide ((s.region r).owner = p) || decide (4 ≤ (s.region r).owner))
    | none => false
  | .host w o => s.hostOpen w && (decide (o + n ≤ hostSize) || s.hostOpen (w + 1))
  | _ => false

/-- Put bytes half by half, leaving a half that is uncorrectable and not covered whole as it was (R445). -/
def State.putHalves (s : State) (a : Nat) : Nat → List Byte → State
  | 0, _ => s
  | fuel + 1, bs =>
    if bs.isEmpty then s
    else
      let n := 32 - a % 32
      let s := if s.sramPartial a (min n bs.length) then s else s.writeAt a (bs.take n)
      State.putHalves s (a + n) fuel (bs.drop n)

/-- A Bore write: scratchpad words written are counted at the mover port (R125, R129). -/
def State.boreWrite (s : State) (a : Nat) (bs : List Byte) : State :=
  if hostBase ≤ a then s.hostPut a bs
  else if 0x80000000 ≤ a then s.putBytes a bs
  else (s.putHalves a (bs.length / 32 + 2) bs).count (0x3400 + redirectBy s.redirects a / 0x8000000) 1 64 (ceilDiv (a % 64 + bs.length) 64)

/-- A Bore write on behalf of a partition: what it cannot reach is not written. -/
def State.boreStore (s : State) (p a : Nat) (bs : List Byte) : State := if s.boreReach p a bs.length then s.boreWrite a bs else s

/-! ### Slots made READY (R173, R186) -/

/-- Slot keys: 0–255 for contexts 0–3, 256–511 for contexts 4–7 (R172, R208). -/
def slotKey (ctx sl : Nat) : Nat := if ctx < 4 then sl else 256 + sl

/-- Mark a slot READY by its key. -/
def State.slotReady (s : State) (core key : Nat) : State :=
  let c := s.core core
  s.setCore core { c with slots := c.slots.modify key fun x => { x with st := .ready } }

/-- Record an effect-bearing command as completed (R209). -/
def State.recordEffect (s : State) (core ctx index : Nat) : State :=
  let c := s.core core
  s.setCore core { c with ctxs := c.ctxs.modify ctx fun q => { q with effects := if index ∈ q.effects then q.effects else index :: q.effects } }

/-! ### Completions (R286, R299) -/

def ccOk : Nat := 0x00
def ccTruncated : Nat := 0x01
def ccRemoteTruncated : Nat := 0x02
def ccRemoteAccess : Nat := 0x03
def ccRemoteFault : Nat := 0x04
def ccRnr : Nat := 0x05
def ccRetry : Nat := 0x06
def ccFlushed : Nat := 0x07
def ccChainBroken : Nat := 0x08
def ccConnectTimeout : Nat := 0x09
def ccPeerReset : Nat := 0x0A
def ccAuth : Nat := 0x0B
def ccViolated : Nat := 0x0C
def ccWithdrawn : Nat := 0x0D
def ccAborted : Nat := 0x0E

/-- Codes that advance CCOUNT (R299). -/
def countsAsDone (code : Nat) : Bool := code ≤ 2

/-- A completion entry (R286). -/
def cqeBytes (wid : Word) (code : Nat) (recv immv : Bool) (conn : Nat) (lap : Byte) (bytes imm : Nat) : List Byte :=
  bytesOf 16 (wid.toNat + code * 2 ^ 32 + bit recv * 2 ^ 40 + bit immv * 2 ^ 41 + conn * 2 ^ 44 + lap.toNat * 2 ^ 56
    + bytes % 2 ^ 32 * 2 ^ 64 + imm % 2 ^ 32 * 2 ^ 96)

/-- Write an entry to the completion ring; LAP advances at each wrap (R286). -/
def State.writeCqe (s : State) (c : Nat) (wid : Word) (code : Nat) (recv immv : Bool) (bytes imm : Nat) : State :=
  let x := s.conn c
  let s := s.boreStore x.part (x.cqbase + 16 * x.cqPos) (cqeBytes wid code recv immv c x.lap bytes imm)
  let wrap := x.cqPos + 1 ≥ x.cqlen
  s.setConn c { x with cqPos := if wrap then 0 else x.cqPos + 1, lap := if wrap then x.lap + 1 else x.lap }

/-- A completion: ring entry when asked for or on failure, CCOUNT, the READY mark, the record of R209. The entry is
already off its queue. A barrier packet is no work entry and completes nothing. -/
def State.finish (s : State) (c : Nat) (e : WorkEntry) (code : Nat) (recv immv : Bool) (bytes imm : Nat) : State :=
  if e.isBarrier then s else
  let s := if e.cqe || code != ccOk then s.writeCqe c e.wid code recv immv bytes imm else s
  let s := if countsAsDone code then s.setConn c { s.conn c with ccount := (s.conn c).ccount + 1 } else s
  let s := match e.rdy with
    | some k => s.slotReady e.core k
    | none => s
  if countsAsDone code && !recv then s.recordEffect e.core e.ctx e.index else s

/-- Complete a send entry and take it off its queue. -/
def State.finishSend (s : State) (c : Nat) (e : WorkEntry) (code bytes imm : Nat) : State :=
  let x := s.conn c
  (s.setConn c { x with sendQ := x.sendQ.filter (·.id != e.id) }).finish c e code false false bytes imm

/-- Complete a posted buffer and take it off its queue. -/
def State.finishRecv (s : State) (c : Nat) (e : WorkEntry) (code bytes : Nat) (immv : Bool) (imm : Nat) : State :=
  let x := s.conn c
  (s.setConn c { x with recvQ := x.recvQ.filter (·.id != e.id), recvGot := 0, trunc := false }).finish c e code true immv bytes imm

/-- Complete every entry of a connection FLUSHED (R283). -/
def State.flushConn (s : State) (c : Nat) : State :=
  let s := (s.conn c).sendQ.foldl (fun s e => s.finishSend c e ccFlushed 0 0) s
  (s.conn c).recvQ.foldl (fun s e => s.finishRecv c e ccFlushed 0 false 0) s

/-- Entries that wait on connection `c` complete CHAIN_BROKEN when it enters ERROR (R299). -/
def State.breakChains (s : State) (c : Nat) : State :=
  s.connList.foldl (fun s d =>
    match (s.conn d).toSend with
    | some e => if d ≠ c ∧ e.chain ∧ e.cconn = c ∧ e.sent = 0 then s.finishSend d e ccChainBroken 0 0 else s
    | none => s) s

/-- Number of OPEN connections, kept at 0x4201.0F (R306). -/
def State.countOpen (s : State) : State :=
  s.setObj 0x4201 0x0F (s.connList.filter fun c => (s.conn c).st == .isOpen).length

/-- A connection enters ERROR: event 0x0903, entries FLUSHED, chains broken (R283, R299, R307). -/
def State.connError (s : State) (c err : Nat) : State :=
  let s := s.setConn c { s.conn c with st := .error, err := BitVec.ofNat 8 err }
  (((s.logEvent 0x79 0x0903 (c * 2 ^ 16 + err * 2 ^ 28)).flushConn c).breakChains c).countOpen

/-- A FREE context keeps its configuration and nothing else. -/
def Conn.freed (x : Conn) : Conn :=
  { st := .free, part := x.part, atomic := x.atomic, fetch := x.fetch, rnode := x.rnode, rconn := x.rconn,
    link := x.link, tc := x.tc, vid := x.vid, keysel := x.keysel, cqbase := x.cqbase, cqlen := x.cqlen, fkey := x.fkey }

/-- Partition hand-over and REST: entries FLUSHED, CLOSE sent, FREE (R283, R381). -/
def State.connHandOver (s : State) (c : Nat) : State :=
  if (s.conn c).st = .free then s
  else
    let s := s.flushConn c
    let s := s.sendPacket c (blankPacket s c .close (s.conn c).spsn)
    (s.setConn c (s.conn c).freed).countOpen

/-! ### Sending (R279, R285, R294) -/

/-- Packet `i` of an entry; its payload is read from the source at the time (R296). -/
def State.entryPacket (s : State) (c : Nat) (e : WorkEntry) (i : Nat) : Packet :=
  let b := blankPacket s c (entryKind e.op) (e.psn + BitVec.ofNat 24 i)
  if e.isBarrier then
    { b with first := true, last := true, group := BitVec.ofNat 12 e.raddr, gen := BitVec.ofNat 16 e.len }
  else
    { b with
      first := i == 0
      last := e.abrtAt i || i + 1 == e.packets
      abrt := e.abrtAt i
      offset := BitVec.ofNat 31 (if e.isData then 4096 * i else 0)
      rkey := if e.op = 1 then 0 else e.rkey
      raddr := BitVec.ofNat 44 (if e.op = 1 then 0 else e.raddr)
      len := BitVec.ofNat 32 e.len
      origin := if e.op = 4 ∨ e.isAtomic then e.origin else if e.stepRd then e.step else 0
      accf := e.accf
      stepRd := e.stepRd
      immv := e.immv
      imm := if e.immv then e.imm else 0
      opnd1 := if e.isAtomic then e.opnd1 else 0
      opnd2 := if e.isAtomic then e.opnd2 else 0
      payload := (List.range (e.pay i)).map fun j => s.fetchByte (e.laddr + 4096 * i + j) }

/-- Replace an entry of a send queue. -/
def putEntry (q : List WorkEntry) (e : WorkEntry) : List WorkEntry := q.map fun y => if y.id = e.id then e else y

/-- Send the next `n` packets of an entry, on fresh PSNs. -/
def State.transmit (s : State) (c : Nat) (e : WorkEntry) (n : Nat) : State :=
  let x := s.conn c
  let e := if e.sent = 0 then { e with psn := x.spsn } else e
  let s := (List.range n).foldl (fun s i => (s.countBulk 1 (e.laddr + 4096 * (e.sent + i)) (e.pay (e.sent + i))).sendPacket c (s.entryPacket c e (e.sent + i))) s
  let bytes := ((List.range n).map fun i => e.pay (e.sent + i)).sum
  let x := (s.conn c).advance (if e.isData then n else e.psns)
  s.setConn c { x with inflight := x.inflight + bytes, sendQ := putEntry x.sendQ { e with sent := e.sent + n } }

/-- Send barrier packets whose turn it is. -/
def State.pumpBarrier (s : State) (c : Nat) : State :=
  (s.conn c).sendQ.foldl (fun s _ =>
    match (s.conn c).toSend with
    | some e => if e.isBarrier then s.transmit c e 1 else s
    | none => s) s

/-! ### Accumulate on receive (R228, R300) -/

/-- The format of accumulated values: FP32, or BF16 with ACCF. -/
def laneFmt (accf : Bool) : FpFmt := if accf then bf16 else fp32
def laneBytes (accf : Bool) : Nat := if accf then 2 else 4

/-- RN(a + b) in the format of ACCF. -/
def laneAdd (accf : Bool) (a b : Nat) : Nat :=
  ((laneFmt accf).write .rne false (((laneFmt accf).decode a).add ((laneFmt accf).decode b))).code

/-- The values that bytes spell. -/
def lanesOf (accf : Bool) (bs : List Byte) : List Nat := (chunks (laneBytes accf) bs.length bs).map natOf

/-- The bytes that values make. -/
def laneList (accf : Bool) (l : List Nat) : List Byte := l.flatMap (bytesOf (laneBytes accf))

/-- dst ← RN(dst + src), value by value. -/
def accBytes (accf : Bool) (dst src : List Byte) : List Byte :=
  laneList accf (List.zipWith (laneAdd accf) (lanesOf accf dst) (lanesOf accf src))

/-! ### Withdrawal (R301) -/

/-- Withdraw one send entry: unsent, it completes WITHDRAWN; partly sent, a packet with LAST and ABRT follows; any other
stays until its answer comes. -/
def State.withdrawEntry (s : State) (c : Nat) (e : WorkEntry) : State :=
  if e.sent = 0 then s.finishSend c e ccWithdrawn 0 0
  else
    let partly := e.isData && decide (e.sent < e.packets)
    let e := { e with withdrawn := true, abrt := partly, sent := if partly then e.sent + 1 else e.sent }
    let s := if partly then s.sendPacket c (s.entryPacket c e (e.sent - 1)) else s
    let x := s.conn c
    s.setConn c { x.advance (if partly then 1 else 0) with sendQ := putEntry x.sendQ e }

/-- Withdraw what a core has posted and what has not completed. -/
def State.withdraw (s : State) (core : Nat) : State :=
  s.connList.foldl (fun s c =>
    (((s.conn c).sendQ.filter (·.core == core)).foldl (fun s e => s.withdrawEntry c e) s).pumpBarrier c) s

/-! ### Fabric barriers (R302, R303) -/

/-- A barrier group entry (R302). -/
structure BarrierGroup where
  ndev  : Nat
  conn0 : Nat
  mlist : Nat
  deriving DecidableEq, Repr

/-- Entry `g` of the group table, if it names 1 to 12,288 devices. -/
def State.barrierGroup (s : State) (g : Nat) : Option BarrierGroup :=
  let w := s.natAt (s.obj 0x4200 0x0B + 16 * g) 16
  let n := fieldAt w 0 14
  if g < s.obj 0x4200 0x0C ∧ 1 ≤ n ∧ n ≤ 12288 then some ⟨n, fieldAt w 16 12, fieldAt w 32 44⟩ else none

/-- This device's position in the member list. -/
def State.barrierIndex (s : State) (b : BarrierGroup) : Option Nat :=
  (List.range b.ndev).find? fun i => s.natAt (b.mlist + 2 * i) 2 == s.node

/-- How many children member `i` has. -/
def BarrierGroup.kids (b : BarrierGroup) (i : Nat) : Nat := min 8 (b.ndev - (8 * i + 1))

/-- A send entry that carries a barrier packet. -/
def barrierEntry (id code group gen : Nat) : WorkEntry where
  id := id
  op := code
  cqe := false
  immv := false
  stepRd := false
  accf := false
  chain := false
  cconn := 0
  ctgt := 0
  laddr := 0
  len := gen
  rkey := 0
  raddr := group
  opnd1 := 0
  opnd2 := 0
  imm := 0
  wid := 0
  core := 16
  ctx := 0
  index := 0
  origin := 0
  step := 0
  rdy := none
  sent := 0
  psn := 0
  got := 0
  rnr := 0
  withdrawn := false
  abrt := false
  armed := false

/-- Queue a barrier packet on an OPEN connection, behind what it holds already. -/
def State.sendBarrier (s : State) (c : Nat) (k : PktKind) (group gen : Nat) : State :=
  let x := s.conn c
  if x.st = .isOpen then
    ({ s.setConn c { x with sendQ := x.sendQ ++ [barrierEntry s.entryNext (kindCode k) group gen] } with
       entryNext := s.entryNext + 1 }).pumpBarrier c
  else s

/-- The generation of a fabric barrier completes: the release goes to the children, the generation advances, and arrivals
held for it count (R303). -/
def State.barrierDone (s : State) (n : Nat) (b : BarrierGroup) (i : Nat) : State :=
  let x := s.sync n
  let s := (List.range (b.kids i)).foldl (fun s j => s.sendBarrier (b.conn0 + 1 + j) .barrierRelease x.grp x.gen) s
  s.setSync n { x with
    gen := (x.gen + 1) % 2 ^ 16, arrivals := x.arrivals - x.need, sentUp := false, children := x.nextGen, nextGen := [] }

/-- The arrival of a device: when its local arrivals have reached PART and every child has arrived, it goes to the parent,
or at the root completes the generation (R303). -/
def State.barrierTry (s : State) (n : Nat) : State :=
  let x := s.sync n
  match s.barrierGroup x.grp with
  | none => s
  | some b => match s.barrierIndex b with
    | none => s
    | some i =>
      if x.sentUp || decide (x.arrivals < x.need) || !((List.range (b.kids i)).all fun j => decide (j ∈ x.children)) then s
      else if i = 0 then s.barrierDone n b i
      else (s.setSync n { x with sentUp := true }).sendBarrier b.conn0 .barrierArrive x.grp x.gen

end Sys2Proof.Machine
end

