-- ==== Sys2Proof/Machine/Issue.lean ====
section
/-! DEFINITION. How a core's sequencer takes the command at the head of a queue context: the checks of R170–R175, the
scoreboard, faults, the fencing of a core (R206, R207), and partition hand-over (R163). -/

namespace Sys2Proof.Machine

/-! ### Fencing (R206, R207) -/

/-- Why a core's work cannot be re-run, as the reason of R202; 0 when it can. -/
def State.rerunRefused (s : State) (p core : Nat) : Nat :=
  let c := s.core core
  let x := s.part p
  if c.carries.isSome then 4
  else if !x.rerun then 1
  else if x.rrSize < c.wrHi - c.wrLo then 2
  else if (s.coresOf p).any fun d => d != core && s.cstate d == 0 && (s.core d).carries.isNone then 0
  else 3

/-- The takeover core (R207): the lowest-numbered LIVE core of the quadrant, else of the partition, that carries nothing. -/
def State.takeover (s : State) (p core : Nat) : Option Nat :=
  let free := (s.coresOf p).filter fun d => d != core && s.cstate d == 0 && (s.core d).carries.isNone
  match free.find? fun d => d / 4 == core / 4 with
  | some d => some d
  | none => free.head?

/-- A HARDWARE fault fences the core (R202, R206): record, event, wipe, withdrawal; its work goes to a takeover core, or
the partition is HELD with CORE_LOST (R207). -/
def State.fenceCore (s : State) (core ctx slot index : Nat) (cause : HwFault) (info : Nat) : State :=
  let code := hwCode cause
  let s := (s.setObj (0x3010 + core) 4 code).logEvent core (0x0100 + code) (faultDetail code ctx slot index info)
  let refused := match s.partOf core with
    | some p => s.rerunRefused p core
    | none => 0
  let s := (s.wipeVault core .fenced).setObj (0x3010 + core) 1 1
  let s := s.setCore core { s.core core with clock := false, gated := false, kept := [] }
  let s := s.withdraw core
  let s := { s with colls := s.colls.filter fun x => x.core != core || x.done }
  let s := (s.tellLead code core).settlePower
  match s.partOf core with
  | none => s
  | some p =>
    if refused ≠ 0 then s.programFault core ctx 0 index fCoreLost (core + refused * 256)
    else match s.takeover p core with
      | none => s
      | some t => (s.setCore t { s.core t with carries := some core }).setObj (0x3010 + core) 3 t

/-! ### Command faults -/

/-- The end of a command's attempt: done, or stopped with the effects that stay (R180). -/
inductive Res where
  | ok (s : State)
  | stop (s : State) (why : Stop)
  deriving DecidableEq, Repr

/-- A check and what follows it. -/
def Res.of (s : State) : Chk State → Res
  | .ok t => .ok t
  | .error e => .stop s e

/-- What a stop does (R201–R206). A command that waits changes nothing; an access that a seal closes is counted (R326). -/
def State.applyStop (s : State) (e : Env) : Stop → State
  | .wait => s
  | .prog code slot info =>
    let s := if code = fAddress ∧ s.isSealed e.p ∧ hostBase ≤ info ∧ info < 2 ^ 44 then s.count (0x1230 + e.p) 7 32 1 else s
    s.programFault e.core e.ctx slot e.idx code info
  | .iso slot info aim => (s.isolationNote e.p aim).programFault e.core e.ctx slot e.idx fIsolation info
  | .hard cause slot info => s.fenceCore e.core e.ctx slot e.idx cause info

/-! ### The head of a queue -/

/-- The core whose work a context does (R170, R208). -/
def State.homeOf (s : State) (core ctx : Nat) : Option Nat := if ctx < 4 then some core else (s.core core).carries

/-- Opcodes and the queues that accept them (R175): queue 0 MQ, 1 VQ, 2 TQ, 3 XQ. -/
def opAccepted (op q : Nat) : Bool :=
  match op with
  | 0x01 => q == 0 | 0x02 => q == 0 | 0x03 => q == 1
  | 0x10 => q == 2 | 0x11 => q == 2 | 0x12 => q == 2 | 0x13 => q == 2 | 0x14 => q == 2 | 0x15 => q == 2 | 0x16 => q == 2
  | 0x20 => q == 3 | 0x21 => q == 3 | 0x34 => q == 3
  | 0x30 => true | 0x31 => true | 0x32 => true | 0x33 => true | 0x38 => true | 0x3F => true
  | _ => false

/-- Address of the command at the head of a context. -/
def headAddr (home : Nat) (q : QCtx) : Nat := winOf home + q.base + 32 * q.ptr

/-- The command a context could issue now: its partition RUNNING a step, the core LIVE with its clock, the context live
and not blocked (R162, R170, R195). -/
def State.headEnv (s : State) (core ctx : Nat) : Option Env :=
  let c := s.core core
  let q := c.ctxs.get ctx
  match s.partOf core, s.homeOf core ctx with
  | some p, some home =>
    if s.pstate p = 3 ∧ (s.part p).inStep ∧ s.cstate core = 0 ∧ c.clock ∧ q.live ∧ !q.ended ∧ q.blocked = .no ∧ q.ptr < q.len then
      some ⟨core, ctx, home, p, q.ptr, s.natAt (headAddr home q) 32⟩
    else none
  | _, _ => none

/-- A command has issued: counted (R212.07), the context moves on, and a recorded command counts as passed (R209). -/
def State.issued (s : State) (e : Env) : State :=
  let s := s.count (0x3010 + e.core) 7 64 1
  let c := s.core e.core
  s.setCore e.core { c with
    ctxs := c.ctxs.modify e.ctx fun q => { q with ptr := e.idx + 1 }
    rerunLeft := c.rerunLeft.filter (· != e.ctx * 2 ^ 18 + e.idx) }

/-- Take the head of a context as the command `op`. Another command at the head, or one that must wait, leaves the state
as it is; an opcode the queue does not accept faults (R175). -/
def issue (op core ctx : Nat) (s : State) (run : Env → State → Res) : State :=
  match s.headEnv core ctx with
  | none => s
  | some e =>
    if s.sramError (headAddr e.home ((s.core core).ctxs.get ctx)) 32 then
      (s.count (0x3010 + core) 7 64 1).fenceCore core ctx 0 e.idx .memory (headAddr e.home ((s.core core).ctxs.get ctx))
    else if !opAccepted (e.word % 256) (ctx % 4) then (s.count (0x3010 + core) 7 64 1).applyStop e (.prog fOpcode 0 (e.word % 256))
    else if e.word % 256 ≠ op then s
    else match run e s with
      | .ok s' => s'.issued e
      | .stop _ .wait => s
      | .stop s' why => (s'.count (0x3010 + core) 7 64 1).applyStop e why

/-! ### Fields and the scoreboard -/

/-- Are all bits outside the listed fields (start, width) clear (R13, R175)? -/
def onlyFields (w : Nat) (fs : List (Nat × Nat)) : Bool := w == fs.foldl (fun a f => a + fieldAt w f.1 f.2 * 2 ^ f.1) 0

/-- A command's fields: reserved bits set take the parameter fault (R175). Bits [7:0] are OP. -/
def fieldsOnly (e : Env) (fs : List (Nat × Nat)) : Chk Unit := needParam (onlyFields e.word ((0, 8) :: fs))

/-- A slot of the command's context (R172). -/
def State.slotOf (s : State) (e : Env) (sl : Nat) : Slot := (s.core e.core).slots.get (slotKey e.ctx sl)

/-- Write a slot of the command's context. -/
def State.setSlot (s : State) (e : Env) (sl : Nat) (x : Slot) : State :=
  s.setCore e.core { s.core e.core with slots := (s.core e.core).slots.set (slotKey e.ctx sl) x }

/-- The content of a slot as a number. -/
def State.content (s : State) (e : Env) (sl : Nat) : Nat := (s.slotOf e sl).content.toNat

/-- The tensor in a slot that a command names; a fault concerns that slot (R201). -/
def slotTensor (s : State) (e : Env) (load wr : Bool) (sl : Nat) : Chk Tensor :=
  atSlot sl (tensorCheck s e load wr (s.content e sl))

def kTensor : Nat := 0
def kWalk : Nat := 1
def kList : Nat := 2
def kTable : Nat := 3
def kProgram : Nat := 4
def kWork : Nat := 5
def kFlag : Nat := 6

/-- The issue rules of the scoreboard (R173): sources READY with room for a reader, destinations not WRITING and unread;
then the kinds. A slot both read and written counts as a destination only. -/
def board (s : State) (e : Env) (srcs dsts : List (Nat × Nat)) : Chk Unit :=
  let srcs := srcs.filter fun x => !(dsts.any fun d => d.1 == x.1)
  if srcs.any fun x => (s.slotOf e x.1).st != .ready || (s.slotOf e x.1).readers ≥ 255 then .error .wait
  else if dsts.any fun x => (s.slotOf e x.1).st == .writing || (s.slotOf e x.1).readers != 0 then .error .wait
  else match (srcs ++ dsts).find? fun x => (s.slotOf e x.1).kind.toNat != x.2 with
    | some x => .error (.prog fSlot x.1 (x.2 + (s.slotOf e x.1).kind.toNat * 256))
    | none => .ok ()

/-- The first slot whose kind is wrong, among those named, as a SLOT fault. -/
def kindFault (s : State) (e : Env) (sl kind : Nat) : Chk Unit :=
  need ((s.slotOf e sl).kind.toNat == kind) (.prog fSlot sl (kind + (s.slotOf e sl).kind.toNat * 256))

/-- Does a destination overlap a queue placed in the core's scratchpad (R174)? -/
def overQueue (s : State) (e : Env) (a n : Nat) : Bool :=
  (s.core e.home).queues.any fun q =>
    decide (a < winOf e.home + q.2.1 + 32 * q.2.2) && decide (winOf e.home + q.2.1 < a + n)

/-- Does a span lie, in whole or in part, outside the working range of the core whose work this is (R209)? -/
def outsideRange (s : State) (e : Env) (a n : Nat) : Bool :=
  let c := s.core e.home
  !(decide (winOf e.home + c.wrLo ≤ a) && decide (a + n ≤ winOf e.home + c.wrHi))

/-- Is this command recorded as completed by the failed core (R209)? -/
def State.recorded (s : State) (e : Env) : Bool := e.idx ∈ ((s.core e.core).ctxs.get e.ctx).skip

/-- The queue holds an unfenced write (R191). -/
def State.noteWrite (s : State) (e : Env) : State :=
  let c := s.core e.core
  s.setCore e.core { c with ctxs := c.ctxs.modify e.ctx fun q => { q with unfenced := 0b1111 } }

/-- Destinations become WRITING and the command outstanding until the last word is written (R173). -/
def State.startWrites (s : State) (e : Env) (dsts : List Nat) (effect : Bool) : State :=
  let c := s.core e.core
  s.setCore e.core { c with
    slots := dsts.foldl (fun t d => t.modify (slotKey e.ctx d) fun x => { x with st := .writing }) c.slots
    outst := c.outst ++ dsts.map fun d => ⟨e.ctx, e.idx, slotKey e.ctx d, none, effect⟩ }

/-- Is any earlier command of the context not complete (R188, R189)? -/
def State.ctxBusy (s : State) (core ctx : Nat) : Bool := (s.core core).outst.any (·.ctx == ctx)

/-! ### Partition hand-over (R163) -/

/-- Clear what a core holds for a partition: queues, slots, contexts, records. Its scratchpad is wiped and zeroed, its
generators reseeded, its vector row cleared. With no trigger of its own the wipe is merged into one in progress (R135). -/
def State.handOverCore (t : Option WipeTrigger) (s : State) (core : Nat) : State :=
  let s := match t with
    | some t => s.wipeVault core t
    | none => s
  let s := (s.zeroScratch core).reseed core
  let c := s.core core
  let s := s.setCore core (Core.clearVector { c with
    undrained0 := none, undrained1 := none, mqCtx := none, panel0 := none, panel1 := none
    slots := .empty, shadow := .empty, ctxs := .empty, queues := [], outst := [], wrLo := 0, wrHi := 0, logical := 0
    carries := none, rerunLeft := [], kept := [], clock := false, gated := false })
  { s with redirects := s.redirects.filter fun r => r.failed != core && r.takeover != core }

/-- Hand-over of a partition's cores, sync objects, collectives and Bore connections. What a seal holds is kept: DISSOLVE
clears it. -/
def State.handOver (s : State) (p : Nat) (cores : List Nat) (t : Option WipeTrigger) : State :=
  let s := s.each cores (State.handOverCore t)
  let s := { s with
    syncs := s.syncs.keep fun n => (s.sync n).part != some p
    colls := s.colls.filter fun x => x.part != p }
  let s := s.connList.foldl (fun s c => if (s.conn c).part = p then s.connHandOver c else s) s
  let x := s.part p
  (s.setPart p { lastStep := x.lastStep, xtsKeys := x.xtsKeys, wk := x.wk, rs := x.rs, ownerPub := x.ownerPub, exportPub := x.exportPub
                 imageKey := x.imageKey, modelId := x.modelId, exported := x.exported, pkgAddr := x.pkgAddr, pkgHash := x.pkgHash
                 bound := x.bound }).settlePower

/-- State and owner of a core: 0x3010 + n subindexes 1 to 3 (R212). -/
def State.assignCore (s : State) (core st p : Nat) : State :=
  ((s.setObj (0x3010 + core) 1 st).setObj (0x3010 + core) 2 p).setObj (0x3010 + core) 3 0xFF

end Sys2Proof.Machine
end

