-- ==== Sys2Proof/Machine/DictBase.lean ====
section
/-! DEFINITION. What every command that is a dictionary request shares: masters and their epochs (R354), locks
(R356–R358), when the dictionary answers (R371, R408–R411, R426), and the status it answers with (R346). -/

namespace Sys2Proof.Machine

/-! ### Masters (R354) -/

/-- PATH of an owner ID. -/
def pathNum : Path → Nat
  | .firmware => 0 | .chain => 1 | .mgmt => 2 | .pcie => 3

/-- The owner ID of a master: TAGNO is 0 on the chain and the PCIe mailbox. -/
def ownerId (m : Master) : Nat :=
  (if m.path = .chain ∨ m.path = .pcie then 0 else m.tag.toNat) + pathNum m.path * 2 ^ 14

/-- The owner IDs of the chain master and the PCIe master. -/
def chainOwner : Nat := 2 ^ 14
def pcieOwner : Nat := 3 * 2 ^ 14

/-- Owner IDs end below this; the entry of `State.masters` at it counts the resets, which advance every epoch. -/
def allOwners : Nat := 65536

/-- The owner epoch of an ID. -/
def State.epochOf (s : State) (id : Nat) : Word := (s.masters.get id).epoch + (s.masters.get allOwners).epoch

/-- Unit a lock event of an owner is logged under (R378). -/
def ownerUnit (id : Nat) : Nat :=
  if id < 2 ^ 14 then 0x40 else if id < 2 * 2 ^ 14 then 0x70 else if id < 3 * 2 ^ 14 then 0x72 else 0x71

/-- A lock whose holder's epoch advances is abandoned (R357). -/
def State.abandon (s : State) (id : Nat) : State :=
  s.each (List.range 16) fun s n =>
    if (s.obj (0x1180 + n) 2 = 1 ∨ s.obj (0x1180 + n) 2 = 3) ∧ s.obj (0x1180 + n) 3 = id then
      ((s.setObj (0x1180 + n) 2 2).count (0x1180 + n) 5 32 1).logEvent (ownerUnit id) 0x0B20
        (n + id * 2 ^ 16 + s.obj (0x1180 + n) 4 * 2 ^ 32)
    else s

/-- The epoch of one owner advances. -/
def State.advanceEpoch (s : State) (id : Nat) : State :=
  ({ s with masters := s.masters.modify id fun x => { x with epoch := x.epoch + 1 } }).abandon id

/-- The epochs of every firmware task advance (R354, R426): those the dictionary has served. -/
def State.advanceFirmware (s : State) : State :=
  s.each ((s.masters.entries.map (·.1)).filter (· < 2 ^ 14)) State.advanceEpoch

/-! ### Locks (R356, R357) -/

/-- The lock that guards an object. -/
def lockOf (i : Nat) : Option Nat :=
  if i = 0x4210 ∨ i = 0x4211 then some 0
  else if i = 0x4220 ∨ i = 0x4221 then some 1
  else if 0x2200 ≤ i ∧ i ≤ 0x22FF then some 2
  else if i = 0x3410 ∨ (0x3420 ≤ i ∧ i ≤ 0x345F) then some 3
  else none

/-- Does an owner hold a lock? -/
def State.holdsLock (s : State) (id n : Nat) : Bool :=
  (s.obj (0x1180 + n) 2 == 1 || s.obj (0x1180 + n) 2 == 3) && s.obj (0x1180 + n) 3 == id

/-- What a guarded write meets: nothing, 0x0203 on a FREE lock, 0x0402 on another's (R357). -/
def State.lockStatus (s : State) (id i : Nat) : Option (BitVec 16) :=
  match lockOf i with
  | none => none
  | some n => if s.obj (0x1180 + n) 2 = 0 then some stWrongState else if s.holdsLock id n then none else some stLocked

/-! ### When the dictionary answers -/

/-- Has the device stopped in REST with the recovery service (R410, R411)? -/
def State.recovering (s : State) : Bool :=
  s.bootSt == .recoveryOrigin || s.bootSt == .recoveryImage || s.bootSt == .recoveryScrapped

/-- Does the dictionary answer on a path: in REST or above (R408), neither pair restarting (R426), a server linked for
the mailbox? -/
def State.dictUp (s : State) (p : Path) : Bool :=
  !(s.bootSt == .down || s.bootSt == .hush || s.bootSt == .tripped) && !s.spDown0 && !s.spDown1
    && (p != .pcie || s.serverUp)

/-- Is the session of a management master open (R371)? -/
def State.sessionOk (s : State) (m : Master) : Bool := m.path != .mgmt || (s.sessions.get m.tag.toNat).isOpen

/-- What the recovery service serves (R411): 0x1000–0x1027 and 0x1200 always, more outside SCRAPPED. -/
def State.served (s : State) (i k : Nat) (wr : Bool) : Bool :=
  (decide (0x1000 ≤ i) && decide (i ≤ 0x1027) && !wr)
    || (i == 0x1200 && (!wr || k == 2 || k == 3))
    || (s.bootSt != .recoveryScrapped
        && (i == 0x1100 || i == 0x1110 || i == 0x1111 || i == 0x5040
          || (!wr && (i == 0x1210 || i == 0x1220 || i == 0x2400 || i == 0x2401))
          || (i == 0x5060 && s.bootSt == .recoveryImage)))

/-- Does a device hold a slot (R365, R370): SLOT and POD are both set? -/
def State.hasSlot (s : State) : Bool := s.obj 0x1100 3 != 0xFFFF

/-- Does a request on a path reach the dictionary? On the chain a device answers to its slot alone, and receives nothing in
FALLBACK (R365, R367). -/
def State.reaches (s : State) (p : Path) : Bool := s.dictUp p && (p != .chain || (s.hasSlot && s.obj 0x1100 6 != 2))

/-- A valid frame on the chain: STATE leaves BREAK, the silence ends (R369), and after a BREAK of 10 ms or more the chain
master's epoch advances (R354). -/
def State.chainHeard (s : State) : State :=
  let s := if s.obj 0x1100 6 = 1 then s.setObj 0x1100 6 0 else s
  let long := s.chain.breakLong
  let s := { s with chain := { s.chain with silentLogged := false, breakLong := false } }
  if long then s.advanceEpoch chainOwner else s

/-- What receiving a request does on its path. -/
def State.heard (s : State) (p : Path) : State := if p = .chain then s.chainHeard else s

/-! ### Writes with a behaviour of their own -/

/-- What a write does: the state after it and its status; a write refused leaves the state but for what it counts. -/
abbrev Act := State → State × BitVec 16

/-- A status that leaves the state. -/
def refuse (c : BitVec 16) : Act := fun s => (s, c)

/-- A write that goes on when `c` holds, else is refused. -/
def require (s : State) (c : Bool) (st : BitVec 16) (f : State × BitVec 16) : State × BitVec 16 := if c then f else (s, st)

/-- The write as its object's rules and its lock decide, in the order of R346: 0x0501, 0x0402, then the rest. -/
def State.guarded (s : State) (m : Master) (i k : Nat) (f : Act) : State × BitVec 16 :=
  if s.recovering && !s.served i k true then (s, stWrongState)
  else
    let r := f s
    if r.2 = stSealed then r
    else match s.lockStatus (ownerId m) i with
      | some c => (s, c)
      | none => r

/-- A write that a sealed partition closes: counted (R326). -/
def sealedBy (p : Nat) : Act := fun s => (s.count (0x1230 + p) 7 32 1, stSealed)

/-- A command that is one dictionary write: no response while the dictionary is down, 0x0203 without a session (R371),
else the write's status. -/
def State.act (s : State) (m : Master) (i k : Nat) (f : Act) : State :=
  if !s.reaches m.path then s
  else if !s.sessionOk m then s.emit (.status m stWrongState)
  else
    let r := (s.heard m.path).guarded m i k f
    r.1.emit (.status m r.2)

end Sys2Proof.Machine
end

