-- ==== Sys2Proof/Machine/Bulk.lean ====
section
/-! DEFINITION. Bulk memory at rest: the slab map (R139–R141), regions and their zeroing (R142, R143, R156, R325), the
zeroing fronts (R155), re-reads (R153) and patrol scrub (R159). -/

namespace Sys2Proof.Machine

/-! ### Zeroing (R155, R156) -/

/-- Do the bulk channels run: out of self-refresh, in IDLE or above (R379, R381)? -/
def State.bulkActive (s : State) : Bool := !s.selfRefresh && decide (2 ≤ s.obj 0x2000 1)

/-- Bulk bytes read as zero from now on; no error stays. -/
def State.clearBulk (s : State) (lo hi : Nat) : State :=
  { s with
    mem := s.mem.clear (bulkBase + lo) (bulkBase + hi)
    bulkBad := s.bulkBad.clear ((bulkBase + lo) / 64) ((bulkBase + hi) / 64) }

/-- Zeroing of all bulk memory restarts from chunk 0 (R156). The content goes at once: an access above a front waits for
it, so nothing reads what the front has not yet passed (R155). -/
def State.restartZeroing (s : State) : State :=
  let s := { s.clearBulk 0 bulkSize with rings := .empty }
  (s.each (List.range 16) fun s m => s.setObj 0x3460 (m + 1) 0).setObj 0x3460 0x11 0

/-- ZEROING: a channel's front passes its next chunk of 2 MiB. -/
def State.zeroChunk (s : State) (m : Nat) : State :=
  let f := s.obj 0x3460 (m + 1)
  if s.bulkActive ∧ f < 4096 then
    let s := (s.setObj 0x3460 (m + 1) (f + 1)).count (0x3470 + m) 2 64 0x200000
    if (List.range 16).all fun k => s.obj 0x3460 (k + 1) == 4096 then s.setObj 0x3460 0x11 1 else s
  else s

/-- ZEROING. -/
def execZeroing (ch : ChanId) (s : State) : Host.Outcome State Fault Refusal := .next (s.zeroChunk ch)

/-- Zeroing of a span for a region starts with a front of its own; its ring is empty (R152, R156). -/
def State.zeroSpan (s : State) (r lo n : Nat) : State :=
  if n = 0 then s
  else
    let s := s.clearBulk lo (lo + n)
    let jobs := (s.zeroJobs.filter fun j => !(j.region == r && decide (lo ≤ j.pos) && decide (j.stop ≤ lo + n))) ++ [⟨r, lo, lo + n⟩]
    State.setObj { s with zeroJobs := jobs, rings := s.rings.set r {} } (0x3420 + r) 6 1

/-- REGION_ZEROING: the region's fronts pass their next 2 MiB; with none left the region is ready, or disabled. -/
def State.zeroRegionStep (s : State) (r : Nat) : State :=
  if !s.bulkActive || !(s.zeroJobs.any fun j => j.region == r) then s
  else
    let s := (s.zeroJobs.filter fun j => j.region == r).foldl (fun s j => s.countBulk 2 (bulkBase + j.pos) 0x200000) s
    let jobs := (s.zeroJobs.map fun j => if j.region = r then { j with pos := j.pos + 0x200000 } else j).filter fun j => decide (j.pos < j.stop)
    let s := { s with zeroJobs := jobs }
    if jobs.any fun j => j.region == r then s
    else s.setObj (0x3420 + r) 6 (if s.obj (0x3420 + r) 2 = 0 then 0 else 2)

/-- REGION_ZEROING. -/
def execRegionZeroing (r : RegionId) (s : State) : Host.Outcome State Fault Refusal := .next (s.zeroRegionStep r)

/-! ### SLAB_MAP_WRITE (R141) -/

/-- A write of W: in IDLE with no partition defined. -/
def slabMapAct (v : Nat) : Act := fun s =>
  if s.obj 0x2000 1 ≠ 2 ∨ (List.range 4).any (fun p => s.pstate p != 0) then (s, stWrongState)
  else if v % 4 ≠ 0 ∨ v < 4 ∨ 128 < v then (s, stRange)
  else (((s.setObj 0x3410 1 v).setObj 0x3410 2 ((128 - v) / 4)).restartZeroing, stOk)

/-- SLAB_MAP_WRITE. -/
def execSlabMapWrite (m : Master) (v : Byte) (s : State) : Host.Outcome State Fault Refusal :=
  .next (s.act m 0x3410 1 (slabMapAct v.toNat))

/-! ### REGION_WRITE (R142, R143, R156, R325) -/

/-- Slabs of the region's kind (R139, R143); a disabled region covers none. -/
def Region.slabsOk (w : Nat) (g : Region) : Bool :=
  if g.size = 0 then true
  else
    let lo := g.base / 512
    let hi := (g.base + g.size - 1) / 512
    let a := (128 - w) / 4
    if g.affine then decide (w + g.aq * a ≤ lo) && decide (hi < w + (g.aq + 1) * a) else decide (hi < w)

/-- The cases of R143 that the record alone decides, and the reserved values. -/
def Region.recordOk (g : Region) : Bool :=
  decide (g.attr < 1024) && decide (g.cls < 8) && (decide (g.owner < 4) || g.owner == 0xFF)
    && (g.cls != 1 || decide (g.size % 2 = 0)) && (!g.cmp || g.cls == 1) && (!g.serve || g.cls == 1)
    && (!(g.cls == 7 || g.cls == 4) || !g.affine) && (g.affine || g.aq == 0)

/-- Does an enabled region overlap another enabled one? -/
def State.regionClash (s : State) (r : Nat) (g : Region) : Bool :=
  (List.range 64).any fun k =>
    let h := s.region k
    k != r && decide (0 < g.size) && decide (0 < h.size) && decide (g.base < h.base + h.size) && decide (h.base < g.base + g.size)

/-- ATTR with its XTS bit as given. -/
def withXts (attr : Nat) (b : Bool) : Nat := attr - (if bitAt attr 8 then 256 else 0) + (if b then 256 else 0)

/-- The record that a write asks for. A region newly given to a sealed partition takes XTS = 1 (R325); one given away
from it loses the bit (log 34). -/
def State.regionAsk (s : State) (g : Region) (f : RegionField) (v : Nat) : Region :=
  match f with
  | .base => { g with base := v }
  | .size => { g with size := v }
  | .attr => { g with attr := v }
  | .owner => if v = g.owner then g else { g with owner := v, attr := withXts g.attr (decide (v < 4) && s.isSealed v) }

/-- A write closed by a seal (R325): XTS cleared, or BASE or SIZE changed but for disabling. -/
def State.regionClosed (s : State) (g h : Region) (f : RegionField) : Bool :=
  decide (g.owner < 4) && s.isSealed g.owner && match f with
    | .base => h.base != g.base
    | .size => h.size != g.size && h.size != 0
    | .attr => g.xts && !h.xts
    | .owner => false

/-- The span that a change of record zeroes (R156): bulk offset and length. -/
def zeroedBy (g h : Region) : Nat × Nat :=
  if 0 < g.size ∧ h.size = 0 then (g.start, g.bytes)
  else if h.size = 0 then (0, 0)
  else if g.size ≠ h.size ∨ g.base ≠ h.base ∨ g.owner ≠ h.owner then (h.start, h.bytes)
  else (0, 0)

/-- Store a region record; LIVE is 0 when disabled and outside WPAIR (R142). -/
def State.putRegion (s : State) (r : Nat) (g h : Region) : State :=
  let i := 0x3420 + r
  let s := (((s.setObj i 1 h.base).setObj i 2 h.size).setObj i 3 h.attr).setObj i 4 h.owner
  let s := if h.size = 0 ∨ h.cls ≠ 1 then s.setObj i 5 0 else s
  s.zeroSpan r (zeroedBy g h).1 (zeroedBy g h).2

/-- A write of a region record. -/
def regionAct (r : Nat) (f : RegionField) (v : Nat) : Act := fun s =>
  let g := s.region r
  let h := s.regionAsk g f v
  if s.regionClosed g h f then (s, stSealed)
  else if (decide (g.owner < 4) && s.stepping g.owner) || (decide (h.owner < 4) && s.stepping h.owner) then (s, stWrongState)
  else if !h.recordOk || !h.slabsOk (s.obj 0x3410 1) || s.regionClash r h
      || (h.xts && !(decide (h.owner < 4) && s.isSealed h.owner)) then (s, stRange)
  else (s.putRegion r g h, stOk)

/-- Subindex of a region field (R142). -/
def regionSub : RegionField → Nat
  | .base => 1 | .size => 2 | .attr => 3 | .owner => 4

/-- REGION_WRITE. -/
def execRegionWrite (m : Master) (r : RegionId) (f : RegionField) (v : BitVec 16) (s : State) : Host.Outcome State Fault Refusal :=
  .next (s.act m (0x3420 + r) (regionSub f) (regionAct r f v.toNat))

/-! ### Errors (R153, R159, R160) -/

/-- The bulk offset of a channel address: the inverse of R140. -/
def bulkUnmap (w ch c : Nat) : Nat :=
  if c / 2 ^ 26 < w then
    let row := c % 2 ^ 26 / 256
    c / 2 ^ 26 * 2 ^ 30 + (row * 16 + Nat.xor (row % 16) ch) * 256 + c % 256
  else
    let a := (128 - w) / 4
    let x := c - w * 2 ^ 26
    let row := x % 2 ^ 28 / 256
    (w + ch / 4 * a + x / 2 ^ 28) * 2 ^ 30 + (row * 4 + Nat.xor (row % 4) (ch % 4)) * 256 + c % 256

/-- The key in `State.bulkBad` of a channel's 64-byte unit. -/
def State.unitKey (s : State) (ch unit : Nat) : Nat := (bulkBase + bulkUnmap (s.obj 0x3410 1) ch (64 * unit)) / 64

/-- A location uncorrectable after its re-read: counted, reported, logged with requester 0 compute or 1 patrol (R153,
R159, R425). -/
def State.bulkFault (s : State) (ch unit who : Nat) : State :=
  let s := { s with bulkBad := s.bulkBad.set (s.unitKey ch unit) 1 }
  (((s.count (0x3470 + ch) 4 32 1).count (0x3470 + ch) 5 32 1).setObj (0x3470 + ch) 7 (64 * unit)).logEvent (0x20 + ch) 0x0301
    (64 * unit + who * 2 ^ 44)

/-- BULK_REREAD: a good re-read delivers its data; an uncorrectable one stalls the command of partition `p`, and the job's
lead is informed (R153, R243). -/
def State.bulkReread (s : State) (ch unit : Nat) (good : Bool) (p : Nat) : State :=
  if 2 ^ 27 ≤ unit then s
  else if good then
    (State.count { s with bulkBad := s.bulkBad.set (s.unitKey ch unit) 0 } (0x3470 + ch) 4 32 1).countSat (0x3480 + p) 6 32 1
  else ((s.bulkFault ch unit 0).countSat (0x3480 + p) 7 32 1).reportFailure .bulkRead

/-- BULK_REREAD. -/
def execBulkReread (ch : ChanId) (unit : Nat) (good : Bool) (p : PartId) (s : State) : Host.Outcome State Fault Refusal :=
  .next (s.bulkReread ch unit good p)

/-- Scrub debt is cleared when a pass completes with none of it spent (R397): debts 0 and 1, spent marks at 16 and 17. -/
def State.passDone (s : State) (act : Nat) : State :=
  if s.debts.get (16 + act) = 0 then State.setObj { s with debts := s.debts.set act 0 } (0x2101 + act) 6 0
  else { s with debts := s.debts.set (16 + act) 0 }

/-- PATROL_SCRUB: the next 64-byte unit below the channel's zeroing front; a pass ends at the front (R159). A corrected
error counts as subindex 0x03 (log 35). -/
def State.patrolStep (s : State) (ch : Nat) (found : EccFind) : State :=
  let top := s.obj 0x3460 (ch + 1) * 32768
  let u := s.patrol.get ch
  if !s.bulkActive || top == 0 || s.obj 0x2102 3 == 0 then s
  else
    let u := if u < top then u else 0
    let s := s.count (0x3470 + ch) 1 64 64
    let s := match found with
      | .clean => s
      | .corrected => s.count (0x3470 + ch) 3 32 1
      | .uncorrectable => s.bulkFault ch u 1
    if u + 1 < top then { s with patrol := s.patrol.set ch (u + 1) }
    else (State.count { s with patrol := s.patrol.set ch 0 } (0x3470 + ch) 6 32 1).passDone 1

/-- PATROL_SCRUB. -/
def execPatrolScrub (ch : ChanId) (found : EccFind) (s : State) : Host.Outcome State Fault Refusal := .next (s.patrolStep ch found)

end Sys2Proof.Machine
end

