-- ==== Sys2Proof/Machine/Streams.lean ====
section
/-! DEFINITION. Camera stream ingest (R268–R276): stream contexts, frames, capture rings and freezing at a step boundary. -/

namespace Sys2Proof.Machine

/-! ### Geometry (R270, R271, R273) -/

/-- A register of a stream context. -/
def State.strReg (s : State) (c k : Nat) : Nat := s.obj (0x4100 + c) k

/-- Bytes and pixels of a pgroup, by SAMPLING (R270). -/
def pgBytes (sampling : Nat) : Nat := match sampling with | 1 => 15 | 2 => 4 | 3 => 5 | _ => 3
def pgPixels (sampling : Nat) : Nat := match sampling with | 1 => 4 | 2 => 2 | 3 => 2 | _ => 1

/-- Round up to a multiple of 64. -/
def up64 (n : Nat) : Nat := ceilDiv n 64 * 64

/-- LB: bytes of a stored RAW line (R271). -/
def State.lineStride (s : State) (c : Nat) : Nat :=
  ceilDiv (s.strReg c 0x0A * pgBytes (s.strReg c 9)) (pgPixels (s.strReg c 9) * 64) * 64

/-- Bytes of a line as received. -/
def State.lineBytes (s : State) (c : Nat) : Nat :=
  min (s.lineStride c) (ceilDiv (s.strReg c 0x0A) (pgPixels (s.strReg c 9)) * pgBytes (s.strReg c 9))

/-- Columns of the three BF16 planes (R270). -/
def State.planeCols (s : State) (c : Nat) : List Nat :=
  let w := s.strReg c 0x0A
  if s.strReg c 9 = 2 ∨ s.strReg c 9 = 3 then [w, w / 2, w / 2] else [w, w, w]

/-- Offset of plane `i` in the frame data (R271). -/
def State.planeOff (s : State) (c i : Nat) : Nat := (((s.planeCols c).take i).map fun w => s.strReg c 0x0B * up64 (2 * w)).sum

/-- Largest frame a FRAMES context stores: MAXFRAME of its ports (R273). -/
def State.strMaxFrame (s : State) (c : Nat) : Nat :=
  (List.range 8).foldl (fun m p => if bitAt (s.strReg c 3) p then max m (s.obj (0x4000 + p) 3) else m) 0

/-- Bytes of the frame data (R271, R273). -/
def State.frameData (s : State) (c : Nat) : Nat :=
  if s.strReg c 2 = 1 then s.strMaxFrame c
  else if s.strReg c 0x0C = 1 then s.planeOff c 3
  else s.strReg c 0x0B * s.lineStride c

/-- Bytes of the line map (R273). -/
def State.mapLen (s : State) (c : Nat) : Nat := ceilDiv (s.strReg c 0x0B) 512 * 64

/-- SLEN (R273). -/
def State.slen (s : State) (c : Nat) : Nat := 128 + s.mapLen c + up64 (s.frameData c)

/-- Where the ring, slot `n` and its frame data lie; the blank frame stands before slot 0 (R275). -/
def State.ringAddr (s : State) (c : Nat) : Nat := bulkBase + (s.region (s.strReg c 0x0D)).start
def State.slotAddr (s : State) (c n : Nat) : Nat := s.ringAddr c + 2048 + s.slen c * (1 + n)
def State.dataAddr (s : State) (c n : Nat) : Nat := s.slotAddr c n + 128 + s.mapLen c
def State.blankData (s : State) (c : Nat) : Nat := s.ringAddr c + 2048 + 128 + s.mapLen c

/-- The stream engine writes only inside its CAPTURE region (R144, R145). -/
def State.strPut (s : State) (c a : Nat) (bs : List Byte) : State :=
  let g := s.region (s.strReg c 0x0D)
  if g.cls = 5 ∧ bulkBase + g.start ≤ a ∧ a + bs.length ≤ bulkBase + g.stop then s.putBytes a bs else s

/-! ### Enabling a context (R268, R273) -/

/-- Another enabled context. -/
def State.strOthers (s : State) (c : Nat) : List Nat := (List.range 48).filter fun d => d != c && s.strReg d 1 == 1

/-- May the context be enabled as it is configured? -/
def State.strOk (s : State) (c : Nat) : Bool :=
  let g := s.region (s.strReg c 0x0D)
  let video := s.strReg c 2 == 0
  g.cls == 5 && decide (0 < g.size) && (s.strOthers c).all (fun d => s.strReg d 0x0D != s.strReg c 0x0D)
    && (s.strOthers c).all (fun d => !(s.strReg d 4 == s.strReg c 4 && s.strReg d 5 == s.strReg c 5))
    && s.strReg c 5 != s.obj 0x4200 6
    && (!video || (decide (1 ≤ s.strReg c 0x0A) && decide (1 ≤ s.strReg c 0x0B)
        && !((s.strReg c 9 == 2 || s.strReg c 9 == 3) && s.strReg c 0x0A % 2 == 1)))
    && decide (s.strReg c 0x0F + 2 ≤ s.strReg c 0x0E) && decide (2048 + s.slen c * (1 + s.strReg c 0x0E) ≤ g.bytes)

/-- The context is enabled: its slots are free and its blank frame zero (R273). -/
def State.strEnable (s : State) (c : Nat) : State :=
  let s := (s.setObj (0x4100 + c) 1 1).setStream c {}
  let lo := (s.region (s.strReg c 0x0D)).start + 2048
  s.clearBulk lo (lo + s.slen c)

/-! ### Frames (R272, R274) -/

/-- STATE of a slot header. -/
def capNum : CapSt → Nat
  | .free => 0 | .filling => 1 | .closed => 2 | .frozen => 3

def State.capSlot (s : State) (c n : Nat) : CapSlot := (s.stream c).slots.get n
def State.setCap (s : State) (c n : Nat) (x : CapSlot) : State :=
  s.setStream c { s.stream c with slots := (s.stream c).slots.set n x }

/-- A VIDEO slot header, with LINES and bits 240 to 243. -/
def capHeader (x : CapSlot) (lines flags : Nat) : List Byte :=
  bytesOf 128 (x.frameNo.toNat + x.ts.toNat * 2 ^ 32 + x.ssrc.toNat * 2 ^ 64 + x.tFirst.toNat * 2 ^ 96 + x.tLast.toNat * 2 ^ 160
    + lines % 65536 * 2 ^ 224 + flags * 2 ^ 240 + capNum x.st * 2 ^ 244 + x.lost.toNat * 2 ^ 256)

/-- Change a slot's state, in its header too: bits [245:244]. -/
def State.capState (s : State) (c n : Nat) (st : CapSt) : State :=
  let s := s.setCap c n { s.capSlot c n with st := st }
  let b := (s.byteAt (s.slotAddr c n + 30)).toNat
  s.strPut c (s.slotAddr c n + 30) [BitVec.ofNat 8 (b % 16 + capNum st * 16 + b / 64 * 64)]

/-- The oldest slot that is neither FILLING nor FROZEN (R275). -/
def State.nextSlot (s : State) (c : Nat) : Option Nat :=
  ((List.range (s.strReg c 0x0E)).filter fun n => (s.capSlot c n).st != .filling && (s.capSlot c n).st != .frozen).foldl
    (fun best n => match best with
      | none => some n
      | some b => if (s.capSlot c n).frameNo.toNat < (s.capSlot c b).frameNo.toNat then some n else some b) none

/-- A new frame opens in slot `n`. -/
def State.openFrame (s : State) (c n : Nat) (ts ssrc : Word) : State :=
  let f := (s.stream c).frames + 1
  let t := BitVec.ofNat 64 s.now
  let x : CapSlot := { st := .filling, frameNo := f, ts := ts, ssrc := ssrc, tFirst := t, tLast := t }
  let s := s.setStream c { s.stream c with frames := f, filling := some n, slots := (s.stream c).slots.set n x }
  s.strPut c (s.slotAddr c n) (capHeader x 0 0)

/-- Is byte `i` of the frame data written? -/
def covered (runs : List (Nat × Nat)) (i : Nat) : Bool := runs.any fun r => decide (r.1 ≤ i) && decide (i < r.1 + r.2)

/-- Is line `y` wholly received: every stored byte of it, or every sample of its plane rows? -/
def State.lineDone (s : State) (c : Nat) (x : CapSlot) (y : Nat) : Bool :=
  if s.strReg c 0x0C = 1 then
    (s.planeCols c).zipIdx.all fun w => (List.range (2 * w.1)).all fun i => covered x.runs (s.planeOff c w.2 + y * up64 (2 * w.1) + i)
  else (List.range (s.lineBytes c)).all fun i => covered x.runs (y * s.lineStride c + i)

/-- Close the frame in slot `n`: unwritten bytes zero, line map, header; `why` is 0 the marker, 1 a newer timestamp, 2 the
timeout (R272, R274). -/
def State.closeFrame (s : State) (c n why : Nat) : State :=
  let x := s.capSlot c n
  let a := s.dataAddr c n
  let lines := (List.range (s.strReg c 0x0B)).map (s.lineDone c x)
  let gaps := lines.any (· = false)
  let bad := gaps || why != 0
  let s := s.strPut c a ((List.range (s.frameData c)).map fun i => if covered x.runs i then s.byteAt (a + i) else 0)
  let s := s.strPut c (s.slotAddr c n + 128) (bytesOf (s.mapLen c) (lines.zipIdx.foldl (fun m l => if l.1 then m + 2 ^ l.2 else m) 0))
  let x := { x with st := CapSt.closed }
  let flags := (if why = 0 ∧ !gaps then 1 else 0) + (if gaps then 2 else 0) + (if why = 1 then 4 else 0) + (if why = 2 then 8 else 0)
  let s := s.strPut c (s.slotAddr c n) (capHeader x (lines.filter (· = true)).length flags)
  let s := s.setStream c { s.stream c with filling := none, lastTs := some x.ts, slots := (s.stream c).slots.set n { x with runs := [] } }
  let s := s.count (0x4100 + c) 0x11 64 1
  if bad then s.countSat (0x4100 + c) 0x12 32 1 else s

/-- Close the open frame of a context, if there is one. -/
def State.closeOpen (s : State) (c why : Nat) : State :=
  match (s.stream c).filling with
  | some n => s.closeFrame c n why
  | none => s

/-- Sample `j` of a pgroup: 8-bit samples are its bytes; 10-bit ones are packed in network order (RFC 4175; log 40). -/
def pgSample (sampling : Nat) (bs : List Byte) (j : Nat) : Nat :=
  if sampling = 1 ∨ sampling = 3 then
    fieldAt (bs.foldl (fun m b => 256 * m + b.toNat) 0) (8 * bs.length - 10 * (j + 1)) 10
  else (bs.getD j 0).toNat

/-- Plane and column of sample `j` of pgroup `g`, in the order of RFC 4175: RGB; Cb Y Cr Y; Cb Y Cr (log 40). -/
def pgPlace (sampling g j : Nat) : Nat × Nat :=
  match sampling with
  | 0 => (j, g)
  | 1 => (j % 3, 4 * g + j / 3)
  | 4 => (match j with | 0 => 1 | 1 => 0 | _ => 2, g)
  | _ => match j with
    | 0 => (1, g)
    | 1 => (0, 2 * g)
    | 2 => (2, g)
    | _ => (0, 2 * g + 1)

/-- Samples of a pgroup. -/
def pgSamples (sampling : Nat) : Nat := match sampling with | 1 => 12 | 2 => 4 | 3 => 4 | _ => 3

/-- The BF16 value of an integer code, rounded with RNE (R271). -/
def bf16Code (v : Nat) : Nat := (bf16.write .rne false (.fin false v 0)).code

/-- What a line segment stores: (offset in the frame data, bytes), in place of its line (R271, R272). -/
def State.segStores (s : State) (c line off : Nat) (bs : List Byte) : List (Nat × List Byte) :=
  if s.strReg c 0x0B ≤ line then []
  else if s.strReg c 0x0C = 1 then
    let sm := s.strReg c 9
    let n := pgBytes sm
    if off % n ≠ 0 then []
    else (List.range (bs.length / n)).flatMap fun k =>
      let pg := (bs.drop (n * k)).take n
      (List.range (pgSamples sm)).filterMap fun j =>
        let p := pgPlace sm (off / n + k) j
        let w := (s.planeCols c).getD p.1 0
        if p.2 < w then some (s.planeOff c p.1 + line * up64 (2 * w) + 2 * p.2, bytesOf 2 (bf16Code (pgSample sm pg j))) else none
  else
    let n := min bs.length (s.lineBytes c - off)
    if n = 0 then [] else [(line * s.lineStride c + off, bs.take n)]

/-- Place a packet in the open frame. -/
def State.placePacket (s : State) (c n : Nat) (pk : RtpPacket) : State :=
  let st := pk.segs.flatMap fun g => s.segStores c g.1 g.2.1 g.2.2
  let s := st.foldl (fun s w => s.strPut c (s.dataAddr c n + w.1) w.2) s
  let x := s.capSlot c n
  let s := s.setCap c n { x with
    tLast := BitVec.ofNat 64 s.now, lost := x.lost + BitVec.ofNat 32 pk.gap, runs := x.runs ++ st.map fun w => (w.1, w.2.length) }
  let s := s.countSat (0x4100 + c) 0x13 32 pk.gap
  if pk.marker then s.closeFrame c n 0 else s

/-- Open a frame for a packet and place it. -/
def State.startFrame (s : State) (c : Nat) (pk : RtpPacket) : State :=
  match s.nextSlot c with
  | none => s
  | some n => (s.openFrame c n pk.ts pk.ssrc).placePacket c n pk

/-- Is an RTP timestamp newer than another, modulo 2^32? -/
def newer (a b : Word) : Bool := a != b && decide ((a - b).toNat < 2 ^ 31)

/-- A packet over a rate limit: the first drop of a second is logged (R269). -/
def State.overRate (s : State) (c : Nat) : State :=
  let s := s.countSat (0x4100 + c) 0x15 32 1
  let sec := s.now / 1000000000 + 1
  if (s.stream c).rateSec = sec then s
  else (s.setStream c { s.stream c with rateSec := sec }).logEvent 0x78 0x0811 c

/-- RTP_PACKET (R268–R272). A packet that R270 refuses counts as lost (log 40). -/
def State.rtpPacket (s : State) (c : Nat) (pk : RtpPacket) : State :=
  if s.strReg c 1 ≠ 1 ∨ s.strReg c 2 ≠ 0 ∨ (s.strReg c 7 % 2 = 1 ∧ pk.ssrc.toNat ≠ s.strReg c 6) then s
  else if pk.overRate then s.overRate c
  else if pk.fbit ∨ pk.sampling.toNat ≠ s.strReg c 9 then s.countSat (0x4100 + c) 0x13 32 1
  else match (s.stream c).filling with
    | some n =>
      let x := s.capSlot c n
      if pk.ts = x.ts then s.placePacket c n pk
      else if newer pk.ts x.ts then (s.closeFrame c n 1).startFrame c pk
      else s.countSat (0x4100 + c) 0x14 32 1
    | none => match (s.stream c).lastTs with
      | some t => if newer pk.ts t then s.startFrame c pk else s.countSat (0x4100 + c) 0x14 32 1
      | none => s.startFrame c pk

/-- RTP_PACKET. -/
def execRtpPacket (stream : StreamId) (pk : RtpPacket) (s : State) : Host.Outcome State Fault Refusal := .next (s.rtpPacket stream pk)

/-- FRAME_TIMEOUT. -/
def execFrameTimeout (stream : StreamId) (s : State) : Host.Outcome State Fault Refusal := .next (s.closeOpen stream 2)

/-! ### FRAMES mode (R263, R268, R274) -/

/-- The status word of a stored frame. -/
def frameStatus (f : Frame) (link maxf : Nat) : Nat :=
  f.len % 2 ^ 14 + (if f.fcsError then 2 ^ 14 else 0) + (if f.len < 64 then 2 ^ 15 else 0) + (if maxf < f.len then 2 ^ 16 else 0)
    + (if f.symError then 2 ^ 17 else 0) + (if maxf < f.bytes.length then 2 ^ 18 else 0) + f.pcp.toNat * 2 ^ 19
    + (if f.cTag.isSome then 2 ^ 22 else 0) + link % 32 * 2 ^ 23

/-- Store a whole frame in a slot of a FRAMES context, closed at once: status word at bit 0, T_FIRST and STATE where a VIDEO
header has them (log 40). -/
def State.storeFrame (s : State) (c link : Nat) (f : Frame) : State :=
  match s.nextSlot c with
  | none => s
  | some n =>
    let no := (s.stream c).frames + 1
    let t := BitVec.ofNat 64 s.now
    let maxf := s.obj (0x4000 + link / 4) 3
    let x : CapSlot := { st := .closed, frameNo := no, tFirst := t, tLast := t }
    let s := s.setStream c { s.stream c with frames := no, slots := (s.stream c).slots.set n x }
    let s := s.strPut c (s.slotAddr c n) (bytesOf 128 (frameStatus f link maxf + s.now * 2 ^ 96 + capNum .closed * 2 ^ 244))
    (s.strPut c (s.slotAddr c n + 128) (f.bytes.take maxf)).count (0x4100 + c) 0x11 64 1

/-! ### Freezing (R275) -/

/-- Insert a slot number by falling frame number. -/
def byNewest (f : Nat → Nat) (n : Nat) : List Nat → List Nat
  | [] => [n]
  | m :: r => if f m < f n then n :: m :: r else m :: byNewest f n r

/-- The CLOSED slots, newest first. -/
def State.closedSlots (s : State) (c : Nat) : List Nat :=
  ((List.range (s.strReg c 0x0E)).filter fun n => (s.capSlot c n).st == .closed).foldl
    (fun l n => byNewest (fun k => (s.capSlot c k).frameNo.toNat) n l) []

/-- A tensor descriptor of a BF16 plane (R106, R275). -/
def planeDesc (base rows cols : Nat) : Nat :=
  1 + 2 ^ 16 + rows * 2 ^ 32 + cols * 2 ^ 56 + base * 2 ^ 80 + up64 (2 * cols) * 2 ^ 160

/-- The ring header: 2,048 bytes. -/
def State.ringHeader (s : State) (c step : Nat) (fr : List Nat) : List Byte :=
  let planes := if s.strReg c 2 = 0 ∧ s.strReg c 0x0C = 1 then 3 else 0
  let slot (i : Nat) : Nat := fr.getD i 0xFF
  let head := step + fr.length * 2 ^ 32 + planes * 2 ^ 40 + (match fr with | [] => 0 | n :: _ => (s.capSlot c n).frameNo.toNat) * 2 ^ 64
    + ((List.range 16).map fun i => slot i % 256 * 2 ^ (128 + 8 * i)).sum
  let data (i : Nat) : Nat := if i < fr.length then s.dataAddr c (slot i) else s.blankData c
  let descs := if planes = 0 then [] else (List.range (s.strReg c 0x0F)).flatMap fun i =>
    (s.planeCols c).zipIdx.flatMap fun w => bytesOf 32 (planeDesc (data i + s.planeOff c w.2) (s.strReg c 0x0B) w.1)
  let l := bytesOf 64 head ++ descs
  l ++ List.replicate (2048 - l.length) 0

/-- Freeze a context's newest CLOSED frames for step `step`. -/
def State.freezeStream (s : State) (c step : Nat) : State :=
  let s := s.each ((List.range (s.strReg c 0x0E)).filter fun n => (s.capSlot c n).st == .frozen) fun s n => s.capState c n .closed
  let fr := (s.closedSlots c).take (s.strReg c 0x0F)
  let s := s.each fr fun s n => s.capState c n .frozen
  s.strPut c (s.ringAddr c) (s.ringHeader c step fr)

/-- The contexts of a partition's regions freeze at its step boundary. -/
def State.freezeStreams (s : State) (p step : Nat) : State :=
  s.each ((List.range 48).filter fun c => s.strReg c 1 == 1 && (s.region (s.strReg c 0x0D)).owner == p) fun s c => s.freezeStream c step

end Sys2Proof.Machine
end

