-- ==== Sys2Proof/Machine/Ports.lean ====
section
/-! DEFINITION. Optical ports (R248–R256, R264–R267): modes, link start, lanes leaving and returning, fibre faults. -/

namespace Sys2Proof.Machine

/-! ### Ports, lanes and links (R248) -/

/-- MODE of a port, and the links it defines. -/
def State.mode (s : State) (p : Nat) : Nat := s.obj (0x4000 + p) 1
def State.linkDefined (s : State) (l : Nat) : Bool :=
  match s.mode (l / 4) with
  | 1 => l % 4 == 0
  | 2 => l % 2 == 0
  | 3 => true
  | _ => false

/-- The lanes of a link, and the link of a lane. -/
def State.linkLanes (s : State) (l : Nat) : List Nat :=
  match s.mode (l / 4) with
  | 1 => [l, l + 1, l + 2, l + 3]
  | 2 => [l, l + 1]
  | _ => [l]
def State.linkOfLane (s : State) (lane : Nat) : Nat :=
  match s.mode (lane / 4) with
  | 1 => lane / 4 * 4
  | 2 => lane / 2 * 2
  | _ => lane

/-- Lane states (R265): 0 OFF, 1 TUNING, 2 TRAINING, 3 READY, 4 IN_SERVICE. -/
def State.laneSt (s : State) (lane : Nat) : Nat := s.obj (0x4020 + lane) 1
def State.setLane (s : State) (lane st : Nat) : State := s.setObj (0x4020 + lane) 1 st
/-- Link states (R266): 0 DOWN, 1 UP, 2 NARROW. -/
def State.linkSt (s : State) (l : Nat) : Nat := s.obj (0x4040 + l) 8

/-- Lanes of a link in service. -/
def State.inService (s : State) (l : Nat) : List Nat := (s.linkLanes l).filter fun k => s.laneSt k == 4

/-- A port event: link, lane and one more number (R267; log 29). -/
def State.portEvent (s : State) (code link lane more : Nat) : State :=
  s.logEvent (0x30 + link / 4) code (link + lane * 256 + more * 65536)

/-- The announce received on lane `i` of a port, kept in its link. -/
def Link.announce (x : Link) (i : Nat) : Option Announce := x.announces.getD i none
def Link.setAnnounce (x : Link) (i : Nat) (a : Option Announce) : Link :=
  { x with announces := (List.range 4).map fun k => if k = i then a else x.announce k }

/-- A link goes DOWN (R253). -/
def State.linkDown (s : State) (l : Nat) : State :=
  let s' := ((s.setObj (0x4040 + l) 8 0).setObj (0x4040 + l) 9 0).setLink l { s.link l with newPeer := false, peerStatus := 0 }
  if s.linkSt l = 0 then s' else s'.portEvent 0x0802 l 0 0

/-! ### Starting and stopping a port (R250) -/

/-- May a port's lanes run: ENABLE set, a mode, and the device in IDLE or above (R379)? -/
def State.portLit (s : State) (p : Nat) : Bool := s.obj (0x4000 + p) 2 == 1 && s.mode p != 0 && decide (2 ≤ s.obj 0x2000 1) && s.obj 0x2000 5 == 0

/-- The four lanes of a port, and its four possible links. -/
def portFour (p : Nat) : List Nat := [4 * p, 4 * p + 1, 4 * p + 2, 4 * p + 3]

/-- Link start on every lane in SERVICE and in no test (R250, R417). -/
def State.portStart (s : State) (p : Nat) : State :=
  if !s.portLit p then s
  else
    let s := { s with lasers := s.lasers.set p 1 }
    s.each (portFour p) fun s k => if s.laneSt k = 0 ∧ s.obj (0x4020 + k) 2 = 1 ∧ s.obj (0x5000 + k) 1 = 0 then s.setLane k 1 else s

/-- Lanes OFF, links DOWN, lasers off. -/
def State.portOff (s : State) (p : Nat) : State :=
  let s := s.each (portFour p) fun s k => s.setLane k 0
  let s := s.each (portFour p) State.linkDown
  { s with lasers := s.lasers.set p 0 }

/-- A write of ENABLE. -/
def portEnableAct (p v : Nat) : Act := fun s =>
  if 1 < v then (s, stRange)
  else
    let s := s.setObj (0x4000 + p) 2 v
    (if v = 1 then s.portStart p else s.portOff p, stOk)

/-- PORT_ENABLE. -/
def execPortEnable (m : Master) (port : PortId) (v : Byte) (s : State) : Host.Outcome State Fault Refusal :=
  .next (s.act m (0x4000 + port) 2 (portEnableAct port v.toNat))

/-! ### A lane becomes ready (R249, R250, R252) -/

/-- Is the receive order what this lane needs: any in mode 1 or with a peer's announce, else RX_MAP (R252)? -/
def State.orderOk (s : State) (lane : Nat) (peer : Bool) (phys : Nat) : Bool :=
  s.mode (lane / 4) == 1 || peer || phys == (if s.obj (0x4000 + lane / 4) 6 = 1 then 3 - lane % 4 else lane % 4)

/-- LANE_READY: the lane has trained; its announce and the physical receive lane that carries it are known. A new reversed
order is reported in RX_MAP and logged once. -/
def State.laneReady (s : State) (lane : Nat) (a : Option Announce) (phys : Nat) : State :=
  let p := lane / 4
  if ¬ (s.laneSt lane = 1 ∨ s.laneSt lane = 2) ∨ s.los.get lane = 1 then s
  else if !s.orderOk lane a.isSome phys then s.setLane lane 2
  else
    let l := s.linkOfLane lane
    let s := (s.setLane lane 3).setLink l ((s.link l).setAnnounce (lane % 4) a)
    let was := s.obj (0x4020 + lane) 7
    let s := s.setObj (0x4020 + lane) 7 phys
    let remapped := decide (phys ≠ lane % 4)
    if remapped ∧ s.obj (0x4000 + p) 6 = 0 ∧ (s.mode p = 1 ∨ a.isSome) then (s.setObj (0x4000 + p) 6 1).portEvent 0x0805 l (lane % 4) phys
    else if !remapped ∧ was ≠ phys ∧ (s.mode p = 1 ∨ a.isSome) then s.setObj (0x4000 + p) 6 0
    else s

/-- LANE_READY. -/
def execLaneReady (lane : LaneId) (announce : Option Announce) (phys : Fin 4) (s : State) : Host.Outcome State Fault Refusal :=
  .next (s.laneReady lane announce phys)

/-! ### Alignment-marker boundaries (R249, R250, R253–R255) -/

/-- Does every lane in service or ready carry a valid announce (R249)? -/
def State.peerMode (s : State) (l : Nat) : Bool :=
  let on := (s.linkLanes l).filter fun k => s.laneSt k == 3 || s.laneSt k == 4
  !on.isEmpty && on.all fun k => ((s.link l).announce (k % 4)).isSome

/-- Lanes of a peer-mode link that the peer no longer receives, once its new status is seen (R254). -/
def State.peerLost (s : State) (l : Nat) : List Nat :=
  if (s.link l).newPeer then (s.inService l).filter fun k => !(s.link l).peerStatus.getLsbD (k - l) else []

/-- The lanes that join at this boundary: any ready one in peer mode, all or none in standard mode. -/
def State.joining (s : State) (l : Nat) (peer : Bool) : List Nat :=
  let lanes := s.linkLanes l
  if peer ∨ lanes.all (fun k => s.laneSt k == 3 || s.laneSt k == 4) then lanes.filter fun k => s.laneSt k == 3 else []

/-- State of a link by its lanes in service. -/
def State.linkWidth (s : State) (l : Nat) (peer : Bool) : Nat :=
  let n := (s.inService l).length
  if n = (s.linkLanes l).length then 1 else if peer ∧ 0 < n then 2 else 0

/-- AM_BOUNDARY: lanes the peer lost leave, ready lanes join, and the width changes. -/
def State.amBoundary (s : State) (l : Nat) : State :=
  if !s.linkDefined l then s
  else
    let old := s.linkSt l
    let peer := s.peerMode l
    let lost := if peer then s.peerLost l else []
    let join := s.joining l peer
    let s := s.each lost fun s k => s.setLane k 2
    let s := s.each join fun s k => s.setLane k 4
    let s := s.setLink l { s.link l with newPeer := false }
    let s := if old = 0 then s else s.each join fun s k => s.portEvent 0x0804 l (k % 4) 0
    let new := s.linkWidth l peer
    if new = 0 then s.linkDown l
    else
      let s := (s.setObj (0x4040 + l) 8 new).setObj (0x4040 + l) 9 (if peer then 2 else 1)
      if old = 0 then s.portEvent 0x0801 l 0 (s.inService l).length else s

/-- AM_BOUNDARY. -/
def execAmBoundary (link : LinkId) (s : State) : Host.Outcome State Fault Refusal := .next (s.amBoundary link)

/-- LANE_STATUS: the peer's receive status, acted on at the next boundary. -/
def State.laneStatus (s : State) (l : Nat) (st : BitVec 4) : State :=
  if s.obj (0x4040 + l) 9 = 2 ∧ s.linkSt l ≠ 0 then s.setLink l { s.link l with peerStatus := st, newPeer := true } else s

/-- LANE_STATUS. -/
def execLaneStatus (link : LinkId) (status : BitVec 4) (s : State) : Host.Outcome State Fault Refusal := .next (s.laneStatus link status)

/-- LINK_START_TIMEOUT: a link not UP restarts from the first stage, and the restart is counted. -/
def State.linkRestart (s : State) (l : Nat) : State :=
  if !s.linkDefined l || !s.portLit (l / 4) || s.linkSt l != 0 then s
  else (s.each (s.linkLanes l) fun s k => if s.obj (0x4020 + k) 2 = 1 then s.setLane k 1 else s).countSat (0x4000 + l / 4) 0x10 32 1

/-- LINK_START_TIMEOUT. -/
def execLinkStartTimeout (link : LinkId) (s : State) : Host.Outcome State Fault Refusal := .next (s.linkRestart link)

/-! ### Lanes leaving and returning (R251, R253, R255) -/

/-- FIBRE of a port from its lanes in LOS and the light that enters its transmit monitors (R251); a new CROSSED or OPEN is
logged. -/
def State.fibre (s : State) (p : Nat) (txLit : Bool) : State :=
  let n := ((portFour p).filter fun k => s.los.get k == 1).length
  let f := if n = 0 then 0 else if n = 4 then (if txLit then 1 else 3) else 2
  let old := s.obj (0x4000 + p) 7
  let s := s.setObj (0x4000 + p) 7 f
  if f = old then s else if f = 1 then s.portEvent 0x0806 (4 * p) 0 0 else if f = 2 then s.portEvent 0x0807 (4 * p) 0 0 else s

/-- Code of a lane-out cause (log 29). -/
def causeNum : LaneCause → Nat
  | .user => 0 | .los => 1 | .fec => 2

/-- A lane leaves: in peer mode with lanes left the link narrows at its next boundary, else it goes DOWN (R253). -/
def State.laneLeaves (s : State) (lane st : Nat) (cause : LaneCause) : State :=
  let l := s.linkOfLane lane
  let was := s.laneSt lane
  let s := s.setLane lane st
  if was ≠ 4 then s
  else
    let s := s.portEvent 0x0803 l (lane % 4) (causeNum cause)
    if s.obj (0x4040 + l) 9 = 2 ∧ !(s.inService l).isEmpty then s else s.linkDown l

/-- LANE_OUT. A lane in LOS is held in training; one out for FEC errors waits for SERVICE (log 41). -/
def State.laneOut (s : State) (lane : Nat) (cause : LaneCause) (txLit : Bool) : State :=
  if s.laneSt lane = 0 then s
  else match cause with
    | .los => (({ s with los := s.los.set lane 1 }).laneLeaves lane 2 .los).fibre (lane / 4) txLit
    | .fec => s.laneLeaves lane 0 .fec
    | .user => s.laneLeaves lane 0 .user

/-- LANE_OUT. -/
def execLaneOut (lane : LaneId) (cause : LaneCause) (txLit : Bool) (s : State) : Host.Outcome State Fault Refusal :=
  .next (s.laneOut lane cause txLit)

/-- LOS_CLEAR: the lane retrains alone. -/
def State.losClear (s : State) (lane : Nat) (txLit : Bool) : State :=
  if s.los.get lane = 0 then s
  else ({ s with los := s.los.set lane 0 }).fibre (lane / 4) txLit

/-- LOS_CLEAR. -/
def execLosClear (lane : LaneId) (txLit : Bool) (s : State) : Host.Outcome State Fault Refusal := .next (s.losClear lane txLit)

/-- A lane is taken out of or returned to service; a lane under test stays out (R417). -/
def State.setService (s : State) (lane v : Nat) : State :=
  if v = 0 then s.laneLeaves lane 0 .user
  else if s.laneSt lane = 0 ∧ s.obj (0x5000 + lane) 1 = 0 ∧ s.portLit (lane / 4) then s.setLane lane 1 else s

/-- A write of SERVICE. -/
def serviceAct (lane v : Nat) : Act := fun s =>
  if 1 < v then (s, stRange) else ((s.setObj (0x4020 + lane) 2 v).setService lane v, stOk)

/-- SERVICE. -/
def execService (m : Master) (lane : LaneId) (v : Byte) (s : State) : Host.Outcome State Fault Refusal :=
  .next (s.act m (0x4020 + lane) 2 (serviceAct lane v.toNat))

/-- ALL_PORTS_DOWN: the device is reported failed to the job's lead (R256, R243). -/
def execAllPortsDown (s : State) : Host.Outcome State Fault Refusal :=
  .next (if (List.range 32).all fun l => s.linkSt l == 0 then s.reportFailure .portsDown else s)

end Sys2Proof.Machine
end

