-- ==== Sys2Proof/Machine/Mac.lean ====
section
/-! DEFINITION. The frame MAC (R257–R263): frame classification, PAUSE and PFC, time-aware gates, the device clock. -/

namespace Sys2Proof.Machine

/-! ### FRAME_RECEIVE (R257, R258, R263, R268) -/

/-- Is a frame bad? -/
def badFrame (maxf : Nat) (f : Frame) : Bool := f.fcsError || decide (f.len < 64) || decide (maxf < f.len) || f.symError

/-- Count what is wrong with a bad frame: FCS errors, runts, oversize frames, symbol errors (R266). -/
def State.countBad (s : State) (l maxf : Nat) (f : Frame) : State :=
  let s := if f.fcsError then s.countSat (0x4060 + l) 5 32 1 else s
  let s := if f.len < 64 then s.countSat (0x4060 + l) 6 32 1 else s
  let s := if maxf < f.len then s.countSat (0x4060 + l) 7 32 1 else s
  if f.symError then s.countSat (0x4060 + l) 8 32 1 else s

/-- The tags of a frame under TXTAG (R258): `none` when they fail the check, else the C-VID left, 0 for an untagged frame. -/
def State.tagCheck (s : State) (l : Nat) (f : Frame) : Option Nat :=
  let inner := match f.cTag with
    | some v => if v = 0 then none else some v.toNat
    | none => none
  match s.obj (0x4040 + l) 2 with
  | 0 => if f.sTag.isSome then none else match f.cTag with
    | some v => if v = 0 then some 0 else none
    | none => some 0
  | 1 => if f.sTag.isSome then none else inner
  | _ => match f.sTag with
    | some v => if v.toNat = s.obj (0x4040 + l) 4 then inner else none
    | none => none

/-- Does a stream context match a datagram (R268)? -/
def State.strMatch (s : State) (c l vid : Nat) (f : Frame) : Bool :=
  s.strReg c 1 == 1 && bitAt (s.strReg c 3) (l / 4) && s.strReg c 4 == (if vid = 0 then 0xFFFF else vid)
    && (match f.udpPort with
      | some u => u.toNat == s.strReg c 5
      | none => false)
    && (s.strReg c 2 != 0 || s.strReg c 7 % 2 == 0 || (match f.ssrc with
      | some x => x.toNat == s.strReg c 6
      | none => false))
    && (f.dstMac.toNat == s.obj (0x4040 + l) 1 || (s.strReg c 8 != 0 && f.dstMac.toNat == s.strReg c 8))

/-- UNMATCHED (R257). -/
def State.unmatched (s : State) (l : Nat) : State := s.countSat (0x4060 + l) 9 32 1

/-- A bad frame is counted, and delivered to DIAG_CTX under DELIVER_BAD (R263). -/
def State.takeBad (s : State) (l maxf : Nat) (f : Frame) : State :=
  let s := s.countBad l maxf f
  let c := s.obj (0x4000 + l / 4) 5
  if s.obj (0x4000 + l / 4) 4 = 1 ∧ c < 48 ∧ s.strReg c 1 = 1 ∧ s.strReg c 2 = 1 then s.storeFrame c l f else s

/-- FRAME_RECEIVE: the first rule of R257 that matches decides. Destinations: 0 the service processor, 1 Bore, 2 the stream
engine. The datagram of a VIDEO context is placed by RTP_PACKET; a control frame acts by PAUSE_FRAME (log 42). -/
def State.frameReceive (s : State) (l : Nat) (f : Frame) : State :=
  if s.linkSt l = 0 then s
  else
    let maxf := s.obj (0x4000 + l / 4) 3
    if badFrame maxf f then s.takeBad l maxf f
    else
      let s := (s.count (0x4060 + l) 3 64 1).count (0x4060 + l) 4 64 f.len
      if f.control then s
      else match s.tagCheck l f with
        | none => s.unmatched l
        | some vid =>
          if f.fragment || f.badSum then s.unmatched l
          else if f.service then s.emit (.frame l 0 f)
          else if f.udpPort.any fun u => u.toNat == s.obj 0x4200 6 then s.emit (.frame l 1 f)
          else match (List.range 48).find? fun c => s.strMatch c l vid f with
            | some c => (if s.strReg c 2 = 1 then s.storeFrame c l f else s).emit (.frame l 2 f)
            | none => s.unmatched l

/-- FRAME_RECEIVE. -/
def execFrameReceive (link : LinkId) (f : Frame) (s : State) : Host.Outcome State Fault Refusal := .next (s.frameReceive link f)

/-! ### PAUSE and PFC (R259) -/

/-- Pause quanta that have passed since a class was paused: 2.56 ns by the lanes in service each. -/
def State.quantaSince (s : State) (l c : Nat) : Nat :=
  min ((s.link l).pause.get c) ((s.now - (s.link l).pause.get (8 + c)) * 100 * (s.inService l).length / 256)

/-- A pause of class `c` takes a new length; what was obeyed of the old one is counted. Keys 8 on hold when it started. -/
def State.setPause (s : State) (l c t : Nat) : State :=
  let s := if (s.link l).pause.get c = 0 then s else s.count (0x4060 + l) (0x0D + c) 64 (s.quantaSince l c)
  let x := s.link l
  s.setLink l { x with
    pause := (x.pause.set c t).set (8 + c) (if t = 0 then 0 else s.now)
    storm := if t = 0 then x.storm.set c 0 else x.storm }

/-- Classes that a received frame pauses under FLOW: all under PAUSE, those of the frame and the mask under PFC; none when it
is ignored. -/
def State.pauseClasses (s : State) (l : Nat) (pfc : Bool) (mask : Nat) : List Nat :=
  match s.obj (0x4040 + l) 5, pfc with
  | 1, false => List.range 8
  | 2, true => (List.range 8).filter fun c => bitAt mask c && bitAt (s.obj (0x4040 + l) 6) c
  | _, _ => []

/-- PAUSE_FRAME: counted, ignored when FLOW does not select it, else its times replace those in force. -/
def State.pauseFrame (s : State) (l : Nat) (pfc : Bool) (mask : Nat) (times : List Nat) : State :=
  if s.linkSt l = 0 then s
  else
    let s := s.count (0x4060 + l) 0x0B 64 1
    let flow := s.obj (0x4040 + l) 5
    if flow ≠ (if pfc then 2 else 1) then s.count (0x4060 + l) 0x0C 64 1
    else s.each (s.pauseClasses l pfc mask) fun s c => s.setPause l c (times.getD (if pfc then c else 0) 0 % 65536)

/-- PAUSE_FRAME. -/
def execPauseFrame (link : LinkId) (pfc : Bool) (mask : Byte) (times : List Nat) (s : State) : Host.Outcome State Fault Refusal :=
  .next (s.pauseFrame link pfc mask.toNat times)

/-- PAUSE_EXPIRY: the whole pause was obeyed. -/
def State.pauseExpiry (s : State) (l c : Nat) : State :=
  let n := (s.link l).pause.get c
  if n = 0 then s
  else
    let s := s.count (0x4060 + l) (0x0D + c) 64 n
    let x := s.link l
    s.setLink l { x with pause := (x.pause.set c 0).set (8 + c) 0, storm := x.storm.set c 0 }

/-- PAUSE_EXPIRY. -/
def execPauseExpiry (link : LinkId) (tc : TcId) (s : State) : Host.Outcome State Fault Refusal := .next (s.pauseExpiry link tc)

/-- PFC_STORM: a class paused without a break for 100 ms is logged once; the pause is still obeyed. -/
def State.pfcStorm (s : State) (l c : Nat) : State :=
  let x := s.link l
  if x.pause.get c = 0 ∨ x.storm.get c = 1 then s
  else (s.setLink l { x with storm := x.storm.set c 1 }).portEvent 0x0808 l 0 c

/-- PFC_STORM. -/
def execPfcStorm (link : LinkId) (tc : TcId) (s : State) : Host.Outcome State Fault Refusal := .next (s.pfcStorm link tc)

/-- XOFF and XON of a class in bytes: bytes 0–7 of the object are XOFF, 8–15 XON, in units of 8 KiB (log 43). -/
def State.xoff (s : State) (l c : Nat) : Nat := fieldAt (s.obj (0x4000 + l / 4) 0x0F) (8 * c) 8 * 8192
def State.xon (s : State) (l c : Nat) : Nat := fieldAt (s.obj (0x4000 + l / 4) 0x0F) (64 + 8 * c) 8 * 8192

/-- PFC_SEND: the receive buffer holds `bytes` of the class. The pause time sent above XOFF is not stated (log 4). -/
def State.pfcSend (s : State) (l c bytes : Nat) : State :=
  let x := s.link l
  let s := s.setLink l { x with rxBytes := x.rxBytes.set c bytes }
  if s.obj (0x4040 + l) 5 ≠ 2 ∨ !bitAt (s.obj (0x4040 + l) 6) c ∨ s.linkSt l = 0 then s
  else if s.xoff l c < bytes then
    let s := s.setLink l { s.link l with xoffSent := (s.link l).xoffSent.set c 1 }
    { s with freeCtr := s.freeCtr + 1 }.emit (.pfc l c (1 + Config.openValue s.freeCtr % 65535))
  else if bytes < s.xon l c ∧ x.xoffSent.get c = 1 then
    (s.setLink l { s.link l with xoffSent := (s.link l).xoffSent.set c 0 }).emit (.pfc l c 0)
  else s

/-- PFC_SEND. -/
def execPfcSend (link : LinkId) (tc : TcId) (bytes : Nat) (s : State) : Host.Outcome State Fault Refusal := .next (s.pfcSend link tc bytes)

/-! ### Time-aware gates (R260) -/

/-- The list in force of a port: `State.gates` at 4p a new list armed, +1 entries, +2 BASE_TIME, +3 CYCLE_TIME. -/
def State.gate (s : State) (p k : Nat) : Nat := s.gates.get (4 * p + k)

/-- Entry `i` of a gate list: GATES, INTERVAL, reserved bits. -/
def gateEntry (list i : Nat) : Nat × Nat × Nat := (fieldAt list (64 * i) 8, fieldAt list (64 * i + 8) 32, fieldAt list (64 * i + 40) 24)

/-- A new administrative list takes effect at the first cycle start at or after CONFIG_TIME. -/
def State.installGates (s : State) (p : Nat) : State :=
  if s.gate p 0 = 1 ∧ s.obj (0x4000 + p) 0x0D ≤ s.now then
    let i := 0x4000 + p
    let s := s.setObj i 0x0E (s.obj i 0x0C)
    { s with gates := (((s.gates.set (4 * p) 0).set (4 * p + 1) (s.obj i 0x0B)).set (4 * p + 2) (s.obj i 8 + s.obj i 9 * 2 ^ 32)).set (4 * p + 3) (s.obj i 0x0A) }
  else s

/-- GATE_ENTRY: an interval of a link's list ends. The last entry holds to the end of the cycle; at the cycle start a list
armed and due is installed and the first entry applies. Until a list is in force all gates are open. -/
def State.gateStep (s : State) (l : Nat) : State :=
  let p := l / 4
  let x := s.link l
  if !x.openAll ∧ x.gate + 1 < s.gate p 1 then s.setLink l { x with gate := x.gate + 1 }
  else
    let s := s.installGates p
    s.setLink l { s.link l with gate := 0, openAll := s.gate p 1 == 0 }

/-- GATE_ENTRY. -/
def execGateEntry (link : LinkId) (s : State) : Host.Outcome State Fault Refusal := .next (s.gateStep link)

/-- A write of CONFIG_TIME arms the administrative list. An entry used with INTERVAL 0 or a reserved bit is refused. -/
def configTimeAct (p v : Nat) : Act := fun s =>
  let n := s.obj (0x4000 + p) 0x0B
  if (List.range n).all fun i => (gateEntry (s.obj (0x4000 + p) 0x0C) i).2.1 != 0 && (gateEntry (s.obj (0x4000 + p) 0x0C) i).2.2 == 0 then
    let s := s.setObj (0x4000 + p) 0x0D v
    ({ s with gates := s.gates.set (4 * p) 1 }, stOk)
  else (s, stRange)

/-- CONFIG_TIME. -/
def execConfigTime (m : Master) (port : PortId) (v : BitVec 64) (s : State) : Host.Outcome State Fault Refusal :=
  .next (s.act m (0x4000 + port) 0x0D (configTimeAct port v.toNat))

/-! ### CLOCK_STEP (R260, R262, R423) -/

/-- A write of Step: the signed ns are added at once; gate lists restart at the next cycle start with all gates open until
then, and a new log interval starts. -/
def clockStepAct (v : Nat) : Act := fun s =>
  let s := s.setObj 0x40A0 1 ((s.now + v) % 2 ^ 64)
  let s := s.each (List.range 32) fun s l => s.setLink l { s.link l with gate := 0, openAll := true }
  ({ s with msIndex := s.now / 1000000, msCount := 0 }, stOk)

/-- CLOCK_STEP. -/
def execClockStep (m : Master) (v : BitVec 64) (s : State) : Host.Outcome State Fault Refusal :=
  .next (s.act m 0x40A0 3 (clockStepAct v.toNat))

end Sys2Proof.Machine
end

