-- ==== Sys2Proof/Machine/SecBase.lean ====
section
/-! DEFINITION. What a seal, a job key slot and their end do to the rest of the device (R163, R304, R323, R325, R336,
R337, R340). -/

namespace Sys2Proof.Machine

/-- Clear a job key slot, numbered from 0: empty and unowned, its key zeroed; the connections that use it enter ERROR
(R304, R337). -/
def State.clearKeySlot (s : State) (k : Nat) : State :=
  let s := { s with jobKeys := s.jobKeys.set k {} }
  let s := (((s.setObj (0x1251 + k) 1 0xFF).setObj (0x1251 + k) 2 0).setObj (0x1251 + k) 3 0).setObj (0x1251 + k) 5 0
  s.connList.foldl (fun s c =>
    if (s.conn c).keysel = k + 1 ∧ ((s.conn c).st = .isOpen ∨ (s.conn c).st = .opening ∨ (s.conn c).st = .closing) then s.connError c ccFlushed
    else s) s

/-- Clear the job key slots that satisfy `f`. -/
def State.clearKeySlots (s : State) (f : Nat → Bool) : State :=
  ((List.range 15).filter f).foldl State.clearKeySlot s

/-- The regions of a sealed partition are zeroed and leave XTS (R340; log 34). -/
def State.dropRegions (s : State) (p : Nat) : State :=
  s.each (List.range 64) fun s r =>
    let g := s.region r
    if g.owner = p ∧ 0 < g.size then (s.setObj (0x3420 + r) 3 (withXts g.attr false)).zeroSpan r g.start g.bytes else s

/-- An SPDM session is no longer bound to a partition. -/
def State.unbind (s : State) (p : Nat) : State :=
  match (s.part p).bound with
  | none => s
  | some n => { s with spdm := s.spdm.modify n fun x => { x with part := none, slots := [] } }

/-- A partition is no longer sealed: its keys, its package and its session binding go, and its regions are zeroed. -/
def State.unseal (s : State) (p : Nat) : State :=
  if !s.isSealed p then s
  else
    let s := (s.unbind p).dropRegions p
    let s := { s with pkgRun := match s.pkgRun with
      | some r => if r.part = p then none else some r
      | none => none }
    let s := s.each [1, 2, 3, 4, 5, 6] fun s k => s.setObj (0x1230 + p) k 0
    s.setPart p { s.part p with
      xtsKeys := none, wk := none, rs := none, ownerPub := 0, exportPub := 0, imageKey := 0, modelId := 0, exported := false
      pkgAddr := 0, pkgHash := 0, bound := none }

/-- A partition is dissolved: handed over, its cores UNASSIGNED, unsealed, its job key slots cleared, FREE (R162, R163,
R323, R337). -/
def State.dissolvePart (s : State) (p : Nat) (t : Option WipeTrigger) : State :=
  let cores := s.coresOf p
  let s := s.handOver p cores t
  let s := s.each cores fun s c => s.assignCore c 3 0xFF
  let s := (s.unseal p).clearKeySlots fun k => s.obj (0x1251 + k) 1 == p
  ((s.setObj (0x3100 + p) 1 0).setObj (0x3100 + p) 2 0).settlePower

end Sys2Proof.Machine
end

