-- ==== Sys2Proof/Machine/Random.lean ====
section
/-! DEFINITION. The lane generators (R99–R101). -/

namespace Sys2Proof.Machine

/-- One advance of a generator: the new words and the output word (R99). -/
def advance (a b : BitVec 64) : BitVec 64 × BitVec 64 × BitVec 64 :=
  let s1 := a ^^^ (a <<< 23)
  let b' := s1 ^^^ b ^^^ (s1 >>> 18) ^^^ (b >>> 5)
  (b, b', ((b + b') * 5).rotateLeft 7 * 9)

/-- `n` advances: the words after them and the outputs, first draw first. -/
def advances : Nat → BitVec 64 → BitVec 64 → (BitVec 64 × BitVec 64) × List (BitVec 64)
  | 0, a, b => ((a, b), [])
  | n + 1, a, b =>
    let x := advance a b
    let y := advances n x.1 x.2.1
    (y.1, x.2.2 :: y.2)

/-- A 16-bit and a 32-bit draw from an output word (R99). -/
def draw16 (o : BitVec 64) : Nat := o.toNat / 2 ^ 48
def draw32 (o : BitVec 64) : Nat := o.toNat / 2 ^ 32

/-- mix64 (R101). -/
def mix64 (z : BitVec 64) : BitVec 64 :=
  let z := z + 0x9E3779B97F4A7C15
  let z := (z ^^^ (z >>> 30)) * 0xBF58476D1CE4E5B9
  let z := (z ^^^ (z >>> 27)) * 0x94D049BB133111EB
  z ^^^ (z >>> 31)

/-- The words of a lane after the reseed of R101. -/
def laneSeed (seed : BitVec 64) (step rkey : Word) (lane : Nat) : BitVec 64 × BitVec 64 :=
  let k := seed ^^^ (step.zeroExtend 64 <<< 32) ^^^ rkey.zeroExtend 64
  let a := mix64 (k ^^^ BitVec.ofNat 64 (2 * lane))
  let b := mix64 (k ^^^ BitVec.ofNat 64 (2 * lane + 1))
  if a = 0 ∧ b = 0 then (a, 1) else (a, b)

/-- Is the partition in COUNTED mode (R104)? -/
def State.counted (s : State) (p : Nat) : Bool := s.obj (0x3050 + p) 1 == 1

/-- Words of a lane of a core. -/
def Core.lane (c : Core) (l : Nat) : BitVec 64 × BitVec 64 := (c.gen.get (2 * l), c.gen.get (2 * l + 1))

/-- Write the words of all lanes. -/
def Core.setLanes (c : Core) (f : Nat → BitVec 64 × BitVec 64) : Core :=
  { c with gen := c.gen.fill 0 1024 fun i => if i % 2 = 0 then (f (i / 2)).1 else (f (i / 2)).2 }

/-- The reseed of a draw-consuming command in COUNTED mode (R101). -/
def State.reseedCounted (s : State) (e : Env) (rkey : Word) : State :=
  let seed := BitVec.ofNat 64 (s.obj (0x3050 + e.p) 2)
  let step := BitVec.ofNat 32 (s.obj (0x3100 + e.p) 6)
  s.setCore e.core ((s.core e.core).setLanes (laneSeed seed step rkey))

/-- Take `n l` draws from each lane `l`: draw `i` of a lane, and the state after them. In FREE mode a draw's value is
free (R100; log 4). -/
def State.takeDraws (s : State) (core p : Nat) (n : Nat → Nat) : (Nat → Nat → BitVec 64) × State :=
  if s.counted p then
    let c := s.core core
    (fun l i => ((advances (i + 1) (c.lane l).1 (c.lane l).2).2).getD i 0,
      s.setCore core (c.setLanes fun l => (advances (n l) (c.lane l).1 (c.lane l).2).1))
  else
    let k := s.freeCtr
    (fun l i => Config.freeDraw (k + l * 65536 + i), { s with freeCtr := k + 512 * 65536 })

end Sys2Proof.Machine
end

