-- ==== Sys2Proof/Machine/Matrix.lean ====
section
/-! DEFINITION. The matrix array: MATMUL (R65–R89, R176, R177) and DRAIN (R59–R64, R85–R88, R178). -/

namespace Sys2Proof.Machine

/-! ### Block accumulation (R55–R58) -/

/-- The block result: the exact sum of the products of a K block, rounded once (R55, R58). -/
def blockResult (products : List Fp) : Word :=
  match products.foldl Fp.add (.fin false 0 0) with
  | .fin _ 0 _ => 0
  | v => rn32 v

/-- Blocks of a cell added in ascending K (R56): `prod k` is product `k`, absent where both operands are zeroed. -/
def cellSum (acc : Word) (k : Nat) (prod : Nat → Option Fp) : Word :=
  (List.range (ceilDiv k 32)).foldl (fun acc q =>
    fadd acc (blockResult ((List.range (min 32 (k - 32 * q))).filterMap fun i => prod (32 * q + i)))) acc

/-! ### MATMUL -/

/-- The operand fields of MATMUL (R176). -/
structure MatOps where
  act   : Nat
  wgt   : Nat
  walks : Nat
  conv  : Bool
  acc   : Bool
  init  : Nat
  split : Bool
  shw   : Bool
  half  : Bool
  lds   : Nat
  m     : Nat
  n     : Nat
  k     : Nat
  mAdd  : Nat
  deriving DecidableEq, Repr

def matOps (e : Env) : MatOps :=
  ⟨e.f 8 8, e.f 16 8, e.f 24 8, e.b 32, e.b 33, e.f 34 2, e.b 36, e.b 37, e.b 38, e.f 40 8, e.f 48 9 + 1, e.f 57 6 + 1,
    e.f 64 32, e.f 96 32⟩

def matFields : List (Nat × Nat) :=
  [(8, 8), (16, 8), (24, 8), (32, 1), (33, 1), (34, 2), (36, 1), (37, 1), (38, 1), (40, 8), (48, 9), (57, 6), (64, 32), (96, 32)]

/-- Activation and weight slots (R176). -/
def MatOps.acts (o : MatOps) : List Nat := if o.split then (List.range 8).map (o.act + ·) else [o.act]
def MatOps.wgts (o : MatOps) : List Nat := if o.split && !o.shw then (List.range 8).map (o.wgt + ·) else [o.wgt]

/-- The legal pairings (R42). -/
def pairOk (a w : Nat) : Bool := (a == 1 && w == 1) || (2 ≤ a && a ≤ 5 && (w == 2 || w == 3 || w == 8))

/-- Formats that count as the same in split mode (R78). -/
def sameFormat (a b : Tensor) : Bool :=
  a.f.fmt == b.f.fmt && a.f.kst == b.f.kst && a.f.krd == b.f.krd && a.f.prnd == b.f.prnd

/-- The operands of a MATMUL after its checks. -/
structure MatArgs where
  acts : List Tensor
  wgts : List Tensor
  walk : Option Walk
  load : Option Tensor
  panel : Bool
  deriving DecidableEq, Repr

/-- An operand that a core engine reads or writes lies in the core's own scratchpad (R124, R178). -/
def ownOperand (e : Env) (t : Tensor) : Chk Unit := needParam (inOwnScratch e t.base)

/-- The checks of a MATMUL (R42, R44, R69, R78, R80, R107, R177), formats first. -/
def matCheck (s : State) (e : Env) (o : MatOps) : Chk MatArgs := do
  fieldsOnly e matFields
  needParam (o.init != 3 && (!o.split || (o.act + 7 ≤ 255 && (o.shw || o.wgt + 7 ≤ 255))))
  board s e (o.acts.map (·, kTensor) ++ o.wgts.map (·, kTensor) ++ (if o.conv then [(o.walks, kWalk)] else [])
    ++ (if o.init = 2 then [(o.lds, kTensor)] else [])) []
  let ra := o.acts.map fun x => (x, tensorOf (s.content e x))
  let rw := o.wgts.map fun x => (x, tensorOf (s.content e x))
  let rl := tensorOf (s.content e o.lds)
  match (ra ++ rw ++ (if o.init = 2 then [(o.lds, rl)] else [])).find? fun t => !t.2.f.ok false with
  | some t => atSlot t.1 (formatFault t.2.word)
  | none => .ok ()
  match rw.find? fun w => !(ra.all fun a => pairOk a.2.f.fmt w.2.f.fmt) with
  | some w => atSlot w.1 (formatFault w.2.word)
  | none => .ok ()
  need (o.init != 2 || rl.f.fmt == 0) (.prog fFormat o.lds rl.word)
  match (ra ++ rw).find? fun t => o.split && ((ra ++ rw).any fun u => (u.2.layout == t.2.layout && !sameFormat t.2 u.2) || hasAreas u.2.f.fmt && u.2.f.fmt != 8) with
  | some t => atSlot t.1 (formatFault t.2.word)
  | none => .ok ()
  let acts ← o.acts.mapM fun x => slotTensor s e false false x
  let wgts ← o.wgts.mapM fun x => slotTensor s e false false x
  let load ← if o.init = 2 then (slotTensor s e false false o.lds).map some else .ok none
  let za := o.acts.zip acts
  let zw := o.wgts.zip wgts
  let zl := load.toList.map fun t => (o.lds, t)
  (za ++ zw ++ zl).forM fun x => atSlot x.1 (ownOperand e x.2)
  let panel := !o.split && (wgts.any fun w => w.f.fmt == 8 && w.f.j ≤ 4)
  needParam (decide (1 ≤ o.k) && decide (o.k ≤ if panel then 1024 else 131072) && (!o.shw || o.split))
  za.forM fun x => atSlot x.1 (needParam (x.2.layout == if o.conv then 2 else 3))
  zw.forM fun x => atSlot x.1 (needParam (x.2.layout == 4 && decide (o.k ≤ x.2.rows)))
  zl.forM fun x => atSlot x.1 (needParam (decide (x.2.layout ≤ 1)))
  let w := walkOf (s.content e o.walks)
  if o.conv then
    atSlot o.walks (needParam ((acts.all fun t => w.ok t.f.fmt) && decide (o.k ≤ w.kh * w.kw * w.kblk * 32)))
    za.forM fun x => atSlot x.1 ((spanCheck s e false x.2.base w.inputBytes).map fun _ => ())
    za.forM fun x => atSlot x.1 (readSpans s [(x.2.base, w.inputBytes)])
  else
    za.forM fun x => atSlot x.1 (needParam (decide (o.k ≤ x.2.cols)))
    za.forM fun x => atSlot x.1 (readSpans s (x.2.feedSpans o.k))
  zw.forM fun x => atSlot x.1 (readSpans s (x.2.feedSpans o.k))
  zl.forM fun x => atSlot x.1 (readSpans s [(x.2.base, min x.2.extent 131072)])
  .ok ⟨acts, wgts, if o.conv then some w else none, load, panel⟩

/-- Rows of the array that take part (R77, R78, R82). -/
def rowActive (o : MatOps) (a : MatArgs) (r : Nat) : Bool :=
  decide ((if o.split then r % 64 else r) < o.m) && match a.walk with
    | some w => decide (w.mBase + o.mAdd + r < w.positions)
    | none => true

/-- Activation operand of row `r` at K position `k` (R72, R78, R83); `none` where both operands are zeroed. -/
def actValue (s : State) (o : MatOps) (a : MatArgs) (r k : Nat) : Option Fp :=
  let t := a.acts.getD (if o.split then r / 64 else 0) (tensorOf 0)
  match a.walk with
  | none => some (t.value s (if o.split then r % 64 else r) k)
  | some w =>
    let ch := k / 32 % w.kblk * 32 + k % 32
    let tap := k / 32 / w.kblk
    if ch ≥ w.cg then none
    else some ((w.input s t (w.mBase + o.mAdd + r) (tap / w.kw) (tap % w.kw) (w.gsel * w.cg + ch)).getD (.fin false 0 0))

/-- The panel operand of a MATMUL (R177). -/
def panelTag (s : State) (e : Env) (o : MatOps) (fmt : Nat) : PanelTag :=
  ⟨e.ctx, o.act, (s.slotOf e o.act).rebinds, fmt, o.k⟩

/-- Do two tags name the same operand (R177)? -/
def samePanel (a b : PanelTag) : Bool := a.ctx == b.ctx && a.slot == b.slot && a.rebinds == b.rebinds

/-- The half that holds the operand (R69). -/
def panelHolds (c : Core) (t : PanelTag) : Option Bool :=
  if (c.panel0.map (samePanel t)).getD false then some false
  else if (c.panel1.map (samePanel t)).getD false then some true
  else none

/-- The code that the panel store takes for an element (R69), and its scale for MXFP8. -/
def panelCode (s : State) (o : MatOps) (a : MatArgs) (i : Nat) : Nat :=
  let t := a.acts.getD 0 (tensorOf 0)
  if i < 2 ^ 20 then
    let r := i / 1024; let k := i % 1024
    if k ≥ o.k then 0
    else if !hasAreas t.f.fmt then
      match actValue s o a r k with
      | some v => ((elemFmt t.f.fmt).write .rne false v).code
      | none => 0
    else if r < t.rows ∧ k < t.cols then s.fetchNat (t.codeAddr r k) 1 else 0
  else if hasAreas t.f.fmt ∧ (i - 2 ^ 20) / 32 < t.rows ∧ i % 32 * 32 < t.cols then
    (s.fetchByte (t.scaleAddr ((i - 2 ^ 20) / 32) (i % 32 * 32))).toNat
  else 127

/-- Load a half of the panel store when no half holds the operand (R69). -/
def loadPanel (s : State) (e : Env) (o : MatOps) (a : MatArgs) : State :=
  let c := s.core e.core
  let t := panelTag s e o (a.acts.getD 0 (tensorOf 0)).f.fmt
  if !a.panel || (panelHolds c t).isSome then s
  else
    let d : NatTab := Tab.empty.fill 0 (2 ^ 20 + 512 * 32) (panelCode s o a)
    s.setCore e.core (if o.half then { c with panel1 := some t, pdata1 := d } else { c with panel0 := some t, pdata0 := d })

/-- Activation operand of a panel-mode pass, read from the panel store. Positions the half was not loaded with are
not stated (log 14). -/
def panelValue (s : State) (e : Env) (o : MatOps) (a : MatArgs) (r k : Nat) : Option Fp :=
  let c := s.core e.core
  let t := panelTag s e o 0
  let hi := (panelHolds c t).getD o.half
  let tag := if hi then c.panel1 else c.panel0
  let d := if hi then c.pdata1 else c.pdata0
  match tag with
  | none => none
  | some g =>
    let f := elemFmt g.fmt
    let code := if k < g.k then d.get (r * 1024 + k) else (Config.openResult 2 (BitVec.ofNat 32 r) (BitVec.ofNat 32 k)).toNat
    let skip := match a.walk with
      | some w => decide (k / 32 % w.kblk * 32 + k % 32 ≥ w.cg)
      | none => false
    if skip then none
    else if hasAreas g.fmt then
      let x := d.get (2 ^ 20 + r * 32 + k / 32)
      some (if x = 255 then .nan else (f.decode code).scale (scaleExp x))
    else some (f.decode code)

/-- The accumulator set after a pass (R55, R77, R88): keys r × 64 + c. -/
def passResult (s : State) (e : Env) (o : MatOps) (a : MatArgs) (old : WordTab) (i : Nat) : Word :=
  let r := i / 64
  let c := i % 64
  let start : Word := match o.init with
    | 0 => 0
    | 1 => old.get i
    | _ => match a.load with
      | some t => if r < t.rows ∧ c < t.cols then BitVec.ofNat 32 (s.fetchNat (t.codeAddr r c) 4) else 0
      | none => 0
  if rowActive o a r && decide (c < o.n) then
    let w := a.wgts.getD (if o.split ∧ !o.shw then r / 64 else 0) (tensorOf 0)
    cellSum start o.k fun k =>
      (if a.panel then panelValue s e o a r k else actValue s o a r k).map fun x => x.mul (w.value s k c)
  else start

/-- K groups a pass broadcasts (R67, R89). -/
def kGroups (o : MatOps) (a : MatArgs) : Nat :=
  let j := (a.wgts.getD 0 (tensorOf 0)).f.j
  let g := if a.panel then 8 / j else 1
  o.k / 32 * ceilDiv 32 g + ceilDiv (o.k % 32) g

/-- Do an activation stripe and a weight word lie in one bank group (R70)? Both are places in one core's window. -/
def bankClash (stripe addr : Nat) : Bool := addr % 0x8000000 / 64 % 48 / 8 == stripe % 6

/-- Feed-conflict cycles of a pass (R72–R74): direct mode, whole array, FP8 or MXFP8 activations. The reads of BF16 passes fall in
separate cycles (R73); those of walks and of split mode are not placed cycle by cycle (log 61). -/
def feedConflicts (o : MatOps) (a : MatArgs) : Nat :=
  let t := a.acts.getD 0 (tensorOf 0)
  let w := a.wgts.getD 0 (tensorOf 0)
  let mx := hasAreas t.f.fmt
  let stripe (q i : Nat) : Nat := t.base % 0x8000000 / 512 + (if mx then 33 * q else 32 * q) + i
  if o.conv || o.split || a.panel || t.f.fmt == 1 then 0
  else if w.f.fmt = 8 then
    (List.range (ceilDiv o.k 32 - 1)).foldl (fun n q =>
      n + ((List.range w.feedL).filter fun i => decide (i < if mx then 33 else 32) && bankClash (stripe q i) (w.feedWord (q + 1) i)).length) 0
  else ((List.range o.k).filter fun k => bankClash (stripe (k / 32) (k % 32)) (w.base + feedRow k)).length

/-- May the array serve this context (R171)? -/
def arrayFree (s : State) (e : Env) : Bool :=
  let c := s.core e.core
  match c.mqCtx with
  | none => true
  | some x => x == e.ctx || (c.undrained0 != some x && c.undrained1 != some x)

/-- The effect of an accepted MATMUL. -/
def matEffect (s : State) (e : Env) (o : MatOps) (a : MatArgs) : State :=
  let s := loadPanel s e o a
  let c := s.core e.core
  let old := if o.acc then c.acc1 else c.acc0
  let new : WordTab := Tab.empty.fill 0 32768 (passResult s e o a old)
  let active := ((List.range 512).filter (rowActive o a)).length
  let s := s.setCore e.core (if o.acc then { c with acc1 := new, undrained1 := some e.ctx, mqCtx := some e.ctx }
    else { c with acc0 := new, undrained0 := some e.ctx, mqCtx := some e.ctx })
  ((s.count (0x3040 + e.core) 1 64 (kGroups o a)).count (0x3040 + e.core) 2 64 (active * o.n * o.k)).countSat (0x3040 + e.core) 3 32
    (feedConflicts o a)

/-- MATMUL (R176, R177). -/
def runMatmul (e : Env) (s : State) : Res :=
  match matCheck s e (matOps e) with
  | .error why => .stop s why
  | .ok a => if arrayFree s e then .ok (matEffect s e (matOps e) a) else .stop s .wait

/-- MATMUL. -/
def execMatmul (core : CoreId) (ctx : CtxId) (s : State) : Host.Outcome State Fault Refusal :=
  .next (issue 0x01 core ctx s runMatmul)

/-! ### DRAIN -/

/-- The operand fields of DRAIN (R178). -/
structure DrainOps where
  dst  : Nat
  acc  : Bool
  trn  : Bool
  m    : Nat
  n    : Nat
  tr   : Nat
  tc   : Nat
  rkey : Word
  deriving DecidableEq, Repr

def drainOps (e : Env) : DrainOps :=
  ⟨e.f 8 8, e.b 16, e.b 17, e.f 18 9 + 1, e.f 27 6 + 1, e.f 40 24, e.f 64 24, BitVec.ofNat 32 (e.f 96 32)⟩

def drainFields : List (Nat × Nat) := [(8, 8), (16, 1), (17, 1), (18, 9), (27, 6), (40, 24), (64, 24), (96, 32)]

/-- Origin of the drained rectangle in destination elements, and its height and width there (R178). -/
def DrainOps.row0 (o : DrainOps) : Nat := if o.trn then o.tr * 64 else o.tr * 512
def DrainOps.col0 (o : DrainOps) : Nat := if o.trn then o.tc * 512 else o.tc * 64
def DrainOps.height (o : DrainOps) : Nat := if o.trn then o.n else o.m
def DrainOps.width (o : DrainOps) : Nat := if o.trn then o.m else o.n

/-- The accumulator element drained to destination (dr, dc), if one is (R178). -/
def DrainOps.source (o : DrainOps) (dr dc : Nat) : Option (Nat × Nat) :=
  if dr < o.row0 ∨ dc < o.col0 then none
  else
    let r := if o.trn then dc - o.col0 else dr - o.row0
    let c := if o.trn then dr - o.row0 else dc - o.col0
    if r < o.m ∧ c < o.n then some (r, c) else none

/-- Does the tensor's storage hold position (r, c), padding included (R105, R72; log 15)? -/
def Tensor.stored (t : Tensor) (r c : Nat) : Bool :=
  match t.layout with
  | 0 => decide (r < t.tr * 512) && decide (c < t.tc * 64)
  | 3 => decide (r < 512) && decide (c < if hasAreas t.f.fmt then ceilDiv t.cols 32 * 32 else t.cols)
  | 4 => decide (c < 64) && decide (r < if hasAreas t.f.fmt then ceilDiv t.rows 32 * 32 else t.rows)
  | _ => decide (r < t.rows) && decide (c < t.cols)

/-- What a drain writes and counts: cells, NaN elements, saturated or overflowed elements (R59). -/
structure Drained where
  cells : Cells
  nans  : Nat
  sats  : Nat
  deriving DecidableEq, Repr

/-- One element of a plain format: padding is +0 and counts nothing (R59, R111). -/
def drainElem (t : Tensor) (rnd : Nat → Nat → Rnd) (acc : Nat → Nat → Word) (o : DrainOps) (dr dc : Nat) : Drained :=
  match o.source dr dc with
  | none => ⟨[], 0, 0⟩
  | some (r, c) =>
    if !t.stored dr dc then ⟨[], 0, 0⟩
    else if dr ≥ t.rows ∨ dc ≥ t.cols then ⟨t.codeCells dr dc 0, 0, 0⟩
    else
      let w : Written := if t.f.fmt = 0 then ⟨(acc r c).toNat, false⟩ else (elemFmt t.f.fmt).write (rnd r c) t.f.sat (val32 (acc r c))
      ⟨t.codeCells dr dc w.code, if (elemFmt t.f.fmt).decode w.code = .nan then 1 else 0, if w.sat then 1 else 0⟩

/-- One scale line of a JP-k or MXFP8 destination, at its first element (R52, R59, R64, R178). -/
def drainLine (t : Tensor) (rnd : Nat → Nat → Rnd) (acc : Nat → Nat → Word) (o : DrainOps) (dr dc : Nat) : Drained :=
  let ps := t.linePos dr dc
  let src (q : Nat × Nat) : Option (Nat × Nat) := if q.1 ≥ t.rows ∨ q.2 ≥ t.cols then none else o.source q.1 q.2
  let live := ps.filter fun q => (o.source q.1 q.2).isSome
  if live.isEmpty ∨ !t.stored dr dc then ⟨[], 0, 0⟩
  else
    let vs := ps.map fun q => match src q with
      | some x => val32 (acc x.1 x.2)
      | none => Fp.fin false 0 0
    let rd (i : Nat) : Rnd := match src (ps.getD i (0, 0)) with
      | some x => rnd x.1 x.2
      | none => .rtz
    if t.f.fmt = 8 then
      let w := quantJp t.f.k rd t.f.sat vs
      let els := (w.2.zip ps).map fun x => if (src x.2).isSome then x.1 else (false, 0)
      ⟨t.jpCells t.f.k (if t.layout = 4 then t.f.planes else t.f.k) dr dc w.1 els,
        if w.1 = 255 then (ps.filter fun q => (src q).isSome).length else 0, 0⟩
    else
      let f := elemFmt t.f.fmt
      let w := quantMx f rd t.f.sat vs
      let z := (w.2.zip ps).map fun x => if (src x.2).isSome then (x.1, x.2) else (⟨0, false⟩, x.2)
      ⟨(t.scaleAddr dr dc, BitVec.ofNat 8 w.1) :: z.flatMap (fun x => t.codeCells x.2.1 x.2.2 x.1.code),
        (z.filter fun x => (src x.2).isSome && f.decode x.1.code == .nan).length, (z.filter fun x => x.1.sat).length⟩

/-- First elements of the scale lines that a rectangle of destination elements touches. -/
def Tensor.lineHeads (t : Tensor) (r0 c0 h w : Nat) : List (Nat × Nat) :=
  let alongCols := if t.layout = 3 then true else if t.layout = 4 then false else t.kaxis
  let block (lo n : Nat) := (List.range ((lo + n - 1) / 32 + 1 - lo / 32)).map fun i => (lo / 32 + i) * 32
  let span (lo n : Nat) := (List.range n).map (lo + ·)
  if alongCols then (span r0 h).flatMap fun r => (block c0 w).map fun c => (r, c)
  else (block r0 h).flatMap fun r => (span c0 w).map fun c => (r, c)

/-- Everything a drain writes. -/
def drainAll (t : Tensor) (rnd : Nat → Nat → Rnd) (acc : Nat → Nat → Word) (o : DrainOps) : Drained :=
  let parts := if hasAreas t.f.fmt then (t.lineHeads o.row0 o.col0 o.height o.width).map fun q => drainLine t rnd acc o q.1 q.2
    else (List.range o.height).flatMap fun i => (List.range o.width).map fun j => drainElem t rnd acc o (o.row0 + i) (o.col0 + j)
  ⟨parts.flatMap (·.cells), (parts.map (·.nans)).sum, (parts.map (·.sats)).sum⟩

/-- The checks of a DRAIN (R107, R114, R174, R178). -/
def drainCheck (s : State) (e : Env) (o : DrainOps) : Chk Tensor := do
  fieldsOnly e drainFields
  board s e [] [(o.dst, kTensor)]
  let raw := tensorOf (s.content e o.dst)
  need (raw.f.ok false) (.prog fFormat o.dst raw.word)
  let t ← slotTensor s e false true o.dst
  atSlot o.dst (ownOperand e t)
  atSlot o.dst <| needParam (t.layout != 2 && decide (o.row0 < t.rows) && decide (o.col0 < t.cols)
    && ((t.layout != 3 && t.layout != 4) || (o.tr == 0 && o.tc == 0)))
  atSlot o.dst (needParam (!overQueue s e t.base t.extent))
  .ok t

/-- Does the destination take stochastic draws (R63)? -/
def drawsOf (t : Tensor) : Bool := t.f.fmt != 0 && t.f.rnd == 2

/-- The effect of an accepted DRAIN. -/
def drainEffect (s : State) (e : Env) (o : DrainOps) (t : Tensor) : Chk State := do
  let c := s.core e.core
  let tab := if o.acc then c.acc1 else c.acc0
  let seeded := if drawsOf t && s.counted e.p then s.reseedCounted e o.rkey else s
  let d := seeded.takeDraws e.core e.p fun l => if l < o.m then o.n else 0
  let rnd (r col : Nat) : Rnd := rndOf t.f.rnd (draw16 (d.1 r col))
  let out := drainAll t rnd (fun r col => tab.get (r * 64 + col)) o
  let s ← atSlot o.dst (commitCells (if drawsOf t then d.2 else s) out.cells)
  let s := s.setCore e.core (if o.acc then { s.core e.core with undrained1 := none, mqCtx := some e.ctx }
    else { s.core e.core with undrained0 := none, mqCtx := some e.ctx })
  let s := (s.count (0x3010 + e.core) 5 64 out.nans).count (0x3010 + e.core) 6 64 out.sats
  .ok ((s.noteWrite e).startWrites e [o.dst] false)

/-- DRAIN (R178). -/
def runDrain (e : Env) (s : State) : Res :=
  match drainCheck s e (drainOps e) with
  | .error why => .stop s why
  | .ok t => if arrayFree s e then Res.of s (drainEffect s e (drainOps e) t) else .stop s .wait

/-- DRAIN. -/
def execDrain (core : CoreId) (ctx : CtxId) (s : State) : Host.Outcome State Fault Refusal :=
  .next (issue 0x02 core ctx s runDrain)

end Sys2Proof.Machine
end

