-- ==== Sys2Proof/Machine/VectorRow.lean ====
section
/-! DEFINITION. The vector row (R90–R102): each instruction of R180 once, the rows that issue one instruction, and VEC
(R179), which runs a program of them. -/

namespace Sys2Proof.Machine

/-- What an instruction does on a core's vector row: the next state, or why it stops. -/
abbrev VecStep := Env → State → Chk State

/-! ### Registers (R90, R91) -/

/-- A source in a lane: 0–63 vector registers, 64–127 scalar registers (R180). -/
def Core.src (c : Core) (n : BitVec 7) (l : Nat) : Word :=
  if n.toNat < 64 then c.vreg.get (n.toNat * 512 + l) else c.sreg.get (n.toNat - 64)

/-- Is a lane's flag set (R91)? -/
def Core.active (c : Core) (f : BitVec 3) (l : Nat) : Bool := (c.flags.get f.toNat).getLsbD l

/-- Write a destination: active lanes of a V register; an S register takes the value all lanes agree on. What an S
register takes when lanes differ or some are inactive is not stated (log 16). -/
def Core.setDst (c : Core) (o : VecOps) (mask : Nat → Bool) (f : Nat → Word) : Core :=
  if o.ds then
    let on := (List.range 512).filter mask
    if on.isEmpty then c
    else if on.length = 512 ∧ on.all (fun l => f l == f 0) then { c with sreg := c.sreg.set o.dst.toNat (f 0) }
    else { c with sreg := c.sreg.set o.dst.toNat (Config.openResult 4 (f 0) (BitVec.ofNat 32 on.length)) }
  else
    { c with vreg := c.vreg.fill (o.dst.toNat * 512) 512 fun l => if mask l then f l else c.vreg.get (o.dst.toNat * 512 + l) }

/-- An instruction that works lane by lane on its three sources (R92, R93). -/
def lanes (f : Word → Word → Word → Word) (o : VecOps) : VecStep := fun e s =>
  let c := s.core e.core
  .ok (s.setCore e.core (c.setDst o (c.active o.flg) fun l => f (c.src o.src1 l) (c.src o.src2 l) (c.src o.src3 l)))

/-- A compare: active lanes of FDST take the result; F0 is never written (R90, R92). -/
def compares (f : Word → Word → Bool) (o : VecOps) : VecStep := fun e s =>
  let c := s.core e.core
  if o.fdst = 0 then .ok s
  else
    let old := c.flags.get o.fdst.toNat
    let bits := BitVec.ofNat 512 (planeWord ((List.range 512).map fun l =>
      if c.active o.flg l then f (c.src o.src1 l) (c.src o.src2 l) else old.getLsbD l))
    .ok (s.setCore e.core { c with flags := c.flags.set o.fdst.toNat bits })

/-! ### Lane operations -/

def stepAdd : VecOps → VecStep := lanes fun a b _ => fadd a b
def stepSub : VecOps → VecStep := lanes fun a b _ => fsub a b
def stepMul : VecOps → VecStep := lanes fun a b _ => fmul a b
def stepFma : VecOps → VecStep := lanes ffma
def stepMin : VecOps → VecStep := lanes fun a b _ => fmin a b
def stepMax : VecOps → VecStep := lanes fun a b _ => fmax a b
def stepAbs : VecOps → VecStep := lanes fun a _ _ => fabs a
def stepNeg : VecOps → VecStep := lanes fun a _ _ => fneg a
def stepIadd : VecOps → VecStep := lanes fun a b _ => a + b
def stepIsub : VecOps → VecStep := lanes fun a b _ => a - b
def stepAnd : VecOps → VecStep := lanes fun a b _ => a &&& b
def stepOr : VecOps → VecStep := lanes fun a b _ => a ||| b
def stepXor : VecOps → VecStep := lanes fun a b _ => a ^^^ b
def stepNot : VecOps → VecStep := lanes fun a _ _ => ~~~a
def stepShl : VecOps → VecStep := lanes fun a b _ => a <<< (b.toNat % 32)
def stepShr : VecOps → VecStep := lanes fun a b _ => a >>> (b.toNat % 32)
def stepSar : VecOps → VecStep := lanes fun a b _ => a.sshiftRight (b.toNat % 32)
def stepImul : VecOps → VecStep := lanes fun a b _ => a * b
def stepExp2 : VecOps → VecStep := lanes fun a _ _ => fexp2 a
def stepLog2 : VecOps → VecStep := lanes fun a _ _ => flog2 a
def stepRcp : VecOps → VecStep := lanes fun a _ _ => frcp a
def stepRsq : VecOps → VecStep := lanes fun a _ _ => frsq a

def unord (a b : Word) : Bool := isNan32 a || isNan32 b
def stepCmpEq : VecOps → VecStep := compares fun a b => !unord a b && fcmp a b == 0
def stepCmpNe : VecOps → VecStep := compares fun a b => unord a b || fcmp a b != 0
def stepCmpLt : VecOps → VecStep := compares fun a b => !unord a b && decide (fcmp a b < 0)
def stepCmpLe : VecOps → VecStep := compares fun a b => !unord a b && decide (fcmp a b ≤ 0)
def stepCmpUnord : VecOps → VecStep := compares unord

/-- SEL: the flag selects, and every lane is written (R92). -/
def stepSel (o : VecOps) : VecStep := fun e s =>
  let c := s.core e.core
  .ok (s.setCore e.core (c.setDst o (fun _ => true) fun l => if c.active o.flg l then c.src o.src1 l else c.src o.src2 l))

/-! ### Draws (R99–R102) -/

/-- `n l` draws from each lane `l` of the command in progress: permission first (R180), then the reseed of R101. -/
def vecDraws (e : Env) (s : State) (n : Nat → Nat) : Chk ((Nat → Nat → BitVec 64) × State) := do
  let c := s.core e.core
  needParam c.vec.draws
  let s := if s.counted e.p && !c.vec.seeded then s.reseedCounted e c.vec.rkey else s
  let s := s.setCore e.core { s.core e.core with vec := { c.vec with seeded := true } }
  .ok (s.takeDraws e.core e.p n)

/-- RAND16 and RAND32 (R99): inactive lanes take no draw. -/
def randoms (value : BitVec 64 → Nat) (o : VecOps) : VecStep := fun e s => do
  let on := (s.core e.core).active o.flg
  let d ← vecDraws e s fun l => if on l then 1 else 0
  .ok (d.2.setCore e.core ((d.2.core e.core).setDst o on fun l => BitVec.ofNat 32 (value (d.1 l 0))))

def stepRand16 : VecOps → VecStep := randoms draw16
def stepRand32 : VecOps → VecStep := randoms draw32

/-- The 64 bits of an instruction's operand fields (R180). -/
def vecBits (o : VecOps) : Nat :=
  o.dst.toNat * 2 ^ 8 + bit o.ds * 2 ^ 14 + o.src1.toNat * 2 ^ 15 + o.src2.toNat * 2 ^ 22 + o.src3.toNat * 2 ^ 29
    + o.flg.toNat * 2 ^ 36 + o.fdst.toNat * 2 ^ 39 + o.bind.toNat * 2 ^ 42 + o.imm.toNat * 2 ^ 45 + bit o.half * 2 ^ 61

/-- CVT (R92, R93): to BF16, E4M3 or E5M2 under the format word, the register holding the rounded value as FP32 (log
17); FMT FP32 converts between FP32 and I32. -/
def stepCvt (o : VecOps) : VecStep := fun e s => do
  let w := fmtWord o.imm.toNat
  need (w.ok false && decide (w.fmt ≤ 3)) (.prog fFormat 0 o.imm.toNat)
  let c := s.core e.core
  let on := c.active o.flg
  if w.fmt = 0 then
    .ok (s.setCore e.core (c.setDst o on fun l => (if Config.cvtToInt (vecBits o) then cvtI32 else cvtFromI32) (c.src o.src1 l)))
  else
    let conv (r : Rnd) (a : Word) : Word := rn32 ((elemFmt w.fmt).decode ((elemFmt w.fmt).write r w.sat (val32 a)).code)
    if w.rnd = 2 then
      let d ← vecDraws e s fun l => if on l then 1 else 0
      .ok (d.2.setCore e.core ((d.2.core e.core).setDst o on fun l => conv (.sr (draw16 (d.1 l 0))) (c.src o.src1 l)))
    else .ok (s.setCore e.core (c.setDst o on fun l => conv (rndOf w.rnd 0) (c.src o.src1 l)))

/-! ### Reductions (R95) -/

/-- `s` levels over the lanes of a segment, pairwise. -/
def reducePairs (f : Word → Word → Word) : Nat → List Word → Word
  | 0, l => l.headD 0
  | n + 1, l => reducePairs f n (pairs l)
where
  pairs : List Word → List Word
    | a :: b :: r => f a b :: pairs r
    | l => l

/-- A reduction: flag-clear lanes contribute the neutral value and are still written. -/
def reduces (f : Word → Word → Word) (neutral : Word) (o : VecOps) : VecStep := fun e s => do
  needParam (decide (o.src3.toNat ≤ 4))
  let c := s.core e.core
  let lv := 5 + o.src3.toNat
  let seg := 2 ^ lv
  let val (l : Nat) : Word := if c.active o.flg l then c.src o.src1 l else neutral
  let results := (List.range (512 / seg)).map fun g => reducePairs f lv ((List.range seg).map fun i => val (g * seg + i))
  .ok (s.setCore e.core (c.setDst o (fun _ => true) fun l => results.getD (l / seg) 0))

def stepRsum : VecOps → VecStep := reduces fadd 0
def stepRmax : VecOps → VecStep := reduces fmax 0xFF800000
def stepRmin : VecOps → VecStep := reduces fmin 0x7F800000

/-! ### Scratchpad access (R97, R180) -/

/-- The slot behind a binding. -/
def boundSlot (s : State) (e : Env) (o : VecOps) : Nat := (s.core e.core).vec.binds.getD o.bind.toNat 0

/-- The tensor behind a binding: used, and a destination for a store, else the OPCODE fault (R180). -/
def bound (s : State) (e : Env) (o : VecOps) (store : Bool) (opc : Nat) : Chk Tensor := do
  let v := (s.core e.core).vec
  let i := o.bind.toNat
  need (v.used.getLsbD i && (!store || v.wmask.getLsbD i)) (.prog fOpcode (v.binds.getD i 0) opc)
  let t ← slotTensor s e false store (v.binds.getD i 0)
  atSlot (v.binds.getD i 0) (ownOperand e t)
  need (t.f.fmt != 8) (.prog fFormat (v.binds.getD i 0) t.word)
  .ok t

/-- An element as FP32: exact, or rounded with RNE for MXFP8 (R97). -/
def loadElem (s : State) (t : Tensor) (r c : Nat) : Word := rn32 (t.value s r c)

/-- LDS: up to 64 consecutive FP32 values into S0 onward (R97). -/
def stepLds (o : VecOps) : VecStep := fun e s => atSlot (boundSlot s e o) do
  let t ← bound s e o false 0x50
  need (t.f.fmt == 0) (.prog fFormat 0 t.word)
  let n := o.src3.toNat + 1
  let a := t.base + o.imm.toNat * 64
  needParam (decide (n ≤ 64) && decide (o.imm.toNat * 64 + 4 * n ≤ t.extent))
  readSpans s [(a, 4 * n)]
  let c := s.core e.core
  .ok (s.setCore e.core { c with sreg := c.sreg.fill 0 n fun i => BitVec.ofNat 32 (s.fetchNat (a + 4 * i) 4) })

/-- LDC: one column of a FEED_ACT tensor (R97). -/
def stepLdc (o : VecOps) : VecStep := fun e s => atSlot (boundSlot s e o) do
  let t ← bound s e o false 0x51
  needParam (t.layout == 3)
  let k := o.imm.toNat
  readSpans s (if k < t.cols then [(t.codeAddr 0 k, 512 * elemSize t.f.fmt)] else [])
  let c := s.core e.core
  .ok (s.setCore e.core (c.setDst { o with ds := false } (fun _ => true) fun l => loadElem s t l k))

/-- First register of LDT and STT (R180). -/
def halfBase (o : VecOps) : Nat := if o.half then 32 else 0

/-- Spans of one block column of tile row 0 (R97, R180). -/
def columnSpans (t : Tensor) (bc : Nat) : Spans :=
  (List.range 16).flatMap fun br => t.areas.mapIdx fun a n => (t.areaAddr a (t.block br bc), n)

/-- LDT: 32 consecutive columns of a BLOCKED tile (R97). -/
def stepLdt (o : VecOps) : VecStep := fun e s => atSlot (boundSlot s e o) do
  let t ← bound s e o false 0x52
  needParam (t.layout == 0)
  let bc := o.imm.toNat
  readSpans s (if bc < 2 * t.tc then columnSpans t bc else [])
  let c := s.core e.core
  .ok (s.setCore e.core { c with vreg := c.vreg.fill (halfBase o * 512) (32 * 512) fun i => loadElem s t (i % 512) (bc * 32 + i / 512) })

/-- What a store writes for an element (R60–R64, R111): +0 in padding, FP32 bit for bit. -/
def storeCode (t : Tensor) (r : Rnd) (v : Word) (row col : Nat) : Nat :=
  if row ≥ t.rows ∨ col ≥ t.cols then 0
  else if t.f.fmt = 0 then v.toNat
  else ((elemFmt t.f.fmt).write r t.f.sat (val32 v)).code

/-- Draws of a store: `n` per lane under SR to a short format (R63, R97). -/
def storeDraws (e : Env) (s : State) (t : Tensor) (n : Nat) : Chk ((Nat → Nat → Rnd) × State) :=
  if drawsOf t then (vecDraws e s fun _ => n).map fun d => ((fun l i => .sr (draw16 (d.1 l i))), d.2)
  else .ok ((fun _ _ => rndOf t.f.rnd 0), s)

/-- STC: one column of a FEED_ACT tensor. What one column of an MXFP8 block is written as is not stated (log 18). -/
def stepStc (o : VecOps) : VecStep := fun e s => atSlot (boundSlot s e o) do
  let t ← bound s e o true 0x53
  let k := o.imm.toNat
  needParam (t.layout == 3 && t.stored 0 k)
  let d ← storeDraws e s t 1
  let c := s.core e.core
  let code (l : Nat) : Nat :=
    if hasAreas t.f.fmt then (Config.openResult 3 (c.vreg.get (o.dst.toNat * 512 + l)) (BitVec.ofNat 32 l)).toNat
    else storeCode t (d.1 l 0) (c.vreg.get (o.dst.toNat * 512 + l)) l k
  (commitCells d.2 ((List.range 512).flatMap fun l => t.codeCells l k (code l))).map fun s => s.noteWrite e

/-- STT: 32 columns of a BLOCKED tile (R97). -/
def stepStt (o : VecOps) : VecStep := fun e s => atSlot (boundSlot s e o) do
  let t ← bound s e o true 0x54
  let bc := o.imm.toNat
  needParam (t.layout == 0 && decide (bc < 2 * t.tc))
  let d ← storeDraws e s t 32
  let c := s.core e.core
  let reg (row col : Nat) : Word := c.vreg.get ((halfBase o + (col - bc * 32)) * 512 + row)
  let cells : Cells :=
    if hasAreas t.f.fmt then
      (t.lineHeads 0 (bc * 32) 512 32).flatMap fun q =>
        t.lineCells (fun i => let p := (t.linePos q.1 q.2).getD i (0, 0); d.1 p.1 (p.2 - bc * 32)) (fun r col => val32 (reg r col)) q.1 q.2
    else (List.range 32).flatMap fun j => (List.range 512).flatMap fun r =>
      t.codeCells r (bc * 32 + j) (storeCode t (d.1 r j) (reg r (bc * 32 + j)) r (bc * 32 + j))
  (commitCells d.2 cells).map fun s => s.noteWrite e

/-! ### Instruction words (R180) -/

/-- The operation of an OPC. -/
def vecOp (opc : Nat) : Option (VecOps → VecStep) :=
  match opc with
  | 0x01 => some stepAdd | 0x02 => some stepSub | 0x03 => some stepMul | 0x04 => some stepFma | 0x05 => some stepMin
  | 0x06 => some stepMax | 0x07 => some stepAbs | 0x08 => some stepNeg
  | 0x10 => some stepCmpEq | 0x11 => some stepCmpNe | 0x12 => some stepCmpLt | 0x13 => some stepCmpLe | 0x14 => some stepCmpUnord
  | 0x18 => some stepSel
  | 0x20 => some stepIadd | 0x21 => some stepIsub | 0x22 => some stepAnd | 0x23 => some stepOr | 0x24 => some stepXor
  | 0x25 => some stepNot | 0x26 => some stepShl | 0x27 => some stepShr | 0x28 => some stepSar | 0x29 => some stepImul
  | 0x30 => some stepCvt
  | 0x38 => some stepExp2 | 0x39 => some stepLog2 | 0x3A => some stepRcp | 0x3B => some stepRsq
  | 0x40 => some stepRsum | 0x41 => some stepRmax | 0x42 => some stepRmin
  | 0x48 => some stepRand16 | 0x49 => some stepRand32
  | 0x50 => some stepLds | 0x51 => some stepLdc | 0x52 => some stepLdt | 0x53 => some stepStc | 0x54 => some stepStt
  | _ => none

/-- The operand fields of an instruction word. -/
def vecOpsOf (w : Nat) : VecOps :=
  ⟨BitVec.ofNat 6 (w / 2 ^ 8), bitAt w 14, BitVec.ofNat 7 (w / 2 ^ 15), BitVec.ofNat 7 (w / 2 ^ 22), BitVec.ofNat 7 (w / 2 ^ 29),
    BitVec.ofNat 3 (w / 2 ^ 36), BitVec.ofNat 3 (w / 2 ^ 39), BitVec.ofNat 3 (w / 2 ^ 42), BitVec.ofNat 16 (w / 2 ^ 45), bitAt w 61⟩

/-- Issue one instruction: counted (R98), then its effect. -/
def vecIssue (step : VecStep) (e : Env) (s : State) : Chk State := step e (s.count (0x3060 + e.core) 1 64 1)

/-- The environment of the vector command in progress on a core. -/
def vecEnv (s : State) (core : Nat) : Env :=
  let ctx := (s.core core).vec.ctx
  ⟨core, ctx, (s.homeOf core ctx).getD core, (s.partOf core).getD 0, ((s.core core).ctxs.get ctx).ptr, 0⟩

/-- One instruction issued on a core's vector row by itself: a stop is the fault of the VEC it belongs to (R180). -/
def vecRow (core : CoreId) (step : VecStep) (s : State) : State :=
  match vecIssue step (vecEnv s core) s with
  | .ok t => t
  | .error why => s.applyStop (vecEnv s core) why

/-- Run a program from instruction `i`, `fuel` of them; effects of completed instructions stay (R180). -/
def runProgram (e : Env) (base : Nat) : Nat → Nat → State → Res
  | 0, _, s => .ok s
  | fuel + 1, i, s =>
    let a := base + 8 * i
    if s.sramError a 8 then .stop s (.hard .memory 0 a)
    else
      let w := s.fetchNat a 8
      match vecOp (w % 256) with
      | none => .stop s (.prog fOpcode 0 (w % 256 + i * 256))
      | some op =>
        if w / 2 ^ 62 ≠ 0 then .stop s (.prog fParameter 0 0)
        else match vecIssue (op (vecOpsOf w)) e s with
          | .ok t => runProgram e base fuel (i + 1) t
          | .error (.prog 0x04 slot opc) => .stop s (.prog fOpcode slot (opc + i * 256))
          | .error why => .stop s why

/-! ### VEC (R179) -/

def vecFields : List (Nat × Nat) := [(8, 8), (16, 64), (80, 8), (88, 8), (96, 32), (128, 1)]

/-- BASE and LENGTH of a slot of kinds 2 to 6; other content bits are reserved (R172). -/
def listSlot (w : Nat) : Chk (Nat × Nat) := do
  needParam (onlyFields w [(0, 44), (64, 32)] && decide (w % 64 = 0))
  .ok (fieldAt w 0 44, fieldAt w 64 32)

/-- Binding slots, by index. -/
def vecBinds (e : Env) : List Nat := (List.range 8).map fun i => e.f (16 + 8 * i) 8

/-- Slots of the bindings a mask selects. -/
def bindsIn (e : Env) (p : Nat → Bool) : List Nat := ((List.range 8).filter p).map fun i => (vecBinds e).getD i 0

def vecSources (e : Env) : List Nat := bindsIn e fun i => e.b (88 + i) && !e.b (80 + i)
def vecDests (e : Env) : List Nat := (bindsIn e fun i => e.b (88 + i) && e.b (80 + i)).eraseDups

/-- The checks of a VEC (R107, R173, R174, R179). Answers the program's address and length. -/
def vecCheck (s : State) (e : Env) : Chk (Nat × Nat) := do
  fieldsOnly e vecFields
  board s e ((e.f 8 8, kProgram) :: (vecSources e).map (·, kTensor)) ((vecDests e).map (·, kTensor))
  let pr ← atSlot (e.f 8 8) (listSlot (s.content e (e.f 8 8)))
  atSlot (e.f 8 8) (needParam (decide (1 ≤ pr.2) && decide (pr.2 ≤ 65535)))
  let a ← atSlot (e.f 8 8) (spanCheck s e false pr.1 (8 * pr.2))
  atSlot (e.f 8 8) (needParam (inOwnScratch e a))
  (vecSources e).forM fun x => atSlot x do ownOperand e (← slotTensor s e false false x)
  (vecDests e).forM fun x => atSlot x do
    let t ← slotTensor s e false true x
    ownOperand e t
    needParam (!overQueue s e t.base t.extent)
  .ok pr

/-- Registers at the start of a VEC (R179). -/
def vecStart (s : State) (e : Env) : State :=
  let run : VecRun := ⟨e.ctx, vecBinds e, BitVec.ofNat 8 (e.f 80 8), BitVec.ofNat 8 (e.f 88 8), e.b 128, BitVec.ofNat 32 (e.f 96 32), false⟩
  s.setCore e.core { (s.core e.core).clearVector with vec := run }

/-- VEC (R179). -/
def runVec (e : Env) (s : State) : Res :=
  match vecCheck s e with
  | .error why => .stop s why
  | .ok pr =>
    match runProgram e pr.1 pr.2 0 (vecStart s e) with
    | .ok t => .ok (t.startWrites e (vecDests e) false)
    | r => r

/-- VEC. -/
def execVec (core : CoreId) (ctx : CtxId) (s : State) : Host.Outcome State Fault Refusal :=
  .next (issue 0x03 core ctx s runVec)

/-! ### The rows that issue one instruction -/

/-- ADD on a core's vector row. -/
def execVAdd (core : CoreId) (o : VecOps) (s : State) : Host.Outcome State Fault Refusal :=
  .next (vecRow core (stepAdd o) s)

/-- SUB on a core's vector row. -/
def execVSub (core : CoreId) (o : VecOps) (s : State) : Host.Outcome State Fault Refusal :=
  .next (vecRow core (stepSub o) s)

/-- MUL on a core's vector row. -/
def execVMul (core : CoreId) (o : VecOps) (s : State) : Host.Outcome State Fault Refusal :=
  .next (vecRow core (stepMul o) s)

/-- FMA on a core's vector row. -/
def execVFma (core : CoreId) (o : VecOps) (s : State) : Host.Outcome State Fault Refusal :=
  .next (vecRow core (stepFma o) s)

/-- MIN on a core's vector row. -/
def execVMin (core : CoreId) (o : VecOps) (s : State) : Host.Outcome State Fault Refusal :=
  .next (vecRow core (stepMin o) s)

/-- MAX on a core's vector row. -/
def execVMax (core : CoreId) (o : VecOps) (s : State) : Host.Outcome State Fault Refusal :=
  .next (vecRow core (stepMax o) s)

/-- ABS on a core's vector row. -/
def execVAbs (core : CoreId) (o : VecOps) (s : State) : Host.Outcome State Fault Refusal :=
  .next (vecRow core (stepAbs o) s)

/-- NEG on a core's vector row. -/
def execVNeg (core : CoreId) (o : VecOps) (s : State) : Host.Outcome State Fault Refusal :=
  .next (vecRow core (stepNeg o) s)

/-- CMPEQ on a core's vector row. -/
def execVCmpEq (core : CoreId) (o : VecOps) (s : State) : Host.Outcome State Fault Refusal :=
  .next (vecRow core (stepCmpEq o) s)

/-- CMPNE on a core's vector row. -/
def execVCmpNe (core : CoreId) (o : VecOps) (s : State) : Host.Outcome State Fault Refusal :=
  .next (vecRow core (stepCmpNe o) s)

/-- CMPLT on a core's vector row. -/
def execVCmpLt (core : CoreId) (o : VecOps) (s : State) : Host.Outcome State Fault Refusal :=
  .next (vecRow core (stepCmpLt o) s)

/-- CMPLE on a core's vector row. -/
def execVCmpLe (core : CoreId) (o : VecOps) (s : State) : Host.Outcome State Fault Refusal :=
  .next (vecRow core (stepCmpLe o) s)

/-- CMPUNORD on a core's vector row. -/
def execVCmpUnord (core : CoreId) (o : VecOps) (s : State) : Host.Outcome State Fault Refusal :=
  .next (vecRow core (stepCmpUnord o) s)

/-- SEL on a core's vector row. -/
def execVSel (core : CoreId) (o : VecOps) (s : State) : Host.Outcome State Fault Refusal :=
  .next (vecRow core (stepSel o) s)

/-- IADD on a core's vector row. -/
def execVIadd (core : CoreId) (o : VecOps) (s : State) : Host.Outcome State Fault Refusal :=
  .next (vecRow core (stepIadd o) s)

/-- ISUB on a core's vector row. -/
def execVIsub (core : CoreId) (o : VecOps) (s : State) : Host.Outcome State Fault Refusal :=
  .next (vecRow core (stepIsub o) s)

/-- AND on a core's vector row. -/
def execVAnd (core : CoreId) (o : VecOps) (s : State) : Host.Outcome State Fault Refusal :=
  .next (vecRow core (stepAnd o) s)

/-- OR on a core's vector row. -/
def execVOr (core : CoreId) (o : VecOps) (s : State) : Host.Outcome State Fault Refusal :=
  .next (vecRow core (stepOr o) s)

/-- XOR on a core's vector row. -/
def execVXor (core : CoreId) (o : VecOps) (s : State) : Host.Outcome State Fault Refusal :=
  .next (vecRow core (stepXor o) s)

/-- NOT on a core's vector row. -/
def execVNot (core : CoreId) (o : VecOps) (s : State) : Host.Outcome State Fault Refusal :=
  .next (vecRow core (stepNot o) s)

/-- SHL on a core's vector row. -/
def execVShl (core : CoreId) (o : VecOps) (s : State) : Host.Outcome State Fault Refusal :=
  .next (vecRow core (stepShl o) s)

/-- SHR on a core's vector row. -/
def execVShr (core : CoreId) (o : VecOps) (s : State) : Host.Outcome State Fault Refusal :=
  .next (vecRow core (stepShr o) s)

/-- SAR on a core's vector row. -/
def execVSar (core : CoreId) (o : VecOps) (s : State) : Host.Outcome State Fault Refusal :=
  .next (vecRow core (stepSar o) s)

/-- IMUL on a core's vector row. -/
def execVImul (core : CoreId) (o : VecOps) (s : State) : Host.Outcome State Fault Refusal :=
  .next (vecRow core (stepImul o) s)

/-- CVT on a core's vector row. -/
def execVCvt (core : CoreId) (o : VecOps) (s : State) : Host.Outcome State Fault Refusal :=
  .next (vecRow core (stepCvt o) s)

/-- EXP2 on a core's vector row. -/
def execVExp2 (core : CoreId) (o : VecOps) (s : State) : Host.Outcome State Fault Refusal :=
  .next (vecRow core (stepExp2 o) s)

/-- LOG2 on a core's vector row. -/
def execVLog2 (core : CoreId) (o : VecOps) (s : State) : Host.Outcome State Fault Refusal :=
  .next (vecRow core (stepLog2 o) s)

/-- RCP on a core's vector row. -/
def execVRcp (core : CoreId) (o : VecOps) (s : State) : Host.Outcome State Fault Refusal :=
  .next (vecRow core (stepRcp o) s)

/-- RSQ on a core's vector row. -/
def execVRsq (core : CoreId) (o : VecOps) (s : State) : Host.Outcome State Fault Refusal :=
  .next (vecRow core (stepRsq o) s)

/-- RSUM on a core's vector row. -/
def execVRsum (core : CoreId) (o : VecOps) (s : State) : Host.Outcome State Fault Refusal :=
  .next (vecRow core (stepRsum o) s)

/-- RMAX on a core's vector row. -/
def execVRmax (core : CoreId) (o : VecOps) (s : State) : Host.Outcome State Fault Refusal :=
  .next (vecRow core (stepRmax o) s)

/-- RMIN on a core's vector row. -/
def execVRmin (core : CoreId) (o : VecOps) (s : State) : Host.Outcome State Fault Refusal :=
  .next (vecRow core (stepRmin o) s)

/-- RAND16 on a core's vector row. -/
def execVRand16 (core : CoreId) (o : VecOps) (s : State) : Host.Outcome State Fault Refusal :=
  .next (vecRow core (stepRand16 o) s)

/-- RAND32 on a core's vector row. -/
def execVRand32 (core : CoreId) (o : VecOps) (s : State) : Host.Outcome State Fault Refusal :=
  .next (vecRow core (stepRand32 o) s)

/-- LDS on a core's vector row. -/
def execVLds (core : CoreId) (o : VecOps) (s : State) : Host.Outcome State Fault Refusal :=
  .next (vecRow core (stepLds o) s)

/-- LDC on a core's vector row. -/
def execVLdc (core : CoreId) (o : VecOps) (s : State) : Host.Outcome State Fault Refusal :=
  .next (vecRow core (stepLdc o) s)

/-- LDT on a core's vector row. -/
def execVLdt (core : CoreId) (o : VecOps) (s : State) : Host.Outcome State Fault Refusal :=
  .next (vecRow core (stepLdt o) s)

/-- STC on a core's vector row. -/
def execVStc (core : CoreId) (o : VecOps) (s : State) : Host.Outcome State Fault Refusal :=
  .next (vecRow core (stepStc o) s)

/-- STT on a core's vector row. -/
def execVStt (core : CoreId) (o : VecOps) (s : State) : Host.Outcome State Fault Refusal :=
  .next (vecRow core (stepStt o) s)

end Sys2Proof.Machine
end

