-- ==== Sys2Proof/Machine/Mover.lean ====
section
/-! DEFINITION. The tile mover and the spill engine: MOVE (R181, R447), GATHER, SCATTER, SCATTER_ADD (R115–R117, R182),
WINDOW (R118–R120, R183), SPILL and PREFETCH (R151, R152, R184, R210), compressed tiles (R147–R150), distributed sources
and keep pools (R121–R123, R231, R282). -/

namespace Sys2Proof.Machine

/-! ### Where a command writes -/

/-- Distinct 64-byte words of some cells. -/
def wordsIn (l : Cells) : Nat := (l.foldl (fun (t : NatTab) c => t.set (c.1 / 64) 1) .empty).entries.length

/-- Write through the mover port: a recorded command makes no write outside the failed core's working range (R209);
words are counted at the core written (R129). -/
def moverWrite (s : State) (e : Env) (l : Cells) : Chk State := do
  let l := if s.recorded e then l.filter fun c => !outsideRange s e c.1 1 else l
  let s ← commitCells s l
  .ok ((List.range 16).foldl (fun s c =>
    s.portWrites c (wordsIn ((l.map fun x => (redirectBy s.redirects x.1, x.2)).filter fun x => decide (winOf c ≤ x.1) && decide (x.1 < winOf (c + 1))))) s)

/-- Words read from scratchpads, counted at the core read (R129), and bytes read from bulk memory (R160). -/
def moverReads (s : State) (l : Spans) : State :=
  (List.range 16).foldl (fun s c =>
    let n := ((l.filter fun x =>
      let a := redirectBy s.redirects x.1
      decide (winOf c ≤ a) && decide (a < winOf (c + 1))).map fun x => ceilDiv (x.1 % 64 + x.2) 64).sum
    if n = 0 then s else s.count (0x3400 + c) 2 64 n) (l.foldl (fun s x => s.countBulk 1 x.1 x.2) s)

/-- A destination of the tile mover: in a scratchpad, clear of the core's queues (R124, R174, R181). -/
def moverDst (s : State) (e : Env) (sl : Nat) : Chk Tensor := do
  let t ← slotTensor s e false true sl
  atSlot sl (needParam (inScratch t.base && !overQueue s e t.base t.extent))
  .ok t

/-- The end of an accepted mover command: DST becomes WRITING and outstanding, the write unfenced (R173, R191). -/
def moverDone (s : State) (e : Env) (dst : Nat) (t : Tensor) : State :=
  (s.noteWrite e).startWrites e [dst] (outsideRange s e t.base t.extent)

/-! ### Staged tiles -/

/-- Where a tile that does not lie as R109 stores it is laid out for reading: an address no engine reaches. -/
def stageBase : Nat := 0x20000000000

/-- The tensor as it lies in the stage. -/
def Tensor.staged (t : Tensor) : Tensor := { t with layout := 0, base := stageBase, stride := t.tiles * 32 * t.areas.foldl max 0 }

/-- Areas that a read of planes 1 to `p` needs (R110). -/
def Tensor.needs (t : Tensor) (p : Nat) : List Nat := List.range (if t.f.fmt = 8 then 2 + p else t.areas.length)

/-! ### Compressed tiles (R147–R150) -/

/-- Coded length of a block's scales. -/
def scLen (sc : Nat) : Nat := match sc with | 0 => 32 | 1 => 17 | _ => 0

/-- Scale bytes of a block from its code. -/
def scBytes (sc : Nat) (l : List Byte) : List Byte :=
  match sc with
  | 0 => l
  | 1 => (List.range 32).map fun i =>
      let n := (l.getD (1 + i / 2) 0).toNat
      BitVec.ofNat 8 ((l.getD 0 0).toNat + (if i % 2 = 0 then n % 16 else n / 16))
  | _ => List.replicate 32 0

/-- A compressed tile: the address of its start, its 32 block words, and the areas its format has. -/
structure Packed where
  addr   : Nat
  words  : List Nat
  scaled : Bool
  sizes  : List Nat
  deriving DecidableEq, Repr

/-- Length of the coded scales, padded. -/
def Packed.scaleSeg (k : Packed) : Nat :=
  if k.scaled then ceilDiv (k.words.map fun w => scLen (fieldAt w 9 2)).sum 64 * 64 else 0

/-- Start of the segment of stored area `n`, numbered from 1. -/
def Packed.segment (k : Packed) (n : Nat) : Nat :=
  64 + k.scaleSeg
    + ((List.range (n - 1)).map fun m => (k.words.filter (bitAt · m)).length * k.sizes.getD m 0).sum

/-- Bytes of area `n` of a block: zero where it is elided. -/
def Packed.area (s : State) (k : Packed) (n blk : Nat) : List Byte :=
  let size := k.sizes.getD (n - 1) 0
  if bitAt (k.words.getD blk 0) (n - 1) then
    let before := ((k.words.take blk).filter (bitAt · (n - 1))).length
    (List.range size).map fun i => s.fetchByte (k.addr + k.segment n + before * size + i)
  else List.replicate size 0

/-- Scales of a block. -/
def Packed.scales (s : State) (k : Packed) (blk : Nat) : List Byte :=
  let before := ((k.words.take blk).map fun w => scLen (fieldAt w 9 2)).sum
  let sc := fieldAt (k.words.getD blk 0) 9 2
  scBytes sc ((List.range (scLen sc)).map fun i => s.fetchByte (k.addr + 64 + before + i))

/-- Expand tile `i` of a compressed tensor into the stage, reading the prefix that holds planes 1 to `p` (R150). -/
def unpackTile (s : State) (t : Tensor) (i p : Nat) : Chk (Cells × Spans) := do
  readSpans s [(t.base + 8 * i, 8)]
  let d := s.fetchNat (t.base + 8 * i) 8
  let size := fieldAt d 32 16
  needParam (decide (1 ≤ size) && decide (size ≤ 1025) && decide (d / 2 ^ 48 = 0))
  let a := t.base + fieldAt d 0 32 * 64
  readSpans s [(a, 64)]
  let scaled := hasAreas t.f.fmt
  let k : Packed := ⟨a, (List.range 32).map fun b => s.fetchNat (a + 2 * b) 2, scaled, if scaled then t.areas.drop 1 else t.areas⟩
  let n := if t.f.fmt = 8 then 1 + p else k.sizes.length
  let prefixLen := k.segment (n + 1)
  needParam (k.words.all (fun w => decide (w / 2 ^ 11 = 0) && fieldAt w 9 2 != 3 && decide (fieldAt w 0 9 < 2 ^ k.sizes.length))
    && decide (prefixLen ≤ size * 64))
  readSpans s [(a, prefixLen)]
  let z := t.staged
  let blkCells (b : Nat) : Cells :=
    (if scaled then cellsAt (z.areaAddr 0 (i * 32 + b)) (k.scales s b) else [])
      ++ (List.range n).flatMap fun m => cellsAt (z.areaAddr (if scaled then m + 1 else m) (i * 32 + b)) (k.area s (m + 1) b)
  .ok ((List.range 32).flatMap blkCells, [(a, prefixLen)])

/-! ### Distributed sources (R121–R123, R231, R282) -/

/-- The owner table that a slot's content names, checked in full the first time its GEN is met (R122). -/
def ownerTableOf (s : State) (e : Env) (content : Nat) : Chk (OwnerTable × State) := do
  let b ← listSlot content
  let a ← spanCheck s e false b.1 16
  readSpans s [(a, 16)]
  let n := s.fetchNat a 2
  let a ← spanCheck s e false b.1 (16 + 16 * n)
  readSpans s [(a, 16 + 16 * n)]
  let t := tableAt s a
  let x := s.part e.p
  if (a, BitVec.ofNat 32 t.gen) ∈ x.tables then .ok (t, s)
  else
    needParam t.ok
    .ok (t, s.setPart e.p { x with tables := (a, BitVec.ofNat 32 t.gen) :: x.tables.filter fun y => y.1 != a })

/-- The owner table in a slot. -/
def ownerTable (s : State) (e : Env) (sl : Nat) : Chk (OwnerTable × State) := atSlot sl (ownerTableOf s e (s.content e sl))

/-- Where block `b`, area `ar` lies by its entry (R121). -/
def ownerAddr (t : OwnerTable) (o : Owner) (b ar : Nat) : Nat :=
  (if o.tier = 0 then winOf o.core else bulkBase) + o.off + (b - o.first) * t.bb * 64 + ar * t.stride * 64

/-- The partition's OPEN FETCH connection to a node (R282). -/
def State.fetchConn (s : State) (p node : Nat) : Option Nat :=
  s.connList.find? fun c => let x := s.conn c; x.st == .isOpen && x.fetch && x.part == p && x.rnode == node

/-- A fetched block's cells in the stage: from this node's memory, or from another node over its FETCH connection, whose
data is free (R121, R230; log 19). -/
def fetchBlock (s : State) (e : Env) (t : Tensor) (tab : OwnerTable) (p b : Nat) : Chk (Cells × State) :=
  match tab.find b with
  | none => .error (.prog fParameter 0 b)
  | some o =>
    let z := t.staged
    if o.node = s.node then do
      let l ← (t.needs p).mapM fun ar => do
        let n := t.areas.getD ar 0
        let a ← spanCheck s e false (ownerAddr tab o b ar) n
        readSpans s [(a, n)]
        .ok (cellsAt (z.areaAddr ar b) ((List.range n).map fun i => s.fetchByte (a + i)))
      .ok (l.flatten, s)
    else match s.fetchConn e.p o.node with
      | none => paramFault
      | some c =>
        let n := s.freeCtr
        if Config.fetchStale n then paramFault
        else
          let cells := (t.needs p).flatMap fun ar =>
            cellsAt (z.areaAddr ar b) ((List.range (t.areas.getD ar 0)).map fun i => Config.peerByte n (ar * 4096 + i))
          let s := (t.needs p).foldl (fun s ar => s.emit (.fetch c (ownerAddr tab o b ar) (t.areas.getD ar 0))) s
          .ok (cells, { s with freeCtr := n + 1 })

/-- Fetch blocks one after another. -/
def fetchBlocks (s : State) (e : Env) (t : Tensor) (tab : OwnerTable) (p : Nat) : List Nat → Chk (Cells × State)
  | [] => .ok ([], s)
  | b :: rest => do
    let x ← fetchBlock s e t tab p b
    let y ← fetchBlocks x.2 e t tab p rest
    .ok (x.1 ++ y.1, y.2)

/-- Does any block of the tile lie on another node? -/
def tileRemote (s : State) (tab : OwnerTable) (i : Nat) : Bool :=
  (List.range 32).any fun b => ((tab.find (i * 32 + b)).map fun o => o.node != s.node).getD false

/-- Bytes of a tile in its pool, in stage order of its areas (R231). -/
def tileBytes (t : Tensor) (p : Nat) : Nat := ((t.needs p).map fun ar => 32 * t.areas.getD ar 0).sum

/-- Cells of a kept tile in the stage, from the pool address it lies at. -/
def keptCells (s : State) (t : Tensor) (p i a : Nat) : Cells :=
  ((t.needs p).foldl (fun (x : Nat × Cells) ar =>
    let n := 32 * t.areas.getD ar 0
    (x.1 + n, x.2 ++ cellsAt (t.staged.areaAddr ar (i * 32)) ((List.range n).map fun j => s.byteAt (a + x.1 + j)))) (0, [])).2

/-- A tile kept in the pool of some core of the partition, long enough for planes 1 to `p` (R231). -/
def State.keptTile (s : State) (p tableAddr tile len : Nat) : Option KeptTile :=
  ((s.coresOf p).flatMap fun c => (s.core c).kept).find? fun k => k.table == tableAddr && k.block == tile && k.len == len

/-- Copy a fetched tile into the issuing core's pool while it has room (R231). -/
def keepTile (s : State) (e : Env) (t : Tensor) (tabAddr p i : Nat) (cells : Cells) : State :=
  let x := s.part e.p
  let c := s.core e.core
  let used := (c.kept.map (·.len)).sum
  let len := tileBytes t p
  if used + len ≤ x.poolSize ∧ s.obj (0x3100 + e.p) 7 = 0 then
    let a := winOf e.core + x.poolOff + used
    let bytes := cells.map (·.2)
    let s := s.writeAt a bytes
    (s.setCore e.core { s.core e.core with kept := c.kept ++ [⟨tabAddr, i, a, len⟩] }).count 0x3500 0x18 64 1
  else s

/-- Stage tile `i` of a distributed tensor: a KEEP fetch in BACKWARD takes a kept tile; one in FORWARD keeps it. -/
def fetchTile (s : State) (e : Env) (t : Tensor) (tab : OwnerTable) (p i : Nat) : Chk (Cells × State) := do
  let keep := tab.addr ∈ (s.part e.p).keepTabs && tileRemote s tab i
  let kept := if keep && s.obj (0x3100 + e.p) 7 == 1 then s.keptTile e.p tab.addr i (tileBytes t p) else none
  match kept with
  | some k => .ok (keptCells s t p i k.addr, s)
  | none =>
    let x ← fetchBlocks s e t tab p ((List.range 32).map fun b => i * 32 + b)
    let s := if keep && s.obj (0x3100 + e.p) 7 == 1 then x.2.count 0x3500 0x18 64 (2 ^ 32) else x.2
    .ok (x.1, if keep then keepTile s e t tab.addr p i x.1 else s)

/-! ### MOVE (R181, R447) -/

def moveFields : List (Nat × Nat) := [(8, 8), (16, 8), (24, 8), (32, 1), (40, 24), (64, 32), (96, 32)]

/-- Planes a stored JP-k operand holds (R72, R447). -/
def Tensor.held (t : Tensor) : Nat := if t.layout = 4 then t.f.planes else t.f.k

/-- Formats a copy may join (R53, R54, R447): equal ones, the exact widenings, MX loads into JP-4 and JP-6, and more
planes. -/
def copyOk (a b : Tensor) : Bool :=
  match a.f.fmt with
  | 6 => b.f.fmt == 8 && b.f.kst == 3
  | 7 => b.f.fmt == 8 && b.f.kst == 5
  | 8 => b.f.fmt == 8 && decide (a.f.kst ≤ b.f.kst)
  | 0 => b.f.fmt == 0
  | 1 => b.f.fmt ≤ 1
  | 2 => b.f.fmt ≤ 2
  | 3 => b.f.fmt ≤ 1 || b.f.fmt == 3
  | f => b.f.fmt == f

/-- The axis of a scale line: true along columns (R447). -/
def Tensor.axis (t : Tensor) : Bool := if t.layout = 3 then true else if t.layout = 4 then false else t.kaxis

/-- Cells of one destination element or, at a scale line's first element, of its line. -/
def copyCells (s : State) (a b : Tensor) (sr sc dr dc : Nat) : Cells :=
  if !b.stored dr dc then []
  else
    let dead := decide (sr ≥ a.rows) || decide (sc ≥ a.cols) || decide (dr ≥ b.rows) || decide (dc ≥ b.cols)
    if !hasAreas b.f.fmt then
      if dead then b.codeCells dr dc 0
      else if a.f.fmt = b.f.fmt then b.codeCells dr dc (s.fetchNat (a.codeAddr sr sc) (elemSize a.f.fmt))
      else b.codeCells dr dc ((elemFmt b.f.fmt).write .rne false (a.value s sr sc)).code
    else if b.f.fmt != 8 then
      (if b.lineHead dr dc then [(b.scaleAddr dr dc, s.fetchByte (a.scaleAddr sr sc))] else [])
        ++ b.codeCells dr dc (if dead then 0 else s.fetchNat (a.codeAddr sr sc) 1)
    else if !b.lineHead dr dc then []
    else
      let n := min (if a.f.fmt = 8 then a.held else b.f.k) b.held
      let els := (List.range 32).map fun i =>
        let x := if a.axis then (sr, sc + i) else (sr + i, sc)
        let y := if a.axis then (dr, dc + i) else (dr + i, dc)
        if x.1 ≥ a.rows ∨ x.2 ≥ a.cols ∨ y.1 ≥ b.rows ∨ y.2 ≥ b.cols then (false, 0)
        else match a.f.fmt with
          | 6 => let c := a.mxCode s x.1 x.2; (bitAt c 3, match c % 8 with | 0 => 0 | 1 => 1 | 2 => 2 | 3 => 3 | 4 => 4 | 5 => 6 | 6 => 8 | _ => 12)
          | 7 => let c := a.mxCode s x.1 x.2; (bitAt c 5, e2m3mag c)
          | _ => (bitAt (s.fetchNat (a.planeAddr 0 x.1 x.2) 4) (a.pos x.1 x.2), a.planesAt s n x.1 x.2)
      b.jpCells n b.held dr dc (s.fetchByte (a.scaleAddr sr sc)).toNat els

/-- Cells of a whole tile copied. -/
def copyTile (s : State) (a b : Tensor) (i j : Nat) : Cells :=
  let sp := a.tilePos i
  let dp := b.tilePos j
  (List.range 512).flatMap fun r => (List.range 64).flatMap fun c =>
    copyCells s a b (sp.1 * 512 + r) (sp.2 * 64 + c) (dp.1 * 512 + r) (dp.2 * 64 + c)

/-- Spans that a copy of tile `i` reads of a tensor that lies in place, with planes 1 to `p`. -/
def Tensor.tileReads (t : Tensor) (i p : Nat) : Spans :=
  let q := t.tilePos i
  let es := elemSize t.f.fmt
  let rows := (List.range 512).map (q.1 * 512 + ·) |>.filter (· < t.rows)
  let cols := (List.range 64).map (q.2 * 64 + ·) |>.filter (· < t.cols)
  match t.layout with
  | 0 => (t.needs p).map fun a => (t.areaAddr a (i * 32), 32 * t.areas.getD a 0)
  | 1 => rows.map fun r => (t.codeAddr r (q.2 * 64), cols.length * es)
  | 2 => rows.flatMap fun r => (List.range (ceilDiv cols.length 32)).map fun b => (t.codeAddr r (q.2 * 64 + 32 * b), 32 * es)
  | 3 => cols.map fun c => (t.codeAddr 0 c, 512 * es)
  | _ => if t.f.fmt = 8 then rows.flatMap fun r => if r % 32 = 0 then (List.range t.feedL).map fun w => (t.feedWord (r / 32) w, 64) else []
    else rows.map fun r => (t.codeAddr r 0, 64 * es)

/-- Copy the tiles of a MOVE one after another. `src` names the source as stored; `tab` resolves a distributed one. -/
def moveTiles (s : State) (e : Env) (a b : Tensor) (packed : Bool) (tab : Option OwnerTable) (p : Nat) :
    List (Nat × Nat) → Chk (Cells × Spans × State)
  | [] => .ok ([], [], s)
  | (i, j) :: rest => do
    let x : Cells × Spans × State ← match tab with
      | some t => (fetchTile s e a t p i).map fun y => (y.1, [], y.2)
      | none => if packed then (unpackTile s a i p).map fun y => (y.1, y.2, s) else do
          readSpans s (a.tileReads i p)
          .ok ([], a.tileReads i p, s)
    let staged := packed || tab.isSome
    let v := if staged then { x.2.2 with mem := x.1.foldl (fun m c => m.set c.1 c.2) x.2.2.mem } else x.2.2
    let cells := copyTile v (if staged then a.staged else a) b i j
    let y ← moveTiles x.2.2 e a b packed tab p rest
    .ok (cells ++ y.1, x.2.1 ++ y.2.1, y.2.2)

/-- MOVE (R181). -/
def moveCommand (e : Env) (s : State) : Chk State := do
  fieldsOnly e moveFields
  let src := e.f 8 8; let dst := e.f 16 8; let rem := e.b 32; let nt := e.f 40 24
  needParam (decide (1 ≤ nt))
  board s e ((src, kTensor) :: if rem then [(e.f 24 8, kTable)] else []) [(dst, kTensor)]
  let raw := tensorOf (s.content e src)
  let packed := !rem && inCompressed s raw.base
  let a ← if rem then
      atSlot src (if !raw.f.ok true then formatFault raw.word else if !raw.fieldsOk then paramFault else .ok raw)
    else slotTensor s e true false src
  let b ← moverDst s e dst
  need (copyOk a b) (.prog fFormat dst b.word)
  needParam (!(hasAreas a.f.fmt && hasAreas b.f.fmt) || a.axis == b.axis)
  atSlot src (needParam (decide (e.f 64 32 + nt ≤ a.tiles)))
  atSlot dst (needParam (decide (e.f 96 32 + nt ≤ b.tiles)))
  atSlot src (needParam (!rem || a.layout == 0))
  let t ← if rem then (ownerTable s e (e.f 24 8)).map fun x => (some x.1, x.2) else .ok (none, s)
  let p := if a.f.fmt = 8 then min a.held b.held else 0
  let y ← atSlot src (moveTiles t.2 e a b packed t.1 p ((List.range nt).map fun i => (e.f 64 32 + i, e.f 96 32 + i)))
  let s ← atSlot dst (moverWrite y.2.2 e y.1)
  .ok (moverDone (moverReads s y.2.1) e dst b)

/-- MOVE. -/
def execMove (core : CoreId) (ctx : CtxId) (s : State) : Host.Outcome State Fault Refusal :=
  .next (issue 0x10 core ctx s fun e s => Res.of s (moveCommand e s))

/-! ### GATHER, SCATTER, SCATTER_ADD (R115–R117) -/

/-- Position of the block with an index in storage order. -/
def Tensor.blockPos (t : Tensor) (i : Nat) : Nat × Nat :=
  let q := t.tilePos (i / 32)
  (q.1 * 16 + i % 32 / 2, q.2 * 2 + i % 2)

/-- The block grid of a tensor (R117). -/
def Tensor.inGrid (t : Tensor) (br bc : Nat) : Bool := decide (br < ceilDiv t.rows 32) && decide (bc < ceilDiv t.cols 32)

/-- Coordinate-list entries (R115): BR and BC. -/
def listEntries (s : State) (a n : Nat) : List (Nat × Nat) :=
  (List.range n).map fun i => (s.fetchNat (a + 4 * i) 2, s.fetchNat (a + 4 * i + 2) 2)

/-- Is an entry null (R115)? -/
def nullEntry (x : Nat × Nat) : Bool := x.1 == 0xFFFF || x.2 == 0xFFFF

/-- Bytes of a block area by area, at an address of the tensor that lies in place. -/
def blockBytes (s : State) (t : Tensor) (blk : Nat) : List (List Byte) :=
  t.areas.mapIdx fun a n => (List.range n).map fun i => s.fetchByte (t.areaAddr a blk + i)

def blockSpans (t : Tensor) (blk : Nat) : Spans := t.areas.mapIdx fun a n => (t.areaAddr a blk, n)

def blockCells (t : Tensor) (blk : Nat) (l : List (List Byte)) : Cells := (l.mapIdx fun a b => cellsAt (t.areaAddr a blk) b).flatten

/-- What the three commands share: their fields, slots, list and tensors (R115, R116, R182). -/
structure ListArgs where
  src : Tensor
  dst : Tensor
  entries : List (Nat × Nat)
  table : Option OwnerTable
  packed : Bool
  deriving DecidableEq, Repr

def listArgs (s : State) (e : Env) (gather : Bool) : Chk (ListArgs × State) := do
  fieldsOnly e ([(8, 8), (16, 8), (24, 8), (32, 16)] ++ if gather then [(48, 8), (56, 1)] else [])
  let src := e.f 8 8; let dst := e.f 16 8; let lst := e.f 24 8; let n := e.f 32 16
  let rem := gather && e.b 56
  needParam (decide (1 ≤ n))
  board s e ([(src, kTensor), (lst, kList)] ++ if rem then [(e.f 48 8, kTable)] else []) [(dst, kTensor)]
  let raw := tensorOf (s.content e src)
  let a ← if rem then
      atSlot src (if !raw.f.ok false then formatFault raw.word else if !raw.fieldsOk then paramFault else .ok raw)
    else slotTensor s e false false src
  let b ← moverDst s e dst
  atSlot src (needParam (a.layout == 0 && (gather || inScratch a.base)))
  atSlot dst (needParam (b.layout == 0))
  let l ← atSlot lst (listSlot (s.content e lst))
  atSlot lst (needParam (decide (n ≤ l.2) && decide (l.2 ≤ 65535)))
  let la ← atSlot lst (spanCheck s e false l.1 (4 * n))
  atSlot lst (needParam (inScratch la))
  atSlot lst (readSpans s [(la, 4 * n)])
  let t ← if rem then (ownerTable s e (e.f 48 8)).map fun x => (some x.1, x.2) else .ok (none, s)
  .ok (⟨a, b, listEntries s la n, t.1, !rem && inCompressed s raw.base⟩, t.2)

/-- Entries beyond the grid, counted in 0x3060 + n.04 (R117). -/
def countRange (s : State) (e : Env) (t : Tensor) (l : List (Nat × Nat)) : State :=
  s.count (0x3060 + e.core) 4 32 (l.filter fun x => !nullEntry x && !t.inGrid x.1 x.2).length

/-- The source block of a GATHER entry, with what the read costs. -/
def gatherBlock (s : State) (e : Env) (g : ListArgs) (blk : Nat) : Chk (List (List Byte) × Spans × State) :=
  match g.table with
  | some tab => do
    let x ← fetchBlock s e g.src tab g.src.f.k blk
    let v := { x.2 with mem := x.1.foldl (fun m c => m.set c.1 c.2) x.2.mem }
    .ok (blockBytes v g.src.staged blk, [], x.2)
  | none =>
    if g.packed then do
      let x ← unpackTile s g.src (blk / 32) g.src.f.k
      let v := { s with mem := x.1.foldl (fun m c => m.set c.1 c.2) s.mem }
      .ok (blockBytes v g.src.staged blk, x.2, s)
    else do
      readSpans s (blockSpans g.src blk)
      .ok (blockBytes s g.src blk, blockSpans g.src blk, s)

/-- GATHER entry by entry: entry `i` fills destination block `i` (R116, R117). -/
def gatherAll (s : State) (e : Env) (g : ListArgs) : Nat → List (Nat × Nat) → Chk (Cells × Spans × State)
  | _, [] => .ok ([], [], s)
  | i, x :: rest => do
    let y : List (List Byte) × Spans × State ←
      if nullEntry x || !g.src.inGrid x.1 x.2 then .ok (g.dst.areas.map fun n => List.replicate n 0, [], s)
      else gatherBlock s e g (g.src.block x.1 x.2)
    let z ← gatherAll y.2.2 e g (i + 1) rest
    .ok (blockCells g.dst i y.1 ++ z.1, y.2.1 ++ z.2.1, z.2.2)

/-- GATHER (R116). -/
def gatherCommand (e : Env) (s : State) : Chk State := do
  let x ← listArgs s e true
  let g := x.1
  need (g.src.f.fmt == g.dst.f.fmt && g.src.f.kst == g.dst.f.kst) (.prog fFormat (e.f 16 8) g.dst.word)
  atSlot (e.f 16 8) (needParam (decide (g.entries.length ≤ g.dst.tiles * 32)))
  let y ← atSlot (e.f 8 8) (gatherAll x.2 e g 0 g.entries)
  let s ← atSlot (e.f 16 8) (moverWrite y.2.2 e y.1)
  .ok (moverDone (countRange (moverReads s y.2.1) e g.src g.entries) e (e.f 16 8) g.dst)

/-- GATHER. -/
def execGather (core : CoreId) (ctx : CtxId) (s : State) : Host.Outcome State Fault Refusal :=
  .next (issue 0x11 core ctx s fun e s => Res.of s (gatherCommand e s))

/-- Entries of a scatter that act, with their index. -/
def scatterEntries (g : ListArgs) : List (Nat × Nat × Nat) :=
  (g.entries.mapIdx fun i x => (i, x.1, x.2)).filter fun y => !nullEntry y.2 && g.dst.inGrid y.2.1 y.2.2

/-- SCATTER (R116, R117): the entry later in the list wins. -/
def scatterCommand (e : Env) (s : State) : Chk State := do
  let x ← listArgs s e false
  let g := x.1
  need (g.src.f.fmt == g.dst.f.fmt && g.src.f.kst == g.dst.f.kst) (.prog fFormat (e.f 16 8) g.dst.word)
  atSlot (e.f 8 8) (needParam (decide (g.entries.length ≤ g.src.tiles * 32)))
  let spans := (scatterEntries g).flatMap fun y => blockSpans g.src y.1
  atSlot (e.f 8 8) (readSpans x.2 spans)
  let cells := (scatterEntries g).flatMap fun y => blockCells g.dst (g.dst.block y.2.1 y.2.2) (blockBytes x.2 g.src y.1)
  let s ← atSlot (e.f 16 8) (moverWrite x.2 e cells)
  .ok (moverDone (countRange (moverReads s spans) e g.dst g.entries) e (e.f 16 8) g.dst)

/-- SCATTER. -/
def execScatter (core : CoreId) (ctx : CtxId) (s : State) : Host.Outcome State Fault Refusal :=
  .next (issue 0x12 core ctx s fun e s => Res.of s (scatterCommand e s))

/-- Cells of one block added into another, element by element with RNE (R116). -/
def addBlock (s : State) (a b : Tensor) (i : Nat) (br bc : Nat) : Cells :=
  let q := a.blockPos i
  (List.range 32).flatMap fun r => (List.range 32).flatMap fun c =>
    let v := a.value s (q.1 * 32 + r) (q.2 * 32 + c)
    b.codeCells (br * 32 + r) (bc * 32 + c) (rn32 ((b.value s (br * 32 + r) (bc * 32 + c)).add v)).toNat

/-- Adds in list order (R117): each sees those before it. -/
def scatterAdds (s : State) (e : Env) (g : ListArgs) : List (Nat × Nat × Nat) → Chk State
  | [] => .ok s
  | y :: rest => do
    let blk := g.dst.block y.2.1 y.2.2
    atSlot (e.f 8 8) (readSpans s (blockSpans g.src y.1))
    atSlot (e.f 16 8) (readSpans s (blockSpans g.dst blk))
    let s ← atSlot (e.f 16 8) <| moverWrite (moverReads s (blockSpans g.src y.1 ++ blockSpans g.dst blk)) e (addBlock s g.src g.dst y.1 y.2.1 y.2.2)
    scatterAdds s e g rest

/-- SCATTER_ADD (R116, R117). -/
def scatterAddCommand (e : Env) (s : State) : Chk State := do
  let x ← listArgs s e false
  let g := x.1
  need (g.dst.f.fmt == 0 && g.src.f.fmt ≤ 3) (.prog fFormat (e.f 8 8) g.src.word)
  atSlot (e.f 8 8) (needParam (decide (g.entries.length ≤ g.src.tiles * 32)))
  let s ← scatterAdds x.2 e g (scatterEntries g)
  .ok (moverDone (countRange s e g.dst g.entries) e (e.f 16 8) g.dst)

/-- SCATTER_ADD. -/
def execScatterAdd (core : CoreId) (ctx : CtxId) (s : State) : Host.Outcome State Fault Refusal :=
  .next (issue 0x13 core ctx s fun e s => Res.of s (scatterAddCommand e s))

/-! ### WINDOW (R118–R120) -/

/-- Code of the pad value (R119). -/
def padCode (fmt padv : Nat) : Nat :=
  let f := elemFmt fmt
  match padv with
  | 0 => 0
  | 1 => f.signed true (if f.hasInf then f.infC else f.maxFin)
  | _ => if f.hasInf then f.infC else f.maxFin

/-- Code of element (r, c) of tap tile (ky, kx) (R118, R119). -/
def windowCode (s : State) (w : Walk) (t : Tensor) (m ch padv ky kx : Nat) : Nat :=
  if m ≥ w.positions ∨ ch ≥ w.cg then 0
  else
    let ox := m % w.outW; let oy := m / w.outW % w.outH; let b := m / (w.outW * w.outH)
    match tapCoord oy w.sy w.padT ky w.dy w.inH, tapCoord ox w.sx w.padL kx w.dx w.inW with
    | some y, some x => s.fetchNat (w.addr t.base (elemSize t.f.fmt) b y x ch) (elemSize t.f.fmt)
    | _, _ => padCode t.f.fmt padv

/-- WINDOW (R118, R183). -/
def windowCommand (e : Env) (s : State) : Chk State := do
  fieldsOnly e [(8, 8), (16, 8), (24, 8), (32, 16), (48, 2), (64, 32)]
  let ch0 := e.f 32 16; let padv := e.f 48 2
  needParam (padv != 3)
  board s e [(e.f 8 8, kTensor), (e.f 24 8, kWalk)] [(e.f 16 8, kTensor)]
  let a ← slotTensor s e false false (e.f 8 8)
  let b ← moverDst s e (e.f 16 8)
  let w := walkOf (s.content e (e.f 24 8))
  need (a.f.fmt == b.f.fmt) (.prog fFormat (e.f 16 8) b.word)
  atSlot (e.f 8 8) (needParam (a.layout == 2))
  atSlot (e.f 16 8) (needParam (b.layout == 0 && decide (w.kh * w.kw ≤ b.tiles)))
  atSlot (e.f 24 8) (needParam (w.ok a.f.fmt && w.groups == 1))
  needParam (decide (ch0 % 32 = 0) && decide (ch0 < w.cg))
  let sa ← atSlot (e.f 8 8) (spanCheck s e false a.base w.inputBytes)
  atSlot (e.f 8 8) (readSpans s [(sa, w.inputBytes)])
  let cells := (List.range (w.kh * w.kw)).flatMap fun t =>
    let q := b.tilePos t
    (List.range 512).flatMap fun r => (List.range 64).flatMap fun c =>
      let dr := q.1 * 512 + r; let dc := q.2 * 64 + c
      b.codeCells dr dc (if dr ≥ b.rows ∨ dc ≥ b.cols then 0
        else windowCode s w a (w.mBase + e.f 64 32 + r) (ch0 + c) padv (t / w.kw) (t % w.kw))
  let s ← atSlot (e.f 16 8) (moverWrite s e cells)
  .ok (moverDone (moverReads s [(sa, w.inputBytes)]) e (e.f 16 8) b)

/-- WINDOW. -/
def execWindow (core : CoreId) (ctx : CtxId) (s : State) : Host.Outcome State Fault Refusal :=
  .next (issue 0x14 core ctx s fun e s => Res.of s (windowCommand e s))

/-! ### SPILL and PREFETCH (R151, R152, R184, R210) -/

/-- The spill ring a command names: a SPILL region of its partition (R184, R205). -/
def spillRegion (s : State) (e : Env) : Chk (Nat × Region) :=
  let r := e.f 16 6
  let g := s.region r
  if g.owner < 4 ∧ g.owner ≠ e.p then .error (.iso 0 r (some g.owner))
  else if g.size = 0 ∨ g.cls ≠ 3 then paramFault
  else .ok (r, g)

/-- Bytes of a stored tile. -/
def Tensor.tileSize (t : Tensor) : Nat := (t.areas.map (32 * ·)).sum

/-- The bytes of a spilled tile as stored by R109, area by area. -/
def spillBytes (s : State) (t : Tensor) (i : Nat) : List Byte :=
  t.areas.mapIdx (fun a n => (List.range (32 * n)).map fun j => s.fetchByte (t.areaAddr a (i * 32) + j)) |>.flatten

/-- The entry header (R151). -/
def spillHeader (x : SpillEntry) : List Byte :=
  bytesOf 64 (x.step.toNat + x.tensor * 2 ^ 32 + x.tile * 2 ^ 48 + x.size * 2 ^ 80 + bit x.valid * 2 ^ 96 + bit x.consumed * 2 ^ 97)

/-- Do two spans of a ring meet? -/
def meets (a n b m : Nat) : Bool := decide (a < b + m) && decide (b < a + n)

/-- Consumed entries at the tail are reclaimed (R152). -/
def reclaim : List SpillEntry → List SpillEntry
  | [] => []
  | x :: r => if x.consumed then reclaim r else x :: r

/-- Where the next entry of `n` bytes goes: at the head, or at the ring's start when it does not fit before its end
(log 20); with the entries it leaves. `none` while it would overtake the tail. -/
def spillPlace (ring : SpillRing) (base size n : Nat) : Option (Nat × List SpillEntry) :=
  let off := if ring.head + n ≤ size then ring.head else 0
  let live := reclaim ring.entries
  if n > size ∨ live.any fun x => meets (base + off) n x.addr (x.size * 64) then none
  else some (off, ring.entries.filter fun x => !meets (base + off) n x.addr (x.size * 64))

/-- The entry of this step for (TENSOR, TILE). -/
def spillFind (l : List SpillEntry) (step : Word) (tensor tile : Nat) : Option SpillEntry :=
  l.find? fun x => x.step == step && x.tensor == tensor && x.tile == tile

/-- Fields of SPILL and PREFETCH, the region, and the tensor's tile. -/
def spillArgs (s : State) (e : Env) (dst : Bool) : Chk (Nat × Region × Tensor) := do
  fieldsOnly e [(8, 8), (16, 6), (32, 16), (48, 32)]
  board s e (if dst then [] else [(e.f 8 8, kTensor)]) (if dst then [(e.f 8 8, kTensor)] else [])
  let t ← if dst then moverDst s e (e.f 8 8) else slotTensor s e false false (e.f 8 8)
  let g ← spillRegion s e
  atSlot (e.f 8 8) (needParam (t.layout == 0 && inScratch t.base && decide (e.f 48 32 < t.tiles)))
  .ok (g.1, g.2, t)

/-- SPILL (R151, R152, R210). -/
def spillCommand (e : Env) (s : State) : Chk State := do
  let x ← spillArgs s e false
  let t := x.2.2
  let step := BitVec.ofNat 32 (s.obj (0x3100 + e.p) 6)
  let ring := s.rings.get x.1
  if e.ctx ≥ 4 ∧ ((spillFind ring.entries step (e.f 32 16) (e.f 48 32)).map (·.valid)).getD false then .ok s
  else
    atSlot (e.f 8 8) (readSpans s (t.tileSpans (e.f 48 32)))
    let n := 64 + ceilDiv t.tileSize 64 * 64
    let base := bulkBase + x.2.1.start
    match spillPlace ring base x.2.1.bytes n with
    | none => .error .wait
    | some (off, rest) =>
      need (s.bulkReady (x.2.1.start + off) n) .wait
      let en : SpillEntry := ⟨base + off, step, e.f 32 16, e.f 48 32, n / 64, true, false, false⟩
      let s' := s.putBytes (base + off) (spillHeader en ++ spillBytes s t (e.f 48 32))
      .ok ({ moverReads s' (t.tileSpans (e.f 48 32)) with rings := s.rings.set x.1 ⟨off + n, rest ++ [en]⟩ }.noteWrite e)

/-- SPILL. -/
def execSpill (core : CoreId) (ctx : CtxId) (s : State) : Host.Outcome State Fault Refusal :=
  .next (issue 0x15 core ctx s fun e s => Res.of s (spillCommand e s))

/-- PREFETCH (R152, R210). -/
def prefetchCommand (e : Env) (s : State) : Chk State := do
  let x ← spillArgs s e true
  let t := x.2.2
  let step := BitVec.ofNat 32 (s.obj (0x3100 + e.p) 6)
  let ring := s.rings.get x.1
  match spillFind ring.entries step (e.f 32 16) (e.f 48 32) with
  | none => paramFault
  | some en =>
    need en.valid .wait
    needParam (!en.consumed || (decide (e.ctx ≥ 4) && !en.reread))
    needParam (en.size * 64 == 64 + ceilDiv t.tileSize 64 * 64)
    readSpans s [(en.addr, en.size * 64)]
    let en' := { en with consumed := true, reread := en.consumed }
    let offs := (t.areas.foldl (fun (y : Nat × List Nat) n => (y.1 + 32 * n, y.2 ++ [y.1])) (64, [])).2
    let cells := (t.areas.mapIdx fun a n =>
      cellsAt (t.areaAddr a (e.f 48 32 * 32)) ((List.range (32 * n)).map fun j => s.byteAt (en.addr + offs.getD a 0 + j))).flatten
    let s ← atSlot (e.f 8 8) (moverWrite s e cells)
    let s := s.putBytes en.addr (spillHeader en')
    .ok (moverDone { moverReads s [(en.addr, en.size * 64)] with rings := s.rings.set x.1 { ring with entries := ring.entries.map fun y => if y.addr = en.addr then en' else y } }
      e (e.f 8 8) t)

/-- PREFETCH. -/
def execPrefetch (core : CoreId) (ctx : CtxId) (s : State) : Host.Outcome State Fault Refusal :=
  .next (issue 0x16 core ctx s fun e s => Res.of s (prefetchCommand e s))

end Sys2Proof.Machine
end

