-- ==== Sys2Proof/Machine/Seq.lean ====
section
/-! DEFINITION. The commands every queue accepts (R187–R198): fences, signals, waits, barriers, phases, slot rebinding and
END; and what the scoreboard and the Bell network do afterwards (R173, R197). -/

namespace Sys2Proof.Machine

/-! ### FENCE (R189–R191) -/

/-- Does a context still wait for a Bore write or send to be acknowledged as placed (R189)? -/
def State.fabricBusy (s : State) (core ctx : Nat) : Bool :=
  s.connList.any fun c => (s.conn c).sendQ.any fun x => x.isData && x.core == core && x.ctx == ctx

/-- What stays unfenced after a FENCE of scope `f`: bits above `f` (R191). -/
def fenced (f : Nat) (u : BitVec 4) : BitVec 4 := u &&& (BitVec.allOnes 4 <<< (f + 1))

/-- Change the context that issues a command. -/
def State.setCtx (s : State) (e : Env) (f : QCtx → QCtx) : State :=
  s.setCore e.core { s.core e.core with ctxs := (s.core e.core).ctxs.modify e.ctx f }

/-- FENCE: waits until every earlier command of the context has completed and, at FABRIC, its Bore writes are placed. -/
def fenceCommand (e : Env) (s : State) : Chk State := do
  let f := e.f 8 2
  fieldsOnly e [(8, 2)]
  need (!s.ctxBusy e.core e.ctx) .wait
  need (decide (f < 3) || !s.fabricBusy e.core e.ctx) .wait
  .ok (s.setCtx e fun q => { q with unfenced := fenced f q.unfenced })

/-- FENCE. -/
def execFence (core : CoreId) (ctx : CtxId) (s : State) : Host.Outcome State Fault Refusal :=
  .next (issue 0x30 core ctx s fun e s => Res.of s (fenceCommand e s))

/-! ### SIGNAL (R188, R191, R192, R195, R196) -/

/-- The physical sync object of a logical number (R168, R194). -/
def syncOf (s : State) (e : Env) (n : Nat) : Chk Nat :=
  match (s.part e.p).syncMap[n]? with
  | some i => .ok i
  | none => .error (.iso 0 n none)

/-- The ORDER fault of an unfenced write (R191). -/
def unfencedAt (s : State) (e : Env) (scope : Nat) : Bool := (((s.core e.core).ctxs.get e.ctx).unfenced.toNat).testBit scope

/-- SIGNAL with FW = 1: a flag word, in the order of R191. -/
def signalFlag (e : Env) (s : State) (fsl scope fval : Nat) : Chk State := do
  let x := s.slotOf e fsl
  need (x.st == .ready && decide (x.readers < 255)) .wait
  let a := fieldAt x.content.toNat 0 44
  match placeOf a with
  | .scratch c _ => need (s.partOf c == some e.p) (.iso fsl a (s.partOf c))
  | .vault c _ => need (s.partOf c == some e.p) (.iso fsl a (s.partOf c))
  | _ => .ok ()
  kindFault s e fsl kFlag
  need (!(decide (bulkBase ≤ a) && decide (a < hostBase))) (.prog fAddress fsl a)
  let b ← atSlot fsl (listSlot x.content.toNat)
  let a ← atSlot fsl (spanCheck s e true b.1 8)
  need (!unfencedAt s e scope && (decide (a < hostBase) || decide (2 ≤ scope))) (.prog fOrder fsl fsl)
  if s.recorded e then .ok s
  else if hostBase ≤ a then .ok (s.hostPut a (bytesOf 8 fval))
  else atSlot fsl (commitCells s (cellsAt a (bytesOf 8 fval)))

/-- SIGNAL with FW = 0: a counter, in the order of R191. -/
def signalCount (e : Env) (s : State) (n scope add : Nat) : Chk State := do
  let i ← syncOf s e n
  let x := s.sync i
  need (x.kind == 0) (.prog fSync 0 n)
  need (!unfencedAt s e scope && decide (x.scope.toNat ≤ scope)) (.prog fOrder 0 n)
  if s.recorded e then .ok s
  else
    need (decide (x.count.toNat + add < 2 ^ 32)) (.prog fSync 0 n)
    .ok (s.setSync i { x with count := x.count + BitVec.ofNat 32 add })

/-- SIGNAL (log 21: ADD is checked with FW = 1 too). -/
def signalCommand (e : Env) (s : State) : Chk State := do
  fieldsOnly e [(8, 2), (12, 12), (24, 1), (32, 8), (48, 16), (96, 64)]
  needParam (decide (e.f 48 16 ≠ 0))
  let s ← if e.b 24 then signalFlag e s (e.f 32 8) (e.f 8 2) (e.f 96 64) else signalCount e s (e.f 12 12) (e.f 8 2) (e.f 48 16)
  .ok (s.recordEffect e.core e.ctx e.idx)

/-- SIGNAL. -/
def execSignal (core : CoreId) (ctx : CtxId) (s : State) : Host.Outcome State Fault Refusal :=
  .next (issue 0x31 core ctx s fun e s => Res.of s (signalCommand e s))

/-! ### WAIT and BARRIER (R195, R196) -/

/-- WAIT: completes when the count has reached TGT, else the context is blocked until its release. -/
def waitCommand (e : Env) (s : State) : Chk State := do
  fieldsOnly e [(12, 12), (64, 32)]
  let i ← syncOf s e (e.f 12 12)
  let x := s.sync i
  need (x.kind == 0) (.prog fSync 0 (e.f 12 12))
  if e.f 64 32 ≤ x.count.toNat then .ok s
  else .ok (s.setCtx e fun q => { q with blocked := .wait i (e.f 64 32) })

/-- WAIT. -/
def execWait (core : CoreId) (ctx : CtxId) (s : State) : Host.Outcome State Fault Refusal :=
  .next (issue 0x32 core ctx s fun e s => Res.of s (waitCommand e s))

/-- One arrival at a barrier (R195): the generation advances when PART have arrived; a fabric barrier then waits for its
group (R303). -/
def State.arrive (s : State) (i : Nat) : State :=
  let x := s.sync i
  if x.kind = 1 then
    if x.need ≤ x.arrivals + 1 then s.setSync i { x with arrivals := 0, gen := (x.gen + 1) % 2 ^ 16 }
    else s.setSync i { x with arrivals := x.arrivals + 1 }
  else ((s.setSync i { x with arrivals := x.arrivals + 1 }).barrierTry i).barrierTry i

/-- BARRIER: the context is blocked on the generation it found. A recorded one arrives no more and passes (R209; log 22). -/
def barrierCommand (e : Env) (s : State) : Chk State := do
  fieldsOnly e [(12, 12)]
  let i ← syncOf s e (e.f 12 12)
  let x := s.sync i
  need (x.kind != 0) (.prog fSync 0 (e.f 12 12))
  if s.recorded e then .ok s
  else .ok (((s.setCtx e fun q => { q with blocked := .barrier i x.gen }).arrive i).recordEffect e.core e.ctx e.idx)

/-- BARRIER. -/
def execBarrier (core : CoreId) (ctx : CtxId) (s : State) : Host.Outcome State Fault Refusal :=
  .next (issue 0x33 core ctx s fun e s => Res.of s (barrierCommand e s))

/-! ### PHASE (R198, R226, R227) -/

/-- A group entry of a phase map (R226). -/
def groupOf (w : Nat) : Group :=
  ⟨fieldAt w 0 16, fieldAt w 16 2, bitAt w 18, fieldAt w 32 14, fieldAt w 64 44, fieldAt w 108 12, fieldAt w 128 44⟩

/-- The groups that a phase word names (R225). -/
def State.phaseGroups (s : State) (pw : BitVec 64) : List Group :=
  (List.range (fieldAt pw.toNat 44 16)).map fun i => groupOf (s.natAt (fieldAt pw.toNat 0 44 + 32 * i) 32)

/-- Install the phase map of phase `n` (R227). -/
def State.installPhase (s : State) (p n : Nat) : State :=
  let x := s.part p
  s.setPart p { x with groups := s.phaseGroups (x.phaseWords.getD n 0) }

/-- The live XQ contexts of a partition (R198). -/
def State.liveXq (s : State) (p : Nat) : List (Nat × Nat) :=
  ((s.coresOf p).filter fun c => s.cstate c == 0).flatMap fun c =>
    if (s.core c).carries.isSome then [(c, 3), (c, 7)] else [(c, 3)]

/-- PHASE n completes when every live XQ context has issued it: PHASE is set and the phase map installed (R198). -/
def State.phaseCheck (s : State) (p n : Nat) : State :=
  if (s.part p).phased.testBit n then s
  else if (s.liveXq p).all fun x => (((s.core x.1).ctxs.get x.2).phase).testBit n then
    let s := (s.setObj (0x3100 + p) 7 n).installPhase p n
    s.setPart p { s.part p with phased := (s.part p).phased + 2 ^ n }
  else s

/-- PHASE. The INFO of its ORDER fault is not stated (log 23); a recorded one passes and counts as issued (R198). -/
def phaseCommand (e : Env) (s : State) : Res :=
  let n := e.f 8 2
  match (do fieldsOnly e [(8, 2)]; needParam (n != 3)) with
  | .error why => .stop s why
  | .ok _ =>
    if 2 ^ n ≤ ((s.core e.core).ctxs.get e.ctx).phase then
      .stop { s with freeCtr := s.freeCtr + 1 } (.prog fOrder 0 (Config.openValue s.freeCtr))
    else
      let s := if s.recorded e then s.setCtx e fun q => { q with phase := q.phase + 2 ^ n }
        else (s.setCtx e fun q => { q with phase := q.phase + 2 ^ n, blocked := .phase n }).recordEffect e.core e.ctx e.idx
      .ok (s.phaseCheck e.p n)

/-- PHASE. -/
def execPhase (core : CoreId) (ctx : CtxId) (s : State) : Host.Outcome State Fault Refusal :=
  .next (issue 0x34 core ctx s phaseCommand)

/-! ### SLOT (R187) -/

/-- Content with OFS added to BASE (R187): bits [123:80] of a tensor descriptor, [43:0] of kinds 2 to 6. A walk
descriptor has no BASE (log 24). -/
def rebase (kind content : Nat) (ofs : Int) : Chk Nat :=
  if kind = kWalk then paramFault
  else
    let lo := if kind = kTensor then 80 else 0
    let b : Int := (fieldAt content lo 44 : Nat)
    let b' := b + 64 * ofs
    if b' < 0 ∨ 2 ^ 44 ≤ b' then addressFault (fieldOf 64 b')
    else .ok (content - fieldAt content lo 44 * 2 ^ lo + b'.toNat * 2 ^ lo)

/-- The check of a slot's content by its kind (R107, R80, R122, R172). -/
def contentCheck (s : State) (e : Env) (kind content : Nat) : Chk State := do
  if kind = kTensor then
    let _ ← tensorCheck s e true false content
    .ok s
  else if kind = kWalk then
    needParam (walkOf content).fieldsOk
    .ok s
  else if kind = kTable then
    let x ← ownerTableOf s e content
    .ok x.2
  else
    needParam (decide (kind ≤ 6))
    let _ ← listSlot content
    .ok s

/-- The new content and kind of a slot. -/
def slotContent (s : State) (e : Env) (x : Slot) (mode : Nat) : Chk (Nat × Nat) := do
  if mode = 0 then
    let off := e.f 64 27
    needParam (decide (off % 32 = 0))
    let a ← spanCheck s e false (winOf e.home + off) 32
    need (!s.sramError a 32) (.hard .memory 0 a)
    .ok (s.natAt a 32, e.f 19 3)
  else if mode = 1 then
    let c ← rebase x.kind.toNat x.content.toNat (signedOf 32 (e.f 32 32))
    .ok (c, x.kind.toNat)
  else .ok (x.content.toNat, x.kind.toNat)

/-- SLOT. -/
def slotCommand (e : Env) (s : State) : Chk State := do
  fieldsOnly e [(8, 8), (16, 2), (18, 1), (19, 3), (32, 32), (64, 27)]
  let mode := e.f 16 2
  atSlot (e.f 8 8) (needParam (mode != 3))
  let x := s.slotOf e (e.f 8 8)
  need (x.st != .writing && x.readers == 0) .wait
  let c ← atSlot (e.f 8 8) (slotContent s e x mode)
  let s ← if mode = 2 then .ok s else atSlot (e.f 8 8) (contentCheck s e c.2 c.1)
  .ok (s.setSlot e (e.f 8 8) { x with
    content := BitVec.ofNat 256 c.1, kind := BitVec.ofNat 3 c.2, st := if e.b 18 then .ready else .empty, rebinds := x.rebinds + 1 })

/-- SLOT. -/
def execSlot (core : CoreId) (ctx : CtxId) (s : State) : Host.Outcome State Fault Refusal :=
  .next (issue 0x38 core ctx s fun e s => Res.of s (slotCommand e s))

/-! ### END (R188) -/

/-- END completes when every earlier command of its queue has. -/
def endCommand (e : Env) (s : State) : Chk State := do
  fieldsOnly e []
  need (!s.ctxBusy e.core e.ctx) .wait
  .ok (s.setCtx e fun q => { q with ended := true })

/-- END. -/
def execEndQueue (core : CoreId) (ctx : CtxId) (s : State) : Host.Outcome State Fault Refusal :=
  .next (issue 0x3F core ctx s fun e s => Res.of s (endCommand e s))

/-! ### DESTINATION_READY (R173) -/

/-- The command that writes a slot, if its last word is all that is missing. -/
def Core.writer (c : Core) (ctx key : Nat) : Option Outst := c.outst.find? fun o => o.ctx == ctx && o.slot == key && o.entry.isNone

/-- The last word of a destination is written: the slot is READY, the command complete, its effect recorded (R173, R209). -/
def State.destinationReady (s : State) (core ctx sl : Nat) : State :=
  let key := slotKey ctx sl
  match (s.core core).writer ctx key with
  | none => s
  | some o =>
    let c := s.core core
    let s := (s.setCore core { c with outst := c.outst.erase o }).slotReady core key
    if o.effect && !((s.core core).outst.any fun x => x.ctx == ctx && x.index == o.index) then s.recordEffect core ctx o.index else s

/-- DESTINATION_READY. -/
def execDestinationReady (core : CoreId) (ctx : CtxId) (slot : SlotId) (s : State) : Host.Outcome State Fault Refusal :=
  .next (s.destinationReady core ctx slot)

/-! ### BELL_RELEASE and CLOCK_GATE (R197) -/

/-- Is what a context is blocked on met? -/
def State.released (s : State) (p : Nat) : Blocked → Bool
  | .no => false
  | .wait i tgt => decide (tgt ≤ (s.sync i).count.toNat)
  | .barrier i gen => (s.sync i).gen != gen
  | .phase n => (s.part p).phased.testBit n

/-- A release restarts a gated core's clock; its issue ramp starts at 0 (R197, R390). -/
def Core.restart (c : Core) : Core := if c.gated then { c with gated := false, clock := true, ramp := 0 } else c

/-- The Bell network delivers a release to a context whose target is met. -/
def State.bellRelease (s : State) (core ctx : Nat) : State :=
  match s.partOf core with
  | none => s
  | some p =>
    let c := s.core core
    if s.released p (c.ctxs.get ctx).blocked then
      (s.setCore core { c with ctxs := c.ctxs.modify ctx fun q => { q with blocked := .no } }.restart).settlePower
    else s

/-- BELL_RELEASE. -/
def execBellRelease (core : CoreId) (ctx : CtxId) (s : State) : Host.Outcome State Fault Refusal :=
  .next (s.bellRelease core ctx)

/-- Every live context is blocked or at its END, and no engine of the core is busy. -/
def Core.idle (c : Core) : Bool :=
  c.outst.isEmpty && (List.range 8).all fun k => !(c.ctxs.get k).live || (c.ctxs.get k).ended || (c.ctxs.get k).blocked != .no

/-- A core gates its clock; the wait is counted (R197, R212). Outside RUNNING no command issues, so no context keeps it
(R162, R379). -/
def State.clockGate (s : State) (core : Nat) : State :=
  let c := s.core core
  let still := match s.partOf core with
    | some p => c.idle || (s.pstate p != 3 && c.outst.isEmpty)
    | none => false
  if c.clock && still && s.cstate core == 0 then
    ((s.setCore core { c with clock := false, gated := true }).count (0x3010 + core) 8 32 1).settlePower
  else s

/-- CLOCK_GATE. -/
def execClockGate (core : CoreId) (s : State) : Host.Outcome State Fault Refusal := .next (s.clockGate core)

end Sys2Proof.Machine
end

