-- ==== Sys2Proof/Machine/Update.lean ====
section
/-! DEFINITION. The update engines (R213–R224, R229, R236, R238, R239): microcode, the built-in optimisers, emission of
working copies, checkpoint capture and digests. -/

namespace Sys2Proof.Machine

/-! ### Microcode (R222) -/

/-- 1.0 in FP32. -/
def one32 : Word := 0x3F800000

/-- The result of an operation by its code; reserved codes have none. -/
def updOp (opc : Nat) (a b c : Word) : Option Word :=
  match opc with
  | 0x01 => some (fadd a b)
  | 0x02 => some (fsub a b)
  | 0x03 => some (fmul a b)
  | 0x04 => some (fdiv a b)
  | 0x05 => some (fmin a b)
  | 0x06 => some (fmax a b)
  | 0x07 => some (ffma a b c)
  | 0x08 => some (fsqrt a)
  | 0x09 => some (fabs a)
  | 0x0A => some (fneg a)
  | 0x0B => some (if !isNan32 a && !isNan32 b && decide (fcmp a b < 0) then one32 else 0)
  | 0x0C => some (canon32 (if c &&& 0x7FFFFFFF = 0 then b else a))
  | 0x0D => some (if nonFinite32 a then one32 else 0)
  | _ => none

/-- A register of an optimiser set as an FP32 pattern (R219). -/
def State.optReg (s : State) (o k : Nat) : Word := BitVec.ofNat 32 (s.obj (0x3510 + o) k)

/-- t of R220, 0 where it would be below 1. -/
def State.optT (s : State) (o p : Nat) : Nat := s.obj (0x3100 + p) 6 + 1 - s.obj (0x3510 + o) 0x0A

/-- C1 and C2 of R220: RN(1 − RN(B^t)). -/
def State.optC (s : State) (o p k : Nat) : Word := fsub one32 (fpow (s.optReg o k) (s.optT o p))

/-- An unsigned number as FP32, rounded (R222). -/
def u32f (n : Nat) : Word := rn32 (.fin false n 0)

/-- Registers 16–31 (R222). -/
def State.optConst (s : State) (o p r : Nat) : Word :=
  match r with
  | 16 => s.optReg o 2
  | 17 => s.optReg o 3
  | 18 => s.optReg o 4
  | 19 => s.optReg o 5
  | 20 => s.optReg o 6
  | 21 => s.optReg o 7
  | 22 => s.optReg o 8
  | 23 => s.optReg o 9
  | 24 => s.optC o p 3
  | 25 => s.optC o p 5
  | 26 => u32f (s.optT o p)
  | 27 => 0
  | 28 => one32
  | 29 => s.optReg o 0x0D
  | 30 => s.optReg o 0x0E
  | _ => s.optReg o 0x0F

/-- A source register of an engine. -/
def State.updReg (s : State) (q r : Nat) : Word :=
  let x := s.engines.get q
  if r < 16 then x.regs.get r else s.optConst x.set x.part r

/-- The update phase of a partition stops with a fault: event 0x0501 under the engine (R425), and the member's report
(R243): cause 1, the PARAMETER refusal, holds the partition; cause 2 is a hardware fault. -/
def State.updateFault (s : State) (p q gid block cause : Nat) : State :=
  let s := s.logEvent (0x50 + q) 0x0501 (gid + block % 2 ^ 32 * 2 ^ 16 + cause * 2 ^ 48)
  let s := s.setPart p { s.part p with upd := .faulted }
  if cause = 1 then (s.hold p fParameter).reportFailure .updateParameter else s.reportFailure .updateHardware

/-- One microcode instruction on engine `q`. A program that writes a register outside 1–15 is refused (R222). -/
def State.updInstr (s : State) (q opc : Nat) (o : UpdOps) : State :=
  let x := s.engines.get q
  if o.d.toNat = 0 ∨ 16 ≤ o.d.toNat then (if (s.part x.part).upd = .running then s.updateFault x.part q 0 0 1 else s)
  else match updOp opc (s.updReg q o.a.toNat) (s.updReg q o.b.toNat) (s.updReg q o.c.toNat) with
    | none => s
    | some v => { s with engines := s.engines.set q { x with regs := x.regs.set o.d.toNat v } }

/-- UPD_ADD. -/
def execUpdAdd (eng : QuadId) (o : UpdOps) (s : State) : Host.Outcome State Fault Refusal := .next (s.updInstr eng 0x01 o)
/-- UPD_SUB. -/
def execUpdSub (eng : QuadId) (o : UpdOps) (s : State) : Host.Outcome State Fault Refusal := .next (s.updInstr eng 0x02 o)
/-- UPD_MUL. -/
def execUpdMul (eng : QuadId) (o : UpdOps) (s : State) : Host.Outcome State Fault Refusal := .next (s.updInstr eng 0x03 o)
/-- UPD_DIV. -/
def execUpdDiv (eng : QuadId) (o : UpdOps) (s : State) : Host.Outcome State Fault Refusal := .next (s.updInstr eng 0x04 o)
/-- UPD_MIN. -/
def execUpdMin (eng : QuadId) (o : UpdOps) (s : State) : Host.Outcome State Fault Refusal := .next (s.updInstr eng 0x05 o)
/-- UPD_MAX. -/
def execUpdMax (eng : QuadId) (o : UpdOps) (s : State) : Host.Outcome State Fault Refusal := .next (s.updInstr eng 0x06 o)
/-- UPD_FMA. -/
def execUpdFma (eng : QuadId) (o : UpdOps) (s : State) : Host.Outcome State Fault Refusal := .next (s.updInstr eng 0x07 o)
/-- UPD_SQRT. -/
def execUpdSqrt (eng : QuadId) (o : UpdOps) (s : State) : Host.Outcome State Fault Refusal := .next (s.updInstr eng 0x08 o)
/-- UPD_ABS. -/
def execUpdAbs (eng : QuadId) (o : UpdOps) (s : State) : Host.Outcome State Fault Refusal := .next (s.updInstr eng 0x09 o)
/-- UPD_NEG. -/
def execUpdNeg (eng : QuadId) (o : UpdOps) (s : State) : Host.Outcome State Fault Refusal := .next (s.updInstr eng 0x0A o)
/-- UPD_LT. -/
def execUpdLt (eng : QuadId) (o : UpdOps) (s : State) : Host.Outcome State Fault Refusal := .next (s.updInstr eng 0x0B o)
/-- UPD_SEL. -/
def execUpdSel (eng : QuadId) (o : UpdOps) (s : State) : Host.Outcome State Fault Refusal := .next (s.updInstr eng 0x0C o)
/-- UPD_NF. -/
def execUpdNf (eng : QuadId) (o : UpdOps) (s : State) : Host.Outcome State Fault Refusal := .next (s.updInstr eng 0x0D o)

/-- The fields of an instruction word. -/
def updOpsOf (w : Nat) : UpdOps :=
  ⟨BitVec.ofNat 5 (fieldAt w 5 5), BitVec.ofNat 5 (fieldAt w 10 5), BitVec.ofNat 5 (fieldAt w 15 5), BitVec.ofNat 5 (fieldAt w 20 5)⟩

/-- Is an instruction word one a program may hold? -/
def updWordOk (w : Nat) : Bool :=
  decide (1 ≤ fieldAt w 0 5) && decide (fieldAt w 0 5 ≤ 13) && decide (1 ≤ fieldAt w 5 5) && decide (fieldAt w 5 5 ≤ 15)
    && decide (fieldAt w 25 7 = 0)

/-- The program of a set. -/
def State.microcode (s : State) (o : Nat) : List Nat :=
  (List.range (s.obj (0x3510 + o) 0x0C)).map fun i => s.natAt (s.obj (0x3510 + o) 0x0B + 4 * i) 4

/-! ### The update list (R216, R236) -/

/-- An entry from its 64 bytes. -/
def updEntryOf (w : Nat) : UpdEntry where
  wc := BitVec.ofNat 256 w
  gid := fieldAt w 256 16
  opt := fieldAt w 272 4
  decay := bitAt w 276
  skipnf := bitAt w 277
  sharded := bitAt w 278
  first := fieldAt w 288 32
  nblk := fieldAt w 320 32
  mbase := fieldAt w 352 44
  gbase := fieldAt w 400 44
  agrp := fieldAt w 448 16

/-- Reserved bits of an entry are clear. -/
def updReservedOk (w : Nat) : Bool := fieldAt w 279 9 == 0 && fieldAt w 396 4 == 0 && fieldAt w 444 4 == 0 && fieldAt w 464 48 == 0

/-- Is the job run in this partition (R234)? -/
def State.jobPart (s : State) (p : Nat) : Bool := s.obj 0x3500 0x10 == p

/-- Address and entries of a partition's update list; partitions other than the job's have none. -/
def State.updWords (s : State) (p : Nat) : List Nat :=
  if s.jobPart p then (List.range (s.obj 0x3500 0x0B)).map fun i => s.natAt (s.obj 0x3500 0x0A + 64 * i) 64 else []

/-- The region of a bulk address. -/
def State.regionAt (s : State) (a n : Nat) : Option Region :=
  match placeOf a with
  | .bulk o => (s.regionOf o n).map s.region
  | _ => none

/-- The working-copy tensor of an entry. -/
def UpdEntry.tensor (u : UpdEntry) : Tensor := tensorOf u.wc.toNat

/-- Extent of a compressed half: its directory, then fixed extents (R224). -/
def packedOffset (nt bt t : Nat) : Nat := ceilDiv (8 * nt) 64 + t * (bt / 64 + 1)

/-- The engine of an entry: the quadrant its master records are affine to (R215). -/
def State.engineOf (s : State) (u : UpdEntry) : Nat :=
  match s.regionAt u.mbase 1 with
  | some g => if g.cls = 2 ∧ g.affine then g.aq else 0
  | none => 0

/-- Can the working copy be placed (R107, R213, R216)? -/
def State.wcOk (s : State) (p : Nat) (t : Tensor) : Bool :=
  (t.f.fmt == 1 || t.f.fmt == 2 || t.f.fmt == 3 || t.f.fmt == 8) && t.f.ok false && t.fieldsOk && t.layout == 0
    && match s.regionAt t.base 1 with
      | none => false
      | some g =>
        g.cls == 1 && g.owner == p
          && decide (t.base - bulkBase + (if g.cmp then 64 * packedOffset t.tiles t.tileSize t.tiles else t.extent) ≤ g.start + g.bytes / 2)

/-- Is an address range in a BOOT region of the partition? -/
def State.inBoot (s : State) (p a n : Nat) : Bool :=
  match s.regionAt a n with
  | some g => g.cls == 0 && g.owner == p
  | none => false

/-- The checks made before any record is written (R107, R215, R216, R220, R222). -/
def State.updEntryOk (s : State) (p : Nat) (w : Nat) : Bool :=
  let u := updEntryOf w
  let kind := s.obj (0x3510 + u.opt) 1
  updReservedOk w && s.wcOk p u.tensor && decide (1 ≤ u.nblk) && decide (u.mbase % 64 = 0)
    && (match s.regionAt u.mbase (12288 * u.nblk) with
      | some g => g.cls == 2 && g.affine && g.owner == p
      | none => false)
    && (match placeOf u.gbase with
      | .scratch c o => s.partOf c == some p && decide (o + 4096 * u.nblk ≤ vaultOff)
      | _ => false)
    && decide (s.obj (0x3510 + u.opt) 0x0A ≤ s.obj (0x3100 + p) 6)
    && (kind != 3 || (s.inBoot p (s.obj (0x3510 + u.opt) 0x0B) (4 * s.obj (0x3510 + u.opt) 0x0C)
        && decide (1 ≤ s.obj (0x3510 + u.opt) 0x0C) && (s.microcode u.opt).all updWordOk))

/-! ### Elements (R214, R220, R221) -/

/-- The values of one parameter. -/
structure ParamRec where
  w : Word
  m : Word
  v : Word
  deriving DecidableEq, Repr

/-- Address of a word of a master record array: 0 W, 1 M, 2 V; `i` counts elements of the shard. -/
def recAddr (base i arr : Nat) : Nat := base + 12288 * (i / 1024) + 4096 * arr + 4 * (i % 1024)

/-- The record at an address base. -/
def State.recAt (s : State) (base i : Nat) : ParamRec :=
  let f (a : Nat) : Word := BitVec.ofNat 32 (s.natAt (recAddr base i a) 4)
  ⟨f 0, f 1, f 2⟩

/-- Write a record. -/
def State.putRec (s : State) (base i : Nat) (x : ParamRec) : State :=
  ((s.putBytes (recAddr base i 0) (bytesOf 4 x.w.toNat)).putBytes (recAddr base i 1) (bytesOf 4 x.m.toNat)).putBytes
    (recAddr base i 2) (bytesOf 4 x.v.toNat)

/-- The built-in optimisers (R220), on the scaled gradient. -/
def State.optimise (s : State) (o p : Nat) (decay : Bool) (g : Word) (x : ParamRec) : ParamRec :=
  let r (k : Nat) := s.optReg o k
  let kind := s.obj (0x3510 + o) 1
  let g := if (kind = 1 ∨ kind = 2) ∧ decay then ffma (r 8) x.w g else g
  if kind = 2 then
    let m := ffma (r 3) x.m g
    ⟨fsub x.w (fmul (r 2) m), m, x.v⟩
  else
    let m := ffma (r 3) x.m (fmul (r 4) g)
    let v := ffma (r 5) x.v (fmul (r 6) (fmul g g))
    let mh := fdiv m (s.optC o p 3)
    let vh := fdiv v (s.optC o p 5)
    let d := fdiv mh (fadd (fsqrt vh) (r 7))
    let d := if kind = 0 ∧ decay then ffma (r 8) x.w d else d
    ⟨fsub x.w (fmul (r 2) d), m, v⟩

/-- Run the set's microcode on an engine, with G and the record on entry (R222). -/
def State.runMicrocode (s : State) (q p : Nat) (u : UpdEntry) (g : Word) (x : ParamRec) : State × ParamRec :=
  let regs : WordTab := Tab.setList .empty 0 [g, x.w, x.m, x.v]
  let s := { s with engines := s.engines.set q ⟨regs, u.opt, p⟩ }
  let s := (s.microcode u.opt).foldl (fun s w => s.updInstr q (fieldAt w 0 5) (updOpsOf w)) s
  (s, ⟨s.updReg q 1, s.updReg q 2, s.updReg q 3⟩)

/-- Row and column of element `k` of block `b` (R105, R108). -/
def Tensor.elemPos (t : Tensor) (b k : Nat) : Nat × Nat :=
  let tp := t.tilePos (b / 32)
  (tp.1 * 512 + b % 32 / 2 * 32 + k / 32, tp.2 * 64 + b % 2 * 32 + k % 32)

/-- The new record of an element: unchanged under SKIPNF with a non-finite gradient (R221), +0 in padding (R214). -/
def State.newRec (s : State) (p q : Nat) (u : UpdEntry) (i : Nat) : State × ParamRec :=
  let x := s.recAt u.mbase i
  let s := (List.range 3).foldl (fun s a => s.countBulk 1 (recAddr u.mbase i a) 4) s
  let g0 : Word := BitVec.ofNat 32 (s.natAt (u.gbase + 4 * i) 4)
  let s := if i % 16 = 0 then s.count (0x3400 + redirectBy s.redirects (u.gbase + 4 * i) / 0x8000000) 2 64 1 else s
  let pos := u.tensor.elemPos (u.first + i / 1024) (i % 1024)
  if u.tensor.rows ≤ pos.1 ∨ u.tensor.cols ≤ pos.2 then (s, ⟨0, 0, 0⟩)
  else
    let s := if nonFinite32 g0 then s.count 0x3500 0x17 64 1 else s
    if nonFinite32 g0 ∧ u.skipnf then (s, x)
    else if s.obj (0x3510 + u.opt) 1 = 3 then s.runMicrocode q p u g0 x
    else (s, s.optimise u.opt p u.decay (fmul g0 (s.optReg u.opt 9)) x)

/-! ### Working copies (R223, R224, R229) -/

/-- The SR draw of element `e` of group `gid` at the partition's step (R223). -/
def State.emitDraw (s : State) (p gid e : Nat) : Nat :=
  let k := BitVec.ofNat 64 (s.obj (0x3050 + p) 2) ^^^ (BitVec.ofNat 64 (s.obj (0x3100 + p) 6) <<< 32)
  draw16 (mix64 (mix64 k ^^^ (BitVec.ofNat 64 gid <<< 48) ^^^ BitVec.ofNat 64 e))

/-- Rounding of an emitted element. -/
def State.emitRnd (s : State) (p : Nat) (u : UpdEntry) (e : Nat) : Rnd := rndOf u.tensor.f.rnd (s.emitDraw p u.gid e)

/-- The tensor at the half that is not LIVE (R146). -/
def State.wcBack (s : State) (t : Tensor) : Tensor :=
  match s.regionAt t.base 1 with
  | some g => { t with base := t.base + (if g.live = 0 then g.bytes / 2 else 0) }
  | none => t

/-- The master of an element of the tensor, if the shard holds it, by row and column. -/
def State.masterOf (s : State) (u : UpdEntry) (r c : Nat) : Fp :=
  let b := u.tensor.block (r / 32) (c / 32)
  if u.first ≤ b ∧ b < u.first + u.nblk then val32 (s.recAt u.mbase ((b - u.first) * 1024 + r % 32 * 32 + c % 32)).w
  else .fin false 0 0

/-- Number of the element at a row and column (R223). -/
def elemNo (t : Tensor) (r c : Nat) : Nat := t.block (r / 32) (c / 32) * 1024 + r % 32 * 32 + c % 32

/-- Cells of the working copy at (r, c): the element, or for JP-k its whole line from the masters (R52, R223). -/
def State.emitCells (s : State) (p : Nat) (u : UpdEntry) (t : Tensor) (r c : Nat) : Cells :=
  if t.f.fmt = 8 then
    let ps := t.linePos r c
    t.lineCells (fun i => s.emitRnd p u (elemNo t (ps.getD i (0, 0)).1 (ps.getD i (0, 0)).2)) (s.masterOf u) r c
  else
    let x : Fp := if t.rows ≤ r ∨ t.cols ≤ c then .fin false 0 0 else s.masterOf u r c
    t.codeCells r c ((elemFmt t.f.fmt).write (s.emitRnd p u (elemNo t r c)) t.f.sat x).code

/-- Blocks of a tile that the shard holds. -/
def UpdEntry.blocksOf (u : UpdEntry) (tile : Nat) : List Nat :=
  (List.range 32).filterMap fun b => if u.first ≤ tile * 32 + b ∧ tile * 32 + b < u.first + u.nblk then some (tile * 32 + b) else none

/-- A block as the engines encode it (R149): its block word, coded scales and present areas. -/
structure CodedBlock where
  word   : Nat
  scales : List Byte
  areas  : List (Option (List Byte))
  deriving DecidableEq, Repr

/-- Encode a block from its areas; `scaled` says that the first is the scales (R148, R149). -/
def codeBlock (scaled : Bool) (l : List (List Byte)) : CodedBlock :=
  let sc := if scaled then l.headD [] else []
  let rest := if scaled then l.drop 1 else l
  let areas := rest.map fun a => if a.all (· == 0) then none else some a
  let present := planeWord (areas.map Option.isSome)
  let ns := sc.map (·.toNat)
  let lo := ns.foldl min 255
  let hi := ns.foldl max 0
  if !scaled then ⟨present, [], areas⟩
  else if ns.all (· == 0) then ⟨present + 2 * 2 ^ 9, [], areas⟩
  else if hi - lo ≤ 15 then
    ⟨present + 2 ^ 9, BitVec.ofNat 8 lo :: (List.range 16).map fun i => BitVec.ofNat 8 (ns.getD (2 * i) 0 - lo + 16 * (ns.getD (2 * i + 1) 0 - lo)), areas⟩
  else ⟨present, sc, areas⟩

/-- Zero bytes up to a multiple of 64. -/
def padTo64 (l : List Byte) : List Byte := l ++ List.replicate ((64 - l.length % 64) % 64) 0

/-- The compressed tile of 32 coded blocks (R148). -/
def packTile (n : Nat) (bs : List CodedBlock) : List Byte :=
  padTo64 ((bs.flatMap fun b => bytesOf 2 b.word) ++ padTo64 (bs.flatMap (·.scales))
    ++ (List.range n).flatMap fun m => bs.flatMap fun b => (b.areas.getD m none).getD [])

/-- Store a tile in a compressed half: its directory entry and its bytes at the fixed extent (R147, R224). `t.base` is the
half's directory. -/
def State.putPacked (s : State) (t : Tensor) (tile : Nat) (blocks : List (List (List Byte))) : State :=
  let scaled := hasAreas t.f.fmt
  let bytes := packTile (if scaled then t.areas.length - 1 else t.areas.length) (blocks.map (codeBlock scaled))
  let off := packedOffset t.tiles t.tileSize tile
  let s := s.putBytes (t.base + 8 * tile) (bytesOf 8 (off + bytes.length / 64 * 2 ^ 32))
  s.putBytes (t.base + 64 * off) bytes

/-- The areas of every block of a tile as the shard emits it; a block of another shard is not stated (log 32). -/
def State.tileBlocks (s : State) (p : Nat) (u : UpdEntry) (tile : Nat) : List (List (List Byte)) :=
  let z := u.tensor.staged
  let own := u.blocksOf tile
  let cells := own.flatMap fun b => (List.range 1024).flatMap fun k =>
    let q := z.elemPos b k
    if z.f.fmt = 8 ∧ !z.lineHead q.1 q.2 then [] else s.emitCells p u z q.1 q.2
  let v := { s with mem := cells.foldl (fun m c => m.set c.1 c.2) s.mem }
  (List.range 32).map fun b =>
    if tile * 32 + b ∈ own then blockBytes v z (tile * 32 + b)
    else z.areas.map fun n => (List.range n).map fun j => BitVec.ofNat 8 (Config.openValue (s.freeCtr + b * 65536 + j))

/-- Key of an element or tile of an entry in the phase's records. -/
def updKey (entry n : Nat) : Nat := entry * 2 ^ 48 + n

/-- Has every element of the shard's part of a tile been updated? -/
def State.tileDone (s : State) (p entry : Nat) (u : UpdEntry) (tile : Nat) : Bool :=
  (u.blocksOf tile).all fun b => (List.range 1024).all fun k =>
    (s.part p).updDone.get (updKey entry ((b - u.first) * 1024 + k)) == 1

/-- The group an entry's tiles are gathered over, when it has other members (R229). -/
def State.gatherGroup (s : State) (p : Nat) (u : UpdEntry) : Option Group :=
  if u.sharded then none else (s.part p).groups.find? fun g => g.group == u.agrp && decide (1 < g.nmem)

/-- A tile whose shard part is complete: stored compressed where the region says so, and sent to the group. -/
def State.finishTile (s : State) (p entry : Nat) (u : UpdEntry) (tile : Nat) : State :=
  let bs := s.tileBlocks p u tile
  let s := { s with freeCtr := s.freeCtr + 32 * 65536 }
  let s := if inCompressed s u.tensor.base then s.putPacked (s.wcBack u.tensor) tile bs
    else ((s.wcBack u.tensor).tileSpans tile).foldl (fun s x => s.countBulk 2 x.1 x.2) s
  match s.gatherGroup p u with
  | none => s
  | some g => s.emit (.tile g.group entry tile ((List.range u.tensor.areas.length).flatMap fun a => bs.flatMap fun b => b.getD a []))

/-- The regions of a partition that an engine has begun to write (R230). -/
def State.beginRegion (s : State) (p a : Nat) : State :=
  match placeOf a with
  | .bulk o => match s.regionOf o 1 with
    | some r =>
      let x := s.part p
      s.setPart p { x with
        begun := if r ∈ x.begun then x.begun else r :: x.begun
        updated := if r ∈ x.updated then x.updated else r :: x.updated }
    | none => s
  | _ => s

/-! ### Checkpoint capture (R238, R239) -/

/-- Region of home slot `k` (R234.11). -/
def State.homeRegion (s : State) (k : Bool) : Nat := fieldAt (s.obj 0x3500 0x11) (if k then 8 else 0) 8

/-- Bulk address of home slot `k`. -/
def State.homeAddr (s : State) (k : Bool) : Nat := bulkBase + (s.region (s.homeRegion k)).start

/-- Is the home slot a region of class HOME? -/
def State.homeOk (s : State) (k : Bool) : Bool :=
  decide (s.homeRegion k < 64) && (s.region (s.homeRegion k)).cls == 7 && decide (0 < (s.region (s.homeRegion k)).size)

/-- Blocks before entry `n` of the list in force. -/
def blocksBefore (l : List UpdEntry) (n : Nat) : Nat := ((l.take n).map (·.nblk)).sum

/-- Capture an element's record before it is updated. -/
def State.captureElem (s : State) (p entry : Nat) (u : UpdEntry) (i : Nat) : State :=
  match s.job.capture with
  | none => s
  | some k =>
    if s.jobPart p ∧ s.homeOk k then
      s.putRec (s.homeAddr k + 64 + 12288 * blocksBefore (s.part p).updList entry) i (s.recAt u.mbase i)
    else s

/-- Home slot `k` as the engines track it. -/
def Job.home (j : Job) (k : Bool) : CkSlot := if k then j.home1 else j.home0

/-- Number of a slot state (R239). -/
def ckNum : CkSt → Nat
  | .empty => 0 | .filling => 1 | .complete => 2

/-- Change a home slot and what object 0x3520 shows of it (R242). -/
def State.setHome (s : State) (k : Bool) (x : CkSlot) : State :=
  let j := if k then { s.job with home1 := x } else { s.job with home0 := x }
  let s := { s with job := j }
  (s.setObj 0x3520 (if k then 2 else 1) x.step.toNat).setObj 0x3520 3 (ckNum j.home0.st + 4 * ckNum j.home1.st)

/-- Does a home slot hold a checkpoint that is not yet job-complete? -/
def State.ckPending (s : State) : Bool :=
  [false, true].any fun k =>
    let x := s.job.home k
    x.st != .empty && match s.job.jobDone with
      | none => true
      | some d => decide (d.toNat < x.step.toNat)

/-- The slot a capture fills: the one without the latest job-complete checkpoint. -/
def State.captureSlot (s : State) : Bool :=
  s.job.home0.st == .complete && s.job.jobDone == some s.job.home0.step

/-- At the start of an update phase: a due checkpoint is captured, or deferred while the previous one is not job-complete. -/
def State.startCapture (s : State) (p : Nat) : State :=
  let step := s.obj (0x3100 + p) 6
  let n := s.obj 0x3500 0x0D
  let member := s.obj 0x3500 2 == 1 || s.obj 0x3500 2 == 2
  if s.jobPart p && member && n != 0 && decide (1 ≤ step) && (decide ((step - 1) % n = 0) || s.job.due) then
    if s.ckPending then ({ s with job := { s.job with due := true } }).count 0x3520 6 32 1
    else
      let k := s.captureSlot
      let s := { s with job := { s.job with due := false, capture := some k, capStep := BitVec.ofNat 32 (step - 1) } }
      s.setHome k { st := .filling, step := BitVec.ofNat 32 (step - 1), rank := s.obj 0x3500 4, jobId := BitVec.ofNat 32 (s.obj 0x3500 1),
                    len := 12288 * blocksBefore (s.part p).updList (s.part p).updList.length }
  else s

/-! ### Digests (R236) -/

/-- Bytes 0–7 of SHA-384 over the group digests. -/
def digestOf (groups : List (List Byte)) : BitVec 64 :=
  (Config.sha384 (groups.flatMap fun g => bytesOf 48 (Config.sha384 g).toNat)).truncate 64

/-- The master digest of records from `base`, entry by entry. -/
def State.masterDigest (s : State) (l : List UpdEntry) (base : UpdEntry → Nat → Nat) : BitVec 64 :=
  digestOf (l.mapIdx fun n u => s.bytesAt (base u n) (12288 * u.nblk))

/-- A group's working copy at the half not LIVE, block by block, uncompressed. -/
def State.groupBytes (s : State) (u : UpdEntry) : List Byte :=
  let t := s.wcBack u.tensor
  let packed := inCompressed s u.tensor.base
  let z := t.staged
  (List.range t.tiles).flatMap fun i =>
    let v := if packed then
        match unpackTile s t i t.f.k with
        | .ok x => { s with mem := x.1.foldl (fun m c => m.set c.1 c.2) s.mem }
        | .error _ => s
      else s
    (List.range 32).flatMap fun b => (blockBytes v (if packed then z else t) (i * 32 + b)).flatten

/-- The working-copy digest over every group of the list. -/
def State.wcDigest (s : State) (l : List UpdEntry) : BitVec 64 :=
  digestOf (((l.map (·.gid)).eraseDups.filterMap fun g => l.find? (·.gid == g)).map s.groupBytes)

/-! ### The phase (R218, R229) -/

/-- May the update phase begin: PHASE 2 complete, or every queue at its END without it, and every reduction of the step
complete (R218)? -/
def State.updateDue (s : State) (p : Nat) : Bool :=
  let x := s.part p
  let ended := ((s.coresOf p).filter fun c => s.cstate c == 0).all fun c =>
    (List.range 8).all fun k => !((s.core c).ctxs.get k).live || ((s.core c).ctxs.get k).ended
  s.pstate p == 3 && x.inStep && x.upd == .idle && (x.phased.testBit 2 || ended)
    && s.colls.all fun y => !(y.part == p && (y.kind == 0 || y.kind == 2))

/-- UPDATE_PHASE_START: the list is read and checked whole before any record is written. -/
def State.updateStart (s : State) (p : Nat) : State :=
  if !s.updateDue p then s
  else
    let n := if s.jobPart p then s.obj 0x3500 0x0B else 0
    let a := s.obj 0x3500 0x0A
    if n = 0 then s.setPart p { s.part p with upd := .running, updList := [], updDone := .empty, peerTiles := .empty }
    else if !s.inBoot p a (64 * n) then s.updateFault p 0 0 0 1
    else if !s.bulkReady (a - bulkBase) (64 * n) || s.bulkError a (64 * n) then s
    else
      let ws := s.updWords p
      match ws.find? fun w => !s.updEntryOk p w with
      | some w => s.updateFault p (s.engineOf (updEntryOf w)) (fieldAt w 256 16) (fieldAt w 288 32) 1
      | none =>
        let l := ws.map updEntryOf
        let s := s.setPart p { s.part p with upd := .running, updList := l, updDone := .empty, peerTiles := .empty }
        let s := l.foldl (fun s u => match placeOf u.tensor.base with
          | .bulk o => match s.regionOf o 1 with
            | some r => s.setPart p { s.part p with updated := if r ∈ (s.part p).updated then (s.part p).updated else r :: (s.part p).updated }
            | none => s
          | _ => s) s
        s.startCapture p

/-- UPDATE_PHASE_START. -/
def execUpdatePhaseStart (p : PartId) (s : State) : Host.Outcome State Fault Refusal := .next (s.updateStart p)

/-- Update element `i` of an entry's shard, capture, emit. -/
def State.updateElem (s : State) (p entry i : Nat) (u : UpdEntry) : State :=
  let q := s.engineOf u
  let s := s.captureElem p entry u i
  let x := s.newRec p q u i
  let s := x.1.putRec u.mbase i x.2
  let s := s.setPart p { s.part p with updDone := (s.part p).updDone.set (updKey entry i) 1 }
  let b := u.first + i / 1024
  if u.tensor.tiles * 32 ≤ b then s
  else
    let s := s.beginRegion p u.tensor.base
    let t := s.wcBack u.tensor
    let pos := t.elemPos b (i % 1024)
    let s := if inCompressed s u.tensor.base then s
      else { s with mem := (s.emitCells p u t pos.1 pos.2).foldl (fun m c => m.set c.1 c.2) s.mem }
    if s.tileDone p entry u (b / 32) then s.finishTile p entry u (b / 32) else s

/-- UPDATE_ELEMENT: element `i` of the shard of a list entry, once in the phase. An uncorrectable record or gradient is an
engine's hardware fault (R137, R153, R243). -/
def State.updateElement (s : State) (p entry i : Nat) : State :=
  let x := s.part p
  match x.updList[entry]? with
  | none => s
  | some u =>
    if x.upd ≠ .running ∨ 1024 * u.nblk ≤ i ∨ x.updDone.get (updKey entry i) = 1 then s
    else if s.sramError (u.gbase + 4 * i) 4 || (List.range 3).any (fun a => s.bulkError (recAddr u.mbase i a) 4) then
      s.updateFault p (s.engineOf u) u.gid (u.first + i / 1024) 2
    else if (s.redirectBusy (u.gbase + 4 * i) 4).isSome
        || !((List.range 3).all fun a => s.bulkReady (recAddr u.mbase i a - bulkBase) 4) then s
    else s.updateElem p entry i u

/-- UPDATE_ELEMENT. -/
def execUpdateElement (p : PartId) (entry elem : Nat) (s : State) : Host.Outcome State Fault Refusal :=
  .next (s.updateElement p entry elem)

/-- WORKING_COPY_TILE: a peer's tile of an entry's tensor, its stored areas one after another, is written into the half not
LIVE (R229). -/
def State.peerTile (s : State) (p entry tile : Nat) (data : List Byte) : State :=
  let x := s.part p
  match x.updList[entry]? with
  | none => s
  | some u =>
    let t := s.wcBack u.tensor
    if x.upd ≠ .running ∨ t.tiles ≤ tile ∨ data.length ≠ t.tileSize ∨ (s.gatherGroup p u).isNone ∨ !(u.blocksOf tile).isEmpty then s
    else
      let s := s.beginRegion p u.tensor.base
      let s := s.setPart p { s.part p with peerTiles := (s.part p).peerTiles.set (updKey entry tile) 1 }
      if inCompressed s u.tensor.base then
        let areas := t.areas
        let start (a : Nat) := ((areas.take a).map (32 * ·)).sum
        s.putPacked t tile ((List.range 32).map fun b => areas.mapIdx fun a n => (data.drop (start a + b * n)).take n)
      else
        (((t.tileSpans tile).foldl (fun (y : State × List Byte) sp => (y.1.putBytes sp.1 (y.2.take sp.2), y.2.drop sp.2)) (s, data))).1

/-- WORKING_COPY_TILE. -/
def execWorkingCopyTile (p : PartId) (entry block : Nat) (data : List Byte) (s : State) : Host.Outcome State Fault Refusal :=
  .next (s.peerTile p entry block data)

/-- Tiles of an entry's tensor that its peers must send. -/
def State.tilesDue (s : State) (p : Nat) (u : UpdEntry) : List Nat :=
  if (s.gatherGroup p u).isNone then [] else (List.range u.tensor.tiles).filter fun i => (u.blocksOf i).isEmpty

/-- Is the list done and every gathered tile written? Entries of one group share the tiles that arrive. -/
def State.updateAll (s : State) (p : Nat) : Bool :=
  let x := s.part p
  decide (x.updDone.entries.length = 1024 * blocksBefore x.updList x.updList.length)
    && (x.updList.mapIdx fun n u => (s.tilesDue p u).all fun i =>
        x.peerTiles.get (updKey n i) == 1
          || (x.updList.mapIdx fun m v => v.gid == u.gid && (x.peerTiles.get (updKey m i) == 1 || !(v.blocksOf i).isEmpty)).any (· = true)).all (· = true)

/-- The digest pass: both digests go to the lead (R237). -/
def State.digestPass (s : State) (p : Nat) : State :=
  let n := s.obj 0x3500 0x0E
  let step := s.obj (0x3100 + p) 6
  if s.jobPart p && (s.obj 0x3500 2 == 1 || s.obj 0x3500 2 == 2) && n != 0 && decide (step % n = 0) then
    let l := (s.part p).updList
    s.tellLead 0x300 (s.obj 0x3500 4 + step * 2 ^ 16 + (s.wcDigest l).toNat * 2 ^ 48 + (s.masterDigest l fun u _ => u.mbase).toNat * 2 ^ 112)
  else s

/-- A checkpoint slot header (R239). -/
def slotHeader (x : CkSlot) : List Byte :=
  bytesOf 64 (0x54534B43 + x.jobId.toNat * 2 ^ 32 + x.step.toNat * 2 ^ 64 + x.rank * 2 ^ 96 + x.len * 2 ^ 128 + x.digest.toNat * 2 ^ 192
    + ckNum x.st * 2 ^ 256)

/-- The capture ends: the header is written, the slot is COMPLETE and its stream to the buddy begins (R239, R240). -/
def State.endCapture (s : State) (p : Nat) : State :=
  match s.job.capture with
  | none => s
  | some k =>
    if !s.jobPart p then s
    else
      let l := (s.part p).updList
      let d := s.masterDigest l fun _ n => s.homeAddr k + 64 + 12288 * blocksBefore l n
      let x := { s.job.home k with st := .complete, digest := d }
      let s := s.setHome k x
      let s := if s.homeOk k then s.putBytes (s.homeAddr k) (slotHeader x) else s
      { s with job := { s.job with capture := none, stream := some (k, 64 + x.len) } }.setObj 0x3520 4 0

/-- UPDATE_PHASE_COMPLETE. -/
def State.updateComplete (s : State) (p : Nat) : State :=
  if s.pstate p = 3 ∧ (s.part p).upd = .running ∧ s.updateAll p then
    (((s.digestPass p).endCapture p).setPart p { s.part p with upd := .complete })
  else s

/-- UPDATE_PHASE_COMPLETE. -/
def execUpdatePhaseComplete (p : PartId) (s : State) : Host.Outcome State Fault Refusal := .next (s.updateComplete p)

end Sys2Proof.Machine
end

