-- ==== Sys2Proof/Machine/Image.lean ====
section
/-! DEFINITION. The step image: its header, its tables, the checks of LOAD and what an accepted image sets (R165–R168,
R172, R193, R194, R328). -/

namespace Sys2Proof.Machine

/-! ### The image's tables -/

/-- An image header (R165), with the address of the image. -/
structure Image where
  at_     : Nat
  word    : Nat
  level   : Nat
  ncore   : Nat
  rerun   : Bool
  capReq  : Nat
  syncs   : Nat
  rrOff   : Nat
  rrSize  : Nat
  coreTab : Nat
  syncTab : Nat
  len     : Nat
  deriving DecidableEq, Repr

/-- The image at an address. -/
def State.imageOf (s : State) (a : Nat) : Image :=
  let w := s.natAt a 64
  ⟨a, w, fieldAt w 32 8, fieldAt w 40 8, bitAt w 48, fieldAt w 64 32, fieldAt w 96 16, fieldAt w 128 32, fieldAt w 160 32,
    fieldAt w 192 32, fieldAt w 224 32, fieldAt w 256 32⟩

/-- MAGIC and the reserved bits of a header. -/
def Image.headOk (i : Image) : Bool :=
  fieldAt i.word 0 32 == 0x4F52454D && fieldAt i.word 49 15 == 0 && fieldAt i.word 112 16 == 0 && fieldAt i.word 288 224 == 0

/-- An entry of the core section table (R166). -/
structure CoreSec where
  wrLo  : Nat
  wrHi  : Nat
  slots : Nat
  rsv   : Nat
  qoff  : List Nat
  qlen  : List Nat
  qbase : List Nat
  deriving DecidableEq, Repr

def coreSecOf (w : Nat) : CoreSec :=
  let l (lo : Nat) := (List.range 4).map fun q => fieldAt w (lo + 32 * q) 32
  ⟨fieldAt w 0 32, fieldAt w 32 32, fieldAt w 64 32, fieldAt w 96 32, l 128, l 256, l 384⟩

def State.coreSec (s : State) (i : Image) (n : Nat) : CoreSec := coreSecOf (s.natAt (i.at_ + i.coreTab + 64 * n) 64)
def State.coreSecs (s : State) (i : Image) : List CoreSec := (List.range i.ncore).map (s.coreSec i)

/-- Entry `n` of a slot table: 40 bytes (R172). -/
def State.slotEntry (s : State) (i : Image) (c : CoreSec) (n : Nat) : Nat := s.natAt (i.at_ + c.slots + 40 * n) 40

/-- Control byte [7:4] and the seven bytes after it are reserved. -/
def slotEntryOk (w : Nat) : Bool := fieldAt w 260 60 == 0

/-- The slot an entry spells. -/
def slotOfEntry (w : Nat) : Slot where
  content := BitVec.ofNat 256 w
  kind := BitVec.ofNat 3 (w / 2 ^ 256)
  st := if bitAt w 259 then .ready else .empty

/-- Entry `n` of the sync object table (R193). -/
def State.syncEntry (s : State) (i : Image) (n : Nat) : Nat := s.natAt (i.at_ + i.syncTab + 8 * n) 8

/-! ### The checks of LOAD (R167) -/

/-- QLEN in range (R166). -/
def CoreSec.qlenOk (c : CoreSec) : Bool := c.qlen.all fun n => decide (1 ≤ n) && decide (n ≤ 262144)

/-- Are all tables and queues inside IMAGE_LEN, with no reserved bit set (value 1; log 36)? -/
def State.tablesOk (s : State) (i : Image) : Bool :=
  let fits (o n : Nat) := decide (o + n ≤ i.len)
  fits i.coreTab (64 * i.ncore) && fits i.syncTab (8 * i.syncs)
    && (s.coreSecs i).all fun c =>
      c.rsv == 0 && fits c.slots (40 * 256) && ((List.range 256).all fun n => slotEntryOk (s.slotEntry i c n))
        && (!c.qlenOk || (c.qoff.zip c.qlen).all fun x => fits x.1 (32 * x.2))

/-- Sync objects free to partition `p` (R194). -/
def State.freeSyncs (s : State) (p : Nat) : List Nat :=
  (List.range 4096).filter fun n => (s.sync n).part.isNone || (s.sync n).part == some p

/-- Bytes of a queue in the scratchpad. -/
def CoreSec.spans (c : CoreSec) : List (Nat × Nat) := (c.qbase.zip c.qlen).map fun x => (x.1, x.1 + 32 * x.2)

/-- Do two half-open spans overlap? -/
def spanMeet (a b : Nat × Nat) : Bool := decide (a.1 < b.2) && decide (b.1 < a.2)

/-- Spans that overlap no later one of the list. -/
def apart : List (Nat × Nat) → Bool
  | [] => true
  | x :: r => r.all (fun y => !spanMeet x y) && apart r

/-- A core section's ranges (value 6). -/
def CoreSec.rangesOk (c : CoreSec) : Bool :=
  c.wrLo % 65536 == 0 && c.wrHi % 65536 == 0 && decide (c.wrLo < c.wrHi) && decide (c.wrHi ≤ scratchSize)
    && c.qbase.all (fun b => b % 64 == 0) && c.spans.all (fun x => decide (c.wrLo ≤ x.1) && decide (x.2 ≤ c.wrHi))
    && apart c.spans

/-- The re-run reserve: in the scratchpad, clear of working ranges and vaults (value 6). -/
def Image.reserveOk (i : Image) (cs : List CoreSec) : Bool :=
  let r := (i.rrOff, i.rrOff + i.rrSize)
  i.rrOff % 65536 == 0 && i.rrSize % 65536 == 0 && decide (r.2 ≤ scratchSize)
    && (i.rrSize == 0 || (!spanMeet r (vaultOff, scratchSize) && cs.all fun c => !spanMeet r (c.wrLo, c.wrHi)))

/-- Measurement and signature (R328): the trailer at IMAGE_LEN. -/
def State.trailerOk (s : State) (p : Nat) (i : Image) : Bool :=
  let t := s.natAt (i.at_ + i.len) 256
  let pub := fieldAt t 448 776
  s.inBoot p i.at_ (i.len + 256) && fieldAt t 0 32 == 0x4749534D
    && BitVec.ofNat 384 (fieldAt t 64 384) == Config.sha384 (s.bytesAt i.at_ i.len)
    && (!s.isSealed p
        || (Config.sha384 (bytesOf 97 pub) == (s.part p).imageKey
            && Config.ecdsaOk (BitVec.ofNat 776 pub) (Config.sha384 (s.bytesAt (i.at_ + i.len) 160)) (BitVec.ofNat 768 (fieldAt t 1280 768))))

/-- Does an address belong to another partition (R205)? -/
def State.foreign (s : State) (p a : Nat) : Bool :=
  match placeOf a with
  | .scratch c _ => s.partOf c != some p
  | .vault c _ => s.partOf c != some p
  | .bulk o => match s.regionOf o 1 with
    | some r => decide ((s.region r).owner < 4) && (s.region r).owner != p
    | none => false
  | _ => false

/-- Does a slot entry name a resource outside the partition (value 8)? All-zero content names none. -/
def State.slotForeign (s : State) (p w : Nat) : Bool :=
  let kind := fieldAt w 256 3
  decide (fieldAt w 0 256 ≠ 0) && kind != 1 && kind != 7 && s.foreign p (fieldAt w (if kind = 0 then 80 else 0) 44)

/-- Does a FABRIC_BARRIER entry name a Bore connection that another partition holds (value 8)? -/
def State.syncForeign (s : State) (p w : Nat) : Bool :=
  fieldAt w 48 2 == 2 && match s.barrierGroup (fieldAt w 52 12) with
    | none => false
    | some b => (List.range 9).any fun k => (s.conn (b.conn0 + k)).st != .free && (s.conn (b.conn0 + k)).part != p

/-- The rules of R193 for an entry (value 9). -/
def State.syncEntryOk (s : State) (w : Nat) : Bool :=
  let kind := fieldAt w 48 2
  kind != 3 && fieldAt w 50 2 != 0 && (kind == 0 || fieldAt w 32 16 != 0)
    && (kind != 2 || (fieldAt w 50 2 == 3 && (s.barrierGroup (fieldAt w 52 12)).isSome))

/-- LOAD_RESULT of the image that partition `p` names: the first value of R167 that applies. An image that cannot be read
is refused with 7 (log 36). -/
def State.imageResult (s : State) (p : Nat) : Nat :=
  let i := s.imageOf (s.obj (0x3100 + p) 3)
  let cs := s.coreSecs i
  if !s.inBoot p i.at_ 64 then 1
  else if s.bulkError i.at_ 64 then 7
  else if !i.headOk || decide (i.len < 64) || !s.inBoot p i.at_ i.len then 1
  else if s.bulkError i.at_ i.len then 7
  else if !s.tablesOk i then 1
  else if s.obj 0x1000 3 < i.level then 2
  else if i.capReq / 256 ≠ 0 then 3
  else if i.ncore ≠ (s.coresOf p).length then 4
  else if (s.freeSyncs p).length < i.syncs ∨ !(cs.all CoreSec.qlenOk) then 5
  else if !(cs.all CoreSec.rangesOk) || !i.reserveOk cs then 6
  else if !s.trailerOk p i then 7
  else if (cs.any fun c => (List.range 256).any fun n => s.slotForeign p (s.slotEntry i c n))
      || (List.range i.syncs).any (fun n => s.syncForeign p (s.syncEntry i n)) then 8
  else if !((List.range i.syncs).all fun n => s.syncEntryOk (s.syncEntry i n)) then 9
  else 0

/-! ### What an accepted image sets -/

/-- The sync object that a table entry describes. -/
def syncOfEntry (p w : Nat) : Sync where
  part := some p
  kind := BitVec.ofNat 2 (fieldAt w 48 2)
  scope := BitVec.ofNat 2 (fieldAt w 50 2)
  grp := fieldAt w 52 12
  init := BitVec.ofNat 32 w
  need := fieldAt w 32 16
  count := BitVec.ofNat 32 w

/-- Copy the four queues of a core to QBASE, through any redirect (R167, R208). -/
def State.copyQueues (s : State) (i : Image) (core : Nat) (c : CoreSec) : State :=
  ((c.qoff.zip c.qlen).zip c.qbase).foldl (fun s x =>
    s.writeAt (winOf core + x.2) (s.bytesAt (i.at_ + x.1.1) (32 * x.1.2))) s

/-- The slot table of a core section. -/
def State.slotTable (s : State) (i : Image) (c : CoreSec) : Tab slotReset :=
  Tab.empty.fill 0 256 fun n => slotOfEntry (s.slotEntry i c n)

/-- A core's contexts at their starts, as the section gives them: context 4q + `first`. -/
def CoreSec.contexts (c : CoreSec) (first : Nat) (live : Bool) (t : Tab qctxReset) : Tab qctxReset :=
  (List.range 4).foldl (fun t q => t.set (first + q) { base := c.qbase.getD q 0, len := c.qlen.getD q 0, live := live }) t

/-- Load one core: working range, logical number, slots, shadow copy, contexts, queues (R166–R168, R199). -/
def State.loadCore (s : State) (i : Image) (core n : Nat) : State :=
  let c := s.coreSec i n
  let slots := s.slotTable i c
  let s := s.setCore core { s.core core with
    wrLo := c.wrLo, wrHi := c.wrHi, logical := n, slots := slots, shadow := slots
    ctxs := c.contexts 0 false .empty, queues := (List.range 4).map fun q => (q, c.qbase.getD q 0, c.qlen.getD q 0)
    outst := [], panel0 := none, panel1 := none, mqCtx := none, undrained0 := none, undrained1 := none, vec := {} }
  s.copyQueues i core c

/-- Allocate the lowest free sync objects to the partition and bind the logical numbers to them (R168, R194). -/
def State.bindSyncs (s : State) (p : Nat) (i : Image) : State :=
  let s := { s with syncs := s.syncs.keep fun n => (s.sync n).part != some p }
  let l := (s.freeSyncs p).take i.syncs
  let s := (l.zipIdx).foldl (fun s x => s.setSync x.1 (syncOfEntry p (s.syncEntry i x.2))) s
  s.setPart p { s.part p with syncCount := i.syncs, syncMap := l }

/-- An accepted image (R167). -/
def State.loadImage (s : State) (p : Nat) : State :=
  let i := s.imageOf (s.obj (0x3100 + p) 3)
  let s := s.bindSyncs p i
  let s := (s.coresOf p).zipIdx.foldl (fun s x => s.loadCore i x.1 x.2) s
  let s := s.setPart p { s.part p with
    rerun := i.rerun, rrOff := i.rrOff, rrSize := i.rrSize, imageAt := i.at_, stopReq := false
    imageHash := BitVec.ofNat 384 (s.natAt (i.at_ + i.len + 8) 48) }
  (s.setObj (0x3100 + p) 5 0).setObj (0x3100 + p) 2 2

end Sys2Proof.Machine
end

