-- ==== Sys2Proof/Machine/Sched.lean ====
section
/-! DEFINITION. The step scheduler: partition control (R161–R164), steps (R199, R200, R203), the failure, re-run and return
of cores (R202, R206–R211). -/

namespace Sys2Proof.Machine

/-! ### QMASK and DISSOLVE (R161–R164) -/

/-- Cores of the quadrants of a mask. -/
def quadCores (v : Nat) : List Nat := (List.range 16).filter fun c => bitAt v (c / 4)

/-- A write of QMASK. Cores of the old and the new mask are handed over; a write of 0 dissolves the partition. -/
def qmaskAct (p v : Nat) : Act := fun s =>
  if 1 < s.pstate p then (s, stWrongState)
  else if 15 < v ∨ (List.range 4).any (fun q => q != p && (List.range 4).any fun b => bitAt v b && bitAt (s.obj (0x3100 + q) 1) b) then (s, stRange)
  else if v = 0 then (if s.pstate p = 0 then s else s.dissolvePart p (some .handOver), stOk)
  else
    let old := s.coresOf p
    let new := quadCores v
    let s := s.handOver p (old ++ new.filter (· ∉ old)) (some .handOver)
    let s := s.each (old.filter (· ∉ new)) fun s c => s.assignCore c 3 0xFF
    let s := s.each new fun s c => s.assignCore c 0 p
    ((s.setObj (0x3100 + p) 1 v).setObj (0x3100 + p) 2 1, stOk)

/-- QMASK. -/
def execQmask (m : Master) (p : PartId) (v : Byte) (s : State) : Host.Outcome State Fault Refusal :=
  .next (s.act m (0x3100 + p) 1 (qmaskAct p v.toNat))

/-- CONTROL = 6. -/
def dissolveAct (p : Nat) : Act := fun s =>
  if s.pstate p = 1 ∨ s.pstate p = 2 ∨ s.pstate p = 4 then (s.dissolvePart p (some .handOver), stOk) else (s, stWrongState)

/-- DISSOLVE. -/
def execDissolve (m : Master) (p : PartId) (s : State) : Host.Outcome State Fault Refusal :=
  .next (s.act m (0x3100 + p) 4 (dissolveAct p))

/-! ### LOAD (R162, R167, R328) -/

/-- CONTROL = 1: a refused image changes nothing but LOAD_RESULT; value 7 is logged (R328). -/
def loadAct (p : Nat) : Act := fun s =>
  if s.pstate p ≠ 1 ∧ s.pstate p ≠ 2 then (s, stWrongState)
  else
    let r := s.imageResult p
    if r = 0 then (s.loadImage p, stOk)
    else
      let s := s.setObj (0x3100 + p) 5 r
      (if r = 7 then s.logEvent 0x60 0x0A08 p else s, stOk)

/-- LOAD. -/
def execLoad (m : Master) (p : PartId) (s : State) : Host.Outcome State Fault Refusal :=
  .next (s.act m (0x3100 + p) 4 (loadAct p))

/-! ### START, STOP, ABORT, RESUME (R162, R225, R231) -/

/-- The three phase words (R225). -/
def State.phaseWordsAt (s : State) (a : Nat) : List (BitVec 64) := (List.range 3).map fun i => BitVec.ofNat 64 (s.natAt (a + 8 * i) 8)

/-- A phase word that START accepts. -/
def State.phaseWordOk (s : State) (p : Nat) (w : BitVec 64) : Bool :=
  let n := fieldAt w.toNat 44 16
  let a := fieldAt w.toNat 0 44
  fieldAt w.toNat 60 4 == 0 && (n == 0 || (a % 32 == 0 && s.inBoot p a (32 * n)))

/-- The phase words in force for a partition: those of the job's partition (log 37). -/
def State.phasesFor (s : State) (p : Nat) : List (BitVec 64) :=
  if s.jobPart p && s.obj 0x3500 0x0C != 0 then s.phaseWordsAt (s.obj 0x3500 0x0C) else []

/-- A keep pool descriptor (R231). -/
structure KeepPool where
  word : Nat
  ntab : Nat
  off  : Nat
  size : Nat
  deriving DecidableEq, Repr

def State.keepPool (s : State) (a : Nat) : KeepPool :=
  let w := s.natAt a 192
  ⟨w, fieldAt w 0 5, fieldAt w 32 32, fieldAt w 64 32⟩

/-- Word `t` of its KEEP tables. -/
def KeepPool.tab (k : KeepPool) (t : Nat) : Nat := fieldAt k.word (128 + 64 * t) 64

/-- The refusals of R231; a pool that is no multiple of 64 KiB is refused with them (log 37). -/
def State.keepOk (s : State) (p a : Nat) : Bool :=
  let k := s.keepPool a
  let pool := (k.off, k.off + k.size)
  s.inBoot p a 192 && fieldAt k.word 5 27 == 0 && fieldAt k.word 96 32 == 0 && fieldAt k.word 1152 384 == 0
    && decide (k.ntab ≤ 16) && (List.range k.ntab).all (fun t => decide (k.tab t < 2 ^ 44))
    && k.off % 65536 == 0 && k.size % 65536 == 0 && decide (pool.2 ≤ scratchSize)
    && (k.size == 0
        || (!spanMeet pool (vaultOff, scratchSize)
            && !(decide (0 < (s.part p).rrSize) && spanMeet pool ((s.part p).rrOff, (s.part p).rrOff + (s.part p).rrSize))
            && (s.coresOf p).all fun c => !spanMeet pool ((s.core c).wrLo, (s.core c).wrHi)))

/-- The descriptor START reads, if the job names one. -/
def State.keepFor (s : State) (p : Nat) : Option Nat := if s.jobPart p && s.obj 0x3500 0x15 != 0 then some (s.obj 0x3500 0x15) else none

/-- CONTROL = 2: the phase words and the keep pool descriptor are read and checked; STEP takes FIRST_STEP; PLLs start
(R385). -/
def startAct (p : Nat) : Act := fun s =>
  if s.pstate p ≠ 2 then (s, stWrongState)
  else if s.jobPart p && s.obj 0x3500 0x0C != 0
      && !(s.inBoot p (s.obj 0x3500 0x0C) 24 && (s.phasesFor p).all (s.phaseWordOk p)) then (s, stRange)
  else if !((s.keepFor p).all (s.keepOk p)) then (s, stRange)
  else
    let k := (s.keepFor p).map s.keepPool
    let s := s.setPart p { s.part p with
      stopReq := false, stepsRun := 0, inStep := false, phaseWords := s.phasesFor p, groups := []
      poolOff := (k.map (·.off)).getD 0, poolSize := (k.map (·.size)).getD 0
      keepTabs := (k.map fun k => (List.range k.ntab).map k.tab).getD [] }
    let s := s.each (s.coresOf p) fun s c => s.setCore c { s.core c with pllStarting := !(s.core c).pll }
    ((((s.setObj (0x3100 + p) 2 3).setObj (0x3100 + p) 6 (s.obj (0x3100 + p) 8)).setObj (0x3100 + p) 7 0).settlePower, stOk)

/-- START. -/
def execStart (m : Master) (p : PartId) (s : State) : Host.Outcome State Fault Refusal :=
  .next (s.act m (0x3100 + p) 4 (startAct p))

/-- CONTROL = 3: LOADED at the next step boundary. -/
def stopAct (p : Nat) : Act := fun s =>
  if s.pstate p ≠ 3 then (s, stWrongState) else (s.setPart p { s.part p with stopReq := true }, stOk)

/-- STOP. -/
def execStop (m : Master) (p : PartId) (s : State) : Host.Outcome State Fault Refusal :=
  .next (s.act m (0x3100 + p) 4 (stopAct p))

/-- CONTROL = 4: HELD at once; no fault caused it. -/
def abortAct (p : Nat) : Act := fun s =>
  if s.pstate p ≠ 3 then (s, stWrongState) else (s.enterHeld p 0, stOk)

/-- ABORT. -/
def execAbortPart (m : Master) (p : PartId) (s : State) : Host.Outcome State Fault Refusal :=
  .next (s.act m (0x3100 + p) 4 (abortAct p))

/-- Sync objects at their initial counts, generations at 0 (R194). -/
def State.resetSyncs (s : State) (p : Nat) : State :=
  s.each (s.part p).syncMap fun s n =>
    let x := s.sync n
    s.setSync n { x with count := x.init, gen := 0, arrivals := 0, sentUp := false, children := [], nextGen := [] }

/-- A queue context back at its start. -/
def QCtx.restart (q : QCtx) (live : Bool) : QCtx := { base := q.base, len := q.len, live := live }

/-- The same, with the record of unfenced writes of `q` when a step starts; RESUME clears it (R191). -/
def QCtx.rewound (x q : QCtx) (live : Bool) : QCtx := { x.restart live with unfenced := if live then q.unfenced else 0 }

/-- A core's slot table from the shadow copy and its queue pointers at their starts (R199); `f` is the failed core whose
work it carries. -/
def Core.rewind (c : Core) (live : Bool) (f : Option Core) : Core :=
  let t := (List.range 4).foldl (fun (t : Tab qctxReset) k => t.set k ((c.ctxs.get k).rewound (c.ctxs.get k) live)) .empty
  { c with
    slots := match f with
      | none => c.shadow
      | some x => c.shadow.fill 256 256 x.shadow.get
    ctxs := match f with
      | none => t
      | some x => (List.range 4).foldl (fun t k => t.set (4 + k) ((x.ctxs.get k).rewound (c.ctxs.get (4 + k)) live)) t
    outst := [], panel0 := none, panel1 := none, mqCtx := none, undrained0 := none, undrained1 := none, vec := {}, rerunLeft := [] }

/-- The failed core whose work a core carries, once its redirect is installed (R208). -/
def State.carried (s : State) (core : Nat) : Option Core :=
  match (s.core core).carries with
  | some f => if s.redirects.any (·.failed == f) then some (s.core f) else none
  | none => none

/-- CONTROL = 5: queues, slot tables and sync objects return to their image values (R162); with failed ranks of the job
outstanding it restarts recovery (R247). -/
def resumeAct (p : Nat) : Act := fun s =>
  if s.pstate p ≠ 4 ∨ (s.isSealed p ∧ s.obj (0x1230 + p) 5 ≠ 2) then (s, stWrongState)
  else
    let i := s.imageOf (s.part p).imageAt
    let s := (s.coresOf p).zipIdx.foldl (fun s x =>
      (s.setCore x.1 ((s.core x.1).rewind false (s.carried x.1))).copyQueues i x.1 (s.coreSec i x.2)) s
    let s := { s.resetSyncs p with colls := s.colls.filter fun x => x.part != p }
    let s := if s.jobPart p && !s.job.failed.isEmpty then
        State.setObj { s with job := { s.job with admitted := [], restored := [] } } 0x3500 0x13 2
      else s
    (s.setObj (0x3100 + p) 2 2, stOk)

/-- RESUME. -/
def execResume (m : Master) (p : PartId) (s : State) : Host.Outcome State Fault Refusal :=
  .next (s.act m (0x3100 + p) 4 (resumeAct p))

/-! ### STEP_START (R199) -/

/-- The clock of a core starts: issue ramp at 0 (R385, R390). -/
def Core.clockOn (c : Core) : Core :=
  if c.clock then c else { c with clock := true, gated := false, pll := true, pllStarting := false, ramp := 0 }

/-- The LIVE cores of a partition. -/
def State.liveCores (s : State) (p : Nat) : List Nat := (s.coresOf p).filter fun c => s.cstate c == 0

/-- Counts and records that connections keep per step (R293, R299, R300). -/
def Conn.newStep (x : Conn) : Conn := { x with ccount := 0, origins := [], atomicStep := [] }

/-- STEP_START: between START or a boundary and the first command. -/
def State.beginStep (s : State) (p : Nat) : State :=
  if s.pstate p ≠ 3 ∨ (s.part p).inStep then s
  else
    let s := s.each ((s.coresOf p).map (· / 4)) State.wakeQuad
    let s := s.resetSyncs p
    let s := s.each (s.liveCores p) fun s c => s.setCore c ((s.core c).rewind true (s.carried c)).clockOn
    let s := s.connList.foldl (fun s c => if (s.conn c).part = p ∧ (s.conn c).st ≠ .free then s.setConn c (s.conn c).newStep else s) s
    let s := { s with colls := s.colls.filter fun x => x.part != p }
    let s := s.setPart p { s.part p with
      inStep := true, stepStart := s.now, phased := 0, upd := .idle, updList := [], updated := [], begun := []
      updDone := .empty, peerTiles := .empty, fullDuty := s.obj (0x2011 + p) 3 == 16 }
    ((s.setObj (0x3100 + p) 7 0).installPhase p 0).settlePower

/-- STEP_START. -/
def execStepStart (p : PartId) (s : State) : Host.Outcome State Fault Refusal := .next (s.beginStep p)

/-! ### STEP_BOUNDARY (R146, R200, R211, R386–R389) -/

/-- Required VDD_CORE of an operating point in mV (R386). -/
def pointMv (x : Nat) : Nat := if x = 0 then 600 else if x = 1 then 700 else 800

/-- Take the requested point, or stay when VDD_CORE is too low to rise (R387); at a boundary the stay is counted and
logged. -/
def State.takePoint (s : State) (p : Nat) (boundary : Bool) : State :=
  let req := s.obj (0x2011 + p) 1
  if s.obj (0x2011 + p) 2 < req ∧ s.obj 0x2010 5 + 10 < pointMv req then
    if boundary then (s.countSat (0x2011 + p) 4 32 1).logEvent 0x41 0x0C05 (pointMv req + s.obj 0x2010 5 * 2 ^ 16) else s
  else s.setObj (0x2011 + p) 2 req

/-- The operating point at a step boundary: a lowering due under R389 first, then the return from one. -/
def State.boundaryPoint (s : State) (p : Nat) : State :=
  if p ∈ s.dutyDue then
    let s := { s with dutyDue := s.dutyDue.filter (· != p) }
    (s.setObj (0x2011 + p) 2 (s.obj (0x2011 + p) 2 - 1)).setPart p { s.part p with lowered := true }
  else if (s.part p).lowered ∧ !(s.part p).fullDuty then s
  else (s.setPart p { s.part p with lowered := false }).takePoint p true

/-- A WPAIR region's halves change roles (R146). -/
def State.flip (s : State) (r : Nat) : State :=
  if (s.region r).cls = 1 then s.setObj (0x3420 + r) 5 (1 - s.obj (0x3420 + r) 5) else s

/-- Copy `n` bytes at physical addresses, with the error state of their words (R211). -/
def State.copyBack (s : State) (dst src n : Nat) : State :=
  let s' := s.putBytes dst ((List.range n).map fun i => s.rawByte (src + i))
  { s' with sramBad := s'.sramBad.fill (dst / 32) (n / 32) fun k => s.sramBad.get (src / 32 + k) }

/-- A core marked for return rejoins: its takeover core's reserve is copied back, the redirect removed, contexts 4–7
cleared (R211). -/
def State.rejoin (s : State) (core : Nat) : State :=
  let s := match s.redirects.find? (·.failed == core) with
    | none => s
    | some r =>
      let s := s.copyBack (winOf core + r.lo) (winOf r.takeover + r.rrOff) (r.hi - r.lo)
      { s with redirects := s.redirects.filter (·.failed != core) }
  let t := s.obj (0x3010 + core) 3
  let s := if t < 16 then
      let c := s.core t
      s.setCore t { c with
        carries := none, rerunLeft := [], ctxs := c.ctxs.keep (· < 4), slots := c.slots.keep (· < 256)
        outst := c.outst.filter (·.ctx < 4) }
    else s
  ((s.setObj (0x3010 + core) 1 0).setObj (0x3010 + core) 3 0xFF).setObj (0x3010 + core) 9 0

/-- Has every live context completed END, those of a core that fails included (R200)? -/
def State.stepEnded (s : State) (p : Nat) : Bool :=
  (s.liveCores p).all fun c =>
    ((List.range 8).all fun k => !((s.core c).ctxs.get k).live || ((s.core c).ctxs.get k).ended)
      && match (s.core c).carries with
        | some f => s.redirects.any (·.failed == f)
        | none => true

/-- STEP_BOUNDARY, in the order of R200; capture frames freeze at every one, for the next step (R275). -/
def State.boundary (s : State) (p : Nat) : State :=
  if s.pstate p ≠ 3 ∨ !(s.part p).inStep ∨ (s.part p).upd ≠ .complete ∨ !s.stepEnded p then s
  else
    let step := s.obj (0x3100 + p) 6
    let s := s.each (s.part p).updated State.flip
    let s := s.each ((s.coresOf p).filter fun c => s.cstate c == 2) State.rejoin
    let s := s.setObj (0x3100 + p) 6 ((step + 1) % 2 ^ 32)
    let s := s.each (s.coresOf p) fun s c => s.setCore c { s.core c with kept := [] }
    let x := s.part p
    let s := (s.setPart p { x with lastStep := step, stepsRun := x.stepsRun + 1, inStep := false, upd := .idle }).boundaryPoint p
    let s := s.freezeStreams p ((step + 1) % 2 ^ 32)
    let n := s.obj (0x3100 + p) 9
    if x.stopReq ∨ (n ≠ 0 ∧ n ≤ x.stepsRun + 1) then
      ((s.setPart p { s.part p with stopReq := false }).setObj (0x3100 + p) 2 2 |>.setObj (0x3100 + p) 6 step).settlePower
    else s

/-- STEP_BOUNDARY. -/
def execStepBoundary (p : PartId) (s : State) : Host.Outcome State Fault Refusal := .next (s.boundary p)

/-! ### STEP_TIMEOUT, HUNG, CORE_FENCE (R202, R203, R206) -/

/-- STEP_TIMEOUT: the TIMEOUT fault under the lowest-numbered live core; INFO is the milliseconds in the step. -/
def State.stepTimeout (s : State) (p : Nat) : State :=
  if s.pstate p ≠ 3 ∨ !(s.part p).inStep ∨ s.obj (0x3100 + p) 0x0A = 0 then s
  else match (s.liveCores p ++ s.coresOf p).head? with
    | some c => s.programFault c 0 0 0 fTimeout (s.obj (0x3100 + p) 0x0A)
    | none => s

/-- STEP_TIMEOUT. -/
def execStepTimeout (p : PartId) (s : State) : Host.Outcome State Fault Refusal := .next (s.stepTimeout p)

/-- HUNG: the context's oldest command not complete has stood for 10 ms; how INFO names the engine is not stated (log 4). -/
def State.hungCore (s : State) (core ctx : Nat) : State :=
  match (s.core core).outst.find? (·.ctx == ctx) with
  | some o =>
    if s.cstate core = 0 then
      { s with freeCtr := s.freeCtr + 1 }.fenceCore core ctx 0 o.index .hung (Config.openValue s.freeCtr)
    else s
  | none => s

/-- HUNG. -/
def execHung (core : CoreId) (ctx : CtxId) (s : State) : Host.Outcome State Fault Refusal := .next (s.hungCore core ctx)

/-- CORE_FENCE: a HARDWARE fault of a LIVE core (R206). -/
def execCoreFence (core : CoreId) (ctx : CtxId) (cause : HwFault) (info : BitVec 64) (s : State) : Host.Outcome State Fault Refusal :=
  .next (if s.cstate core = 0 then s.fenceCore core ctx 0 ((s.core core).ctxs.get ctx).ptr cause info.toNat else s)

/-! ### RERUN_START and RETURN (R208, R209, R211) -/

/-- Recorded effects of the failed core, as context × 2^18 + index of contexts 4–7. -/
def rerunRecords (f : Core) : List Nat := (List.range 4).flatMap fun k => (f.ctxs.get k).effects.map fun i => (4 + k) * 2 ^ 18 + i

/-- Contexts 4–7 at the start of the failed core's queues, with its records to skip and no unfenced write (log 63). -/
def rerunContexts (f : Core) (live : Bool) (t : Tab qctxReset) : Tab qctxReset :=
  (List.range 4).foldl (fun t k => t.set (4 + k) { (f.ctxs.get k).restart live with skip := (f.ctxs.get k).effects }) t

/-- RERUN_START: the takeover core installs the redirect, loads the failed core's queues into the reserve and arms contexts
4–7 from the beginning of the step. -/
def State.rerunStart (s : State) (core : Nat) : State :=
  match (s.core core).carries, s.partOf core with
  | some f, some p =>
    if s.redirects.any (·.failed == f) ∨ s.cstate core ≠ 0 then s
    else
      let x := s.core f
      let s := { s with redirects := ⟨f, core, x.wrLo, x.wrHi, (s.part p).rrOff⟩ :: s.redirects }
      let i := s.imageOf (s.part p).imageAt
      let s := s.copyQueues i f (s.coreSec i x.logical)
      let c := s.core core
      let s := s.setCore core (Core.restart { c with
        slots := c.slots.fill 256 256 x.shadow.get
        ctxs := rerunContexts x (s.part p).inStep c.ctxs
        rerunLeft := rerunRecords x })
      (s.count (0x3100 + p) 0x0C 32 1).settlePower
  | _, _ => s

/-- RERUN_START. -/
def execRerunStart (core : CoreId) (s : State) : Host.Outcome State Fault Refusal := .next (s.rerunStart core)

/-- A write of RETURN (R212.09): 1 marks a FENCED core to rejoin; 0 has no effect (log 38). -/
def returnAct (core v : Nat) : Act := fun s =>
  if s.cstate core ≠ 1 then (s, stWrongState)
  else if 1 < v then (s, stRange)
  else if v = 1 then ((s.setObj (0x3010 + core) 1 2).setObj (0x3010 + core) 9 1, stOk)
  else (s, stOk)

/-- RETURN. -/
def execCoreReturn (m : Master) (core : CoreId) (v : Byte) (s : State) : Host.Outcome State Fault Refusal :=
  .next (s.act m (0x3010 + core) 9 (returnAct core v.toNat))

end Sys2Proof.Machine
end

