-- ==== Sys2Proof/Machine/Sram.lean ====
section
/-! DEFINITION. Scratchpads at rest: the holding buffer (R127), wipes and zeroing (R133–R136), SRAM scrub (R138), retention
(R130, R131) and the core PLLs (R385). -/

namespace Sys2Proof.Machine

/-! ### The holding buffer (R127, R129) -/

/-- HOLD: a starved write of a word moves to the holding buffer, when it has room for one of its 2,048 words; a word held
for the same bank is written back first. -/
def State.holdWord (s : State) (core word : Nat) (data : Granule) : State :=
  let s := s.flushHeld core word word
  let l := (s.core core).held
  if 2048 ≤ l.length then s
  else
    let s := (s.setHeld core (l ++ [⟨word, data⟩])).countSat (0x3400 + core) 4 32 1
    let s := s.setObj (0x3400 + core) 6 (max (s.obj (0x3400 + core) 6) (l.length + 1))
    { s with sramBad := s.sramBad.clear (winOf core / 32 + 2 * word) (winOf core / 32 + 2 * word + 2) }

/-- HOLD. -/
def execHold (core : CoreId) (word : WordIdx) (data : Granule) (s : State) : Host.Outcome State Fault Refusal :=
  .next (s.holdWord core word data)

/-- HOLD_WRITEBACK: the oldest held word is written to its bank. -/
def State.holdWriteback (s : State) (core : Nat) : State :=
  match (s.core core).held with
  | [] => s
  | h :: rest => ({ s with mem := putHeld core s.mem [h] }.setHeld core rest).portWrites core 1

/-- HOLD_WRITEBACK. -/
def execHoldWriteback (core : CoreId) (s : State) : Host.Outcome State Fault Refusal := .next (s.holdWriteback core)

/-! ### Wipes and zeroing -/

/-- VAULT_WIPE. -/
def execVaultWipe (core : CoreId) (trigger : WipeTrigger) (s : State) : Host.Outcome State Fault Refusal :=
  .next ((s.wakeQuad (core / 4)).wipeVault core trigger)

/-- SCRATCHPAD_ZEROING. -/
def execScratchpadZeroing (core : CoreId) (s : State) : Host.Outcome State Fault Refusal :=
  .next ((s.wakeQuad (core / 4)).zeroScratch core)

/-! ### SRAM scrub (R138) -/

/-- Scratchpad words (R136). -/
def scratchWords : Nat := 1572864

/-- A scratchpad word found uncorrectable: counted, marked, logged under the quadrant (R138, R425). Which half holds the
error is not told: both are marked (log 39). -/
def State.sramFault (s : State) (core word : Nat) : State :=
  let a := winOf core + 64 * word
  let s := { s with sramBad := (s.sramBad.set (a / 32) 1).set (a / 32 + 1) 1 }
  (s.countSat (0x3400 + core) 9 32 1).logEvent (0x10 + core / 4) 0x0202 (a + core * 2 ^ 44)

/-- SRAM_SCRUB: the next word of an ACTIVE scratchpad; a corrected word is counted. -/
def State.scrubStep (s : State) (core : Nat) (found : EccFind) : State :=
  if s.obj (0x3490 + core / 4) 3 ≠ 0 ∨ s.obj 0x2101 3 = 0 then s
  else
    let w := (s.core core).scrub
    let s := match found with
      | .clean => s
      | .corrected => s.countSat (0x3400 + core) 8 32 1
      | .uncorrectable => s.sramFault core w
    let s := s.setCore core { s.core core with scrub := (w + 1) % scratchWords }
    if w + 1 < scratchWords then s else s.passDone 0

/-- SRAM_SCRUB. -/
def execSramScrub (core : CoreId) (found : EccFind) (s : State) : Host.Outcome State Fault Refusal := .next (s.scrubStep core found)

/-! ### Retention (R130–R132) -/

/-- Cores of a quadrant. -/
def quadOf (q : Nat) : List Nat := [4 * q, 4 * q + 1, 4 * q + 2, 4 * q + 3]

/-- May a quadrant enter RETAINED (R130)? That it has been idle for the delay is what the command says. -/
def State.mayRetain (s : State) (q : Nat) : Bool :=
  s.obj (0x3490 + q) 1 == 1 && s.obj (0x3490 + q) 3 == 0
    && (quadOf q).all fun c => !(s.core c).clock && (s.core c).held.isEmpty && match s.partOf c with
      | some p => !s.stepping p
      | none => true

/-- RETENTION_ENTRY. -/
def execRetentionEntry (q : QuadId) (s : State) : Host.Outcome State Fault Refusal :=
  .next (if s.mayRetain q then s.setObj (0x3490 + q.val) 3 1 else s)

/-- RETENTION_WAKE. -/
def execRetentionWake (q : QuadId) (s : State) : Host.Outcome State Fault Refusal := .next (s.wakeQuad q)

/-- A quadrant is ordered to OFF: vaults wiped first, then its content is lost; it reads zero after power-up (R130, R133,
R136). -/
def State.quadOff (s : State) (q : Nat) : State :=
  (s.each (quadOf q) fun s c => ((s.wipeVault c .off).zeroScratch c)).setObj (0x3490 + q) 3 2

/-! ### Core PLLs (R385) -/

/-- PLL_LOCK: a starting PLL locks; the clock of a RUNNING partition's core starts, its ramp at 0 (R390). -/
def State.pllLock (s : State) (core : Nat) : State :=
  let c := s.core core
  if !c.pllStarting then s
  else
    let run := s.cstate core == 0 && match s.partOf core with
      | some p => s.stepping p
      | none => false
    (s.setCore core (if run && !c.clock && !c.gated then { c with pll := true, pllStarting := false, clock := true, ramp := 0 }
      else { c with pll := true, pllStarting := false })).settlePower

/-- PLL_LOCK. -/
def execPllLock (core : CoreId) (s : State) : Host.Outcome State Fault Refusal := .next (s.pllLock core)

/-- PLL_STOP: the core gated outside a step, or in no partition. -/
def State.pllStop (s : State) (core : Nat) : State :=
  let c := s.core core
  let idle := match s.partOf core with
    | some p => !s.stepping p
    | none => true
  if c.pll && !c.clock && idle then s.setCore core { c with pll := false, gated := false } else s

/-- PLL_STOP. -/
def execPllStop (core : CoreId) (s : State) : Host.Outcome State Fault Refusal := .next (s.pllStop core)

end Sys2Proof.Machine
end

