-- ==== Sys2Proof/Machine/Power.lean ====
section
/-! DEFINITION. Power (R379–R392): power states and TARGET, the limits, issue duty, the issue ramp, the fans. -/

namespace Sys2Proof.Machine

/-! ### What the board is told (R384, R387) -/

/-- Is a partition RUNNING? -/
def State.anyRunning (s : State) : Bool := (List.range 4).any fun p => s.pstate p == 3

/-- VCORE_REQ: the highest point requested by any partition or in force in a RUNNING one. -/
def State.vcoreReq (s : State) : Nat :=
  (List.range 4).foldl (fun a p => max a (max (pointMv (s.obj (0x2011 + p) 1))
    (if s.pstate p = 3 then pointMv (s.obj (0x2011 + p) 2) else 0))) 0

/-- ALERT_N is driven low (R384); during PORST_N it is high-impedance (R438). -/
def State.alertLow (s : State) : Bool :=
  match s.bootSt with
  | .down => false
  | .hush => s.wakeDue
  | _ => decide (s.obj 0x2010 5 < s.vcoreReq) || s.obj 0x2020 6 != 0 || s.tripLow

/-! ### The effective limit (R388) -/

/-- The inlet limit in W, from the inlet estimate in 0.01 °C. -/
def inletLimit (est : Int) : Nat := max 150 (420 - 10 * ((est - (if Config.gradeX then 4500 else 3500)) / 100).toNat)

/-- The fan limit, by the mask of failed groups. -/
def fanLimit (mask : Nat) : Nat := if mask = 0 then 420 else if mask = 3 then 150 else 280

/-- Active caps: the limits below 420 W, and the thermal one. -/
def capsOf (user inlet fan : Nat) (hot : Bool) : Nat :=
  (if user < 420 then 1 else 0) + (if inlet < 420 then 2 else 0) + (if fan < 420 then 4 else 0) + (if hot then 8 else 0)

/-- Recompute the effective limit and the active caps; a change is logged (R405; log 29). -/
def State.settleLimits (s : State) (hot : Bool) : State :=
  let inlet := inletLimit (signedOf 16 (s.obj 0x2303 1))
  let fan := fanLimit (s.obj 0x2020 6)
  let lim := min (s.obj 0x2010 1) (min inlet fan)
  let caps := capsOf (s.obj 0x2010 1) inlet fan hot
  if lim = s.obj 0x2010 2 ∧ caps = s.obj 0x2010 3 then s
  else ((s.setObj 0x2010 2 lim).setObj 0x2010 3 caps).logEvent 0x41 0x0C02 (caps + lim * 2 ^ 16)

/-- Is the thermal cap active (R391)? -/
def State.hotCap (s : State) : Bool := bitAt (s.obj 0x2010 3) 3

/-! ### Power states (R379–R382) -/

/-- A quadrant at entry to REST (R130). -/
def State.quadRest (s : State) (q : Nat) : State :=
  if s.obj (0x3490 + q) 3 = 2 then s
  else if s.obj (0x3490 + q) 1 = 1 then s.setObj (0x3490 + q) 3 1
  else s.quadOff q

/-- A core's clock and PLL stop. -/
def Core.stopClock (c : Core) : Core := { c with clock := false, gated := false, pll := false, pllStarting := false }

/-- Entry to REST, in the order of R381. -/
def State.enterRest (s : State) : State :=
  let s := s.connList.foldl State.connHandOver s
  let s := s.each (List.range 8) State.portOff
  let s := { s with selfRefresh := true }
  let s := s.each (List.range 4) State.quadRest
  s.each (List.range 16) fun s c => s.setCore c (s.core c).stopClock

/-- IDLE is reached: bulk memory available, enabled ports lit (R382). -/
def State.reachIdle (s : State) : State :=
  let s := { s with selfRefresh := false }.setObj 0x2000 1 2
  s.each (List.range 8) State.portStart

/-- Entry to HUSH: quadrants OFF, the always-on store written, every rail but VDD_AON given up (R130, R382, R383). -/
def State.enterHush (s : State) : State :=
  let s := s.each (List.range 4) fun s q => if s.obj (0x3490 + q) 3 = 2 then s else s.quadOff q
  let s := s.logEvent 0x41 0x0C01 1
  { s with
    bootSt := .hush, wakeDue := false, serverUp := false
    store := some (s.obj 0x1100 1, s.obj 0x1100 2, s.obj 0x1100 4, s.obj 0x2000 3) }

/-- A write of TARGET (R380). A boot that goes on to IDLE counts as a transition in progress (log 44). -/
def targetAct (v : Nat) : Act := fun s =>
  let st := s.obj 0x2000 1
  if s.obj 0x2000 5 ≠ 0 ∨ s.bootSt = .restBooting then (s, stWrongState)
  else if 2 < v then (s, stRange)
  else if v = 2 then
    if st ≠ 1 then (s, stOk) else if s.bootSt ≠ .up then (s, stWrongState) else (s.setObj 0x2000 5 2, stOk)
  else if v = 1 then
    if st = 1 then (s, stOk) else if s.anyRunning then (s, stWrongState) else (s.enterRest.setObj 0x2000 5 1, stOk)
  else if st ≠ 1 ∨ (List.range 4).any (fun p => s.pstate p != 0) then (s, stWrongState)
  else (s.enterHush, stOk)

/-- TARGET_HUSH. -/
def execTargetHush (m : Master) (s : State) : Host.Outcome State Fault Refusal := .next (s.act m 0x2000 2 (targetAct 0))
/-- TARGET_REST. -/
def execTargetRest (m : Master) (s : State) : Host.Outcome State Fault Refusal := .next (s.act m 0x2000 2 (targetAct 1))
/-- TARGET_IDLE. -/
def execTargetIdle (m : Master) (s : State) : Host.Outcome State Fault Refusal := .next (s.act m 0x2000 2 (targetAct 2))

/-- TRANSITION_COMPLETE: REST or IDLE is reached, and logged. -/
def State.transitionDone (s : State) : State :=
  let t := s.obj 0x2000 5
  if t = 0 then s
  else
    let old := s.obj 0x2000 1
    let s := s.setObj 0x2000 5 0
    ((if t = 2 then s.reachIdle else s.setObj 0x2000 1 1).logEvent 0x41 0x0C01 (old + t * 256))

/-- TRANSITION_COMPLETE. -/
def execTransitionComplete (s : State) : Host.Outcome State Fault Refusal := .next s.transitionDone

/-- WAKE_TIMER: in HUSH the timer expires, unless it is disabled (R380, R384). -/
def execWakeTimer (s : State) : Host.Outcome State Fault Refusal :=
  .next (match s.bootSt, s.store with
    | .hush, some (_, _, _, t) => if t = 0 then s else { s with wakeDue := true }
    | _, _ => s)

/-! ### Operating points and SHARE of duty (R386, R389) -/

/-- A write of a requested point: at once when the partition is not RUNNING. -/
def pointAct (p v : Nat) : Act := fun s =>
  if 2 < v then (s, stRange)
  else
    let s := s.setObj (0x2011 + p) 1 v
    (if s.pstate p = 3 then s else s.takePoint p false, stOk)

/-- D after one period: `high` when the average is above the limit, `low` when below 95 % of it. -/
def dutyNext (high low : Bool) (d : Nat) : Nat := if high then max 4 (d - 1) else if low then min 16 (d + 1) else d

/-- D of a RUNNING partition; a fall takes effect on its cores at once, a rise waits for the governor (R390). -/
def State.setDuty (s : State) (p d : Nat) : State :=
  let s := s.setObj (0x2011 + p) 3 d
  let s := s.setPart p { s.part p with fullDuty := (s.part p).fullDuty && d == 16 }
  s.each (s.coresOf p) fun s c => s.setCore c { s.core c with duty := min (s.core c).duty d }

/-- DUTY_ADJUST, each 100 µs: `avg` is the 1 ms average of package power in mW. A period counts towards the 10 ms at the
least duty when D stood at 4 throughout it. -/
def State.dutyAdjust (s : State) (avg : Nat) : State :=
  let limit := s.obj 0x2010 2 * 1000
  let high := decide (limit < avg) || s.hotCap
  let low := !s.hotCap && decide (avg * 100 < limit * 95)
  let run := (List.range 4).filter fun p => s.pstate p == 3
  let least := run.all fun p => s.obj (0x2011 + p) 3 == 4
  let s := s.each run fun s p => s.setDuty p (dutyNext high low (s.obj (0x2011 + p) 3))
  let s := if run.any fun p => decide (s.obj (0x2011 + p) 3 < 16) then s.count 0x2010 6 32 1 else s
  if high && !run.isEmpty && least then
    if s.dutyLow + 1 < 100 then { s with dutyLow := s.dutyLow + 1 }
    else { s with dutyLow := 0, dutyDue := s.dutyDue ++ run.filter (· ∉ s.dutyDue) }
  else { s with dutyLow := 0 }

/-- DUTY_ADJUST. -/
def execDutyAdjust (avg : Nat) (s : State) : Host.Outcome State Fault Refusal := .next (s.dutyAdjust avg)

/-- D of a core's partition. -/
def State.dutyOf (s : State) (c : Nat) : Nat :=
  match s.partOf c with
  | some p => s.obj (0x2011 + p) 3
  | none => 16

/-- Does a core wait for a grant (R390)? -/
def State.waitsGrant (s : State) (c : Nat) : Bool :=
  (s.core c).clock && (decide ((s.core c).ramp < 16) || decide ((s.core c).duty < s.dutyOf c))

/-- GOVERNOR_GRANT: one core, in rotation after the one served last, gains a step of its ramp, else of its duty. -/
def State.grantRamp (s : State) : State :=
  match ((List.range 16).map fun i => (s.granted + 1 + i) % 16).find? s.waitsGrant with
  | none => s
  | some c =>
    let x := s.core c
    State.setCore { s with granted := c } c (if x.ramp < 16 then { x with ramp := x.ramp + 1 } else { x with duty := x.duty + 1 })

/-- GOVERNOR_GRANT. -/
def execGovernorGrant (s : State) : Host.Outcome State Fault Refusal := .next s.grantRamp

/-! ### Fans (R392) -/

/-- Fan duty in % by the hottest die sensor in 0.01 °C, rounded down (log 45). -/
def fanCurve (t : Int) : Nat := if t ≤ 7000 then 30 else if 9500 ≤ t then 100 else 30 + (70 * (t - 7000) / 2500).toNat

/-- The hottest of die sensors T0–T13. -/
def State.hottest (s : State) : Int := (List.range 14).foldl (fun a k => max a (signedOf 16 (s.obj 0x2300 (k + 1)))) (-32768)

/-- Both fan duties. -/
def State.setFans (s : State) : State :=
  let d := max (s.obj 0x2020 5) (fanCurve s.hottest)
  let f := s.obj 0x2020 6
  (s.setObj 0x2020 3 (if bitAt f 1 then 100 else d)).setObj 0x2020 4 (if bitAt f 0 then 100 else d)

/-- A group fails or clears: group in [7:0], failed in [8] (R405; log 29). -/
def State.fanSet (s : State) (g : Nat) (failed : Bool) : State :=
  let f := s.obj 0x2020 6
  if bitAt f g = failed then s
  else
    let s := s.setObj 0x2020 6 (if failed then f + 2 ^ g else f - 2 ^ g)
    ((s.setFans).logEvent 0x41 0x0C03 (g + (if failed then 256 else 0))).settleLimits s.hotCap

/-- FAN_FAIL: while its duty is above 20 %. -/
def execFanFail (g : Fin 2) (s : State) : Host.Outcome State Fault Refusal :=
  .next (if s.clockRuns ∧ 20 < s.obj 0x2020 (3 + g.val) then s.fanSet g.val true else s)
/-- FAN_CLEAR. -/
def execFanClear (g : Fin 2) (s : State) : Host.Outcome State Fault Refusal := .next (if s.clockRuns then s.fanSet g.val false else s)

end Sys2Proof.Machine
end

