-- ==== Sys2Proof/Machine/Reset.lean ====
section
/-! DEFINITION. Resets (R408, R412, R434), THERMTRIP (R391), the life cycle (R310–R315), boot (R39, R316, R317, R409–R414),
the tamper alarm (R340) and the ends of SPDM sessions (R323). -/

namespace Sys2Proof.Machine

/-! ### The ends of secrets (R304, R313, R323, R340) -/

/-- A bound session ends: its partition's vaults wiped (none when a wipe of another trigger runs already), RS and GRANT
zeroed, its job key slots revoked, the partition HELD, logged with partition and cause (R323; log 29). -/
def State.endSession (s : State) (n cause : Nat) (t : Option WipeTrigger) : State :=
  match (s.spdm.get n).part with
  | none => { s with spdm := s.spdm.set n {} }
  | some p =>
    let s := match t with
      | some t => s.each (s.coresOf p) fun s c => s.wipeVault c t
      | none => s
    let s := s.clearKeySlots fun k => k ∈ (s.spdm.get n).slots
    let s := (s.setObj (0x1230 + p) 5 0).setObj (0x1230 + p) 6 0
    let s := s.setPart p { s.part p with rs := none, bound := none }
    (State.enterHeld { s with spdm := s.spdm.set n {} } p 0).logEvent 0x60 0x0A06 (p + cause * 256)

/-- Every SPDM session ends, every job key slot is cleared. Causes are numbered in the order of R323. -/
def State.endSecrets (s : State) (cause : Nat) : State :=
  let s := s.each (List.range 8) fun s n => s.endSession n cause none
  s.clearKeySlots fun _ => true

/-- Wipe the vaults of every core. -/
def State.wipeAll (s : State) (t : WipeTrigger) : State := s.each (List.range 16) fun s c => (s.wakeQuad (c / 4)).wipeVault c t

/-! ### What a reset keeps (R412) -/

/-- Every owner epoch advances; what the dictionary kept for a master goes (R354). -/
def State.newMasters (s : State) : Tab masterReset :=
  let t := (s.masters.entries.map (·.1)).foldl (fun (t : Tab masterReset) id => t.set id { epoch := (t.get id).epoch }) s.masters
  t.modify allOwners fun x => { x with epoch := x.epoch + 1 }

/-- Registers that live in fuses or flash: life cycle, rollback counters, calibration, EPOCH. -/
def fusedObj (n : Nat) : Bool :=
  n == objKey 0x1200 1 || n == objKey 0x1200 5 || (objKey 0x1210 1 ≤ n && n ≤ objKey 0x1210 4) || n == objKey 0x2200 1
    || n == objKey 0x2200 4 || n == objKey 0x4200 0x0A

/-- Registers that WARM_RST_N keeps beside those marked: the slab map, regions, fronts, NODE, the device clock, the running
images. -/
def warmObj (n : Nat) : Bool :=
  let i := n / 256
  objWarm n || fusedObj n || i == 0x3410 || (0x3420 ≤ i && i < 0x3460) || i == 0x3460 || n == objKey 0x4200 1 || i == 0x40A0
    || (objKey 0x1210 5 ≤ n && n ≤ objKey 0x1210 9)

/-- Connections are closed as at hand-over (R283, R412). -/
def State.closeAll (s : State) : State := s.connList.foldl State.connHandOver s

/-- What both resets keep: the queue, fuses, flash, the persistent log, epochs, pins; SEQ goes on from the end of the last
block reserved (R424). Records that wait for flash are still written: only the loss of power loses them (R423). -/
def State.resetBase (s : State) : State :=
  { State.reset with
    pending := s.pending, freeCtr := s.freeCtr, out := s.out
    masters := s.newMasters
    plog := s.plog, pwait := s.pwait, seqNext := s.seqEnd, seqEnd := s.seqEnd
    flash := s.flash, member := s.member, network := s.network, erases := s.erases
    intentRows := s.intentRows, stateRows := s.stateRows, keysGone := s.keysGone
    pwrGood := s.pwrGood, bootCause := s.bootCause
    chain := { daisyIn := s.chain.daisyIn } }

/-- PORST_N asserted: all but fuses and flash at reset values; EPOCH advances (R305, R412; log 9). -/
def State.porst (s : State) : State :=
  let s := s.closeAll
  let e := s.obj 0x4200 0x0A
  { s.resetBase with objs := s.objs.keep fusedObj }.setObj 0x4200 0x0A ((e + 1) % 65536)

/-- A reset with its cause recorded (R413). -/
def State.porstFor (s : State) (cause : Nat) : State := { s.porst with bootCause := cause }

/-- A region of a sealed partition is disabled and zeroed (R412). -/
def State.dropRegion (s : State) (r : Nat) : State :=
  let g := s.region r
  s.putRegion r g { g with size := 0, attr := withXts g.attr false }

/-- WARM_RST_N asserted (R412). -/
def State.warmReset (s : State) : State :=
  let s := s.closeAll
  let s := s.each ((List.range 64).filter fun r => decide (0 < (s.region r).size) && decide ((s.region r).owner < 4)
    && s.isSealed (s.region r).owner) State.dropRegion
  { s.resetBase with
    objs := s.objs.keep warmObj
    mem := s.mem.clear 0 0x80000000
    bulkBad := s.bulkBad, zeroJobs := s.zeroJobs
    log := s.log, msCount := s.msCount, msIndex := s.msIndex, gapDue := s.gapDue
    accepted := s.accepted, onChipHash := s.onChipHash
    selfRefresh := true
    bootCause := 2
    chain := { daisyIn := s.chain.daisyIn, daisyOut := s.chain.daisyOut } }

/-! ### Reset pins and rails (R408, R412, R433, R434, R438) -/

/-- PORST_N, low for 10 µs: it clears the always-on store; a cause recorded before it stands, but for a warm reset's. -/
def State.porstPin (s : State) : State :=
  s.porstFor (if s.bootSt = .tripped ∨ (s.bootSt = .down ∧ s.bootCause ≠ 2) then s.bootCause else 1)

/-- PORST_N. -/
def execPorstN (s : State) : Host.Outcome State Fault Refusal := .next s.porstPin

/-- WARM_RST_N: ignored before REST is reached, in HUSH and after THERMTRIP. -/
def execWarmRstN (s : State) : Host.Outcome State Fault Refusal :=
  .next (if s.bootSt = .down ∨ s.bootSt = .hush ∨ s.bootSt = .tripped then s else s.warmReset)

/-- PWR_GOOD falls: as PORST_N, but for HUSH; with the power go the records not yet in flash (R423). -/
def State.pwrFell (s : State) : State := ({ s with pwait := [] } : State).porstFor (if s.bootSt = .tripped then s.bootCause else 5)

/-- Return from HUSH: as PORST_N, with slot, pod and polarity restored from the store and the wake cause reported (R383). -/
def State.wakeHush (s : State) (slot pod pol : Nat) : State :=
  let cause := if s.wakeDue then 2 else 1
  let s := { s with pwait := [] }.porstFor 3
  let s := ((s.setObj 0x1100 1 slot).setObj 0x1100 2 pod).setObj 0x1100 4 pol
  (if slot = 0xFF then s else (s.setObj 0x1100 3 (pod * 64 + slot)).setObj 0x4200 1 (pod * 64 + slot)).setObj 0x2000 4 cause

/-- PWR_GOOD: a rising edge starts the boot or wakes from HUSH. -/
def State.pwrGoodPin (s : State) (level : Bool) : State :=
  if level = s.pwrGood then s
  else if level then
    let s := { s with pwrGood := true }
    match s.bootSt, s.store with
    | .hush, some (slot, pod, pol, _) => s.wakeHush slot pod pol
    | _, _ => s
  else if s.bootSt = .hush then { s with pwrGood := false }
  else { s.pwrFell with pwrGood := false }

/-- PWR_GOOD. -/
def execPwrGood (level : Bool) (s : State) : Host.Outcome State Fault Refusal := .next (s.pwrGoodPin level)

/-- RAIL_UNDERVOLTAGE: any rail of R431 but the last, VDD_AON, while PWR_GOOD is high; in HUSH rails may be removed. -/
def execRailUndervoltage (rail : Fin 9) (s : State) : Host.Outcome State Fault Refusal :=
  .next (if rail.val = 8 ∨ !s.pwrGood ∨ s.bootSt = .hush then s else s.pwrFell)

/-- THERMTRIP (R391): clocks stop, lasers go off, THERMTRIP_N falls, the event is logged; the state of the device is lost
(R427) but for its logs. -/
def State.trip (s : State) (sensor : Nat) (t : Int) : State :=
  if t < 11500 ∨ !s.clockRuns then s
  else
    let s := s.logEvent 0x41 0x0C04 (sensor + fieldOf 16 t * 2 ^ 16)
    { s.porst with
      objs := s.objs, masters := s.masters, log := s.log, pwait := s.pwait, seqNext := s.seqNext
      msCount := s.msCount, msIndex := s.msIndex, out := s.out, bootSt := .tripped, tripLow := true, bootCause := 6 }

/-- THERMTRIP. -/
def execThermtrip (sensor : Fin 14) (reading : Int) (s : State) : Host.Outcome State Fault Refusal := .next (s.trip sensor.val reading)

/-! ### Life cycle (R310–R315) -/

/-- STATE of the state rows burned (R311, R315). -/
def lifeState (rows : Nat) : Nat :=
  if bitAt rows 3 then 4 else if bitAt rows 2 then 3 else if bitAt rows 1 then 2 else if bitAt rows 0 then 1 else 0

/-- Rows burned, of a mask of four. -/
def rowCount (rows : Nat) : Nat := ((List.range 4).filter (bitAt rows)).length

/-- The pair of rows that a change to a state uses (R312). -/
def rowOf (target : Nat) : Nat := target - 1

/-- A legal transition (R311). -/
def lifeStep (old new : Nat) : Bool := (new == 4 && decide (old < 4)) || (decide (old < 3) && new == old + 1)

/-- The token's fields and signature (R312): serial number, target, kind, reserved bits. -/
def State.tokenOk (s : State) (old new : Nat) : Bool :=
  let t := s.obj 0x1200 2
  new == 4
    || (fieldAt t 0 128 == s.obj 0x1000 1 && fieldAt t 128 8 == new && fieldAt t 136 8 == (if old = 2 then 2 else 1)
        && fieldAt t 144 1136 == 0
        && Config.ecdsaOk Config.lifeCycleKey (Config.sha384 (bytesOf 160 t)) (BitVec.ofNat 768 (fieldAt t 1280 768)))

/-- Burn the intent row of a change. -/
def State.burnIntent (s : State) (new : Nat) : State :=
  let rows := s.intentRows ||| 2 ^ rowOf new
  State.setObj { s with intentRows := rows } 0x1200 5 (rowCount rows)

/-- Burn the state row of a change; a change to SCRAPPED burns the key fuse block out first (R313). -/
def State.burnState (s : State) (new : Nat) : State :=
  let rows := s.stateRows ||| 2 ^ rowOf new
  State.setObj { s with stateRows := rows, keysGone := s.keysGone || new == 4 } 0x1200 1 (lifeState rows)

/-- A write of REQUEST. `burnOk` says that the state row reads back; the intent row stands either way, and the change is
completed at the next boot (R315; log 46). -/
def requestAct (target : Nat) (burnOk : Bool) : Act := fun s =>
  let old := s.obj 0x1200 1
  if (List.range 4).any fun p => s.pstate p != 0 then (s, stWrongState)
  else if !lifeStep old target then (s, stRange)
  else if !s.tokenOk old target then (s.setObj 0x1200 4 1, stOk)
  else
    let s := (((s.setObj 0x1200 4 0).burnIntent target).wipeAll .lifeCycle).endSecrets 4
    if burnOk then (((s.burnState target).logEvent 0x60 0x0A01 (old + target * 256)).porstFor 4, stOk)
    else (s.setObj 0x1200 4 2, stOk)

/-- REQUEST. -/
def execRequest (m : Master) (target : Byte) (burnOk : Bool) (s : State) : Host.Outcome State Fault Refusal :=
  .next (s.act m 0x1200 3 (requestAct target.toNat burnOk))

/-- Every change whose intent row stands without its state row is carried forward at boot, in the order of the states
(R314). -/
def State.carryForward (s : State) : State :=
  s.each ((List.range 4).filter fun k => bitAt s.intentRows k && !bitAt s.stateRows k) fun s k =>
    (s.burnState (k + 1)).logEvent 0x60 0x0A02 (k + 1)

/-! ### Boot images (R316, R317, R407) -/

/-- Flash area of a class's copy: offset and size. -/
def copyArea (cls copy : Nat) : Nat × Nat :=
  match cls with
  | 1 => (0x400000 * copy, 0x400000)
  | 2 => (0x800000 + 0x800000 * copy, 0x800000)
  | 3 => (0x1800000 + 0x200000 * copy, 0x200000)
  | _ => (0x1C00000 + 0x200000 * copy, 0x200000)

def State.flashBytes (s : State) (a n : Nat) : List Byte := (List.range n).map fun i => s.flash.get (a + i)

/-- The header of a copy. -/
def State.copyHeader (s : State) (cls copy : Nat) : Nat := natOf (s.flashBytes (copyArea cls copy).1 512)

/-- Is every reserved bit of a header clear? -/
def bootReservedOk (w : Nat) : Bool :=
  fieldAt w 36 4 == 0 && fieldAt w 48 16 == 0 && fieldAt w 96 32 == 0 && fieldAt w 1288 248 == 0 && fieldAt w 2304 1792 == 0

/-- The signing key of an image: the fused firmware key, or the fused test key in TEST. -/
def State.bootKeyOk (s : State) (pub : Nat) : Bool :=
  let h := Config.sha384 (bytesOf 97 pub)
  h == Config.firmwareKeyFpr || (s.obj 0x1200 1 == 0 && h == Config.testKeyFpr)

/-- RESULT of R317 for a copy, coded as 0x5060.06: 0 accepted, 4 refused for its SVN alone, 3 refused otherwise. -/
def State.copyResult (s : State) (cls copy : Nat) : Nat :=
  let a := copyArea cls copy
  let w := s.copyHeader cls copy
  let len := fieldAt w 64 32
  let ok := fieldAt w 0 32 == 0x544F4F42 && fieldAt w 32 4 == cls && bootReservedOk w && decide (512 + len ≤ a.2)
    && s.bootKeyOk (fieldAt w 512 776)
    && Config.ecdsaOk (BitVec.ofNat 776 (fieldAt w 512 776)) (Config.sha384 (s.flashBytes a.1 192)) (BitVec.ofNat 768 (fieldAt w 1536 768))
    && Config.sha384 (s.flashBytes (a.1 + 512) len) == BitVec.ofNat 384 (fieldAt w 128 384)
  if !ok then 3 else if fieldAt w 40 8 < s.obj 0x1210 cls then 4 else 0

/-- A refused copy is logged (R317, R342; log 29). -/
def State.copyRefused (s : State) (cls copy r : Nat) : State :=
  if r = 4 then s.logEvent 0x60 0x0A04 (cls + copy * 2 ^ 8 + fieldAt (s.copyHeader cls copy) 40 8 * 2 ^ 16 + s.obj 0x1210 cls * 2 ^ 24)
  else s.logEvent 0x60 0x0A03 (cls + copy * 2 ^ 8)

/-- The accepted copy of a class runs: its SVN, its copy bit, its HASH (R318, R319). -/
def State.runCopy (s : State) (cls copy : Nat) : State :=
  let w := s.copyHeader cls copy
  let s := { s with accepted := s.accepted.set (2 * cls + copy) 1, onChipHash := s.onChipHash.set cls (fieldAt w 128 384) }
  (s.setObj 0x1210 (4 + cls) (fieldAt w 40 8)).setObj 0x1210 9 (s.obj 0x1210 9 + copy * 2 ^ (cls - 1))

/-- Copy A, then copy B. -/
def State.loadClass (s : State) (cls : Nat) : State :=
  let a := s.copyResult cls 0
  if a = 0 then s.runCopy cls 0
  else
    let s := s.copyRefused cls 0 a
    let b := s.copyResult cls 1
    if b = 0 then s.runCopy cls 1 else s.copyRefused cls 1 b

/-- Was a copy of the class accepted at this boot? -/
def State.bootClassOk (s : State) (cls : Nat) : Bool := s.accepted.get (2 * cls) == 1 || s.accepted.get (2 * cls + 1) == 1

/-- Class 1 runs before the others are read (R409). -/
def State.loadImages (s : State) : State :=
  let s := s.loadClass 1
  if s.bootClassOk 1 then s.each [2, 3, 4] State.loadClass else s

/-! ### BOOT and BOOT_DONE (R39, R309, R409, R410, R413, R414) -/

/-- Component kind and position that an origin word must carry (R35, R36). -/
def originKind (i : Nat) : Nat × Nat :=
  if i = 0x1010 then (3, 0) else if i ≤ 0x1014 then (1, i - 0x1011) else if i ≤ 0x1018 then (2, i - 0x1015) else (4, i - 0x1019)

/-- The first origin word that fails. -/
def State.badOrigin (s : State) : Option Nat :=
  ((List.range 13).map (0x1010 + ·)).find? fun i =>
    Config.originBad i || fieldAt (s.obj i 1) 88 4 != (originKind i).1 || fieldAt (s.obj i 1) 92 4 != (originKind i).2

/-- Link-local IPv6 address formed from the MAC address B, bytes in network order (R414; log 47). -/
def linkLocal (b : Nat) : Nat :=
  let m (i : Nat) : Byte := BitVec.ofNat 8 (b / 2 ^ (40 - 8 * i))
  natOf ([0xFE, 0x80, 0, 0, 0, 0, 0, 0, m 0 ^^^ 2, m 1, m 2, 0xFF, 0xFE, m 3, m 4, m 5] : List Byte)

/-- The values of object 0x1110 that boot sets. -/
def State.bootNetwork (s : State) : State :=
  match s.network with
  | some l => (l.zipIdx).foldl (fun s x => s.setObj 0x1110 (x.2 + 1) x.1) s
  | none => (((s.setObj 0x1110 1 6).setObj 0x1110 2 (linkLocal Config.macBase.toNat)).setObj 0x1110 3 64).setObj 0x1110 9 0

/-- A device that finds a membership record comes back as REJOIN. -/
def State.bootMember (s : State) : State :=
  match s.member with
  | some (job, _) => (s.setObj 0x3500 2 4).setObj 0x3500 1 job.toNat
  | none => s

/-- REST is reached: vaults wiped and scratchpads zeroed, the cause logged, the chain driver on; after HUSH DAISY_OUT rises. -/
def State.reachRest (s : State) (st : BootSt) : State :=
  let s := s.each (List.range 16) fun s c => (s.wipeVault c .reset).zeroScratch c
  let s := (s.bootNetwork.bootMember).logEvent 0x40 0x0D02 s.bootCause
  { s with
    bootSt := st, bootCause := 1, store := none
    chain := { s.chain with driverOn := true, biasOn := true, daisyOut := s.chain.daisyOut || (s.bootCause == 3 && s.obj 0x1100 1 != 0xFF) } }

/-- BOOT: the ROM brings the device to REST and decides whether it goes on. A warm reset re-checks the images on chip, which
nothing has changed. -/
def State.bootRom (s : State) : State :=
  if s.bootSt ≠ .down ∨ !s.pwrGood then s
  else
    let cause := s.bootCause
    let s := if cause = 2 then s else s.carryForward
    if s.obj 0x1200 1 = 4 then (s.reachRest .recoveryScrapped)
    else
      let s := if cause = 2 then s else s.loadImages
      if !([1, 2, 3, 4].all s.bootClassOk) then s.reachRest .recoveryImage
      else match s.badOrigin with
        | some i => (s.logEvent 0x60 0x0A09 i).reachRest .recoveryOrigin
        | none => s.reachRest .restBooting

/-- BOOT. -/
def execBoot (s : State) : Host.Outcome State Fault Refusal := .next s.bootRom

/-- BOOT_DONE: mode registers read, zeroing started, IDLE reached (R37, R409, R425). -/
def State.bootFinish (s : State) (ids : List Byte) (rest idle : Nat) : State :=
  if s.bootSt ≠ .restBooting then s
  else
    let s := (ids.zipIdx).foldl (fun s x => s.setObj (0x1020 + x.2 / 4) (x.2 % 4 + 1) x.1.toNat) s
    let s := { s with bootSt := .up }.reachIdle
    (s.logEvent 0x41 0x0C01 (1 + 2 * 256)).logEvent 0x40 0x0D01 (rest + idle * 2 ^ 32 + s.obj 0x1210 9 * 2 ^ 64)

/-- BOOT_DONE. -/
def execBootDone (ids : List Byte) (usToRest usToIdle : Word) (s : State) : Host.Outcome State Fault Refusal :=
  .next (s.bootFinish ids usToRest.toNat usToIdle.toNat)

/-- A write of 1 to object 0x1111. -/
def networkAct (v : Nat) : Act := fun s =>
  if v ≠ 1 then (s, stRange)
  else ({ s with network := some ([1, 2, 3, 4, 5, 6, 7, 8, 9].map fun k => s.obj 0x1110 k) }, stOk)

/-- NETWORK_RECORD_STORE. -/
def execNetworkRecordStore (m : Master) (v : Byte) (s : State) : Host.Outcome State Fault Refusal :=
  .next (s.act m 0x1111 0 (networkAct v.toNat))

/-! ### COMMIT (R318) -/

/-- A counter advances to the SVN of the running image. -/
def State.commitClass (s : State) (cls : Nat) : State := s.setObj 0x1210 cls (max (s.obj 0x1210 cls) (s.obj 0x1210 (4 + cls)))

/-- A write of COMMIT. -/
def commitAct (v : Nat) : Act := fun s =>
  if v = 0xFF then (s.each [1, 2, 3, 4] State.commitClass, stOk)
  else if 1 ≤ v ∧ v ≤ 4 then (s.commitClass v, stOk)
  else (s, stRange)

/-- COMMIT. -/
def execCommit (m : Master) (cls : Byte) (s : State) : Host.Outcome State Fault Refusal :=
  .next (s.act m 0x1210 0x0A (commitAct cls.toNat))

/-! ### The recovery service (R411) -/

/-- May the copy that 0x5060 names be rewritten? -/
def State.copyOpen (s : State) : Bool :=
  s.bootSt == .recoveryImage && decide (1 ≤ s.obj 0x5060 1) && decide (s.obj 0x5060 1 ≤ 4) && !s.bootClassOk (s.obj 0x5060 1)

/-- Fresh free values in a span of flash whose content is not stated. -/
def State.flashUnknown (s : State) (a n : Nat) : State :=
  { s with flash := s.flash.fill a n fun i => BitVec.ofNat 8 (Config.openValue (s.freeCtr + i)), freeCtr := s.freeCtr + n }

/-- CONTROL = 1: a failed erase leaves the area's content not stated. -/
def eraseAct (ok : Bool) : Act := fun s =>
  if !s.copyOpen then (s, stWrongState)
  else
    let a := copyArea (s.obj 0x5060 1) (s.obj 0x5060 2)
    if ok then (State.setObj { s with flash := s.flash.fill a.1 a.2 fun _ => 0xFF } 0x5060 6 0, stOk)
    else ((s.flashUnknown a.1 a.2).setObj 0x5060 6 2, stOk)

/-- ERASE. -/
def execErase (m : Master) (ok : Bool) (s : State) : Host.Outcome State Fault Refusal := .next (s.act m 0x5060 5 (eraseAct ok))

/-- A byte programmed; where the flash was not erased the result is not stated. -/
def State.programmed (s : State) (a : Nat) (data : List Byte) (i : Nat) : Byte :=
  if s.flash.get (a + i) = 0xFF then data.getD i 0 else BitVec.ofNat 8 (Config.openValue (s.freeCtr + i))

/-- A write of DATA, its segments joined. -/
def recoveryDataAct (data : List Byte) (ok : Bool) : Act := fun s =>
  let a := copyArea (s.obj 0x5060 1) (s.obj 0x5060 2)
  let off := s.obj 0x5060 3
  if !s.copyOpen then (s, stWrongState)
  else if data.length ≠ 1024 then (s, stLength)
  else if a.2 < off + 1024 then (s, stRange)
  else if !ok then ((s.flashUnknown (a.1 + off) 1024).setObj 0x5060 6 2, stOk)
  else
    let s' := { s with flash := s.flash.fill (a.1 + off) 1024 (s.programmed (a.1 + off) data), freeCtr := s.freeCtr + 1024 }
    ((s'.setObj 0x5060 6 0).setObj 0x5060 3 (off + 1024), stOk)

/-- DATA. -/
def execRecoveryData (m : Master) (data : List Byte) (ok : Bool) (s : State) : Host.Outcome State Fault Refusal :=
  .next (s.act m 0x5060 4 (recoveryDataAct data ok))

/-- CONTROL = 2. -/
def checkAct : Act := fun s =>
  if !s.copyOpen then (s, stWrongState) else (s.setObj 0x5060 6 (s.copyResult (s.obj 0x5060 1) (s.obj 0x5060 2)), stOk)

/-- CHECK. -/
def execRecoveryCheck (m : Master) (s : State) : Host.Outcome State Fault Refusal := .next (s.act m 0x5060 5 checkAct)

/-- CONTROL = 3: the effect of PORST_N. -/
def rebootAct : Act := fun s => if s.bootSt ≠ .recoveryImage then (s, stWrongState) else (s.porstFor 1, stOk)

/-- REBOOT. -/
def execReboot (m : Master) (s : State) : Host.Outcome State Fault Refusal := .next (s.act m 0x5060 5 rebootAct)

/-! ### TAMPER (R339–R341) -/

/-- Number of a tamper source. -/
def tamperNum : TamperSource → Nat
  | .supply => 1 | .clock => 2 | .temperature => 3 | .fuse => 4 | .selfCheck => 5

/-- A tamper alarm, in PROVISIONED, FIELD and RETURNED: secrets zeroed, every command aborted, vaults wiped, sealed
partitions dissolved with that wipe, others HELD, REST until PORST_N. -/
def State.tamperAlarm (s : State) (src : TamperSource) : State :=
  let l := s.obj 0x1200 1
  if l = 0 ∨ l = 4 ∨ !s.clockRuns then s
  else
    let s := (s.each (List.range 16) State.abortCore).wipeAll .tamper
    let s := s.endSecrets 5
    let s := s.each (List.range 4) fun s p =>
      if s.isSealed p then s.dissolvePart p none else if s.pstate p = 0 then s else s.enterHeld p 0
    let s := ((s.setObj 0x1260 1 (tamperNum src)).count 0x1260 2 32 1).setObj 0x1260 3 s.now
    let old := s.obj 0x2000 1
    let s := { (s.logEvent 0x60 0x0A05 (tamperNum src)).enterRest with bootSt := .tamperRest }
    let s := (s.setObj 0x2000 1 1).setObj 0x2000 5 0
    if old = 1 then s else s.logEvent 0x41 0x0C01 (old + 256)

/-- TAMPER. -/
def execTamper (src : TamperSource) (s : State) : Host.Outcome State Fault Refusal := .next (s.tamperAlarm src)

end Sys2Proof.Machine
end

