-- ==== Sys2Proof/Machine/Background.lean ====
section
/-! DEFINITION. Background work (R394–R401, R423), telemetry (R404, R327) and the calibration set (R402, R403). -/

namespace Sys2Proof.Machine

/-! ### Breath budgets (R394–R398): activity `a` is object 0x2101 + a -/

/-- Is an activity suspended (R396, R426)? -/
def State.suspended (s : State) (a : Nat) : Bool :=
  match a with
  | 0 => (List.range 4).all fun q => s.obj (0x3490 + q) 3 != 0
  | 1 => s.selfRefresh
  | 2 => s.selfRefresh
  | 3 => s.selfRefresh
  | 4 => s.spDown1 || (List.range 8).all fun p => s.lasers.get p == 0
  | _ => s.spDown1

/-- Core cycles of a breath period at an operating point (R386). -/
def cyclesAt (x : Nat) : Nat := if x = 0 then 75000 else if x = 1 then 110000 else 150000

/-- Amount of a resource per period, over all cores or channels (R394; log 49). -/
def State.breathAmount (s : State) (res : Nat) : Nat :=
  match res with
  | 0 => ((List.range 16).map fun c => 48 * match s.partOf c with
      | some p => cyclesAt (s.obj (0x2011 + p) 2)
      | none => cyclesAt 2).sum
  | 1 => 30720000
  | 2 => 30720000
  | _ => 100000

/-- The SHARE in force: `State.shares` holds it plus one once a period has begun with it (R396). -/
def State.shareNow (s : State) (a : Nat) : Nat :=
  if s.shares.get a = 0 then objReset (0x2101 + a) 3 else s.shares.get a - 1

/-- The period that ends: what an activity wanted, and how much of it found the resource busy. -/
def State.breathOne (s : State) (a wanted busy : Nat) : State :=
  let i := 0x2101 + a
  let budget := s.shareNow a * s.breathAmount (s.obj i 1) / 256
  let debt := if a < 2 then s.debts.get a else 0
  let allowed := min (budget + debt) (4 * budget)
  let used := if s.suspended a then 0 else min (wanted - busy) allowed
  let s := s.setObj i 4 used
  let s := if s.suspended a || decide (used < budget) || budget == 0 then s else s.count i 5 32 1
  if 2 ≤ a ∨ s.suspended a then s
  else
    let d := min (s.obj i 7 * budget) (debt - (used - budget) + min busy (budget - used))
    let s := { s with debts := (s.debts.set a d).set (16 + a) (if budget < used then 1 else s.debts.get (16 + a)) }
    s.setObj i 6 (if budget = 0 then 0 else d * 256 / budget)

/-- BREATH_PERIOD: the period that ends is counted; new SHAREs apply. -/
def State.breathPeriod (s : State) (wanted busy : List Nat) : State :=
  let s := s.each (List.range 8) fun s a => s.breathOne a (wanted.getD a 0) (busy.getD a 0)
  { s with shares := (List.range 8).foldl (fun t a => t.set a (s.obj (0x2101 + a) 3 + 1)) s.shares }

/-- BREATH_PERIOD. -/
def execBreathPeriod (wanted busy : List Nat) (s : State) : Host.Outcome State Fault Refusal := .next (s.breathPeriod wanted busy)

/-- Activities that share a resource for R396: 1 and 2 count as one. -/
def sharePool (res : Nat) : Nat := if res = 2 then 1 else res

/-- Total of the SHAREs on a pool. -/
def State.shareTotal (s : State) (pool : Nat) : Nat :=
  ((List.range 8).map fun a => if sharePool (s.obj (0x2101 + a) 1) = pool then s.obj (0x2101 + a) 3 else 0).sum

/-- A write of SHARE (R396). -/
def shareAct (a v : Nat) : Act := fun s =>
  let pool := sharePool (s.obj (0x2101 + a) 1)
  let s' := s.setObj (0x2101 + a) 3 v
  if 192 < s'.shareTotal pool then (s, stRange)
  else (s'.setObj 0x2100 (if pool = 0 then 2 else if pool = 1 then 3 else 4) (s'.shareTotal pool), stOk)

/-! ### Oboe, lasers, flash (R399–R401, R423) -/

/-- OBOE_TASK: a lane revisited; a heater above 90 % is logged (log 29). -/
def execOboeTask (lane : LaneId) (heaterPct : Nat) (s : State) : Host.Outcome State Fault Refusal :=
  .next (if s.suspended 4 || decide (s.obj 0x2000 1 < 2) || decide (heaterPct ≤ 90) then s else s.logEvent 0x42 0x0C06 lane)

/-- LASER_AGEING: a low monitor raises the bias to `biasPct` of its maximum; 90 % is logged once per engine. -/
def State.laserAge (s : State) (e : Nat) (low : Bool) (bias : Nat) : State :=
  if s.suspended 5 || !s.clockRuns || !low then s
  else
    let s := { s with laserBias := s.laserBias.set e bias }
    if 90 ≤ bias ∧ s.laserLogged.get e = 0 then State.logEvent { s with laserLogged := s.laserLogged.set e 1 } 0x42 0x0C07 e else s

/-- LASER_AGEING. -/
def execLaserAgeing (eng : QuadId) (low : Bool) (biasPct : Nat) (s : State) : Host.Outcome State Fault Refusal :=
  .next (s.laserAge eng.val low biasPct)

/-- Sectors of the persistent store (R407). `State.erases` counts a sector's erases at its number, its failures at 8,192 on,
and marks it retired at 16,384 on. -/
def sectors : Nat := 7680

/-- A failed erase or write of a sector: the second retires it (R407). -/
def State.sectorFail (s : State) (k : Nat) : State :=
  let s := { s with erases := s.erases.set (8192 + k) (s.erases.get (8192 + k) + 1) }
  if 2 ≤ s.erases.get (8192 + k) ∧ s.erases.get (16384 + k) = 0 then
    State.logEvent { s with erases := s.erases.set (16384 + k) 1 } 0x40 0x0D04 (0x2100000 + 4096 * k)
  else s

/-- The smallest erase count of a sector in use. -/
def State.leastErased (s : State) : Nat :=
  (((List.range sectors).filter fun k => s.erases.get (16384 + k) == 0).map s.erases.get).foldl min (s.erases.get 0)

/-- WEAR_LEVELLING: a sector is erased, its count at most 64 above any other's. -/
def State.wearLevel (s : State) (k : Nat) (failed : Bool) : State :=
  if s.suspended 6 || !s.clockRuns || decide (sectors ≤ k) || s.erases.get (16384 + k) == 1 then s
  else if failed then s.sectorFail k
  else if s.leastErased + 64 ≤ s.erases.get k then s
  else { s with erases := s.erases.set k (s.erases.get k + 1) }

/-- WEAR_LEVELLING. -/
def execWearLevelling (sector : Nat) (failed : Bool) (s : State) : Host.Outcome State Fault Refusal := .next (s.wearLevel sector failed)

/-- PERSIST_WRITE: the oldest record that waits goes to flash; a failed write counts against its sector. -/
def State.persistWrite (s : State) (failed : Option Nat) : State :=
  if s.suspended 6 || !s.clockRuns then s
  else match s.pwait, failed with
    | [], _ => s
    | _ :: _, some k => if k < sectors then s.sectorFail k else s
    | e :: rest, none => { s with plog := (e :: s.plog).take 65536, pwait := rest }

/-- PERSIST_WRITE. -/
def execPersistWrite (failed : Option Nat) (s : State) : Host.Outcome State Fault Refusal := .next (s.persistWrite failed)

/-! ### Telemetry (R327, R388, R391, R392, R404) -/

/-- A sensor reading calibrated by TOFS, and a monitor's by VMON, in mV rounded down (R402; log 48). -/
def calTemp (w k : Nat) (t : Int) : Int := t + signedOf 16 (fieldAt w (512 + 16 * k) 16)
def calMon (w k mv : Nat) : Nat :=
  (((10 * mv : Nat) + signedOf 16 (fieldAt w (896 + 32 * k) 16)) * (1000000 + signedOf 16 (fieldAt w (912 + 32 * k) 16)) / 10000000).toNat

/-- The readings that management paths see while a partition is sealed: 100 ms averages rounded to 8 W, temperatures
rounded to 1 °C each second. `State.tele` holds sums at 0 on, shown power at 100 on, shown temperatures at 200 on and the
samples counted at 300. -/
def State.teleShown (s : State) : State :=
  let n := s.tele.get 300 + 1
  let t := (List.range 11).foldl (fun (t : NatTab) k =>
    let sum := t.get k + s.obj 0x2302 (k + 1)
    if n % 100 = 0 then (t.set (100 + k) ((sum + 4000) / 8000 * 80)).set k 0 else t.set k sum) s.tele
  let t := if n % 1000 = 0 then (List.range 25).foldl (fun (t : NatTab) k =>
      let v := signedOf 16 (if k < 24 then s.obj 0x2300 (k + 1) else s.obj 0x2303 1)
      t.set (200 + k) (fieldOf 16 ((v + 50) / 100 * 100))) t
    else t
  { s with tele := t.set 300 (n % 1000) }

/-- Thermal cap: from 100 °C on any of T0–T13 until all are below 97 °C (R391). -/
def State.hotNext (s : State) : Bool :=
  let ts := (List.range 14).map fun k => signedOf 16 (s.obj 0x2300 (k + 1))
  if ts.any fun t => decide (10000 ≤ t) then true else if ts.all fun t => decide (t < 9700) then false else s.hotCap

/-- TELEMETRY_SAMPLE. A sample that its budget delays keeps the previous reading. -/
def State.telemetry (s : State) (r : Readings) : State :=
  if s.suspended 7 || !s.clockRuns then s
  else
    let w := s.obj 0x2200 1
    let s := s.each (List.range 24) fun s k => s.setObj 0x2300 (k + 1) (fieldOf 16 (calTemp w k (r.temps.getD k 0)))
    let s := s.each (List.range 15) fun s k => s.setObj 0x2301 (k + 1) (calMon w k (r.mons.getD k 0))
    let s := s.setObj 0x2302 1 r.package
    let s := s.each (List.range 4) fun s k => s.setObj 0x2302 (k + 2) (r.quads.getD k 0)
    let s := s.each (List.range 6) fun s k => s.setObj 0x2302 (k + 6) (r.rails.getD k 0)
    let e := s.tele.get 301 + r.package
    let s := ({ s with tele := s.tele.set 301 (e % 10) }).count 0x2302 0x0C 64 (e / 10)
    let s := s.setObj 0x2303 1 (fieldOf 16 (min (signedOf 16 (s.obj 0x2300 23)) (signedOf 16 (s.obj 0x2300 24))))
    let s := (s.setObj 0x2020 1 (r.fans.getD 0 0)).setObj 0x2020 2 (r.fans.getD 1 0)
    let s := s.setObj 0x2010 5 (min (min (s.obj 0x2301 1) (s.obj 0x2301 2)) (min (s.obj 0x2301 3) (s.obj 0x2301 4)))
    (s.teleShown.settleLimits s.hotNext).setFans

/-- TELEMETRY_SAMPLE. -/
def execTelemetrySample (rd : Readings) (s : State) : Host.Outcome State Fault Refusal := .next (s.telemetry rd)

/-! ### Calibration (R402, R403) -/

/-- Format and HASH of a record. -/
def calFormatOk (w : Nat) : Bool :=
  fieldAt w 0 32 == 0x4C414342 && fieldAt w 32 8 == 1 && (fieldAt w 40 8 == 1 || fieldAt w 40 8 == 2) && fieldAt w 48 16 == 0
    && fieldAt w 192 32 == 528 && fieldAt w 224 288 == 0 && fieldAt w 1376 32 == 0 && fieldAt w 2880 192 == 0
    && (fieldAt w 40 8 == 1 || fieldAt w 3456 768 == 0)
    && Config.sha384 (bytesOf 384 w) == BitVec.ofNat 384 (fieldAt w 3072 384)

/-- RESULT of a commit. -/
def State.calResult (s : State) (w : Nat) (flashOk : Bool) : Nat :=
  if !calFormatOk w then 1
  else if fieldAt w 64 128 ≠ s.obj 0x1000 1 then 2
  else if fieldAt w 40 8 = 1 ∧ !Config.ecdsaOk Config.calibrationKey (BitVec.ofNat 384 (fieldAt w 3072 384)) (BitVec.ofNat 768 (fieldAt w 3456 768)) then 3
  else if !flashOk then 4
  else 0

/-- CONTROL = 1 of object 0x2200. -/
def calCommitAct (flashOk : Bool) : Act := fun s =>
  if (List.range 8).any (fun p => s.obj (0x4000 + p) 2 == 1) || s.anyRunning then (s, stWrongState)
  else
    let w := s.obj 0x2200 2
    let r := s.calResult w flashOk
    let s := s.setObj 0x2200 5 r
    if r ≠ 0 then (s, stOk)
    else
      let old := s.obj 0x2200 4
      (((s.setObj 0x2200 1 w).setObj 0x2200 4 (fieldAt w 40 8)).logEvent 0x41 0x0C08 (old + fieldAt w 40 8 * 256), stOk)

/-- CAL_COMMIT. -/
def execCalCommit (m : Master) (flashOk : Bool) (s : State) : Host.Outcome State Fault Refusal :=
  .next (s.act m 0x2200 3 (calCommitAct flashOk))

end Sys2Proof.Machine
end

