-- ==== Sys2Proof/Machine/BoreConn.lean ====
section
/-! DEFINITION. Bore's requester side up to the wire: the BORE command (R186, R284), connection and key records and their
CONTROL writes (R282, R283, R289, R290), and the connection packets (R283). -/

namespace Sys2Proof.Machine

/-! ### BORE (R186, R205, R209, R284) -/

/-- A local range of a work entry: a scratchpad of the partition below its vault, a POSTED region, or an open outbound
host window (R25, R29, R144, R284). -/
def laddrCheck (s : State) (e : Env) (wr : Bool) (a n : Nat) : Chk Unit :=
  match placeOf a with
  | .scratch c o =>
    if s.partOf c ≠ some e.p then .error (.iso 0 a (s.partOf c))
    else if o + n > vaultOff then addressFault (winOf c + vaultOff)
    else .ok ()
  | .vault c _ => if s.partOf c ≠ some e.p then .error (.iso 0 a (s.partOf c)) else addressFault a
  | .bulk o =>
    match s.regionOf o n with
    | none => addressFault a
    | some r =>
      if (s.region r).owner < 4 ∧ (s.region r).owner ≠ e.p then .error (.iso 0 a (some (s.region r).owner))
      else if (s.region r).cls = 6 then .ok () else addressFault a
  | .host .. => do
    let _ ← spanCheck s e wr a n
    .ok ()
  | _ => addressFault a

/-- LEN in range (R284). -/
def lenOk (op len : Nat) : Bool :=
  decide (1 ≤ len) && decide (len ≤ 2 ^ 31) && (op != 2 || decide (64 ≤ len)) && (!(op == 6 || op == 7) || len == 8)

/-- The work entry that a BORE command posts, from its 64 bytes (R284, R300). -/
def workEntry (s : State) (e : Env) (w : Nat) : WorkEntry :=
  let op := fieldAt w 0 8
  { barrierEntry s.entryNext op 0 0 with
    cqe := bitAt w 8
    immv := bitAt w 9 && (op == 1 || op == 3)
    stepRd := bitAt w 10 && op == 5
    accf := bitAt w 11 && op == 4
    chain := bitAt w 12
    cconn := fieldAt w 16 12
    ctgt := BitVec.ofNat 32 (fieldAt w 32 32)
    laddr := fieldAt w 64 44
    len := fieldAt w 128 32
    rkey := BitVec.ofNat 32 (fieldAt w 160 32)
    raddr := fieldAt w 192 44
    opnd1 := BitVec.ofNat 64 (fieldAt w 256 64)
    opnd2 := BitVec.ofNat 64 (fieldAt w 320 64)
    imm := BitVec.ofNat 32 (fieldAt w 384 32)
    wid := BitVec.ofNat 32 (fieldAt w 416 32)
    core := e.core
    ctx := e.ctx
    index := e.idx
    origin := BitVec.ofNat 32 (s.obj (0x3100 + e.p) 6 % 256 * 2 ^ 24 + (s.core e.home).logical * 2 ^ 20 + e.ctx % 4 * 2 ^ 18 + e.idx)
    step := BitVec.ofNat 32 (s.obj (0x3100 + e.p) 6)
    rdy := if e.b 40 then some (slotKey e.ctx (e.f 32 8)) else none }

/-- The check of a work entry when its command issues (R284, R293, R299). -/
def entryCheck (s : State) (e : Env) (x : Conn) (w : Nat) : Chk Unit := do
  let op := fieldAt w 0 8
  needParam (decide (1 ≤ op) && decide (op ≤ 7)
    && onlyFields w [(0, 8), (8, 5), (16, 12), (32, 32), (64, 44), (128, 32), (160, 32), (192, 44), (256, 64), (320, 64), (384, 32), (416, 32)]
    && lenOk op (fieldAt w 128 32) && (!(op == 6 || op == 7) || x.atomicAgreed))
  let y := s.conn (fieldAt w 16 12)
  need (!bitAt w 12 || (y.st != .free && y.part == e.p)) (.iso 0 (fieldAt w 16 12) (if y.st = .free then none else some y.part))
  laddrCheck s e (op == 2 || 5 ≤ op) (fieldAt w 64 44) (fieldAt w 128 32)

/-- The RDY slot of the command becomes WRITING (R186). -/
def markRdy (s : State) (e : Env) (st : SlotSt) : State :=
  if e.b 40 then s.setSlot e (e.f 32 8) { s.slotOf e (e.f 32 8) with st := st } else s

/-- Post an entry (R282): a RECV on the receive queue, any other on the send queue. On a connection in ERROR or CLOSING
it completes FLUSHED at once (R283; log 27). -/
def State.post (s : State) (c : Nat) (w : WorkEntry) : State :=
  let x := s.conn c
  let s := { s with entryNext := s.entryNext + 1 }
  if x.st ≠ .isOpen then s.finish c w ccFlushed (w.op == 2) false 0 0
  else if w.op = 2 then s.setConn c { x with recvQ := x.recvQ ++ [w] }
  else s.setConn c { x with sendQ := x.sendQ ++ [w] }

/-- BORE. A recorded one posts nothing (R209); an entry that is written or sent remotely is covered by a FABRIC fence
(R189; log 28). -/
def boreCommand (e : Env) (s : State) : Chk State := do
  fieldsOnly e [(8, 8), (16, 12), (32, 8), (40, 1)]
  let wrk := e.f 8 8; let c := e.f 16 12; let rdy := e.f 32 8
  board s e [(wrk, kWork)] (if e.b 40 then [(rdy, (s.slotOf e rdy).kind.toNat)] else [])
  let x := s.conn c
  need (x.st != .free && x.part == e.p) (.iso 0 c (if x.st = .free then none else some x.part))
  let b ← atSlot wrk (listSlot (s.content e wrk))
  let a ← atSlot wrk (spanCheck s e false b.1 64)
  atSlot wrk (needParam (inScratch a))
  atSlot wrk (readSpans s [(a, 64)])
  let w := s.natAt a 64
  atSlot wrk (entryCheck s e x w)
  if s.recorded e then .ok (markRdy s e .ready)
  else
    need (x.st != .opening) .wait
    need (if fieldAt w 0 8 = 2 then decide (x.recvQ.length < 64) else decide ((x.sendQ.filter fun y => !y.isBarrier).length < 32)) .wait
    let y := workEntry s e w
    let s := (markRdy s e .writing).post c y
    .ok (if y.isData then s.noteWrite e else s)

/-- BORE. -/
def execBore (core : CoreId) (ctx : CtxId) (s : State) : Host.Outcome State Fault Refusal :=
  .next (issue 0x21 core ctx s fun e s => Res.of s (boreCommand e s))

/-! ### The connection record (R282) -/

/-- STATE codes. -/
def connStNum : ConnSt → Nat
  | .free => 0 | .opening => 1 | .isOpen => 2 | .error => 3 | .closing => 4

/-- The record as it reads. -/
def connRecord (x : Conn) : Nat :=
  connStNum x.st + x.part * 2 ^ 3 + bit (if x.st = .isOpen then x.atomicAgreed else x.atomic) * 2 ^ 5 + bit x.fetch * 2 ^ 6 + x.rnode * 2 ^ 8
    + x.rconn * 2 ^ 22 + x.link * 2 ^ 34 + x.tc * 2 ^ 40 + x.vid * 2 ^ 43 + x.keysel * 2 ^ 55
    + x.cqbase * 2 ^ 64 + x.cqlen * 2 ^ 108 + x.spsn.toNat * 2 ^ 128 + x.upsn.toNat * 2 ^ 152 + x.epsn.toNat * 2 ^ 176
    + x.cwnd / 1024 * 2 ^ 200 + x.ccount.toNat * 2 ^ 224 + x.err.toNat * 2 ^ 256 + x.sendQ.length * 2 ^ 264 + x.recvQ.length * 2 ^ 272
    + x.fkey.toNat * 2 ^ 288

/-- Reserved bits of the record are clear. Bits of read-only fields are not written (log 30). -/
def connReservedOk (w : Nat) : Bool :=
  fieldAt w 7 1 == 0 && fieldAt w 59 5 == 0 && fieldAt w 124 4 == 0 && fieldAt w 216 8 == 0 && fieldAt w 280 8 == 0 && fieldAt w 320 192 == 0

/-- Connections with the atomic right. -/
def State.atomics (s : State) : Nat := (s.connList.filter fun c => (s.conn c).atomic).length

/-- A write of the record (R277, R282): FREE only, every field in its range, at most 64 connections with ATOMIC. -/
def State.writeConn (s : State) (c w : Nat) : State × BitVec 16 :=
  let x := s.conn c
  let rnode := fieldAt w 8 14
  if x.st ≠ .free then (s, stWrongState)
  else if connReservedOk w && decide (rnode < 12288) && rnode != s.node && decide (fieldAt w 34 6 ≤ 39)
      && decide (fieldAt w 64 44 % 64 = 0) && decide (16 ≤ fieldAt w 108 16)
      && (!bitAt w 5 || x.atomic || decide (s.atomics < 64)) then
    (s.setConn c { x with
      part := fieldAt w 3 2, atomic := bitAt w 5, fetch := bitAt w 6, rnode := rnode, rconn := fieldAt w 22 12
      link := fieldAt w 34 6, tc := fieldAt w 40 3, vid := fieldAt w 43 12, keysel := fieldAt w 55 4
      cqbase := fieldAt w 64 44, cqlen := fieldAt w 108 16, fkey := BitVec.ofNat 32 (fieldAt w 288 32) }, stOk)
  else (s, stRange)

/-! ### Opening and closing (R283) -/

/-- Is every port of a LINK value set for a Bore frame (R278)? Link l lies on port l / 4. -/
def State.frameOk (s : State) (link : Nat) : Bool := (s.linksOf link).all fun l => decide (4352 ≤ s.obj (0x4000 + l / 4) 3)

/-- CONNECT or ACCEPT of a connection, with this end's payload and its initial PSN, which is its oldest unacknowledged PSN for
as long as the peer may need it. -/
def State.sendConnect (s : State) (c : Nat) (k : PktKind) : State := s.sendPacket c (blankPacket s c k (s.conn c).upsn)

/-- CONTROL = 1 OPEN (R278, R283, R304): FREE, with the node ID set. -/
def State.openConn (s : State) (c : Nat) : State × BitVec 16 :=
  let x := s.conn c
  if x.st = .free ∧ s.isSealed x.part ∧ x.keysel = 0 then (s.count (0x1230 + x.part) 7 32 1, stSealed)
  else if x.st ≠ .free ∨ s.obj 0x1100 3 = 0xFFFF then (s, stWrongState)
  else if !s.frameOk x.link || decide (x.cqlen < 16) then (s, stRange)
  else
    let d := s.takeFree
    let s := d.2.setConn c { x with st := .opening, spsn := d.1.truncate 24, upsn := d.1.truncate 24, cwnd := s.obj 0x4200 7 * 1024 }
    (s.sendConnect c .connect, stOk)

/-- Send CLOSE, which takes a PSN (log 27). -/
def State.sendClose (s : State) (c : Nat) : State :=
  let x := s.conn c
  let s := s.sendPacket c (blankPacket s c .close x.spsn)
  s.setConn c { (s.conn c).advance 1 with closePsn := some x.spsn }

/-- A CLOSING connection whose queues are empty sends its CLOSE. -/
def State.closeTry (s : State) (c : Nat) : State :=
  let x := s.conn c
  if x.st = .closing ∧ x.sendQ.isEmpty ∧ x.recvQ.isEmpty ∧ x.closePsn.isNone then s.sendClose c else s

/-- CONTROL = 2 CLOSE. -/
def State.closeConn (s : State) (c : Nat) : State × BitVec 16 :=
  let x := s.conn c
  match x.st with
  | .isOpen => (((s.setConn c { x with st := .closing }).countOpen).closeTry c, stOk)
  | .error => ((s.sendClose c).setConn c x.freed, stOk)
  | _ => (s, stWrongState)

/-- CONTROL of the selected connection. -/
def State.connControl (s : State) (c v : Nat) : State × BitVec 16 :=
  if v = 1 then s.openConn c else if v = 2 then s.closeConn c else (s, stRange)

/-- CONN_OPEN: CSEL = c, then CONTROL = 1. -/
def execConnOpen (m : Master) (c : ConnId) (s : State) : Host.Outcome State Fault Refusal :=
  .next (s.act m 0x4211 2 fun s => (s.setObj 0x4210 0 c).openConn c)

/-- CONN_CLOSE: CSEL = c, then CONTROL = 2. -/
def execConnClose (m : Master) (c : ConnId) (s : State) : Host.Outcome State Fault Refusal :=
  .next (s.act m 0x4211 2 fun s => (s.setObj 0x4210 0 c).closeConn c)

/-- CONNECT_RESEND: CONNECT goes out every 1 ms while OPENING. -/
def execConnectResend (c : ConnId) (s : State) : Host.Outcome State Fault Refusal :=
  .next (if (s.conn c).st = .opening then s.sendConnect c .connect else s)

/-- CONNECT_TIMEOUT: 100 ms without a match. -/
def execConnectTimeout (c : ConnId) (s : State) : Host.Outcome State Fault Refusal :=
  .next (if (s.conn c).st = .opening then s.connError c ccConnectTimeout else s)

/-- CLOSE_TIMEOUT: 10 ms in CLOSING; what is left completes FLUSHED. -/
def execCloseTimeout (c : ConnId) (s : State) : Host.Outcome State Fault Refusal :=
  .next (if (s.conn c).st = .closing then
    let s := s.flushConn c
    let s := if (s.conn c).closePsn.isNone then s.sendClose c else s
    s.setConn c (s.conn c).freed
  else s)

/-! ### Connection packets (R283) -/

/-- A packet discarded before any check of R291 finds its connection: counted. -/
def State.boreDrop (s : State) : State := { s with boreDrops := s.boreDrops + 1 }

/-- Every Bore packet received is counted (R306). -/
def State.received (s : State) (p : Packet) : State := (s.count 0x4201 2 64 1).count 0x4201 4 64 p.payload.length

/-- Does a CONNECT or ACCEPT match the configured context (R283)? -/
def State.matchesConn (s : State) (p : Packet) : Bool :=
  let x := s.conn p.dconn.toNat
  p.ver == 1 && x.rnode == p.snode.toNat && x.rconn == p.sconn.toNat && p.jobId.toNat == s.obj 0x3500 1

/-- Does the tag of a CONNECT or ACCEPT hold, on a connection with a job key (R304)? Its PSN has not wrapped. -/
def State.connectOpens (s : State) (p : Packet) : Bool :=
  let c := p.dconn.toNat
  let x := s.conn c
  p.keyId.toNat == x.keysel && (x.keysel == 0 || match s.connKey c with
    | none => false
    | some k => (Config.gcmOpen k (nonceOf p.snode.toNat x.rconn p.psn 0) (headerBytes p) p.payload p.tag).isSome)

/-- A packet that fails its tag: counted; the sixteenth in a row ends the connection (R304). -/
def State.authFail (s : State) (c : Nat) : State :=
  let x := s.conn c
  let s := (s.count 0x4201 0x0C 32 1).setConn c { x with authFails := x.authFails + 1 }
  if 16 ≤ x.authFails + 1 then (s.logEvent 0x79 0x0904 (c * 2 ^ 16 + x.keysel * 2 ^ 28)).connError c ccAuth else s

/-- A packet that passes it ends the row of failures. -/
def State.authPass (s : State) (c : Nat) : State := s.setConn c { s.conn c with authFails := 0 }

/-- An OPENING connection opens: the agreed ATOMIC bit, the peer's initial PSN and EPOCH (R283, R299). -/
def State.opened (s : State) (p : Packet) : State :=
  let c := p.dconn.toNat
  let x := s.conn c
  (s.setConn c { x with st := .isOpen, atomicAgreed := x.atomic && p.atomic, epsn := p.psn, peerEpoch := p.epoch, ccount := 0, wraps := 0, rwraps := 0 }).countOpen

/-- CONNECT: opens an OPENING context and is accepted; on an OPEN one, a new EPOCH resets the peer and the same one is
answered again. -/
def State.rxConnect (s : State) (p : Packet) : State :=
  let s := s.received p
  let c := p.dconn.toNat
  let x := s.conn c
  if !s.matchesConn p || !(x.st == .opening || x.st == .isOpen) then s.boreDrop
  else if !s.connectOpens p then s.authFail c
  else if x.st = .opening then ((s.authPass c).opened p).sendConnect c .accept
  else if p.epoch = x.peerEpoch then (s.authPass c).sendConnect c .accept
  else s.connError c ccPeerReset

/-- CONNECT. -/
def execRxConnect (pkt : Packet) (s : State) : Host.Outcome State Fault Refusal := .next (s.rxConnect pkt)

/-- ACCEPT: opens an OPENING context. -/
def State.rxAccept (s : State) (p : Packet) : State :=
  let s := s.received p
  let c := p.dconn.toNat
  let x := s.conn c
  if !s.matchesConn p || !(x.st == .opening || x.st == .isOpen) then s.boreDrop
  else if !s.connectOpens p then s.authFail c
  else if x.st = .opening then (s.authPass c).opened p
  else s.authPass c

/-- ACCEPT. -/
def execRxAccept (pkt : Packet) (s : State) : Host.Outcome State Fault Refusal := .next (s.rxAccept pkt)

/-! ### Keys (R289, R290) -/

/-- The entry as it reads. -/
def keyRecord (k : Key) : Nat :=
  k.base + k.len * 2 ^ 48 + bit k.rd * 2 ^ 88 + bit k.wr * 2 ^ 89 + bit k.at_ * 2 ^ 90 + bit k.valid * 2 ^ 91 + k.part * 2 ^ 92
    + k.tag.toNat * 2 ^ 96 + k.bind * 2 ^ 128

/-- A write of the entry; its ranges are those of R289, and VALID and TAG are not written. A registered key is not
rewritten (log 31). -/
def State.writeKey (s : State) (i w : Nat) : State × BitVec 16 :=
  let k := s.keys.get i
  if k.valid then (s, stWrongState)
  else if fieldAt w 44 4 == 0 && fieldAt w 94 2 == 0 && fieldAt w 108 20 == 0 && fieldAt w 141 115 == 0 && fieldAt w 0 6 == 0
      && decide (64 ≤ fieldAt w 48 40) && decide (fieldAt w 48 40 ≤ 2 ^ 37) && decide (fieldAt w 128 13 ≤ 0x1000) then
    ({ s with keys := s.keys.set i { k with
        base := fieldAt w 0 44, len := fieldAt w 48 40, rd := bitAt w 88, wr := bitAt w 89, at_ := bitAt w 90
        part := fieldAt w 92 2, bind := fieldAt w 128 13 } }, stOk)
  else (s, stRange)

/-- Is the memory a key names that of a sealed partition (R326)? -/
def State.keySealed (s : State) (k : Key) : Option Nat :=
  let p := match placeOf k.base with
    | .scratch c _ => s.partOf c
    | .vault c _ => s.partOf c
    | .bulk o => (s.regionOf o 1).bind fun r => if (s.region r).owner < 4 then some (s.region r).owner else none
    | _ => none
  match p with
  | some p => if s.isSealed p then some p else none
  | none => none

/-- Is a key over a sealed partition's memory bound to one of that partition's connections (R326)? -/
def State.keyBound (s : State) (k : Key) (p : Nat) : Bool :=
  decide (k.bind < 4096) && (s.conn k.bind).st != .free && (s.conn k.bind).part == p

/-- May the range and rights be registered (R290)? -/
def State.keyOk (s : State) (k : Key) : Bool :=
  match placeOf k.base with
  | .scratch c o => decide (o + k.len ≤ vaultOff) && s.partOf c == some k.part
  | .bulk o => match s.regionOf o k.len with
    | none => false
    | some r =>
      let g := s.region r
      g.owner == k.part
        && (!k.wr || g.cls == 6 || (g.cls == 4 && k.bind != 0x1000))
        && (!k.at_ || g.cls == 6)
        && (!k.rd || !(g.cls == 0 || g.cls == 2 || g.cls == 3 || g.cls == 5 || (g.cls == 1 && !g.serve)))
  | .host w o => s.hostOpen w && (decide (o + k.len ≤ hostSize) || s.hostOpen (w + 1))
  | _ => false

/-- REGISTER (R290, R326). -/
def State.register (s : State) (i : Nat) : State × BitVec 16 :=
  let k := s.keys.get i
  match s.keySealed k with
  | some p =>
    if !s.keyBound k p then (s.count (0x1230 + p) 7 32 1, stSealed)
    else if s.keyOk k && decide (64 ≤ k.len) then ({ s with keys := s.keys.set i { k with valid := true } }, stOk) else (s, stRange)
  | none => if s.keyOk k && decide (64 ≤ k.len) then ({ s with keys := s.keys.set i { k with valid := true } }, stOk) else (s, stRange)

/-- INVALIDATE: VALID clear, the tag advances (R289, R290). -/
def State.invalidate (s : State) (i : Nat) : State × BitVec 16 :=
  let k := s.keys.get i
  ({ s with keys := s.keys.set i { k with valid := false, tag := k.tag + 1 } }, stOk)

/-- CONTROL of the selected key. -/
def State.keyControl (s : State) (i v : Nat) : State × BitVec 16 :=
  if v = 1 then s.register i else if v = 2 then s.invalidate i else (s, stRange)

/-- REGISTER: KSEL = k, then CONTROL = 1. -/
def execRegisterKey (m : Master) (k : KeyIdx) (s : State) : Host.Outcome State Fault Refusal :=
  .next (s.act m 0x4221 2 fun s => (s.setObj 0x4220 0 k).register k)

/-- INVALIDATE: KSEL = k, then CONTROL = 2. -/
def execInvalidateKey (m : Master) (k : KeyIdx) (s : State) : Host.Outcome State Fault Refusal :=
  .next (s.act m 0x4221 2 fun s => (s.setObj 0x4220 0 k).invalidate k)

end Sys2Proof.Machine
end

