-- ==== Sys2Proof/Machine/BoreTx.lean ====
section
/-! DEFINITION. Bore's sender: work entries on the wire (R285, R297, R299–R301), acknowledgements (R281, R295), and the
timers that resend (R288, R295, R298). -/

namespace Sys2Proof.Machine

/-! ### Packets on the wire (R279, R285, R297) -/

/-- The entry of kind `op` whose turn it is: not chained (R299), on a connection that may send and waits for no resend. -/
def Conn.mayWork (x : Conn) (op : Nat) : Option WorkEntry :=
  if (x.st = .isOpen ∨ x.st = .closing) ∧ x.stall = 0 then
    match x.toSend with
    | some e => if e.op = op ∧ ¬(e.chain ∧ e.sent = 0) then some e else none
    | none => none
  else none

/-- PSNs that may still be used: never more than 2^22 unacknowledged (R294). -/
def Conn.psnRoom (x : Conn) : Nat := 2 ^ 22 - (x.spsn - x.upsn).toNat

/-- How many packets the window lets out, given their payloads (R297). -/
def windowCount (cwnd : Nat) : Nat → List Nat → Nat
  | _, [] => 0
  | f, p :: rest => if f = 0 ∨ f + p ≤ cwnd then 1 + windowCount cwnd (f + p) rest else 0

/-- Packets of a data entry that may be sent now. -/
def Conn.packetsNow (x : Conn) (e : WorkEntry) : Nat :=
  windowCount x.cwnd x.inflight ((List.range (min (e.packets - e.sent) x.psnRoom)).map fun i => e.pay (e.sent + i))

/-- Payload bytes of the next `n` packets of an entry. -/
def WorkEntry.payNext (e : WorkEntry) (n : Nat) : Nat := ((List.range n).map fun i => e.pay (e.sent + i)).sum

/-- May the bytes be read now: no bulk wait, no re-run hold (R153, R155, R209)? -/
def State.sourceReady (s : State) (core a n : Nat) : Bool :=
  (!(decide (bulkBase ≤ a) && decide (a < hostBase)) || (s.bulkReady (a - bulkBase) n && !s.bulkError a n))
    && (match s.redirectBusy a n with
      | some t => t == core
      | none => true)

/-- SEND, WRITE, WRITE_ACC: the packets the window lets out. An uncorrectable word of the source faults the core that
holds it (R137). -/
def State.workData (s : State) (c op : Nat) : State :=
  match (s.conn c).mayWork op with
  | none => s
  | some e =>
    let n := (s.conn c).packetsNow e
    let a := e.laddr + 4096 * e.sent
    if n = 0 then s
    else if s.sramError a (e.payNext n) then s.fenceCore (redirectBy s.redirects a / 0x8000000) e.ctx 0 e.index .memory a
    else if s.sourceReady e.core a (e.payNext n) then (s.transmit c e n).pumpBarrier c
    else s

/-- Requests of a kind that are outstanding on a connection (R285). -/
def Conn.outstanding (x : Conn) (p : WorkEntry → Bool) : Nat := (x.sendQ.filter fun e => p e && decide (0 < e.sent)).length

/-- READ and the atomics: one request, at most 16 of each sort outstanding. -/
def State.workRequest (s : State) (c op : Nat) : State :=
  match (s.conn c).mayWork op with
  | none => s
  | some e =>
    let x := s.conn c
    let n := if op = 5 then x.outstanding (·.op == 5) else x.outstanding WorkEntry.isAtomic
    if n < 16 ∧ e.psns ≤ x.psnRoom then (s.transmit c e 1).pumpBarrier c else s

/-- WE_SEND. -/
def execWeSend (c : ConnId) (s : State) : Host.Outcome State Fault Refusal := .next (s.workData c 1)
/-- WE_WRITE. -/
def execWeWrite (c : ConnId) (s : State) : Host.Outcome State Fault Refusal := .next (s.workData c 3)
/-- WE_WRITE_ACC. -/
def execWeWriteAcc (c : ConnId) (s : State) : Host.Outcome State Fault Refusal := .next (s.workData c 4)
/-- WE_READ. -/
def execWeRead (c : ConnId) (s : State) : Host.Outcome State Fault Refusal := .next (s.workRequest c 5)
/-- WE_FETCH_ADD. -/
def execWeFetchAdd (c : ConnId) (s : State) : Host.Outcome State Fault Refusal := .next (s.workRequest c 6)
/-- WE_CMP_SWAP. -/
def execWeCmpSwap (c : ConnId) (s : State) : Host.Outcome State Fault Refusal := .next (s.workRequest c 7)

/-- WE_RECV: the oldest buffer not yet posted is posted, and its command has completed (R209, R285). -/
def State.workRecv (s : State) (c : Nat) : State :=
  let x := s.conn c
  match x.recvQ.find? fun e => !e.armed with
  | none => s
  | some e => (s.setConn c { x with recvQ := putEntry x.recvQ { e with armed := true } }).recordEffect e.core e.ctx e.index

/-- WE_RECV. -/
def execWeRecv (c : ConnId) (s : State) : Host.Outcome State Fault Refusal := .next (s.workRecv c)

/-- CHAIN_RELEASE: the entry that waits may go once CCOUNT has reached its target; a CCONN in ERROR breaks it (R299). -/
def State.chainRelease (s : State) (c : Nat) : State :=
  match (s.conn c).toSend with
  | none => s
  | some e =>
    if e.chain ∧ e.sent = 0 then
      if (s.conn e.cconn).st = .error ∧ e.cconn ≠ c then s.finishSend c e ccChainBroken 0 0
      else if ((s.conn e.cconn).ccount - e.ctgt).toNat < 2 ^ 31 then
        s.setConn c { s.conn c with sendQ := putEntry (s.conn c).sendQ { e with chain := false } }
      else s
    else s

/-- CHAIN_RELEASE. -/
def execChainRelease (c : ConnId) (s : State) : Host.Outcome State Fault Refusal := .next (s.chainRelease c)

/-! ### Admission (R291, checks 1 and 2; R304) -/

/-- The packet as its sender sealed it: the plaintext, if its tag holds. -/
def State.opening (s : State) (p : Packet) : Option (List Byte) :=
  let c := p.dconn.toNat
  let x := s.conn c
  if p.keyId.toNat ≠ x.keysel then none
  else if x.keysel = 0 then some p.payload
  else match s.connKey c with
    | none => none
    | some k =>
      let w := if answerKind p.kind then wrapsFor x.spsn x.wraps p.psn else wrapsFor x.epsn x.rwraps p.psn
      Config.gcmOpen k (nonceOf p.snode.toNat x.rconn p.psn w) (headerBytes p) p.payload p.tag

/-- Checks 1 and 2: an OPEN connection (or, for answers, a CLOSING one), its remote node, the version, the tag. -/
def State.admitPacket (s : State) (p : Packet) : State × Option Packet :=
  let s := s.received p
  let c := p.dconn.toNat
  let x := s.conn c
  if ¬((x.st = .isOpen ∨ (x.st = .closing ∧ answerKind p.kind)) ∧ x.rnode = p.snode.toNat ∧ p.ver = 1) then (s.boreDrop, none)
  else match s.opening p with
    | none => (s.authFail c, none)
    | some bs => (s.authPass c, some { p with payload := bs })

/-! ### Acknowledgements (R281, R295, R297) -/

/-- The congestion cut, at most once per smoothed round trip (R297). -/
def State.congestionCut (s : State) (c : Nat) : State :=
  let x := s.conn c
  if x.tcut + x.srtt ≤ s.now then s.setConn c { x with cwnd := max (x.cwnd / 2) 8192, tcut := s.now, acked := 0 } else s

/-- UPSN and the bytes in flight, from the entries still to be acknowledged. -/
def Conn.settle (x : Conn) : Conn :=
  let sent := x.sendQ.filter fun e => 0 < e.sent
  let upsn := match sent.head? with
    | some e => e.psn + BitVec.ofNat 24 (if e.op = 5 then e.got / 4096 else if e.isAtomic then 0 else e.got)
    | none => x.closePsn.getD x.spsn
  { x with
    upsn := upsn
    inflight := (sent.map fun e => ((List.range (e.sent - e.got)).map fun i => e.pay (e.got + i)).sum).sum }

/-- Packets of a sent entry that an ACK of `psn` covers. -/
def WorkEntry.ackedBy (e : WorkEntry) (psn : BitVec 24) : Nat :=
  let d := (psn - e.psn).toNat + 1
  if 2 ^ 23 < d then 0 else min d e.sent

/-- Mark what an ACK covers in the data and barrier entries. -/
def ackEntries (q : List WorkEntry) (psn : BitVec 24) : List WorkEntry :=
  q.map fun e => if 0 < e.sent ∧ (e.isData ∨ e.isBarrier) then { e with got := max e.got (e.ackedBy psn) } else e

/-- Is every packet of a data or barrier entry acknowledged? -/
def WorkEntry.allAcked (e : WorkEntry) : Bool :=
  (e.isData || e.isBarrier) && decide (0 < e.sent) && decide (e.sent ≤ e.got) && (e.abrt || decide (e.packets ≤ e.sent))

/-- Code of an entry that the acknowledgement of its last packet completes (R288, R301). -/
def WorkEntry.ackCode (e : WorkEntry) (syndrome : Nat) (psn : BitVec 24) : Nat :=
  if e.withdrawn then ccWithdrawn else if syndrome = 1 ∧ e.op = 1 ∧ e.endPsn - 1 = psn then ccRemoteTruncated else ccOk

/-- Complete the entries that are acknowledged whole. -/
def State.completeAcked (s : State) (c syndrome : Nat) (psn : BitVec 24) : State :=
  ((s.conn c).sendQ.filter WorkEntry.allAcked).foldl (fun s e =>
    s.finishSend c e (e.ackCode syndrome psn) (((List.range e.sent).map e.pay).sum) syndrome) s

/-- The rise of the congestion window (R297): AI in KiB, at most 16 MiB. -/
def Conn.rise (x : Conn) (b rtt ai : Nat) : Conn :=
  let acked := x.acked + b
  { x with
    srtt := (7 * x.srtt + rtt) / 8
    cwnd := if x.cwnd ≤ acked then min (x.cwnd + ai * 1024) (16 * 2 ^ 20) else x.cwnd
    acked := if x.cwnd ≤ acked then 0 else acked }

/-- Progress ends the count of timeouts (R295). -/
def Conn.progress (x : Conn) : Conn := { x with rto := 50000, timeouts := 0 }

/-- Is the CLOSE acknowledged (R283)? -/
def Conn.closeAcked (x : Conn) (psn : BitVec 24) : Bool :=
  match x.closePsn with
  | some q => decide ((psn - q).toNat < 2 ^ 22)
  | none => false

/-- ACK: cumulative. `rtt` is the round-trip sample. -/
def State.rxAck (s : State) (p : Packet) (rtt : Nat) : State :=
  if p.kind ≠ .ack then s
  else match s.admitPacket p with
    | (s, none) => s
    | (s, some p) =>
      let c := p.dconn.toNat
      let x := s.conn c
      let fresh := decide ((p.psn - x.upsn).toNat < (x.spsn - x.upsn).toNat)
      let before := x.inflight
      let s := if fresh then (s.setConn c { x with sendQ := ackEntries x.sendQ p.psn }).completeAcked c (p.offset.toNat % 256) p.psn else s
      let x := (s.conn c).settle
      let s := s.setConn c (if fresh then (x.rise (before - x.inflight) rtt (s.obj 0x4200 8)).progress else x)
      let s := if p.ece then (s.count 0x4201 9 32 1).congestionCut c else s
      if (s.conn c).closeAcked p.psn then s.setConn c (s.conn c).freed else s.closeTry c

/-- ACK. -/
def execRxAck (pkt : Packet) (rtt : Nat) (s : State) : Host.Outcome State Fault Refusal := .next (s.rxAck pkt rtt)

/-! ### Resending (R288, R295, R296, R298) -/

/-- Send again every packet from a PSN on, payloads read again from the source; each is counted (R296, R306). -/
def State.resendFrom (s : State) (c : Nat) (psn : BitVec 24) : State :=
  let s := ((s.conn c).sendQ.filter fun e => 0 < e.sent).foldl (fun s e =>
    (List.range e.sent).foldl (fun s i =>
      let last := if e.isData then e.psn + BitVec.ofNat 24 i else e.endPsn - 1
      if (last - psn).toNat < 2 ^ 23 then ((s.countBulk 1 (e.laddr + 4096 * i) (e.pay i)).sendPacket c (s.entryPacket c e i)).count 0x4201 5 32 1 else s) s) s
  match (s.conn c).closePsn with
  | some q => (s.sendPacket c (blankPacket s c .close q)).count 0x4201 5 32 1
  | none => s

/-- The sent entry that a PSN belongs to. -/
def Conn.entryAt (x : Conn) (psn : BitVec 24) : Option WorkEntry :=
  x.sendQ.find? fun e => decide (0 < e.sent) && decide ((psn - e.psn).toNat < e.psns)

/-- NAK RNR: resend 10 µs later, or give up at RNR_LIMIT (R288). -/
def State.nakRnr (s : State) (c : Nat) (psn : BitVec 24) : State :=
  let s := s.count 0x4201 7 32 1
  let x := s.conn c
  match x.entryAt psn with
  | none => s
  | some e =>
    if s.obj 0x4200 9 ≠ 0 ∧ s.obj 0x4200 9 ≤ e.rnr + 1 then (s.finishSend c e ccRnr 0 2).connError c ccRnr
    else s.setConn c { x with stall := 1, resendAt := e.psn, sendQ := putEntry x.sendQ { e with rnr := e.rnr + 1 } }

/-- The entry a NAK ends completes REMOTE_FAULT; the connection stays OPEN (R286). -/
def State.nakFault (s : State) (c : Nat) (psn : BitVec 24) (syndrome : Nat) : State :=
  match (s.conn c).entryAt psn with
  | none => s
  | some e =>
    let s := s.finishSend c e ccRemoteFault 0 syndrome
    (s.setConn c (s.conn c).settle.progress).closeTry c

/-- NAK ACCESS: the entry completes REMOTE_ACCESS and the connection enters ERROR (R292). -/
def State.nakAccess (s : State) (c : Nat) (p : Packet) : State :=
  let x := s.conn c
  let syn := p.offset.toNat / 256 % 256
  let e? := x.entryAt p.psn
  let s := match e? with
    | some e => s.finishSend c e ccRemoteAccess 0 (0x10 + syn * 256)
    | none => s
  let d := match e? with
    | some e => e.rkey.toNat % 2 ^ 20 * 2 ^ 28 + e.raddr * 2 ^ 56
    | none => 0
  let s := (s.count 0x4201 0x0E 32 1).logEvent 0x79 0x0902 (x.rnode + x.rconn * 2 ^ 16 + syn * 2 ^ 48 + d)
  s.connError c ccRemoteAccess

/-- NAK, by its syndrome (R281). -/
def State.rxNak (s : State) (p : Packet) : State :=
  if p.kind ≠ .nak then s
  else match s.admitPacket p with
    | (s, none) => s
    | (s, some p) =>
      let c := p.dconn.toNat
      let s := if p.ece then s.count 0x4201 9 32 1 else s
      match p.offset.toNat % 256 with
      | 0x01 => (s.congestionCut c).resendFrom c p.psn
      | 0x02 => s.nakRnr c p.psn
      | 0x03 =>
        let s := s.congestionCut c
        s.setConn c { s.conn c with stall := 2, resendAt := p.psn }
      | 0x04 => s.nakFault c p.psn 4
      | 0x05 => s.nakFault c p.psn 5
      | 0x10 => s.nakAccess c p
      | _ => s

/-- NAK. -/
def execRxNak (pkt : Packet) (s : State) : Host.Outcome State Fault Refusal := .next (s.rxNak pkt)

/-- RETRANSMIT_TIMEOUT: without progress, the window falls to its least and everything goes again; the eighth in a row
ends the oldest entry and the connection (R295, R297). -/
def State.retransmitTimeout (s : State) (c : Nat) : State :=
  let x := s.conn c
  if ¬((x.st = .isOpen ∨ x.st = .closing) ∧ x.stall = 0) then s
  else match x.sendQ.find? fun e => 0 < e.sent with
    | none => if x.closePsn.isSome then (s.count 0x4201 6 32 1).resendFrom c x.upsn else s
    | some e =>
      let s := s.count 0x4201 6 32 1
      if 8 ≤ x.timeouts + 1 then (s.finishSend c e ccRetry 0 0).connError c ccRetry
      else
        let s := s.setConn c { x with timeouts := x.timeouts + 1, rto := min (2 * x.rto) 6400000, cwnd := 8192, acked := 0 }
        s.resendFrom c x.upsn

/-- RETRANSMIT_TIMEOUT. -/
def execRetransmitTimeout (c : ConnId) (s : State) : Host.Outcome State Fault Refusal := .next (s.retransmitTimeout c)

/-- The wait of kind `k` ends and the packets go again. -/
def State.resume (s : State) (c k : Nat) : State :=
  let x := s.conn c
  if x.stall = k ∧ (x.st = .isOpen ∨ x.st = .closing) then (s.setConn c { x with stall := 0 }).resendFrom c x.resendAt else s

/-- RNR_RESEND: 10 µs after the NAK. -/
def execRnrResend (c : ConnId) (s : State) : Host.Outcome State Fault Refusal := .next (s.resume c 1)
/-- BUSY_RESEND: 5 µs after the NAK. -/
def execBusyResend (c : ConnId) (s : State) : Host.Outcome State Fault Refusal := .next (s.resume c 2)

end Sys2Proof.Machine
end

