-- ==== Sys2Proof/Machine/BoreRx.lean ====
section
/-! DEFINITION. Bore's responder: PSN classes (R294), the checks of R291, placement and accumulation (R285, R288, R300),
atomics (R293), reads and the fetches of R230, fabric barriers (R303), CLOSE. -/

namespace Sys2Proof.Machine

/-! ### Answers (R281, R295) -/

/-- ACK of everything before EPSN. -/
def State.sendAck (s : State) (c syndrome : Nat) : State :=
  let x := s.conn c
  let s := s.sendPacket c { blankPacket s c .ack (x.epsn - 1) with offset := BitVec.ofNat 31 syndrome, ece := x.ceSeen }
  s.setConn c { s.conn c with unacked := 0, ceSeen := false }

/-- NAK at a PSN, with its syndrome and access syndrome. -/
def State.sendNak (s : State) (c : Nat) (psn : BitVec 24) (syndrome acc : Nat) : State :=
  let s := s.sendPacket c { blankPacket s c .nak psn with offset := BitVec.ofNat 31 (syndrome + acc * 256), ece := (s.conn c).ceSeen }
  s.setConn c { s.conn c with ceSeen := false }

/-- EPSN advances by `n` (R294, R304). -/
def Conn.expect (x : Conn) (n : Nat) : Conn :=
  { x with epsn := x.epsn + BitVec.ofNat 24 n, rwraps := x.rwraps + BitVec.ofNat 32 ((x.epsn.toNat + n) / 2 ^ 24) }

/-- A packet is taken: EPSN advances, and it is acknowledged at LAST, ACKREQ, a CE mark or the eighth packet (R295). -/
def State.taken (s : State) (c : Nat) (p : Packet) (n syndrome : Nat) : State :=
  let x := (s.conn c).expect n
  let s := s.setConn c { x with unacked := x.unacked + 1 }
  if p.last || p.ackReq || p.ce || decide (8 ≤ x.unacked + 1) then s.sendAck c syndrome else s

/-- ACK_TIMER: 4 µs after a packet that is not yet acknowledged (R295). -/
def execAckTimer (c : ConnId) (s : State) : Host.Outcome State Fault Refusal :=
  .next (if 0 < (s.conn c).unacked ∧ (s.conn c).st = .isOpen then s.sendAck c 0 else s)

/-! ### Key checks (R291, checks 4 to 12) -/

/-- What an access needs of its key. -/
inductive KeyUse where
  | read | write | atomic
  deriving DecidableEq, Repr

/-- Is the memory still there: below a vault in the key's partition, in one region, in an open window (R25, R29)? -/
def State.keyReach (s : State) (k : Key) (a n : Nat) : Bool :=
  match placeOf a with
  | .scratch c o => decide (o + n ≤ vaultOff) && s.partOf c == some k.part
  | .bulk o => (s.regionOf o n).isSome
  | .host w o => s.hostOpen w && (decide (o + n ≤ hostSize) || s.hostOpen (w + 1))
  | _ => false

/-- Does the region's class allow the access (R144, R145)? A WPAIR region serves only the fetches of R230. -/
def State.classOk (s : State) (u : KeyUse) (stepRd : Bool) (a : Nat) : Bool :=
  match placeOf a with
  | .bulk o => match s.regionOf o 1 with
    | none => false
    | some r =>
      let g := s.region r
      match u with
      | .write => g.cls == 6 || g.cls == 4
      | .read => g.cls == 4 || g.cls == 6 || g.cls == 7 || (g.cls == 1 && g.serve && stepRd)
      | .atomic => g.cls == 6
  | _ => true

/-- The right for an access. -/
def Key.right (k : Key) : KeyUse → Bool
  | .read => k.rd | .write => k.wr | .atomic => k.at_

/-- Is the address aligned: 8 B for atomics, 64 B and whole elements for WRITE_ACC? -/
def alignOk (p : Packet) : Bool :=
  match p.kind with
  | .fetchAdd => p.raddr.toNat % 8 == 0
  | .cmpSwap => p.raddr.toNat % 8 == 0
  | .writeAcc => p.raddr.toNat % 64 == 0 && p.len.toNat % laneBytes p.accf == 0
  | _ => true

/-- Is the target one the access may have (R293, R300)? -/
def targetOk (s : State) (p : Packet) : Bool :=
  match p.kind, placeOf p.raddr.toNat with
  | .writeAcc, .scratch .. => true
  | .writeAcc, _ => false
  | .fetchAdd, .scratch .. => true
  | .cmpSwap, .scratch .. => true
  | .fetchAdd, .bulk _ => s.classOk .atomic false p.raddr.toNat
  | .cmpSwap, .bulk _ => s.classOk .atomic false p.raddr.toNat
  | .fetchAdd, _ => false
  | .cmpSwap, _ => false
  | _, _ => true

/-- Checks 4 to 6, and on a message's first packet 7 to 12: the access syndrome of the first that fails. -/
def State.keyFail (s : State) (c : Nat) (u : KeyUse) (p : Packet) : Option Nat :=
  let i := p.rkey.toNat % 2 ^ 20
  let k := s.keys.get i
  let x := s.conn c
  let a := p.raddr.toNat
  let n := p.len.toNat
  if 16384 ≤ i then some 1
  else if !k.valid then some 2
  else if k.tag.toNat ≠ p.rkey.toNat / 2 ^ 20 then some 3
  else if !p.first then none
  else if k.part ≠ x.part then some 4
  else if k.bind ≠ 0x1000 ∧ k.bind ≠ c then some 5
  else if !(k.right u && (!s.keyReach k a n || s.classOk u p.stepRd a)) || (decide (u = .atomic) && !x.atomicAgreed) then some 6
  else if !(decide (k.base ≤ a) && decide (a + n ≤ k.base + k.len) && s.keyReach k a n) then some 7
  else if !alignOk p then some 8
  else if !targetOk s p then some 9
  else none

/-- A violation: NAK ACCESS, event 0x0901, the connection in ERROR; check 7 counts at both partitions (R292). -/
def State.violation (s : State) (c : Nat) (p : Packet) (acc : Nat) : State :=
  let i := p.rkey.toNat % 2 ^ 20
  let s := s.sendNak c (s.conn c).epsn 0x10 acc
  let s := s.logEvent 0x79 0x0901 (p.snode.toNat + c * 2 ^ 16 + i * 2 ^ 28 + acc * 2 ^ 48 + (p.raddr.toNat + p.offset.toNat) * 2 ^ 56)
  let s := if acc = 4 then (s.count (0x3100 + (s.conn c).part) 0x0B 32 1).count (0x3100 + (s.keys.get i).part) 0x0B 32 1 else s
  (s.count 0x4201 0x0D 32 1).connError c ccViolated

/-! ### PSN classes (R294) -/

/-- NAK SEQ, at most once per smoothed round trip. -/
def State.nakSeq (s : State) (c : Nat) : State :=
  let x := s.conn c
  let quiet := match x.nakAt with
    | some t => decide (s.now < t + x.srtt)
    | none => false
  if quiet then s else (s.setConn c { x with nakAt := some s.now }).sendNak c x.epsn 1 0

/-- Take a data packet of a kind: admitted, classed by its PSN; `body` handles the expected one and answers nothing when it
must wait (R209, R298), `again` a duplicate. -/
def State.rxData (s₀ : State) (p : Packet) (k : PktKind) (body : State → Packet → Option State)
    (again : State → Packet → State) : State :=
  if p.kind ≠ k then s₀
  else match s₀.admitPacket p with
    | (s, none) => s
    | (s, some p) =>
      let c := p.dconn.toNat
      let s := s.setConn c { s.conn c with ceSeen := (s.conn c).ceSeen || p.ce }
      let d := (p.psn - (s.conn c).epsn).toNat
      if d = 0 then (body s p).getD s₀
      else if d ≤ 2 ^ 22 then s.nakSeq c
      else if 2 ^ 24 - 2 ^ 22 ≤ d then again (s.count 0x4201 0x0A 32 1) p
      else s.count 0x4201 0x0B 32 1

/-- A duplicate is acknowledged. -/
def State.ackAgain (s : State) (p : Packet) : State := s.sendAck p.dconn.toNat 0

/-! ### Uncorrectable memory at the responder (R137, R445) -/

/-- Event 0x0202 under the quadrant, with the core and the address (log 29). -/
def State.logSram (s : State) (a : Nat) : State :=
  let core := redirectBy s.redirects a / 0x8000000
  s.logEvent (0x10 + core / 4) 0x0202 (a + core * 2 ^ 44)

/-- NAK FAULT for the packet: it is taken and nothing of its message is placed any more. -/
def State.rxFault (s : State) (c : Nat) (p : Packet) (n a : Nat) (sram : Bool) : State :=
  let s := s.sendNak c p.psn 5 0
  let s := s.setConn c { (s.conn c).expect n with msgOk := false }
  if sram then s.logSram a else s

/-- Must an access wait: a zeroing front, a re-run (R155, R209, R298)? -/
def State.rxWaits (s : State) (a n : Nat) : Bool :=
  (s.redirectBusy a n).isSome || (decide (bulkBase ≤ a) && decide (a < hostBase) && !s.bulkReady (a - bulkBase) n)

/-! ### SEND (R288) -/

/-- Place a SEND packet in the buffer at the head of the receive queue. -/
def State.placeSend (s : State) (c : Nat) (p : Packet) (e : WorkEntry) : Option State :=
  let x := s.conn c
  let got := if p.first then 0 else x.recvGot
  let off := p.offset.toNat
  let bs := p.payload.take (e.len - off)
  let trunc := decide (e.len < off + p.payload.length) || (x.trunc && !p.first)
  if s.rxWaits (e.laddr + off) bs.length then none
  else if s.sramPartial (e.laddr + off) bs.length then some (s.rxFault c p 1 (e.laddr + off) true)
  else
    let s := s.boreStore x.part (e.laddr + off) bs
    let got := got + bs.length
    let s := s.setConn c { s.conn c with recvGot := got, trunc := trunc, msgOk := !p.last }
    let s := if !p.last then s
      else if p.abrt then s.finishRecv c e ccAborted got false 0
      else if trunc then s.finishRecv c e ccTruncated e.len p.immv p.imm.toNat
      else s.finishRecv c e ccOk p.len.toNat p.immv p.imm.toNat
    some (s.taken c p 1 (if p.last && trunc && !p.abrt then 1 else 0))

/-- The expected packet of a SEND: a first packet needs a posted buffer; what follows a fault is discarded. -/
def State.takeSend (s : State) (p : Packet) : Option State :=
  let c := p.dconn.toNat
  let x := s.conn c
  if !p.first && !x.msgOk then some (s.taken c p 1 0)
  else match x.recvQ.find? (·.armed) with
    | none => some (s.sendNak c x.epsn 2 0)
    | some e => s.placeSend c p e

/-- SEND. -/
def execRxSend (pkt : Packet) (s : State) : Host.Outcome State Fault Refusal := .next (s.rxData pkt .send State.takeSend State.ackAgain)

/-! ### WRITE (R285) -/

/-- A WRITE ends: with IMMV, a receive completion that uses no buffer; none when it was withdrawn (R301). -/
def State.writeDone (s : State) (c : Nat) (p : Packet) : State :=
  let s := s.setConn c { s.conn c with msgOk := !p.last }
  if p.last && p.immv && !p.abrt then s.writeCqe c 0 ccOk true true p.len.toNat p.imm.toNat else s

/-- The expected packet of a WRITE. -/
def State.takeWrite (s : State) (p : Packet) : Option State :=
  let c := p.dconn.toNat
  let a := p.raddr.toNat + p.offset.toNat
  match s.keyFail c .write p with
  | some acc => some (s.violation c p acc)
  | none =>
    if !p.first && !(s.conn c).msgOk then some (s.taken c p 1 0)
    else if s.rxWaits a p.payload.length then none
    else if s.sramPartial a p.payload.length then some (s.rxFault c p 1 a true)
    else some (((s.boreWrite a p.payload).writeDone c p).taken c p 1 0)

/-- WRITE. -/
def execRxWrite (pkt : Packet) (s : State) : Host.Outcome State Fault Refusal := .next (s.rxData pkt .write State.takeWrite State.ackAgain)

/-! ### WRITE_ACC (R300) -/

/-- Bytes already added for an ORIGIN on a connection. -/
def Conn.added (x : Conn) (o : Word) : Nat := ((x.origins.find? fun r => r.origin == o).map (·.bytes)).getD 0

/-- Record that an ORIGIN's bytes up to `n` are added; the last 16 are kept. -/
def Conn.noteAdded (x : Conn) (o : Word) (n : Nat) : Conn :=
  { x with
    origins :=
      if x.origins.any (·.origin == o) then x.origins.map fun r => if r.origin = o then ⟨o, max r.bytes n⟩ else r
      else (⟨o, n⟩ :: x.origins).take 16 }

/-- Add a packet's values where the ORIGIN has not added them yet. -/
def State.addPacket (s : State) (c : Nat) (p : Packet) : State :=
  let off := p.offset.toNat
  let skip := min p.payload.length ((s.conn c).added p.origin - off)
  let bs := p.payload.drop skip
  let a := p.raddr.toNat + off + skip
  let s := if bs.isEmpty then s else s.boreWrite a (accBytes p.accf (s.bytesAt a bs.length) bs)
  s.setConn c { (s.conn c).noteAdded p.origin (off + p.payload.length) with msgOk := !p.last }

/-- The expected packet of a WRITE_ACC. An uncorrectable half under the sum fails the device (R445). -/
def State.takeWriteAcc (s : State) (p : Packet) : Option State :=
  let c := p.dconn.toNat
  let a := p.raddr.toNat + p.offset.toNat
  match s.keyFail c .write p with
  | some acc => some (s.violation c p acc)
  | none =>
    if !p.first && !(s.conn c).msgOk then some (s.taken c p 1 0)
    else if s.rxWaits a p.payload.length then none
    else if !p.payload.isEmpty && s.sramError a p.payload.length then some ((s.rxFault c p 1 a true).reportFailure .updateHardware)
    else some ((s.addPacket c p).taken c p 1 0)

/-- WRITE_ACC. -/
def execRxWriteAcc (pkt : Packet) (s : State) : Host.Outcome State Fault Refusal :=
  .next (s.rxData pkt .writeAcc State.takeWriteAcc State.ackAgain)

/-! ### READ_REQ (R230, R285) -/

/-- The READ_RESP packets, on the request's PSNs, from `a`. -/
def State.sendResponses (s : State) (c : Nat) (p : Packet) (a : Nat) : State :=
  let n := packetsOf p.len.toNat
  (List.range n).foldl (fun s i =>
    s.sendPacket c { blankPacket s c .readResp (p.psn + BitVec.ofNat 24 i) with
      first := i == 0
      last := i + 1 == n
      offset := BitVec.ofNat 31 (4096 * i)
      rkey := p.rkey
      raddr := p.raddr
      len := p.len
      payload := (List.range (min 4096 (p.len.toNat - 4096 * i))).map fun j => s.fetchByte (a + 4096 * i + j) }) s

/-- How a fetch stands (R230): the bytes to add to its address, too old, or still to come. -/
inductive FetchSt where
  | serve (add : Nat) | stale | later
  deriving DecidableEq, Repr

/-- The owner's step of R230: the step in progress, or the one after the last completed. -/
def State.ownStep (s : State) (p : Nat) : Nat := if s.pstate p = 3 then s.obj (0x3100 + p) 6 else (s.part p).lastStep + 1

/-- The half to read for a fetch that names step `n` in a WPAIR region. -/
def State.fetchState (s : State) (r n : Nat) : FetchSt :=
  let g := s.region r
  let half := g.bytes / 2
  let own := s.ownStep g.owner
  if n = own then .serve (if g.live = 1 then half else 0)
  else if n + 1 = own ∧ r ∉ (s.part g.owner).begun then .serve (if g.live = 1 then 0 else half)
  else if n < own then .stale
  else .later

/-- How a read request stands; only a STEPRD one over a WPAIR region is a fetch. -/
def State.readState (s : State) (p : Packet) : FetchSt :=
  match placeOf p.raddr.toNat with
  | .bulk o => match s.regionOf o 1 with
    | some r => if (s.region r).cls = 1 then s.fetchState r p.origin.toNat else .serve 0
    | none => .serve 0
  | _ => .serve 0

/-- Answer a read: the data, NAK FAULT where it cannot be read (R137, R153), or NAK STALE. -/
def State.answerRead (s : State) (c : Nat) (p : Packet) (st : FetchSt) : State :=
  match st with
  | .stale => s.sendNak c p.psn 4 0
  | .later => s.setConn c { s.conn c with fetches := (s.conn c).fetches ++ [p] }
  | .serve add =>
    let a := p.raddr.toNat + add
    if s.sramError a p.len.toNat then (s.sendNak c p.psn 5 0).logSram a
    else if s.bulkError a p.len.toNat then s.sendNak c p.psn 5 0
    else ((s.touch a).countBulk 1 a p.len.toNat).sendResponses c p a

/-- The expected READ_REQ: it takes the PSNs of its responses. -/
def State.takeRead (s : State) (p : Packet) : Option State :=
  let c := p.dconn.toNat
  match s.keyFail c .read p with
  | some acc => some (s.violation c p acc)
  | none =>
    if s.rxWaits p.raddr.toNat p.len.toNat then none
    else some ((s.answerRead c p (s.readState p)).taken c p (packetsOf p.len.toNat) 0)

/-- A READ_REQ that comes again is answered again (R294). -/
def State.readAgain (s : State) (p : Packet) : State :=
  match s.keyFail p.dconn.toNat .read p with
  | some _ => s.ackAgain p
  | none => s.answerRead p.dconn.toNat p (s.readState p)

/-- READ_REQ. -/
def execRxReadReq (pkt : Packet) (s : State) : Host.Outcome State Fault Refusal := .next (s.rxData pkt .readReq State.takeRead State.readAgain)

/-- STALE_FETCH_SERVE: the fetches of a connection that wait are looked at again after a flip (R230). -/
def State.serveFetches (s : State) (c : Nat) : State :=
  let l := (s.conn c).fetches
  l.foldl (fun s p => s.answerRead c p (s.readState p)) (s.setConn c { s.conn c with fetches := [] })

/-- STALE_FETCH_SERVE. -/
def execStaleFetchServe (conn : ConnId) (s : State) : Host.Outcome State Fault Refusal := .next (s.serveFetches conn)

/-! ### READ_RESP and ATOMIC_RESP (R285, R301) -/

/-- An answer completes its entry: withdrawn ones are not placed (R301). -/
def State.answered (s : State) (c : Nat) (e : WorkEntry) (bytes : Nat) : State :=
  let s := s.finishSend c e (if e.withdrawn then ccWithdrawn else ccOk) bytes 0
  (s.setConn c (s.conn c).settle.progress).closeTry c

/-- READ_RESP: the next bytes of its READ are placed; the last completes it. -/
def State.rxReadResp (s₀ : State) (p : Packet) : State :=
  if p.kind ≠ .readResp then s₀
  else match s₀.admitPacket p with
    | (s, none) => s
    | (s, some p) =>
      let c := p.dconn.toNat
      match (s.conn c).sendQ.find? fun e => e.op == 5 && decide (0 < e.sent) && decide ((p.psn - e.psn).toNat < packetsOf e.len) with
      | none => s
      | some e =>
        let off := 4096 * (p.psn - e.psn).toNat
        let bs := p.payload.take (e.len - off)
        if off ≠ e.got then s
        else if !e.withdrawn && s.rxWaits (e.laddr + off) bs.length then s₀
        else
          let s := if e.withdrawn then s else s.boreStore (s.conn c).part (e.laddr + off) bs
          let e := { e with got := e.got + bs.length }
          let s := s.setConn c { s.conn c with sendQ := putEntry (s.conn c).sendQ e }
          if e.len ≤ e.got then s.answered c e e.len else s.setConn c (s.conn c).settle.progress

/-- READ_RESP. -/
def execRxReadResp (pkt : Packet) (s : State) : Host.Outcome State Fault Refusal := .next (s.rxReadResp pkt)

/-- ATOMIC_RESP: the old value is written at LADDR. -/
def State.rxAtomicResp (s₀ : State) (p : Packet) : State :=
  if p.kind ≠ .atomicResp then s₀
  else match s₀.admitPacket p with
    | (s, none) => s
    | (s, some p) =>
      let c := p.dconn.toNat
      match (s.conn c).sendQ.find? fun e => e.isAtomic && decide (0 < e.sent) && e.psn == p.psn with
      | none => s
      | some e =>
        if e.withdrawn then s.answered c e 0
        else if s.rxWaits e.laddr 8 then s₀
        else (s.boreStore (s.conn c).part e.laddr (bytesOf 8 p.opnd1.toNat)).answered c e 8

/-- ATOMIC_RESP. -/
def execRxAtomicResp (pkt : Packet) (s : State) : Host.Outcome State Fault Refusal := .next (s.rxAtomicResp pkt)

/-! ### Atomics (R293) -/

/-- Send the old value. -/
def State.sendOld (s : State) (c : Nat) (p : Packet) (old : BitVec 64) : State :=
  s.sendPacket c { blankPacket s c .atomicResp p.psn with first := true, last := true, len := 8, origin := p.origin, opnd1 := old }

/-- The new value of an atomic. -/
def atomicNew (p : Packet) (old : BitVec 64) : BitVec 64 :=
  if p.kind = .fetchAdd then old + p.opnd1 else if old = p.opnd1 then p.opnd2 else old

/-- Keep a result: the last 16 by PSN, and for the step by ORIGIN. -/
def Conn.keepAtomic (x : Conn) (p : Packet) (old : BitVec 64) : Conn :=
  { x with atomics := (⟨p.psn, p.origin, old⟩ :: x.atomics).take 16, atomicStep := (⟨p.psn, p.origin, old⟩ :: x.atomicStep).take 16 }

/-- The expected atomic: executed once per ORIGIN of the step. -/
def State.takeAtomic (s : State) (p : Packet) : Option State :=
  let c := p.dconn.toNat
  let a := p.raddr.toNat
  match s.keyFail c .atomic p with
  | some acc => some (s.violation c p acc)
  | none =>
    match (s.conn c).atomicStep.find? fun r => r.origin == p.origin with
    | some r =>
      let s := s.setConn c { s.conn c with atomics := (⟨p.psn, p.origin, r.old⟩ :: (s.conn c).atomics).take 16 }
      some ((s.sendOld c p r.old).taken c p 1 0)
    | none =>
      if s.rxWaits a 8 then none
      else if s.sramError a 8 then some (s.rxFault c p 1 a true)
      else if s.bulkError a 8 then some (s.rxFault c p 1 a false)
      else
        let old := BitVec.ofNat 64 (s.natAt a 8)
        let s := s.boreWrite a (bytesOf 8 (atomicNew p old).toNat)
        let s := s.setConn c ((s.conn c).keepAtomic p old)
        some ((s.sendOld c p old).taken c p 1 0)

/-- An atomic that comes again takes the kept result. -/
def State.atomicAgain (s : State) (p : Packet) : State :=
  let c := p.dconn.toNat
  match (s.conn c).atomics.find? fun r => r.psn == p.psn with
  | some r => s.sendOld c p r.old
  | none => s.ackAgain p

/-- FETCH_ADD. -/
def execRxFetchAdd (pkt : Packet) (s : State) : Host.Outcome State Fault Refusal := .next (s.rxData pkt .fetchAdd State.takeAtomic State.atomicAgain)
/-- CMP_SWAP. -/
def execRxCmpSwap (pkt : Packet) (s : State) : Host.Outcome State Fault Refusal := .next (s.rxData pkt .cmpSwap State.takeAtomic State.atomicAgain)

/-! ### PLACEMENT_TIMEOUT (R298) -/

/-- An inbound data packet whose placement did not start within 20 µs: discarded, NAK BUSY with EPSN. -/
def State.placementTimeout (s : State) (p : Packet) : State :=
  if !dataKind p.kind || answerKind p.kind then s
  else match s.admitPacket p with
    | (s, none) => s
    | (s, some p) =>
      let c := p.dconn.toNat
      if p.psn = (s.conn c).epsn then (s.sendNak c p.psn 3 0).count 0x4201 8 32 1 else s

/-- PLACEMENT_TIMEOUT. -/
def execPlacementTimeout (pkt : Packet) (s : State) : Host.Outcome State Fault Refusal := .next (s.placementTimeout pkt)

/-! ### CLOSE (R283) -/

/-- CLOSE from the peer: acknowledged; what is outstanding completes FLUSHED and the context is FREE (log 27). -/
def State.rxClose (s : State) (p : Packet) : State :=
  if p.kind ≠ .close then s
  else
    let c := p.dconn.toNat
    let closing := (s.conn c).st == .closing
    let s := if closing then s.setConn c { s.conn c with st := .isOpen } else s
    match s.admitPacket p with
    | (s, none) => if closing ∧ (s.conn c).st = .isOpen then s.setConn c { s.conn c with st := .closing } else s
    | (s, some _) =>
      let s := (s.setConn c ((s.conn c).expect 1)).sendAck c 0
      let s := s.flushConn c
      (s.setConn c (s.conn c).freed).countOpen

/-- CLOSE_PKT. -/
def execRxClose (pkt : Packet) (s : State) : Host.Outcome State Fault Refusal := .next (s.rxClose pkt)

/-! ### Fabric barriers (R302, R303) -/

/-- Sync objects of kind FABRIC_BARRIER of a partition whose GRP is `g`. -/
def State.barriersOf (s : State) (p g : Nat) : List Nat :=
  (s.syncs.entries.filter fun e => e.2.part == some p && e.2.kind == 2 && e.2.grp == g).map (·.1)

/-- A child's arrival: for the generation held it counts, for the next it is held, any other is logged. -/
def State.childArrives (s : State) (c : Nat) (p : Packet) (n : Nat) : State :=
  let x := s.sync n
  if p.gen.toNat = x.gen then
    match s.barrierGroup x.grp with
    | none => s
    | some b => ((s.setSync n { x with children := (c - b.conn0 - 1) :: x.children }).barrierTry n).barrierTry n
  else if p.gen.toNat = (x.gen + 1) % 2 ^ 16 then
    match s.barrierGroup x.grp with
    | none => s
    | some b => s.setSync n { x with nextGen := (c - b.conn0 - 1) :: x.nextGen }
  else s.logEvent 0x79 0x0905 (x.grp + p.gen.toNat * 2 ^ 16 + x.gen * 2 ^ 32)

/-- The expected BARRIER_ARRIVE. -/
def State.takeArrive (s : State) (p : Packet) : Option State :=
  let c := p.dconn.toNat
  let s := (s.barriersOf (s.conn c).part p.group.toNat).foldl (fun s n => s.childArrives c p n) s
  some (s.taken c p 1 0)

/-- The expected BARRIER_RELEASE: forwarded to the children; the generation advances and the waiters go. -/
def State.takeRelease (s : State) (p : Packet) : Option State :=
  let c := p.dconn.toNat
  let s := (s.barriersOf (s.conn c).part p.group.toNat).foldl (fun s n =>
    let x := s.sync n
    match s.barrierGroup x.grp with
    | none => s
    | some b => match s.barrierIndex b with
      | none => s
      | some i => if p.gen.toNat = x.gen ∧ x.sentUp then (s.barrierDone n b i).barrierTry n
        else if p.gen.toNat = x.gen then s
        else s.logEvent 0x79 0x0905 (x.grp + p.gen.toNat * 2 ^ 16 + x.gen * 2 ^ 32)) s
  some (s.taken c p 1 0)

/-- BARRIER_ARRIVE. -/
def execBarrierArrive (pkt : Packet) (s : State) : Host.Outcome State Fault Refusal :=
  .next (s.rxData pkt .barrierArrive State.takeArrive State.ackAgain)
/-- BARRIER_RELEASE. -/
def execBarrierRelease (pkt : Packet) (s : State) : Host.Outcome State Fault Refusal :=
  .next (s.rxData pkt .barrierRelease State.takeRelease State.ackAgain)

end Sys2Proof.Machine
end

