-- ==== Sys2Proof/Machine/Tests.lean ====
section
/-! DEFINITION. Built-in tests (R416–R421): lane patterns, bulk channels, core self-tests. -/

namespace Sys2Proof.Machine

/-- A completed test is logged: object in [15:0], result in [31:16] (R416; log 29). -/
def State.testDone (s : State) (i result : Nat) : State := s.logEvent 0x40 0x0D05 (i + result * 2 ^ 16)

/-! ### Lanes (R417) -/

/-- A write of MODE: a test takes the lane out of service; MODE 0 returns it. -/
def laneTestAct (lane v : Nat) : Act := fun s =>
  if 3 < v then (s, stRange)
  else
    let s := (s.setObj (0x5000 + lane) 1 v).setObj (0x5000 + lane) 5 0
    if v ≠ 0 then (s.laneLeaves lane 0 .user, stOk)
    else (if s.obj (0x4020 + lane) 2 = 1 then s.setService lane 1 else s, stOk)

/-- LANE_TEST_MODE. -/
def execLaneTestMode (m : Master) (lane : LaneId) (v : Byte) (s : State) : Host.Outcome State Fault Refusal :=
  .next (s.act m (0x5000 + lane) 1 (laneTestAct lane v.toNat))

/-- CHECKER_LOCK: counts start at lock. -/
def execCheckerLock (lane : LaneId) (s : State) : Host.Outcome State Fault Refusal :=
  .next (if s.obj (0x5000 + lane) 1 = 0 ∨ s.obj (0x5000 + lane) 5 = 1 then s
    else ((s.setObj (0x5000 + lane) 5 1).setObj (0x5000 + lane) 3 0).setObj (0x5000 + lane) 4 0)

/-- CHECKER_LOCK_LOSS: the counts since lock stand, and the loss is counted. -/
def execCheckerLockLoss (lane : LaneId) (bits errors : BitVec 64) (s : State) : Host.Outcome State Fault Refusal :=
  .next (if s.obj (0x5000 + lane) 5 = 0 then s
    else (((s.setObj (0x5000 + lane) 5 0).setObj (0x5000 + lane) 3 bits.toNat).setObj (0x5000 + lane) 4 errors.toNat).count
      (0x5000 + lane) 6 32 1)

/-! ### Bulk channels (R418) -/

/-- The bulk span, over all channels of its interleave, that holds a channel's 2 MiB chunk: offset and length (R140). -/
def chunkSpan (w ch c : Nat) : Nat × Nat :=
  if c < 32 * w then (c * 0x2000000, 0x2000000)
  else
    let x := c * 0x200000 - w * 2 ^ 26
    ((w + ch / 4 * ((128 - w) / 4) + x / 2 ^ 28) * 2 ^ 30 + x % 2 ^ 28 * 4, 0x800000)

/-- Does a chunk lie in an enabled region? -/
def State.chunkUsed (s : State) (ch c : Nat) : Bool :=
  let x := chunkSpan (s.obj 0x3410 1) ch c
  (List.range 64).any fun r =>
    let g := s.region r
    decide (0 < g.size) && decide (g.start < x.1 + x.2) && decide (x.1 < g.stop)

/-- The bytes of a channel's chunks read as zero; no error stays. -/
def State.zeroChunks (s : State) (ch first n : Nat) : State :=
  let mine (a : Nat) : Bool :=
    let m := bulkMap (s.obj 0x3410 1) (a - bulkBase)
    decide (bulkBase ≤ a) && decide (a < hostBase) && m.1 == ch && decide (first * 0x200000 ≤ m.2) && decide (m.2 < (first + n) * 0x200000)
  { s with mem := s.mem.keep fun a => !mine a, bulkBad := s.bulkBad.keep fun u => !mine (64 * u) }

/-- Is any partition sealed? -/
def State.anySealed (s : State) : Bool := (List.range 4).any s.isSealed

/-- The partitions that close a bulk test object, and those that close a core's self-test object (R326, R416). -/
def State.bulkTestClosed (s : State) : List Nat := (List.range 4).filter s.isSealed
def State.selfTestClosed (s : State) (core : Nat) : List Nat :=
  (List.range 4).filter fun p => s.isSealed p && (quadOf (core / 4)).any fun c => s.partOf c == some p

/-- An access that sealed partitions close: counted at each (R326). -/
def sealedByAll (l : List Nat) : Act := fun s => (s.each l fun s p => s.count (0x1230 + p) 7 32 1, stSealed)

/-- CONTROL = 1 of a bulk test. -/
def bulkTestAct (ch : Nat) : Act := fun s =>
  let i := 0x5020 + ch
  let first := s.obj i 2
  let n := s.obj i 3
  if !s.bulkTestClosed.isEmpty then sealedByAll s.bulkTestClosed s
  else if s.obj 0x2000 1 ≠ 2 ∨ (List.range 4).any (fun p => s.pstate p != 0) ∨ s.obj i 5 = 1
      ∨ (List.range (min n (4096 - first))).any (fun k => s.chunkUsed ch (first + k)) then (s, stWrongState)
  else if 4096 < first + n then (s, stRange)
  else
    let s := (((s.setObj i 5 1).setObj i 6 0).setObj i 7 0).setObj i 8 0
    ({ s with tests := (s.tests.set ch first).set (16 + ch) n }, stOk)

/-- BULK_TEST_START. -/
def execBulkTestStart (m : Master) (ch : ChanId) (s : State) : Host.Outcome State Fault Refusal :=
  .next (s.act m (0x5020 + ch) 4 (bulkTestAct ch))

/-- CONTROL = 2: the chunk in progress is zeroed; how many bytes were checked is not stated (log 4). -/
def bulkStopAct (ch : Nat) : Act := fun s =>
  let i := 0x5020 + ch
  if !s.bulkTestClosed.isEmpty then sealedByAll s.bulkTestClosed s
  else if s.obj i 5 ≠ 1 then (s, stWrongState)
  else
    let s := s.zeroChunks ch (s.tests.get ch) (s.tests.get (16 + ch))
    (({ s with freeCtr := s.freeCtr + 1 }.setObj i 5 4).setObj i 6 (Config.openValue s.freeCtr % (s.tests.get (16 + ch) * 0x200000 + 1)), stOk)

/-- BULK_TEST_STOP. -/
def execBulkTestStop (m : Master) (ch : ChanId) (s : State) : Host.Outcome State Fault Refusal :=
  .next (s.act m (0x5020 + ch) 4 (bulkStopAct ch))

/-- BULK_TEST_END: every chunk written, read and zeroed. -/
def State.bulkTestEnd (s : State) (ch : Nat) (bad : Nat) (first : Nat) : State :=
  let i := 0x5020 + ch
  if s.obj i 5 ≠ 1 then s
  else
    let bytes := s.tests.get (16 + ch) * 0x200000
    let s := s.zeroChunks ch (s.tests.get ch) (s.tests.get (16 + ch))
    let s := (s.count (0x3470 + ch) 1 64 bytes).count (0x3470 + ch) 2 64 (2 * bytes)
    let r := if bad = 0 then 2 else 3
    ((((s.setObj i 5 r).setObj i 6 bytes).setObj i 7 bad).setObj i 8 first).testDone i r

/-- BULK_TEST_END. -/
def execBulkTestEnd (ch : ChanId) (bad : Word) (first : BitVec 64) (s : State) : Host.Outcome State Fault Refusal :=
  .next (s.bulkTestEnd ch bad.toNat first.toNat)

/-! ### Core self-test (R421) -/

/-- CONTROL = 1 of a core self-test: the core FENCED or UNASSIGNED. -/
def selfTestAct (core : Nat) : Act := fun s =>
  let i := 0x5050 + core
  if !(s.selfTestClosed core).isEmpty then sealedByAll (s.selfTestClosed core) s
  else if (s.cstate core ≠ 1 ∧ s.cstate core ≠ 3) ∨ s.obj i 2 = 1 then (s, stWrongState)
  else ((s.wakeQuad (core / 4)).setObj i 2 1, stOk)

/-- SELF_TEST_START. -/
def execSelfTestStart (m : Master) (core : CoreId) (s : State) : Host.Outcome State Fault Refusal :=
  .next (s.act m (0x5050 + core) 1 (selfTestAct core))

/-- RESULT of a self-test (R421). -/
def testNum : TestResult → Nat
  | .passed => 2 | .sram => 3 | .array => 4 | .vector => 5 | .sequencer => 6

/-- SELF_TEST_END: the scratchpad is zeroed, the core's state unchanged. -/
def State.selfTestEnd (s : State) (core : Nat) (r : TestResult) (word : Nat) : State :=
  let i := 0x5050 + core
  if s.obj i 2 ≠ 1 then s
  else
    let s := ((s.zeroScratch core).setObj i 2 (testNum r)).setObj i 3 (if r = .sram then word else 0xFFFFFFFF)
    (s.count i 4 32 1).testDone i (testNum r)

/-- SELF_TEST_END. -/
def execSelfTestEnd (core : CoreId) (result : TestResult) (word : Word) (s : State) : Host.Outcome State Fault Refusal :=
  .next (s.selfTestEnd core.val result word.toNat)

end Sys2Proof.Machine
end

