-- ==== Sys2Proof/Machine/Job.lean ====
section
/-! DEFINITION. The training job (R234–R247): roles, heartbeats, failures, digests, checkpoints, spare takeover. Messages to
other devices are `Output.jobMessage`, numbered here (log 50). -/

namespace Sys2Proof.Machine

/-! ### Ranks and nodes (R234, R244) -/

def State.jobReps (s : State) : Nat := s.obj 0x3500 5
def State.jobP (s : State) : Nat := s.obj 0x3500 0x10
def State.ownRank (s : State) : Nat := s.obj 0x3500 4
def State.ownNode (s : State) : Nat := s.obj 0x1100 3
def State.isLead (s : State) : Bool := s.obj 0x3500 2 == 1
def State.inJob (s : State) : Bool := s.obj 0x3500 2 == 1 || s.obj 0x3500 2 == 2
def State.recoveringJob (s : State) : Bool := s.obj 0x3500 0x13 == 2

/-- The node of a rank: the spare it was given, else its entry of MEMBERS. -/
def State.nodeOfRank (s : State) (r : Nat) : Nat :=
  match s.job.given.find? fun x => x.1 == r with
  | some x => x.2
  | none => s.natAt (s.obj 0x3500 6 + 2 * r) 2

/-- The rank of a node. -/
def State.rankOfNode (s : State) (n : Nat) : Option Nat := (List.range s.jobReps).find? fun r => s.nodeOfRank r == n

/-- The buddy of a rank, and its ward (R234). -/
def State.buddyOf (s : State) (r : Nat) : Nat := (r + s.obj 0x3500 9) % s.jobReps
def State.wardOf (s : State) (r : Nat) : Nat := (r + s.jobReps - s.obj 0x3500 9 % s.jobReps) % s.jobReps

/-- Tell every other member. -/
def State.tellMembers (s : State) (what arg : Nat) : State :=
  s.each ((List.range s.jobReps).filter fun r => r != s.ownRank) fun s r => s.emit (.jobMessage (s.nodeOfRank r) what arg)

/-- Set ROLE; the membership record follows (R414). -/
def State.setRole (s : State) (r : Nat) : State :=
  let s := s.setObj 0x3500 2 r
  { s with member := if r = 0 then none else if r ≤ 3 then some (BitVec.ofNat 32 (s.obj 0x3500 1), r) else s.member }

/-- An event that a rule calls for without giving its code: the code is free (log 4). -/
def State.logOpen (s : State) (unit detail : Nat) : State :=
  State.logEvent { s with freeCtr := s.freeCtr + 1 } unit (Config.openValue s.freeCtr % 65536) detail

/-- The job is HELD on this device, and the lead tells the members (R243). -/
def State.holdJob (s : State) : State :=
  let s := (if s.pstate s.jobP = 3 then s.enterHeld s.jobP 0 else s).setObj 0x3500 0x13 0
  if s.isLead then s.tellMembers 0x404 0 else s

/-! ### Failures (R235, R243, R247) -/

/-- Nodes packed 14 bits each, for a report. -/
def packNodes (l : List Nat) : Nat := (l.zipIdx).foldl (fun a x => a + x.1 * 2 ^ (14 * x.2)) 0

/-- Records of a failed rank lost with a second device: its buddy before the spare has pulled, or its ward before the ward's
stream to the spare is complete (R247). -/
def State.recordsLost (s : State) (r : Nat) : Bool :=
  s.job.failed.any fun f =>
    (s.buddyOf f.1 == r && f.1 ∉ s.job.restored) || (s.wardOf f.1 == r && r ∉ s.job.reported)

/-- The lead declares a rank failed. During recovery a second failure restarts it, or loses records. -/
def State.declareFailed (s : State) (r : Nat) : State :=
  if !s.isLead || decide (s.jobReps ≤ r) || r == s.ownRank then s
  else if !s.recoveringJob then
    if s.job.failed.any fun f => f.1 == r then s
    else { s with job := { s.job with
      failed := s.job.failed ++ [(r, s.nodeOfRank r)]
      declared := if s.job.failed.isEmpty then s.now else s.job.declared } }
  else if s.recordsLost r then s.holdJob
  else if s.job.failed.any fun f => f.1 == r then
    { s with job := { s.job with admitted := s.job.admitted.filter (· != r), restored := [] } }
  else { s with job := { s.job with failed := s.job.failed ++ [(r, s.nodeOfRank r)], restored := [] } }

/-- HEARTBEAT: this device's own is sent to the lead, or by the lead to every member; another node's is received. While pair
0 restarts heartbeats pause (R426). -/
def State.heartbeat (s : State) (n : Nat) : State :=
  if s.spDown0 || !s.inJob then s
  else if n = s.ownNode then (if s.isLead then s.tellMembers 0x405 s.ownRank else s.tellLead 0x405 s.ownRank)
  else { s with job := { s.job with missed := s.job.missed.set n 0 } }

/-- HEARTBEAT. -/
def execHeartbeat (node : NodeId) (s : State) : Host.Outcome State Fault Refusal := .next (s.heartbeat node)

/-- The deputy's rank (R234.16). -/
def State.deputyRank (s : State) (lead : Nat) : Nat :=
  if s.obj 0x3500 0x16 = 0 then (lead + 1) % s.jobReps else if lead = 0 then 1 else 0

/-- HEARTBEAT_LOSS: the lead declares the member failed; a member reports the lead to the deputy. -/
def State.heartbeatLoss (s : State) (n : Nat) : State :=
  if s.spDown0 || !s.inJob then s
  else
    let s := { s with job := { s.job with missed := s.job.missed.set n 3 } }
    match s.rankOfNode n with
    | none => s
    | some r =>
      if s.isLead then s.declareFailed r
      else if n = s.obj 0x3500 3 then s.emit (.jobMessage (s.nodeOfRank (s.deputyRank r)) 0x406 s.ownRank)
      else s

/-- HEARTBEAT_LOSS. -/
def execHeartbeatLoss (node : NodeId) (s : State) : Host.Outcome State Fault Refusal := .next (s.heartbeatLoss node)

/-- DEPUTY_TAKEOVER: the deputy that the lead does not confirm becomes the lead; the old lead is the failed node. -/
def State.deputyTakeover (s : State) (confirmed : Bool) : State :=
  match s.rankOfNode (s.obj 0x3500 3) with
  | none => s
  | some old =>
    if confirmed ∨ s.obj 0x3500 2 ≠ 2 ∨ s.deputyRank old ≠ s.ownRank then s
    else
      let s := (s.setRole 1).setObj 0x3500 3 s.ownNode
      (s.tellMembers 0x407 s.ownNode).declareFailed old

/-- DEPUTY_TAKEOVER. -/
def execDeputyTakeover (confirmed : Bool) (s : State) : Host.Outcome State Fault Refusal := .next (s.deputyTakeover confirmed)

/-- FAILURE_REPORT at the lead: a fault that a repeat would meet again holds the job; every other cause is a failed device. -/
def State.failureReport (s : State) (r : Nat) (c : FailCause) : State :=
  if !s.isLead || decide (s.jobReps ≤ r) then s
  else match c with
    | .programFault => s.holdJob
    | .updateParameter => s.holdJob
    | _ => s.declareFailed r

/-- FAILURE_REPORT. -/
def execFailureReport (rank : Nat) (cause : FailCause) (s : State) : Host.Outcome State Fault Refusal :=
  .next (s.failureReport rank cause)

/-- Retire (R244): vaults wiped, the job's partition dissolved, REST. -/
def State.retireDevice (s : State) : State :=
  let p := s.jobP
  let s := if p < 4 ∧ s.pstate p ≠ 0 then s.dissolvePart p (some .handOver) else s
  let s := s.each (List.range 4) fun s q => if s.pstate q = 3 then s.enterHeld q 0 else s
  let old := s.obj 0x2000 1
  let s := if old = 1 then s
    else (((s.wipeAll .handOver).enterRest.setObj 0x2000 1 1).setObj 0x2000 5 0).logEvent 0x41 0x0C01 (old + 256)
  { s with job := { s.job with retired := true } }

/-- RETIRE. -/
def execRetire (s : State) : Host.Outcome State Fault Refusal := .next (if s.clockRuns then s.retireDevice else s)

/-- LOCKSTEP_MISMATCH: the pair restarts, local epochs advance, requests in flight get no response; a second mismatch within
10 s retires the device (R426). Event detail: pair in [7:0], restarts in [15:8] (log 29). -/
def State.lockstep (s : State) (pair : Nat) (again : Bool) : State :=
  if !s.clockRuns then s
  else
    let s := { s with spDown0 := s.spDown0 || pair == 0, spDown1 := s.spDown1 || pair == 1, mbWaiting := none }
    let s := s.advanceFirmware.logEvent 0x40 0x0D03 (pair + (if again then 2 else 1) * 256)
    if again then s.retireDevice else s

/-- LOCKSTEP_MISMATCH. -/
def execLockstepMismatch (pair : Fin 2) (within10s : Bool) (s : State) : Host.Outcome State Fault Refusal :=
  .next (s.lockstep pair.val within10s)

/-- SP_RESTART: the pair is back. -/
def execSpRestart (pair : Fin 2) (s : State) : Host.Outcome State Fault Refusal :=
  .next { s with spDown0 := s.spDown0 && pair.val != 0, spDown1 := s.spDown1 && pair.val != 1 }

/-! ### DIGEST_REPORT (R237) -/

/-- Is the job in replicated mode: no entry of the list SHARDED? -/
def State.replicated (s : State) : Bool := (s.part s.jobP).updList.all fun u => !u.sharded

/-- The working-copy digests of every replica: a minority fails, no strict majority holds the job. -/
def State.judgeDigests (s : State) : State :=
  let l := s.job.digests
  let votes (v : BitVec 64) := (l.filter fun x => x.2.1 == v).length
  match l.find? fun x => decide (s.jobReps < 2 * votes x.2.1) with
  | none => s.holdJob
  | some x => s.each ((l.filter fun y => y.2.1 != x.2.1).map (·.1)) State.declareFailed

/-- The master digest of a repeated step must equal the one kept; a difference is logged with both values and holds the job. -/
def State.keepDigest (s : State) (r : Nat) (step : Word) (d : BitVec 64) : State :=
  if s.obj (0x3050 + s.jobP) 1 ≠ 1 then s
  else match s.job.keptDig.find? fun x => x.1 == r && x.2.1 == step with
    | none => { s with job := { s.job with keptDig := (r, step, d) :: s.job.keptDig } }
    | some x => if x.2.2 = d then s else (s.logOpen 0x40 (x.2.2.toNat + d.toNat * 2 ^ 64)).holdJob

/-- DIGEST_REPORT at the lead. -/
def State.digestReport (s : State) (r : Nat) (step : Word) (wc d : BitVec 64) : State :=
  if !s.isLead || decide (s.jobReps ≤ r) then s
  else
    let old := if s.job.digStep = step then s.job.digests.filter fun x => x.1 != r else []
    let s := State.keepDigest { s with job := { s.job with digests := old ++ [(r, wc, d)], digStep := step } } r step d
    if s.replicated && s.job.digests.length == s.jobReps then s.judgeDigests else s

/-- DIGEST_REPORT. -/
def execDigestReport (rank : Nat) (step : Word) (wc master : BitVec 64) (s : State) : Host.Outcome State Fault Refusal :=
  .next (s.digestReport rank step wc master)

/-! ### Checkpoints on the buddy (R239, R240) -/

def Job.ward (j : Job) (k : Bool) : CkSlot := if k then j.ward1 else j.ward0

/-- The WARD region, and the address of the ward's slot `k` in it. -/
def State.wardRegion (s : State) : Nat := s.obj 0x3500 0x12
def State.wardAddr (s : State) (k : Bool) : Nat :=
  let g := s.region s.wardRegion
  bulkBase + g.start + (if k then g.bytes / 2 else 0)

/-- Does a slot of `n` bytes fit? -/
def State.wardOk (s : State) (n : Nat) : Bool :=
  decide (s.wardRegion < 64) && (s.region s.wardRegion).cls == 4 && decide (64 + n ≤ (s.region s.wardRegion).bytes / 2)

/-- Store a ward slot and its header. -/
def State.setWard (s : State) (k : Bool) (x : CkSlot) : State :=
  let s := { s with job := if k then { s.job with ward1 := x } else { s.job with ward0 := x } }
  if s.wardOk x.len then s.putBytes (s.wardAddr k) (slotHeader x) else s

/-- Does the slot hold the newest complete checkpoint, or the latest job-complete one (R240, R241)? -/
def State.wardKept (s : State) (k : Bool) : Bool :=
  let x := s.job.ward k
  let y := s.job.ward (!k)
  x.st == .complete && (y.st != .complete || decide (y.step.toNat ≤ x.step.toNat) || s.job.jobDone == some x.step)

/-- BEGIN: the slot is FILLING, or the owner is refused. -/
def State.ckptBegin (s : State) (k : Bool) (x : CkSlot) : State :=
  if s.wardKept k || !s.wardOk x.len then s.emit (.ckptAnswer false x.step) else s.setWard k x

/-- BEGIN. -/
def execCkptBegin (slot : Bool) (step : Word) (jobId : Word) (rank : BitVec 14) (len : BitVec 64) (s : State) : Host.Outcome State Fault Refusal :=
  .next (s.ckptBegin slot { st := .filling, step := step, rank := rank.toNat, jobId := jobId, len := len.toNat })

/-- RECORDS: the next bytes of a FILLING slot, `off` from the slot's start. -/
def State.ckptRecords (s : State) (k : Bool) (off : Nat) (data : List Byte) : State :=
  let x := s.job.ward k
  if x.st ≠ .filling ∨ off ≠ 64 + x.got ∨ x.len < x.got + data.length ∨ !s.wardOk x.len
      ∨ !s.bulkReady (s.wardAddr k + off - bulkBase) data.length then s
  else
    let s := s.putBytes (s.wardAddr k + off) data
    let x := { x with got := x.got + data.length }
    { s with job := if k then { s.job with ward1 := x } else { s.job with ward0 := x } }

/-- RECORDS. -/
def execCkptRecords (slot : Bool) (off : Nat) (data : List Byte) (s : State) : Host.Outcome State Fault Refusal :=
  .next (s.ckptRecords slot off data)

/-- The update list of the job as it stands in memory. -/
def State.jobList (s : State) : List UpdEntry := (s.updWords s.jobP).map updEntryOf

/-- The master digest of records laid out as R239 from byte 64 of a slot, grouped by the device's own update list (log 51). -/
def State.slotDigest (s : State) (a : Nat) : BitVec 64 :=
  let l := s.jobList
  s.masterDigest l fun _ n => a + 64 + 12288 * blocksBefore l n

/-- CKPT_END: equal digests complete the slot; else it is EMPTY and the owner restreams. -/
def State.ckptEnd (s : State) (k : Bool) (d : BitVec 64) : State :=
  let x := s.job.ward k
  if x.st ≠ .filling then s
  else if x.got = x.len ∧ s.slotDigest (s.wardAddr k) = d then
    (s.setWard k { x with st := .complete, digest := d }).emit (.ckptAnswer true x.step)
  else (s.setWard k { x with st := .empty }).emit (.ckptAnswer false x.step)

/-- CKPT_END. -/
def execCkptEnd (slot : Bool) (digest : BitVec 64) (s : State) : Host.Outcome State Fault Refusal := .next (s.ckptEnd slot digest)

/-! ### Checkpoints at the owner and the lead (R240–R242) -/

/-- CHECKPOINT_STREAM: the next `n` bytes of the home slot go to the buddy: a BEGIN before the first, an END with the DIGEST
after the last. Streaming again after END is a restream after a NAK, and is counted (log 52). -/
def State.streamOut (s : State) (n : Nat) : State :=
  match s.job.stream with
  | none => s
  | some (k, m) =>
    let x := s.job.home k
    let total := 64 + x.len
    if n = 0 ∨ s.suspended 3 ∨ !s.homeOk k then s
    else
      let s := if m = 0 then s.count 0x3520 5 32 1 else s
      let m := if m = 0 then total else m
      let off := total - m
      let n := min n m
      let buddy := s.nodeOfRank (s.buddyOf s.ownRank)
      let s := if off = 0 then s.emit (.jobMessage buddy 0x503 x.step.toNat) else s
      let s := (s.countBulk 1 (s.homeAddr k + off) n).emit (.ckptBytes k off (s.bytesAt (s.homeAddr k + off) n))
      let s := State.setObj { s with job := { s.job with stream := some (k, m - n) } } 0x3520 4 ((off + n) / 65536)
      if m = n then s.emit (.jobMessage buddy 0x502 x.digest.toNat) else s

/-- CHECKPOINT_STREAM. -/
def execCheckpointStream (n : Nat) (s : State) : Host.Outcome State Fault Refusal := .next (s.streamOut n)

/-- The latest job-complete checkpoint is known. -/
def State.setCkptStep (s : State) (step : Word) : State :=
  State.setObj { s with job := { s.job with jobDone := some step } } 0x3500 0x14 step.toNat

/-- CKPT_COMPLETE: this device's own checkpoint is acknowledged and reported to the lead; at the lead a rank's report, and the
last one makes it job-complete; at a member the lead's announcement (R241). -/
def State.ckptComplete (s : State) (r : Nat) (step : Word) : State :=
  if !s.inJob || decide (s.jobReps ≤ r) then s
  else
    let own := r == s.ownRank
    let k := s.job.home1.st == .complete && s.job.home1.step == step
    if own && !((s.job.home k).st == .complete && (s.job.home k).step == step) then s
    else
      let s := if own then { s with job := { s.job with stream := none } } else s
      if !s.isLead then (if own then s.tellLead 0x501 (r + step.toNat * 2 ^ 16) else s.setCkptStep step)
      else if step ≠ s.job.capStep then s
      else
        let l := if r ∈ s.job.reported then s.job.reported else r :: s.job.reported
        let s := { s with job := { s.job with reported := l } }
        if (List.range s.jobReps).all (· ∈ l) then
          let s := s.setCkptStep step
          State.tellMembers { s with job := { s.job with reported := [] } } 0x500 step.toNat
        else s

/-- CKPT_COMPLETE. -/
def execCkptComplete (rank : Nat) (step : Word) (s : State) : Host.Outcome State Fault Refusal := .next (s.ckptComplete rank step)

/-! ### RESTORE (R244 step 4 and 5) -/

/-- A master record that the Bore pull delivers from the buddy slot: byte `j` of the slot is `Config.peerByte n j` (log 4). -/
def peerWord (n j : Nat) : Word := BitVec.ofNat 32 (natOf ((List.range 4).map fun i => Config.peerByte n (j + i)))
def peerRec (n off i : Nat) : ParamRec :=
  ⟨peerWord n (recAddr off i 0), peerWord n (recAddr off i 1), peerWord n (recAddr off i 2)⟩

/-- Offset in a slot of entry `n`'s records (R239). -/
def slotOff (l : List UpdEntry) (n : Nat) : Nat := 64 + 12288 * blocksBefore l n

/-- Write one entry's records to its MASTER region, and emit its working copies with STEP as it reads now (R223, R229). -/
def State.restoreEntry (s : State) (p n : Nat) (u : UpdEntry) (src : Nat → ParamRec) : State :=
  let s := (List.range (1024 * u.nblk)).foldl (fun s i =>
    let s := s.putRec u.mbase i (src i)
    s.setPart p { s.part p with updDone := (s.part p).updDone.set (updKey n i) 1 }) s
  let s := s.beginRegion p u.tensor.base
  let t := s.wcBack u.tensor
  let blocks := (List.range u.nblk).filter fun b => decide (u.first + b < 32 * t.tiles)
  let s := if inCompressed s u.tensor.base then s
    else { s with mem := (blocks.flatMap fun b => (List.range 1024).flatMap fun k =>
      let pos := t.elemPos (u.first + b) k
      s.emitCells p u t pos.1 pos.2).foldl (fun m c => m.set c.1 c.2) s.mem }
  ((blocks.map fun b => (u.first + b) / 32).eraseDups).foldl (fun s tile => s.finishTile p n u tile) s

/-- All entries, with STEP = CKPT_STEP for the working copies; the groups are those of the phase map for phase 2. -/
def State.restoreAll (s : State) (p : Nat) (l : List UpdEntry) (src : Nat → Nat → ParamRec) : State :=
  let step := s.obj (0x3100 + p) 6
  let s := s.setPart p { s.part p with
    upd := .running, updList := l, updDone := .empty, peerTiles := .empty, updated := [], begun := [], phaseWords := s.phasesFor p }
  let s := (s.installPhase p 2).setObj (0x3100 + p) 6 (s.obj 0x3500 0x14)
  ((l.zipIdx).foldl (fun s x => s.restoreEntry p x.2 x.1 (src x.2)) s).setObj (0x3100 + p) 6 step

/-- Home slot 0 after a pull from the buddy: the records unchanged, the header COMPLETE; slot 1 EMPTY. -/
def State.refillHome (s : State) (l : List UpdEntry) (src : Nat → Nat → ParamRec) (d : BitVec 64) : State :=
  let s := (l.zipIdx).foldl (fun s x => (List.range (1024 * x.1.nblk)).foldl (fun s i =>
    s.putRec (s.homeAddr false + slotOff l x.2) i (src x.2 i)) s) s
  let x : CkSlot := { st := .complete, step := BitVec.ofNat 32 (s.obj 0x3500 0x14), rank := s.ownRank
                      jobId := BitVec.ofNat 32 (s.obj 0x3500 1), len := 12288 * blocksBefore l l.length, digest := d }
  ((s.setHome false x).setHome true {}).putBytes (s.homeAddr false) (slotHeader x)

/-- This rank is restored; the ward of a failed rank and a spare stream their home slot on (R244 step 5). -/
def State.restoredOwn (s : State) (k : Bool) : State :=
  let streams := s.job.failed.any fun f => s.wardOf f.1 == s.ownRank || f.1 == s.ownRank
  let s := { s with job := { s.job with
    restored := s.ownRank :: s.job.restored
    stream := if streams then some (k, 64 + (s.job.home k).len) else none } }
  if s.isLead then s else s.tellLead 0x408 s.ownRank

/-- RESTORE of this device's own rank. -/
def State.restoreOwn (s : State) (fromBuddy : Bool) : State :=
  let p := s.jobP
  let l := s.jobList
  let ck := BitVec.ofNat 32 (s.obj 0x3500 0x14)
  if !s.inJob || !s.recoveringJob || s.pstate p == 3 || !(s.updWords p).all (s.updEntryOk p) then s
  else if fromBuddy then
    let n := s.freeCtr
    let s := { s with freeCtr := n + 1 }
    let d := digestOf (l.mapIdx fun e u => (List.range (12288 * u.nblk)).map fun j => Config.peerByte n (slotOff l e + j))
    if d ≠ BitVec.ofNat 64 (natOf ((List.range 8).map fun j => Config.peerByte n (24 + j))) then
      (s.logOpen 0x40 s.ownRank).holdJob.tellLead 0x409 s.ownRank
    else
      let src (e i : Nat) := peerRec n (slotOff l e) i
      (if s.homeOk false then ((s.restoreAll p l src).refillHome l src d) else s.restoreAll p l src).restoredOwn false
  else
    let k := s.job.home1.st == .complete && s.job.home1.step == ck
    let x := s.job.home k
    if x.st ≠ .complete ∨ x.step ≠ ck ∨ !s.homeOk k ∨ s.slotDigest (s.homeAddr k) ≠ x.digest then s
    else (s.restoreAll p l fun e i => s.recAt (s.homeAddr k + slotOff l e) i).restoredOwn k

/-- RESTORE: this rank's own, or at the lead the report that another rank is restored. -/
def execRestore (rank : Nat) (fromBuddy : Bool) (s : State) : Host.Outcome State Fault Refusal :=
  .next (if rank = s.ownRank then s.restoreOwn fromBuddy
    else if s.isLead && s.recoveringJob && decide (rank < s.jobReps) then
      { s with job := { s.job with restored := if rank ∈ s.job.restored then s.job.restored else rank :: s.job.restored } }
    else s)

/-! ### SPARE_TAKEOVER (R244–R247) -/

/-- A checkpoint that was being filled is abandoned. -/
def State.dropFilling (s : State) : State :=
  let s := s.each [0, 1] fun s k => if (s.job.home (k == 1)).st = .filling then s.setHome (k == 1) {} else s
  let s := s.each [0, 1] fun s k =>
    if (s.job.ward (k == 1)).st = .filling then s.setWard (k == 1) { s.job.ward (k == 1) with st := .empty } else s
  { s with job := { s.job with stream := none, capture := none } }

/-- Step 1 on this device: RECOVERING, the partition HELD, no collective or checkpoint traffic. -/
def State.beginRecovery (s : State) : State :=
  if s.recoveringJob then s
  else
    let p := s.jobP
    let step := if s.pstate p = 3 then s.obj (0x3100 + p) 6 else s.job.failStep
    let s := { s.dropFilling with colls := s.colls.filter fun x => x.part != p }
    let s := { s with job := { s.job with failStep := step, admitted := [], restored := [], reported := [] } }
    (if s.pstate p = 3 then s.enterHeld p 0 else s).setObj 0x3500 0x13 2

/-- Steps 1–3 at the lead for one failed rank: hold, retire, take the next spare; without one the job stays HELD and the
failed nodes are reported (R247). -/
def State.admitSpare (s : State) (r : Nat) : State :=
  let s := s.beginRecovery.tellMembers 0x400 r
  let node := s.nodeOfRank r
  let s := s.emit (.jobMessage node 0x401 r)
  if s.obj 0x3500 8 ≤ s.job.spares then (s.logOpen 0x40 (packNodes (s.job.failed.map (·.2)))).holdJob
  else
    let n := s.natAt (s.obj 0x3500 7 + 2 * s.job.spares) 2
    let s := { s with job := { s.job with spares := s.job.spares + 1, given := (r, n) :: s.job.given, admitted := r :: s.job.admitted } }
    s.emit (.jobMessage n 0x402 r)

/-- May the repeated steps start: every working copy regenerated and gathered here, and at the lead every rank restored? -/
def State.takeoverDone (s : State) : Bool :=
  s.recoveringJob && s.ownRank ∈ s.job.restored && (s.part s.jobP).upd == .running && s.updateAll s.jobP
    && (!s.isLead || ((s.job.failed.all fun f => f.1 ∈ s.job.admitted) && (List.range s.jobReps).all (· ∈ s.job.restored)))

/-- The completion record of R246 for one failed rank. -/
def State.logTakeover (s : State) (step : Nat) (f : Nat × Nat) : State :=
  s.logEvent 0x40 0x0701 (f.2 + s.nodeOfRank f.1 * 2 ^ 16 + s.obj 0x3500 0x14 * 2 ^ 32 + (step - s.obj 0x3500 0x14) * 2 ^ 64
    + (s.now - s.job.declared) / 1000000 * 2 ^ 96)

/-- Steps 5 and 6: WPAIR regions flip, spill rings reset, FIRST_STEP set, RESUME and START written; the lead logs. -/
def State.finishTakeover (s : State) : State :=
  let p := s.jobP
  let s := s.each (s.part p).updated State.flip
  let s := s.setPart p { s.part p with upd := .idle }
  let spill := (List.range 64).filter fun r => (s.region r).owner == p && (s.region r).cls == 3
  let s := { s with rings := spill.foldl (fun (t : Tab ringReset) r => t.set r {}) s.rings }
  let failed := s.job.failed
  let s := { s with job := { s.job with failed := [], restored := [], admitted := [] } }.setObj 0x3500 0x13 0
  let s := s.setObj (0x3100 + p) 8 ((s.obj 0x3500 0x14 + 1) % 2 ^ 32)
  let s := (startAct p ((resumeAct p s).1)).1
  if s.isLead then (failed.foldl (fun s f => s.logTakeover s.job.failStep f) s).tellMembers 0x403 (s.obj 0x3500 0x14) else s

/-- SPARE_TAKEOVER for a failed rank: a spare takes the rank; the lead admits a spare for it; a member enters recovery; and
once everything is restored the job restarts. -/
def State.spareTakeover (s : State) (r : Nat) : State :=
  if s.obj 0x3500 2 = 3 then
    ((s.setRole 2).setObj 0x3500 4 r).setObj 0x3500 0x13 2
  else if !s.inJob || decide (s.jobReps ≤ r) then s
  else if s.takeoverDone then s.finishTakeover
  else if s.isLead then
    if (s.job.failed.any fun f => f.1 == r) && r ∉ s.job.admitted then s.admitSpare r else s
  else
    let s := s.beginRecovery
    if s.job.failed.any fun f => f.1 == r then s else { s with job := { s.job with failed := s.job.failed ++ [(r, s.nodeOfRank r)] } }

/-- SPARE_TAKEOVER. -/
def execSpareTakeover (rank : Nat) (s : State) : Host.Outcome State Fault Refusal := .next (s.spareTakeover rank)

end Sys2Proof.Machine
end

