-- ==== Sys2Proof/Machine/Security.lean ====
section
/-! DEFINITION. Sealed partitions (R320–R337): SPDM vendor requests, sealing, Vorral packages, job key slots. -/

namespace Sys2Proof.Machine

/-! ### Vendor requests in an SPDM session (R322) -/

/-- A request refused with an SPDM error. -/
def State.spdmError (s : State) (n : Nat) : State := s.emit (.spdm n false [])
/-- A request answered. -/
def State.spdmOk (s : State) (n : Nat) (data : List Byte) : State := s.emit (.spdm n true data)

/-- A request that only a bound session may make; `f` has the partition. -/
def State.bound (s : State) (n : Nat) (f : Nat → Option State) : State :=
  match (s.spdm.get n).part with
  | none => s.spdmError n
  | some p => (f p).getD (s.spdmError n)

/-- BIND: `leaf` is the SHA-384 of the requester's leaf public key. -/
def State.bindSession (s : State) (n p : Nat) (leaf : BitVec 384) (mutAuth : Bool) : State :=
  if (s.spdm.get n).part.isNone && decide (p < 4) && s.isSealed p && (s.part p).wk.isSome && (s.part p).bound.isNone && mutAuth
      && leaf == BitVec.ofNat 384 (s.obj (0x1230 + p) 4) then
    let s := { s with spdm := s.spdm.set n { isOpen := true, part := some p } }
    ((s.setPart p { s.part p with bound := some n }).setObj (0x1230 + p) 5 1).spdmOk n []
  else s.spdmError n

/-- BIND. -/
def execBind (sess : SpdmId) (p : Byte) (leaf : BitVec 384) (mutAuth : Bool) (s : State) : Host.Outcome State Fault Refusal :=
  .next (s.bindSession sess.val p.toNat leaf mutAuth)

/-- RELEASE. -/
def execReleaseSecret (sess : SpdmId) (rs : BitVec 256) (s : State) : Host.Outcome State Fault Refusal :=
  .next (s.bound sess.val fun p => some (((s.setPart p { s.part p with rs := some rs }).setObj (0x1230 + p) 5 2).spdmOk sess.val []))

/-- The key of a job key slot (R336). -/
def slotKey336 (jobId : Word) (secret : BitVec 384) : BitVec 256 :=
  Config.hkdf (bytesOf 4 jobId.toNat) (bytesOf 48 secret.toNat) ([0x62, 0x6F, 0x72, 0x65, 0x2D, 0x6B, 0x65, 0x79] : List Byte)

/-- Load slot `k`, numbered from 0: STATE 1 by management, 2 through a session. -/
def State.loadSlot (s : State) (k p st : Nat) (jobId : Word) (secret : BitVec 384) : State :=
  let s := { s with jobKeys := s.jobKeys.set k { key := some (slotKey336 jobId secret), secret := secret } }
  ((s.setObj (0x1251 + k) 1 p).setObj (0x1251 + k) 2 jobId.toNat).setObj (0x1251 + k) 5 st

/-- JOBKEY: the slot is empty or owned by this partition. -/
def execJobkey (sess : SpdmId) (slot : Byte) (jobId : Word) (secret : BitVec 384) (s : State) : Host.Outcome State Fault Refusal :=
  let k := slot.toNat - 1
  .next (s.bound sess.val fun p =>
    if 1 ≤ slot.toNat ∧ slot.toNat ≤ 15 ∧ (s.obj (0x1251 + k) 5 = 0 ∨ s.obj (0x1251 + k) 1 = p) then
      let s := s.loadSlot k p 2 jobId secret
      some (State.spdmOk { s with spdm := s.spdm.modify sess.val fun x => { x with slots := k :: x.slots } } sess.val [])
    else none)

/-- REVOKE: the slot is owned by this partition; its keys revoked, the partition's vaults are wiped (R133, R304). -/
def execRevoke (sess : SpdmId) (slot : Byte) (s : State) : Host.Outcome State Fault Refusal :=
  let k := slot.toNat - 1
  .next (s.bound sess.val fun p =>
    if 1 ≤ slot.toNat ∧ slot.toNat ≤ 15 ∧ s.obj (0x1251 + k) 5 ≠ 0 ∧ s.obj (0x1251 + k) 1 = p then
      some (((s.each (s.coresOf p) fun s c => s.wipeVault c .sessionEnded).clearKeySlot k).spdmOk sess.val [])
    else none)

/-- GRANT: bit 0 counters, bit 1 fault detail; other bits set are refused (log 53). -/
def execGrant (sess : SpdmId) (v : Byte) (s : State) : Host.Outcome State Fault Refusal :=
  .next (s.bound sess.val fun p => if v.toNat < 4 then some ((s.setObj (0x1230 + p) 6 v.toNat).spdmOk sess.val []) else none)

/-! ### Event records (R422, R327) -/

/-- DETAIL with INFO and every address field zero (R201, R307, R327). -/
def redactDetail (code detail : Nat) : Nat :=
  if 0x0100 < code ∧ code < 0x0200 then detail % 2 ^ 64 else detail - fieldAt detail 56 44 * 2 ^ 56

/-- The 32 bytes of a record, as the log holds it or in full. -/
def eventBytes (e : Event) (full : Bool) : List Byte :=
  let hide := e.redacted && !full
  let d := if hide then redactDetail e.code e.detail.toNat else e.detail.toNat
  let b (x : Bool) (n : Nat) := if x then 2 ^ n else 0
  bytesOf 32 (e.time.toNat + e.unit * 2 ^ 64 + e.code * 2 ^ 80 + d * 2 ^ 96 + e.seq * 2 ^ 224 + b e.persist 248 + b hide 249
    + b e.notice 250 + b e.freeclk 251 + b e.gap 252)

/-- Records of a list, newest first, within distance `d` of the next SEQ: oldest first (R424). -/
def within (next d : Nat) (l : List Event) : List Event :=
  (l.filter fun e => let x := (next + 2 ^ 24 - e.seq) % 2 ^ 24; decide (0 < x) && decide (x ≤ d)).reverse

/-- Distance of a sequence number from the next. -/
def seqDistance (next c : Nat) : Nat := (next % 2 ^ 24 + 2 ^ 24 - c) % 2 ^ 24

/-- LOG: up to 64 of the partition's events from a sequence number on, in full detail. -/
def execLogRequest (sess : SpdmId) (seq : BitVec 24) (s : State) : Host.Outcome State Fault Refusal :=
  .next (s.bound sess.val fun p =>
    let mine := s.log.filter fun e => s.eventPart e.unit e.code e.detail.toNat == some p
    some (s.spdmOk sess.val (((within (s.seqNext % 2 ^ 24) (seqDistance s.seqNext seq.toNat) mine).take 64).flatMap fun e => eventBytes e true)))

/-- SESSION_END. -/
def execSessionEnd (sess : SpdmId) (cause : Byte) (s : State) : Host.Outcome State Fault Refusal :=
  .next (s.endSession sess.val cause.toNat (some .sessionEnded))

/-- Delivery of an SPDM message: the response waits for the same master's next read; one not yet read is discarded (R321). -/
def spdmAct (m : Master) (msg : List Byte) : Act := fun s =>
  if 4096 < msg.length then (s, stLength)
  else
    let r := Config.spdmResponse s.freeCtr msg
    ({ s with freeCtr := s.freeCtr + 1, masters := s.masters.modify (ownerId m) fun x => { x with spdm := some r } }, stOk)

/-- SPDM_MESSAGE. -/
def execSpdmMessage (m : Master) (msg : List Byte) (s : State) : Host.Outcome State Fault Refusal :=
  .next (s.act m 0x1270 1 (spdmAct m msg))

/-! ### SEALED (R324) -/

/-- A write of SEALED: XTS keys drawn, XTS set in the partition's regions, which are zeroed, grants hidden. -/
def sealedAct (p v : Nat) : Act := fun s =>
  if v ≠ 1 ∨ s.obj 0x1200 1 ≠ 2 ∨ s.pstate p ≠ 1 ∨ s.isSealed p then (s, if 1 < v then stRange else stWrongState)
  else
    let key := natOf ((List.range 8).flatMap fun i => bytesOf 8 (Config.entropy (s.freeCtr + i)).toNat)
    let s := { s with freeCtr := s.freeCtr + 8 }
    let s := s.setPart p { s.part p with xtsKeys := some (BitVec.ofNat 512 key) }
    let s := s.each (List.range 64) fun s r =>
      let g := s.region r
      if g.owner = p ∧ 0 < g.size then (s.setObj (0x3420 + r) 3 (withXts g.attr true)).zeroSpan r g.start g.bytes else s
    ((s.setObj (0x1230 + p) 1 1).setObj (0x1230 + p) 6 0, stOk)

/-- SEALED. -/
def execSealed (m : Master) (p : PartId) (v : Byte) (s : State) : Host.Outcome State Fault Refusal :=
  .next (s.act m (0x1230 + p) 1 (sealedAct p v.toNat))

/-! ### Vorral packages (R330–R332) -/

/-- A package header, with its address. -/
structure Pkg where
  at_    : Nat
  word   : Nat
  nrecip : Nat
  ntens  : Nat
  chunk  : Nat
  deriving DecidableEq, Repr

def State.pkgOf (s : State) (a : Nat) : Pkg :=
  let w := s.natAt a 512
  ⟨a, w, fieldAt w 48 16, fieldAt w 64 16, fieldAt w 96 32 * 65536⟩

def Pkg.exported (k : Pkg) : Bool := bitAt k.word 40
def Pkg.bodyLen (k : Pkg) : Nat := fieldAt k.word 128 64
def Pkg.modelId (k : Pkg) : Nat := fieldAt k.word 192 128
def Pkg.ownerPub (k : Pkg) : BitVec 776 := BitVec.ofNat 776 (fieldAt k.word 320 776)
def Pkg.recipients (k : Pkg) : Nat := k.at_ + 512
def Pkg.manifest (k : Pkg) : Nat := k.recipients + 256 * k.nrecip
def Pkg.body (k : Pkg) : Nat := k.manifest + ceilDiv (32 * k.ntens) 64 * 64
def Pkg.stride (k : Pkg) : Nat := k.chunk + 64
/-- Bytes of the whole package. -/
def Pkg.size (k : Pkg) : Nat := k.body - k.at_ + k.bodyLen

/-- A manifest entry. -/
structure Tens where
  id   : Nat
  off  : Nat
  len  : Nat
  rsv  : Bool
  deriving DecidableEq, Repr

def tensOf (w : Nat) : Tens := ⟨fieldAt w 0 16, fieldAt w 32 48, fieldAt w 80 48, fieldAt w 16 16 != 0 || fieldAt w 128 128 != 0⟩
def State.tensors (s : State) (k : Pkg) : List Tens := (List.range k.ntens).map fun i => tensOf (s.natAt (k.manifest + 32 * i) 32)

/-- Chunks of a tensor. -/
def Pkg.chunksOf (k : Pkg) (t : Tens) : Nat := ceilDiv t.len k.chunk

/-- MAGIC, ranges and reserved bits of a header. -/
def Pkg.headOk (k : Pkg) : Bool :=
  fieldAt k.word 0 32 == 0x4C525256 && fieldAt k.word 32 8 == 1 && fieldAt k.word 41 7 == 0 && fieldAt k.word 80 16 == 0
    && fieldAt k.word 2640 688 == 0 && decide (1 ≤ k.nrecip) && decide (k.nrecip ≤ 256) && decide (1 ≤ k.ntens)
    && decide (1 ≤ fieldAt k.word 96 32) && decide (fieldAt k.word 96 32 ≤ 1024)

/-- Manifest entries: reserved bits, unique numbers, offsets on the stride and inside the body. -/
def State.manifestOk (s : State) (k : Pkg) : Bool :=
  let l := s.tensors k
  l.all (fun t => !t.rsv && t.off % k.stride == 0 && decide (t.off + k.chunksOf t * k.stride ≤ k.bodyLen))
    && decide (l.map (·.id)).Nodup

/-- May the security complex read a package here: whole in a BOOT region of the partition (R144)? -/
def State.pkgReadable (s : State) (p : Nat) (k : Pkg) : Bool := k.headOk && s.inBoot p k.at_ k.size

/-- The recipient entry of this device. -/
def State.recipientOf (s : State) (k : Pkg) : Option Nat :=
  ((List.range k.nrecip).map fun i => s.natAt (k.recipients + 256 * i) 256).find? fun w => fieldAt w 0 384 == s.obj 0x1000 2

/-- "Vorral v1" and MODEL_ID. -/
def vorralInfo (model : Nat) : List Byte := ([0x56, 0x6F, 0x72, 0x72, 0x61, 0x6C, 0x20, 0x76, 0x31] : List Byte) ++ bytesOf 16 model

/-- RESULT of an attach, and the wrapped key (R331, R334). An exported package is signed by the device's identity key. -/
def State.attachResult (s : State) (p : Nat) (k : Pkg) : Nat × Option (BitVec 256) :=
  if !s.inBoot p k.at_ 512 || !s.pkgReadable p k || !s.manifestOk k
      || !((List.range k.nrecip).all fun i => fieldAt (s.natAt (k.recipients + 256 * i) 256) 1544 504 == 0) then (1, none)
  else if !Config.ecdsaOk (if k.exported then Config.identityKey else k.ownerPub)
      (Config.sha384 (s.bytesAt k.at_ 416 ++ s.bytesAt k.recipients (256 * k.nrecip))) (BitVec.ofNat 768 (fieldAt k.word 3328 768)) then (2, none)
  else if Config.sha384 (s.bytesAt k.manifest (32 * k.ntens)) ≠ BitVec.ofNat 384 (fieldAt k.word 2256 384) then (8, none)
  else match s.recipientOf k with
    | none => (3, none)
    | some w =>
      match Config.hpkeOpen (BitVec.ofNat 776 (fieldAt w 384 776)) (vorralInfo k.modelId) (bytesOf 48 (fieldAt w 0 384)) (BitVec.ofNat 384 (fieldAt w 1160 384)) with
      | none => (4, none)
      | some wk => (0, some wk)

/-- A write of PKG: sealed, in DEFINED. A refused package changes PKG and PKG_RESULT only (log 54). -/
def pkgAct (p a : Nat) : Act := fun s =>
  if !s.isSealed p ∨ s.pstate p ≠ 1 then (s, stWrongState)
  else
    let k := s.pkgOf a
    let r := s.attachResult p k
    let s' := (s.setObj (0x1230 + p) 2 a).setObj (0x1230 + p) 3 r.1
    match r.2 with
    | none => (s', stOk)
    | some wk =>
      let s' := s'.setPart p { s.part p with
        wk := some wk, ownerPub := k.ownerPub, exportPub := BitVec.ofNat 776 (fieldAt k.word 1096 776)
        imageKey := BitVec.ofNat 384 (fieldAt k.word 1872 384), modelId := BitVec.ofNat 128 k.modelId, exported := k.exported
        pkgAddr := a, pkgHash := Config.sha384 (s.bytesAt a 512) }
      (s'.setObj (0x1230 + p) 4 (Config.sha384 (bytesOf 97 k.ownerPub.toNat)).toNat, stOk)

/-- PKG. -/
def execPkg (m : Master) (p : PartId) (addr : BitVec 64) (s : State) : Host.Outcome State Fault Refusal :=
  .next (s.act m (0x1230 + p) 2 (pkgAct p addr.toNat))

/-! ### Package loads (R333, R334) -/

/-- The content key (R332). -/
def State.contentKey (s : State) (p : Nat) : Option (BitVec 256) :=
  let x := s.part p
  match x.wk, x.rs with
  | some wk, some rs =>
    if x.exported then some wk
    else some (Config.hkdf (bytesOf 32 rs.toNat) (bytesOf 32 wk.toNat)
      (([0x76, 0x6F, 0x72, 0x72, 0x61, 0x6C, 0x2D, 0x63, 0x6B] : List Byte) ++ bytesOf 16 x.modelId.toNat))
  | some wk, none => if x.exported then some wk else none
  | none, _ => none

/-- Entries of the load table: tensor, device address, reserved bits clear. -/
def State.loadTable (s : State) : List (Nat × Nat × Bool) :=
  (List.range (s.obj 0x1240 3)).map fun i =>
    let w := s.natAt (s.obj 0x1240 2 + 16 * i) 16
    (fieldAt w 0 16, fieldAt w 16 44, fieldAt w 60 68 == 0)

/-- Where a tensor at a device address lies in memory, in the half that is not LIVE or in the LIVE one, with the WPAIR region:
a WPAIR or MASTER region of the partition with XTS, or the vault of one of its cores (R333, R335). -/
def State.tensorPlace (s : State) (p a n : Nat) (live : Bool) : Option (Nat × Option Nat) :=
  match placeOf a with
  | .vault c o => if s.partOf c = some p ∧ o + n ≤ scratchSize then some (a, none) else none
  | .bulk o => match s.regionOf o n with
    | none => none
    | some r =>
      let g := s.region r
      if g.owner ≠ p ∨ !g.xts then none
      else if g.cls = 2 then some (a, none)
      else if g.cls = 1 ∧ o + n ≤ g.start + g.bytes / 2 then
        some (a + (if (g.live = 1) = live then g.bytes / 2 else 0), some r)
      else none
  | _ => none

/-- The nonce of chunk `i` (R332): its number as 8 bytes, the lowest first, then 32 zero bits. The top byte of a nonce goes
first (R304). -/
def chunkNonce (i : Nat) : BitVec 96 := BitVec.ofNat 96 (natOf (bytesOf 8 i).reverse * 2 ^ 32)

/-- Plaintext of chunk `j` of a tensor, or none when its tag fails. -/
def State.openChunk (s : State) (k : Pkg) (ck : BitVec 256) (t : Tens) (j : Nat) : Option (List Byte) :=
  let i := t.off / k.stride + j
  let n := min k.chunk (t.len - j * k.chunk)
  let a := k.body + i * k.stride
  Config.gcmOpen ck (chunkNonce i) (bytesOf 16 k.modelId ++ bytesOf 8 i) (s.bytesAt a n) (BitVec.ofNat 128 (s.natAt (a + n) 16))

/-- Decrypt a tensor's chunks from `j` on into place, each read with the whole of its stride; the state as far as it got,
with the chunk that failed. -/
def State.loadChunks (s : State) (k : Pkg) (ck : BitVec 256) (t : Tens) (dst : Nat) : List Nat → State × Option Nat
  | [] => (s, none)
  | j :: rest =>
    let s := s.countBulk 1 (k.body + (t.off / k.stride + j) * k.stride) k.stride
    match s.openChunk k ck t j with
    | none => (s, some (t.off / k.stride + j))
    | some bs => ((s.putBytes (dst + j * k.chunk) bs).count 0x1240 6 64 bs.length).loadChunks k ck t dst rest

/-- The load of a table's entries in turn: the state, the run so far. -/
def State.loadTensors (s : State) (p : Nat) (k : Pkg) (ck : BitVec 256) (run : PkgRun) : List (Nat × Nat × Bool) → State × PkgRun
  | [] => (s, run)
  | e :: rest =>
    match (s.tensors k).find? fun t => t.id == e.1 with
    | none => (s, { run with result := 7 })
    | some t =>
      match s.tensorPlace p e.2.1 t.len false with
      | none => (s, { run with result := 7 })
      | some (dst, r) =>
        let run := { run with written := (dst, t.len) :: run.written, regions := r.toList ++ run.regions }
        match s.loadChunks k ck t dst (List.range (k.chunksOf t)) with
        | (s, some c) => (s, { run with result := 6, chunk := c })
        | (s, none) => s.loadTensors p k ck run rest

/-- What both CONTROL writes check first: nothing runs, the partition not RUNNING (R334), sealed with a package attached. -/
def State.pkgBusy (s : State) (p : Nat) : Bool := s.pkgRun.isSome || s.pstate p == 3 || !s.isSealed p || (s.part p).wk.isNone

/-- CONTROL = 1: LOAD. It ends at PACKAGE_LOAD_COMPLETED. -/
def pkgLoadAct : Act := fun s =>
  let p := s.obj 0x1240 1
  if s.pkgBusy p then (s, stWrongState)
  else
    let s := s.setObj 0x1240 6 0
    let run : PkgRun := ⟨p, false, [], [], 0, 0⟩
    let k := s.pkgOf (s.part p).pkgAddr
    let fail (s : State) (r : Nat) : State × BitVec 16 := ({ s with pkgRun := some { run with result := r } }, stOk)
    if !s.inBoot p (s.obj 0x1240 2) (16 * s.obj 0x1240 3) || !(s.loadTable.all fun e => e.2.2) || !s.pkgReadable p k then fail s 1
    else match s.contentKey p with
      | none => fail s 5
      | some ck =>
        let x := s.loadTensors p k ck run s.loadTable
        ({ x.1 with pkgRun := some x.2 }, stOk)

/-- PKG_LOAD. -/
def execPkgLoad (m : Master) (s : State) : Host.Outcome State Fault Refusal := .next (s.act m 0x1240 4 pkgLoadAct)

/-! ### Exports (R335) -/

/-- The chunks of an exported tensor, from chunk index `i`. -/
def sealChunks (wk : BitVec 256) (model chunk i : Nat) (bs : List Byte) : List Byte :=
  ((chunks chunk (ceilDiv bs.length chunk) bs).zipIdx).flatMap fun x =>
    let n := i + x.2
    let aad := bytesOf 16 model ++ bytesOf 8 n
    let c := Config.gcmSeal wk (chunkNonce n) aad x.1 ++ bytesOf 16 (Config.gcmTag wk (chunkNonce n) aad x.1).toNat
    c ++ List.replicate (chunk + 64 - c.length) 0

/-- Tensors to export: number and bytes, read where the load table says; none when one is absent or not permitted. -/
def State.exportTensors (s : State) (p : Nat) (k : Pkg) : Option (List (Nat × List Byte)) :=
  s.loadTable.mapM fun e =>
    match (s.tensors k).find? fun t => t.id == e.1 with
    | none => none
    | some t => (s.tensorPlace p e.2.1 t.len true).map fun x => (t.id, s.bytesAt x.1 t.len)

/-- The tensors of an export that lie in bulk memory are read through its channels (R160). -/
def State.exportReads (s : State) (p : Nat) (k : Pkg) : State :=
  s.loadTable.foldl (fun s e =>
    match (s.tensors k).find? fun t => t.id == e.1 with
    | none => s
    | some t => match s.tensorPlace p e.2.1 t.len true with
      | none => s
      | some x => s.countBulk 1 x.1 t.len) s

/-- The body and the manifest of an export, tensor by tensor. -/
def exportBody (wk : BitVec 256) (model chunk : Nat) (l : List (Nat × List Byte)) : List Byte × List Byte :=
  l.foldl (fun (x : List Byte × List Byte) t =>
    let i := x.1.length / (chunk + 64)
    (x.1 ++ sealChunks wk model chunk i t.2, x.2 ++ bytesOf 32 (t.1 + x.1.length * 2 ^ 32 + t.2.length * 2 ^ 80))) ([], [])

/-- The exported package: chunk size, export and image keys as in the attached package (log 55). -/
def exportBytes (k : Pkg) (wk : BitVec 256) (l : List (Nat × List Byte)) : List Byte :=
  let x := exportBody wk k.modelId k.chunk l
  let rcpt := Config.hpkeSeal (BitVec.ofNat 776 (fieldAt k.word 1096 776)) (vorralInfo k.modelId)
    (bytesOf 48 (Config.sha384 (bytesOf 97 (fieldAt k.word 1096 776))).toNat) wk
  let head := 0x4C525256 + 2 ^ 32 + 2 ^ 40 + 2 ^ 48 + l.length * 2 ^ 64 + k.chunk / 65536 * 2 ^ 96 + x.1.length * 2 ^ 128
    + fieldAt k.word 192 2064 * 2 ^ 192 + (Config.sha384 x.2).toNat * 2 ^ 2256
  let sig := Config.ecdsaSign (Config.sha384 (bytesOf 416 head ++ rcpt))
  bytesOf 512 (head + sig.toNat * 2 ^ 3328) ++ rcpt ++ x.2 ++ List.replicate (ceilDiv x.2.length 64 * 64 - x.2.length) 0 ++ x.1

/-- CONTROL = 2: EXPORT, of a partition LOADED or HELD, into a BOOT region owned by none. -/
def pkgExportAct : Act := fun s =>
  let p := s.obj 0x1240 1
  if s.pkgBusy p ∨ (s.pstate p ≠ 2 ∧ s.pstate p ≠ 4) then (s, stWrongState)
  else
    let s := s.setObj 0x1240 6 0
    let run : PkgRun := ⟨p, true, [], [], 0, 0⟩
    let k := s.pkgOf (s.part p).pkgAddr
    let fail (s : State) (r : Nat) : State × BitVec 16 := ({ s with pkgRun := some { run with result := r } }, stOk)
    if !s.inBoot p (s.obj 0x1240 2) (16 * s.obj 0x1240 3) || !(s.loadTable.all fun e => e.2.2) || !s.pkgReadable p k then fail s 1
    else match s.exportTensors p k with
      | none => fail s 7
      | some l =>
        let wk := BitVec.ofNat 256 (natOf ((List.range 4).flatMap fun i => bytesOf 8 (Config.entropy (s.freeCtr + i)).toNat))
        let s := { s with freeCtr := s.freeCtr + 4 }
        let bs := exportBytes k wk l
        match s.regionAt (s.obj 0x1240 7) bs.length with
        | none => fail s 7
        | some g =>
          if g.cls ≠ 0 ∨ g.owner ≠ 0xFF then fail s 7
          else
            let n := (l.map fun t => t.2.length).sum
            ({ ((s.exportReads p k).putBytes (s.obj 0x1240 7) bs).count 0x1240 6 64 n with pkgRun := some run }, stOk)

/-- PKG_EXPORT. -/
def execPkgExport (m : Master) (s : State) : Host.Outcome State Fault Refusal := .next (s.act m 0x1240 4 pkgExportAct)

/-- PACKAGE_LOAD_COMPLETED: a load flips the WPAIR regions it wrote; a failed one zeroes what it wrote and is logged with
partition, RESULT and chunk (R334; log 29). -/
def State.pkgDone (s : State) : State :=
  match s.pkgRun with
  | none => s
  | some r =>
    let s := { s with pkgRun := none }
    let s := if r.export_ then s
      else if r.result = 0 then s.each r.regions.eraseDups State.flip
      else (r.written.foldl (fun s x => s.putBytes x.1 (List.replicate x.2 0)) s).logEvent 0x60 0x0A07
        (r.part + r.result * 2 ^ 8 + r.chunk * 2 ^ 16)
    s.setObj 0x1240 5 r.result

/-- PACKAGE_LOAD_COMPLETED. -/
def execPackageLoadCompleted (s : State) : Host.Outcome State Fault Refusal := .next s.pkgDone

/-! ### Job key slots through management (R337) -/

/-- Is a slot owned by a sealed partition? -/
def State.slotSealed (s : State) (k : Nat) : Bool := decide (s.obj (0x1251 + k) 1 < 4) && s.isSealed (s.obj (0x1251 + k) 1)

/-- CONTROL = 1: an empty slot with an owner is loaded (log 56). -/
def slotLoadAct (k : Nat) : Act := fun s =>
  if s.slotSealed k then sealedBy (s.obj (0x1251 + k) 1) s
  else if s.obj (0x1251 + k) 5 ≠ 0 ∨ 4 ≤ s.obj (0x1251 + k) 1 then (s, stWrongState)
  else (s.loadSlot k (s.obj (0x1251 + k) 1) 1 (BitVec.ofNat 32 (s.obj (0x1251 + k) 2)) (BitVec.ofNat 384 (s.obj (0x1251 + k) 3)), stOk)

/-- SLOT_KEY_LOAD. -/
def execSlotKeyLoad (m : Master) (k : JobSlot) (s : State) : Host.Outcome State Fault Refusal :=
  .next (s.act m (0x1251 + k) 4 (slotLoadAct k))

/-- CONTROL = 2: the slot is cleared. -/
def slotRevokeAct (k : Nat) : Act := fun s => if s.slotSealed k then sealedBy (s.obj (0x1251 + k) 1) s else (s.clearKeySlot k, stOk)

/-- SLOT_KEY_REVOKE. -/
def execSlotKeyRevoke (m : Master) (k : JobSlot) (s : State) : Host.Outcome State Fault Refusal :=
  .next (s.act m (0x1251 + k) 4 (slotRevokeAct k))

end Sys2Proof.Machine
end

