-- ==== Sys2Proof/Machine/Chain.lean ====
section
/-! DEFINITION. The Chepo chain (R359–R370): enumeration, polarity, rate, and the faults of the pair. Object 0x1100 is the
chain record; what it does not show is `State.chain`. -/

namespace Sys2Proof.Machine

/-- A chain event: unit 0x70 (R378). -/
def State.chainEvent (s : State) (code detail : Nat) : State := s.logEvent 0x70 code detail

/-- Does the receiver take a frame? The dictionary answers and the pair is not in FALLBACK (R367, R408). -/
def State.chainUp (s : State) : Bool := s.dictUp .chain && s.obj 0x1100 6 != 2

/-- The first frame of a device without a slot decides the polarity (R366); an inverted one is logged with the slot, 0xFF
for none. -/
def State.decidePolarity (s : State) (inverted : Bool) : State :=
  if s.hasSlot || s.obj 0x1100 4 == 1 then s
  else if inverted then (s.setObj 0x1100 4 1).chainEvent 0x0B01 (s.obj 0x1100 1)
  else s.setObj 0x1100 4 0

/-! ### The frame on the wire (R361–R363) -/

/-- One bit of the CRC: polynomial 0x1021. -/
def crcBit (c : BitVec 16) : BitVec 16 := if c.msb then (c <<< 1) ^^^ 0x1021 else c <<< 1

/-- One byte, highest bit first. -/
def crcByte (c : BitVec 16) (b : Byte) : BitVec 16 :=
  (List.range 8).foldl (fun c _ => crcBit c) (c ^^^ (b.zeroExtend 16 <<< 8))

/-- The CRC of R363. -/
def crc16 (l : List Byte) : BitVec 16 := l.foldl crcByte 0xFFFF

/-- The bytes of a frame (R361, R362): SOF, ADDR of DEST and DIR, CTRL of KIND and SEQ, LEN, payload, CRC low byte first. -/
def chainFrame (dest dir kind seq : Nat) (payload : List Byte) : List Byte :=
  let body := bytesOf 1 (dest + dir * 128) ++ bytesOf 1 (kind + seq * 16) ++ bytesOf 2 payload.length ++ payload
  (0xA5 : Byte) :: body ++ bytesOf 2 (crc16 body).toNat

/-! ### Enumeration (R365) -/

/-- Take SLOT and POD: the node ID follows (R4, R305). -/
def State.takeSlot (s : State) (slot pod : Nat) : State :=
  (((s.setObj 0x1100 1 slot).setObj 0x1100 2 pod).setObj 0x1100 3 (pod * 64 + slot)).setObj 0x4200 1 (pod * 64 + slot)

/-- An ASSIGN frame addressed to 0x7E, with DAISY_IN as it stands at the middle of its last stop bit. -/
def State.assignFrame (s : State) (slot pod rsv : Nat) (daisyIn inverted : Bool) : State :=
  let s := State.setObj { s with chain := { s.chain with daisyIn := daisyIn } } 0x1100 9 (if daisyIn then 1 else 0)
  if !s.chainUp then s
  else
    let s := s.chainHeard.decidePolarity inverted
    if s.hasSlot || !daisyIn then s
    else if slot ≤ 63 ∧ pod ≤ 191 ∧ rsv = 0 then
      let s := (s.takeSlot slot pod).emit (.assignReply slot (pod * 64 + slot) (s.obj 0x1000 1))
      { s with chain := { s.chain with outDue := true } }
    else s.emit (.assignReply 0x7E 0xFFFF (s.obj 0x1000 1))

/-- ASSIGN. -/
def execAssign (slot pod : Byte) (rsv : BitVec 16) (daisyIn inverted : Bool) (s : State) : Host.Outcome State Fault Refusal :=
  .next (s.assignFrame slot.toNat pod.toNat rsv.toNat daisyIn inverted)

/-- DAISY_OUT_RISE: 10 µs after the ASSIGN reply ends. -/
def execDaisyOutRise (s : State) : Host.Outcome State Fault Refusal :=
  .next (if s.chain.outDue then { s with chain := { s.chain with outDue := false, daisyOut := true } } else s)

/-! ### Rate (R362) -/

/-- A RATE frame: accepted only as a broadcast of a code 0–3; it takes effect 1 ms after the frame. -/
def State.rateFrame (s : State) (code : Nat) (broadcast inverted : Bool) : State :=
  if !s.chainUp || !broadcast then s
  else
    let s := s.chainHeard.decidePolarity inverted
    if code ≤ 3 then { s with chain := { s.chain with rateNext := some code } } else s

/-- RATE. -/
def execRate (code : Byte) (broadcast inverted : Bool) (s : State) : Host.Outcome State Fault Refusal :=
  .next (s.rateFrame code.toNat broadcast inverted)

/-- RATE_APPLY: the selected rate is in force. -/
def execRateApply (s : State) : Host.Outcome State Fault Refusal :=
  .next (match s.chain.rateNext with
    | some r => State.setObj { s with chain := { s.chain with rateNext := none } } 0x1100 5 r
    | none => s)

/-- IDLE_GAP: the frame that a gap breaks is discarded and counted (R361). -/
def execIdleGap (s : State) : Host.Outcome State Fault Refusal :=
  .next (if s.chainUp then s.count 0x1100 0x0B 32 1 else s)

/-! ### A pair held in space (R366, R367) -/

/-- Character times in 10 ms at a rate code: ten bits to a character. -/
def charsIn10ms (code : Nat) : Nat := 500 * 2 ^ code

/-- BREAK, of `n` character times: discards what is being received. Without a slot the device reads the pair inverted, where
it appears idle, and POLARITY is a candidate. -/
def State.breakSeen (s : State) (n : Nat) : State :=
  if !s.chainUp || decide (n < 2) then s
  else if !s.hasSlot then (if s.obj 0x1100 4 = 1 then s else s.setObj 0x1100 4 2)
  else
    let s := { s with chain := { s.chain with breakLong := s.chain.breakLong || decide (charsIn10ms (s.obj 0x1100 5) ≤ n) } }
    (s.setObj 0x1100 6 1).chainEvent 0x0B02 n

/-- BREAK. -/
def execChainBreak (chars : Nat) (s : State) : Host.Outcome State Fault Refusal := .next (s.breakSeen chars)

/-- FALLBACK: event 0x0B05 with its cause, and the chain master's epoch advances (R354, R367). -/
def State.fallBack (s : State) (kind cause : Nat) : State :=
  let s := { s with chain := { s.chain with driverOn := false, retryIdle := false, attempts := 0 } }
  ((s.setObj 0x1100 7 kind).setObj 0x1100 6 2).chainEvent 0x0B05 cause |>.advanceEpoch chainOwner

/-- STUCK: 10 ms of space. The short test of R368 runs with the driver released; `short` is SHORT_KIND. -/
def State.stuckSeen (s : State) (short : Nat) : State :=
  if !s.chainUp || !s.hasSlot then s else (s.chainEvent 0x0B03 0).fallBack short 1

/-- STUCK. -/
def execStuck (short : Fin 4) (s : State) : Host.Outcome State Fault Refusal := .next (s.stuckSeen short.val)

/-- SHORT: the driver's limit held for more than 20 µs; the bias is off the pair (R368). -/
def State.shortSeen (s : State) (kind : Nat) : State :=
  if !s.chainUp then s
  else
    let s := s.fallBack kind 2
    { s with chain := { s.chain with biasOn := false } }

/-- SHORT, with event 0x0B04 before that of FALLBACK. -/
def execShortFault (kind : Fin 4) (s : State) : Host.Outcome State Fault Refusal :=
  .next (if s.chainUp then (s.chainEvent 0x0B04 kind.val).shortSeen kind.val else s)

/-- RETRY: one each second in FALLBACK; one that finds 10 ms of idle mark reconnects the bias. Attempt in [15:0], result in
[16] (R378; log 29). -/
def State.retryChain (s : State) (idle : Bool) : State :=
  if s.obj 0x1100 6 ≠ 2 ∨ !s.dictUp .chain then s
  else
    let n := s.chain.attempts + 1
    let s := { s with chain := { s.chain with attempts := n, retryIdle := idle, biasOn := s.chain.biasOn || idle } }
    (s.count 0x1100 0x0D 32 1).chainEvent 0x0B06 (n % 65536 + (if idle then 65536 else 0))

/-- RETRY. -/
def execRetry (idle : Bool) (s : State) : Host.Outcome State Fault Refusal := .next (s.retryChain idle)

/-- RESTORED: a valid frame after 10 ms of idle mark; the driver is enabled. -/
def State.restoreChain (s : State) (seconds : Nat) : State :=
  if s.obj 0x1100 6 ≠ 2 ∨ !s.chain.retryIdle ∨ !s.dictUp .chain then s
  else
    let s := { s with chain := { s.chain with driverOn := true, biasOn := true, retryIdle := false } }
    ((s.setObj 0x1100 6 0).chainEvent 0x0B07 seconds).chainHeard

/-- RESTORED. -/
def execRestored (seconds : Nat) (s : State) : Host.Outcome State Fault Refusal := .next (s.restoreChain seconds)

/-- SILENT: a slot held and no valid frame for SILENT seconds, said once (R369). -/
def State.silentChain (s : State) (seconds : Nat) : State :=
  if !s.dictUp .chain || !s.hasSlot || s.obj 0x1100 8 == 0 || s.chain.silentLogged then s
  else State.chainEvent { s with chain := { s.chain with silentLogged := true } } 0x0B08 seconds

/-- SILENT. -/
def execSilent (seconds : Nat) (s : State) : Host.Outcome State Fault Refusal := .next (s.silentChain seconds)

/-! ### Locks (R356–R358) -/

/-- ACQUIRE. -/
def acquireAct (id n : Nat) : Act := fun s =>
  let take (s : State) (st : Nat) : State :=
    ((s.setObj (0x1180 + n) 2 st).setObj (0x1180 + n) 3 id).setObj (0x1180 + n) 4 (s.epochOf id).toNat
  match s.obj (0x1180 + n) 2 with
  | 0 => (take s 1, stOk)
  | 2 => (take s 3, stAbandoned)
  | _ => (s, if s.holdsLock id n then stOk else stLocked)

/-- RELEASE. -/
def releaseAct (id n : Nat) : Act := fun s =>
  if s.holdsLock id n then (((s.setObj (0x1180 + n) 2 0).setObj (0x1180 + n) 3 0).setObj (0x1180 + n) 4 0, stOk) else (s, stLocked)

/-- REPAIRED. -/
def repairedAct (id n : Nat) : Act := fun s =>
  if !s.holdsLock id n then (s, stLocked)
  else if s.obj (0x1180 + n) 2 = 3 then (s.setObj (0x1180 + n) 2 1, stOk)
  else (s, stWrongState)

/-- A write of a lock's CONTROL. -/
def lockAct (id n v : Nat) : Act :=
  match v with
  | 1 => acquireAct id n
  | 2 => releaseAct id n
  | 3 => repairedAct id n
  | _ => refuse stRange

/-- ACQUIRE. -/
def execAcquire (m : Master) (n : LockId) (s : State) : Host.Outcome State Fault Refusal :=
  .next (s.act m (0x1180 + n) 1 (acquireAct (ownerId m) n))
/-- RELEASE. -/
def execRelease (m : Master) (n : LockId) (s : State) : Host.Outcome State Fault Refusal :=
  .next (s.act m (0x1180 + n) 1 (releaseAct (ownerId m) n))
/-- REPAIRED. -/
def execRepaired (m : Master) (n : LockId) (s : State) : Host.Outcome State Fault Refusal :=
  .next (s.act m (0x1180 + n) 1 (repairedAct (ownerId m) n))

end Sys2Proof.Machine
end

