-- ==== Sys2Proof/Machine/Collective.lean ====
section
/-! DEFINITION. Collectives (R185, R218, R226–R228, R233): COLL hands one over, the rows of its kinds move and sum the
tiles, COLLECTIVE_COMPLETE ends it. -/

namespace Sys2Proof.Machine

/-! ### Members and shards -/

/-- Node of member `i` of a group. -/
def State.memberAt (s : State) (g : Group) (i : Nat) : Nat := s.natAt (g.mlist + 2 * i) 2

/-- This device's place in a group. -/
def State.memberIndex (s : State) (g : Group) : Option Nat := (List.range g.nmem).find? fun i => s.memberAt g i == s.node

/-- First tile of shard `i` (R228). -/
def shardStart (ftile nt nmem i : Nat) : Nat := ftile + i * nt / nmem

/-- Tiles of shard `i`. -/
def Coll.shard (x : Coll) (i : Nat) : List Nat :=
  let lo := shardStart x.ftile x.nt x.group.nmem i
  (List.range (shardStart x.ftile x.nt x.group.nmem (i + 1) - lo)).map (lo + ·)

/-- The other members in the order of summation: the one after `i` first (R228). -/
def othersAfter (n i : Nat) : List Nat := (List.range (n - 1)).map fun k => (i + 1 + k) % n

/-- The other members in member order. -/
def othersOf (n i : Nat) : List Nat := (List.range n).filter (· != i)

/-! ### COLL (R185, R227) -/

/-- A tensor a collective moves: BLOCKED, in a scratchpad, with its tiles in range (log 25). -/
def collTensor (s : State) (e : Env) (wr : Bool) (sl : Nat) : Chk Tensor := do
  let t ← slotTensor s e false wr sl
  need (decide (t.base < bulkBase)) (.prog fAddress sl t.base)
  atSlot sl <| needParam (t.layout == 0 && decide (e.f 48 32 + e.f 80 24 ≤ t.tiles))
  .ok t

/-- COLL hands the operation over. SRC keeps its reader and DST stays WRITING until it completes. -/
def collCommand (e : Env) (s : State) : Chk State := do
  fieldsOnly e [(8, 8), (16, 8), (24, 4), (32, 16), (48, 32), (80, 24)]
  let src := e.f 8 8; let dst := e.f 16 8
  needParam (decide (e.f 24 4 ≤ 3))
  board s e [(src, kTensor)] [(dst, kTensor)]
  match (s.part e.p).groups.find? fun g => g.group == e.f 32 16 with
  | none => paramFault
  | some g => do
    let a ← collTensor s e false src
    let b ← collTensor s e true dst
    needParam (decide (g.alg < 2) && (s.memberIndex g).isSome && a.tileSize == b.tileSize && !overQueue s e b.base b.extent)
    let x : Coll := ⟨s.collNext, e.p, e.core, e.ctx, e.idx, e.f 24 4, g, src, dst, e.f 48 32, e.f 80 24, false, s.recorded e⟩
    let s := if src = dst then s else s.setSlot e src { s.slotOf e src with readers := (s.slotOf e src).readers + 1 }
    let s := s.setSlot e dst { s.slotOf e dst with st := .writing }
    let c := s.core e.core
    let s := s.setCore e.core { c with outst := c.outst ++ [⟨e.ctx, e.idx, slotKey e.ctx dst, some x.id, true⟩] }
    .ok ({ s with colls := s.colls ++ [x], collNext := s.collNext + 1 }.noteWrite e)

/-- COLL. -/
def execColl (core : CoreId) (ctx : CtxId) (s : State) : Host.Outcome State Fault Refusal :=
  .next (issue 0x20 core ctx s fun e s => Res.of s (collCommand e s))

/-! ### Tiles -/

/-- The tensors of a collective. -/
def State.collSrc (s : State) (x : Coll) : Tensor := tensorOf ((s.core x.core).slots.get (slotKey x.ctx x.src)).content.toNat
def State.collDst (s : State) (x : Coll) : Tensor := tensorOf ((s.core x.core).slots.get (slotKey x.ctx x.dst)).content.toNat

/-- The stored bytes of some tiles. -/
def State.tilesAt (s : State) (t : Tensor) (l : List Nat) : List Byte :=
  l.flatMap fun i => (t.tileSpans i).flatMap fun y => s.bytesAt y.1 y.2

/-- Store areas one after another. -/
def State.putSpans (s : State) : Spans → List Byte → State
  | [], _ => s
  | (a, n) :: rest, bs => ((s.writeAt a (bs.take n)).count (0x3400 + redirectBy s.redirects a / 0x8000000) 1 64 (ceilDiv n 64)).putSpans rest (bs.drop n)

/-- Store some tiles; the words go through the mover port (R125, R129). -/
def State.putTiles (s : State) (t : Tensor) (l : List Nat) (bs : List Byte) : State := s.putSpans (l.flatMap t.tileSpans) bs

/-- The first span of some tiles that holds an uncorrectable word (R137). -/
def State.tilesBad (s : State) (t : Tensor) (l : List Nat) : Option Nat :=
  ((l.flatMap t.tileSpans).find? fun y => s.sramError y.1 y.2).map (·.1)

/-- Send tiles to a member; a command recorded as completed sends nothing (R209). -/
def State.sendTiles (s : State) (x : Coll) (m : Nat) (bs : List Byte) : State :=
  if x.silent then s else s.emit (.collTiles x.id (s.memberAt x.group m) bs)

/-- The member a contribution for member `j` is sent to: the successor under RING, `j` itself under DIRECT (R226). -/
def Coll.via (x : Coll) (i j : Nat) : Nat := if x.group.alg = 0 then (i + 1) % x.group.nmem else j

/-- The tiles are in place. -/
def State.collDone (s : State) (id : Nat) : State :=
  { s with colls := s.colls.map fun y => if y.id = id then { y with done := true } else y }

/-- A collective of a kind that has its tiles still to move, with this device's place in the group. -/
def State.collOf (s : State) (id kind : Nat) : Option (Coll × Nat) :=
  match s.colls.find? fun x => x.id == id && x.kind == kind && !x.done with
  | none => none
  | some x => (s.memberIndex x.group).map fun i => (x, i)

/-- The sum of R228 of contributions in summation order. -/
def sumLanes (accf : Bool) : List (List Nat) → List Nat
  | [] => []
  | c :: rest => rest.foldl (fun a b => List.zipWith (laneAdd accf) a b) c

/-- The owned shard: DST ← RN(DST + S), S summed from the member after the owner round to the owner (R228). -/
def State.reduceShard (s : State) (x : Coll) (i : Nat) (peers : List (List Word)) : State :=
  let accf := x.group.accf
  let mine := x.shard i
  let own := lanesOf accf (s.tilesAt (s.collSrc x) mine)
  let sum := sumLanes accf ((peers.map fun l => l.map fun w => w.toNat % 2 ^ (8 * laneBytes accf)) ++ [own])
  s.putTiles (s.collDst x) mine (accBytes accf (s.tilesAt (s.collDst x) mine) (laneList accf sum))

/-- This device's contributions to the other members' shards. -/
def State.sendContributions (s : State) (x : Coll) (i : Nat) : State :=
  (othersAfter x.group.nmem i).foldl (fun s j => s.sendTiles x (x.via i j) (s.tilesAt (s.collSrc x) (x.shard j))) s

/-- All tiles a collective touches. -/
def Coll.allTiles (x : Coll) : List Nat := (List.range x.nt).map (x.ftile + ·)

/-- Do peers' contributions match the owned shard? -/
def State.peersFit (s : State) (x : Coll) (i : Nat) (peers : List (List Word)) : Bool :=
  let n := (x.shard i).length * (s.collSrc x).tileSize / laneBytes x.group.accf
  peers.length == x.group.nmem - 1 && peers.all fun l => l.length == n

/-- Sizes of the other members' shards, in member order, as the bytes gathered have them. -/
def State.gatherFit (s : State) (x : Coll) (i : Nat) (l : List (List Byte)) : Bool :=
  l.map (·.length) == (othersOf x.group.nmem i).map fun j => (x.shard j).length * (s.collSrc x).tileSize

/-- Store the other members' shards. -/
def State.storeShards (s : State) (x : Coll) (i : Nat) (l : List (List Byte)) : State :=
  ((othersOf x.group.nmem i).zip l).foldl (fun s y => s.putTiles (s.collDst x) (x.shard y.1) y.2) s

/-- Send some tiles to every other member. -/
def State.sendAll (s : State) (x : Coll) (i : Nat) (bs : List Byte) : State :=
  (othersAfter x.group.nmem i).foldl (fun s j => s.sendTiles x (x.via i j) bs) s

/-- Run a collective whose tiles can all be read; a word that cannot faults its core (R137). -/
def State.collRun (s : State) (x : Coll) (run : State → State) : State :=
  match s.tilesBad (s.collSrc x) x.allTiles, s.tilesBad (s.collDst x) x.allTiles with
  | some a, _ => s.fenceCore x.core x.ctx 0 x.index .memory a
  | none, some a => if x.kind = 0 ∨ x.kind = 2 then s.fenceCore x.core x.ctx 0 x.index .memory a else (run s).collDone x.id
  | none, none => (run s).collDone x.id

/-! ### The kinds -/

/-- REDUCE_SCATTER: `peers` are the other members' contributions to this device's shard, in summation order. -/
def execReduceScatter (coll : Nat) (peers : List (List Word)) (s : State) : Host.Outcome State Fault Refusal :=
  .next (match s.collOf coll 0 with
    | none => s
    | some (x, i) =>
      if s.peersFit x i peers then s.collRun x fun s => (s.sendContributions x i).reduceShard x i peers else s)

/-- ALL_GATHER: `peers` are the other members' shards, in member order (log 26). -/
def execAllGather (coll : Nat) (peers : List (List Byte)) (s : State) : Host.Outcome State Fault Refusal :=
  .next (match s.collOf coll 1 with
    | none => s
    | some (x, i) =>
      if s.gatherFit x i peers then
        s.collRun x fun s =>
          let own := s.tilesAt (s.collSrc x) (x.shard i)
          ((s.sendAll x i own).putTiles (s.collDst x) (x.shard i) own).storeShards x i peers
      else s)

/-- ALL_REDUCE: a REDUCE_SCATTER, then an ALL_GATHER of the result (R228); `sums` are the other shards as their owners
hold them. -/
def execAllReduce (coll : Nat) (peers : List (List Word)) (sums : List (List Byte)) (s : State) :
    Host.Outcome State Fault Refusal :=
  .next (match s.collOf coll 2 with
    | none => s
    | some (x, i) =>
      if s.peersFit x i peers && s.gatherFit x i sums then
        s.collRun x fun s =>
          let s := (s.sendContributions x i).reduceShard x i peers
          (s.sendAll x i (s.tilesAt (s.collDst x) (x.shard i))).storeShards x i sums
      else s)

/-- RING_PASS: SRC tiles to the member after this one, the predecessor's into DST (R233). -/
def execRingPass (coll : Nat) (incoming : List Byte) (s : State) : Host.Outcome State Fault Refusal :=
  .next (match s.collOf coll 3 with
    | none => s
    | some (x, i) =>
      if incoming.length = x.nt * (s.collSrc x).tileSize then
        s.collRun x fun s =>
          (s.sendTiles x ((i + 1) % x.group.nmem) (s.tilesAt (s.collSrc x) x.allTiles)).putTiles (s.collDst x) x.allTiles incoming
      else s)

/-! ### COLLECTIVE_COMPLETE (R218, R233) -/

/-- Contributions are acknowledged as placed and the owned tiles are in place: DST becomes READY, SRC loses its reader, the
command has completed (R173, R209). -/
def State.collComplete (s : State) (id : Nat) : State :=
  match s.colls.find? fun x => x.id == id && x.done with
  | none => s
  | some x =>
    let s := { s with colls := s.colls.filter fun y => y.id != id }
    let c := s.core x.core
    if c.outst.any fun o => o.entry == some id then
      let free (t : Tab slotReset) := if x.src = x.dst then t else t.modify (slotKey x.ctx x.src) fun y => { y with readers := y.readers - 1 }
      ((s.setCore x.core { c with outst := c.outst.filter fun o => o.entry != some id, slots := free c.slots }).slotReady x.core
        (slotKey x.ctx x.dst)).recordEffect x.core x.ctx x.index
    else s

/-- COLLECTIVE_COMPLETE. -/
def execCollectiveComplete (coll : Nat) (s : State) : Host.Outcome State Fault Refusal := .next (s.collComplete coll)

end Sys2Proof.Machine
end

