-- ==== Sys2Proof/Machine/Pcie.lean ====
section
/-! DEFINITION. PCIe (R373–R377): the movable window, the mailbox, link resets, and the outbound host windows. -/

namespace Sys2Proof.Machine

/-! ### The movable window (R375) -/

/-- Device address of BAR0 offset `x`. -/
def State.winAddr (s : State) (x : Nat) : Nat := s.winBase.toNat * 2 ^ 26 + x % 2 ^ 26

/-- What the window may do with bytes of one granule. -/
inductive WinSee where
  /-- Reach the memory; `wait` while a front or a re-run holds the access (R155, R209). -/
  | open
  | wait
  /-- Closed by a sealed partition (R326). -/
  | sealed (p : Nat)
  /-- Not performed: unpopulated, control space, a vault, a host window, bulk memory outside every region (R25, R28, R29, R142). -/
  | absent
  /-- A bulk write that R144 does not allow (R145). -/
  | refused
  deriving DecidableEq, Repr

/-- The window's view of `n` bytes at `a`, inside one granule. Reads of a region are open in every class (log 57). -/
def State.winSee (s : State) (wr : Bool) (a n : Nat) : WinSee :=
  match placeOf a with
  | .scratch c _ =>
    match s.partOf c with
    | some p => if s.isSealed p then .sealed p else if (s.redirectBusy a n).isSome then .wait else .open
    | none => .open
  | .bulk o =>
    match s.regionOf o n with
    | none => .absent
    | some r =>
      let g := s.region r
      if g.owner < 4 && s.isSealed g.owner then .sealed g.owner
      else if wr && g.cls != 6 then .refused
      else if s.bulkReady o n && (wr || !s.bulkError a n) then .open
      else .wait
  | _ => .absent

/-- An access not performed is counted in the PCIe unit's event log (R25): with code 0x0302 and the address for a refused
bulk write (R145, R425), else with an event whose code no rule gives (log 4). -/
def State.winCount (s : State) (w : WinSee) (a : Nat) : State :=
  let s := { s with winDrops := s.winDrops + 1 }
  if w = .refused then s.logEvent 0x71 0x0302 a else s.logOpen 0x71 a

/-- Bytes of a scratchpad granule that holds an uncorrectable error: not stated, so free (R137; log 58). -/
def State.winBytes (s : State) (a n : Nat) : List Byte :=
  if s.sramError a n then (List.range n).map fun i => BitVec.ofNat 8 (Config.openValue (s.freeCtr + i)) else s.bytesAt a n

/-- Read bytes of one granule: the state and the bytes; zeros where the access is closed or not performed. -/
def State.winReadOne (s : State) (a n : Nat) : State × List Byte :=
  match s.winSee false a n with
  | .open => ({ ((s.touch a).countBulk 1 a n) with freeCtr := s.freeCtr + n }, s.winBytes a n)
  | .sealed p => (s.count (0x1230 + p) 7 32 1, List.replicate n 0)
  | .absent => (s.winCount .absent a, List.replicate n 0)
  | _ => (s, List.replicate n 0)

/-- Cut a span at granule boundaries: addresses and lengths. -/
def granulesOf : Nat → Nat → Nat → List (Nat × Nat)
  | 0, _, _ => []
  | fuel + 1, a, n => if n = 0 then [] else (a, min n (64 - a % 64)) :: granulesOf fuel (a + min n (64 - a % 64)) (n - min n (64 - a % 64))

/-- The granules of `n` bytes at BAR0 offset `x`, as device addresses. -/
def State.winSpans (s : State) (x n : Nat) : List (Nat × Nat) :=
  (granulesOf (n / 64 + 2) x n).map fun g => (s.winAddr g.1, g.2)

/-- Does any granule wait? -/
def State.winWaits (s : State) (wr : Bool) (l : List (Nat × Nat)) : Bool := l.any fun g => s.winSee wr g.1 g.2 == .wait

/-- A read of at most 4,096 bytes (R373), answered granule by granule; one that must wait is not answered yet. -/
def State.winRead (s : State) (x n : Nat) : State :=
  let l := s.winSpans x n
  if !s.serverUp || decide (4096 < n) || s.winWaits false l then s
  else
    let r := l.foldl (fun (r : State × List Byte) g =>
      let y := r.1.winReadOne g.1 g.2
      (y.1, r.2 ++ y.2)) (s, [])
    r.1.emit (.windowData x r.2)

/-- WINDOW_READ. -/
def execWindowRead (x n : Nat) (s : State) : Host.Outcome State Fault Refusal := .next (s.winRead x n)

/-- Write bytes of one granule, whole or not at all; part of an uncorrectable half discards it (R445). -/
def State.winWriteOne (s : State) (a : Nat) (bs : List Byte) : State :=
  match s.winSee true a bs.length with
  | .open => if s.sramPartial a bs.length then s.winCount .absent a else s.writeAt a bs
  | .sealed p => s.count (0x1230 + p) 7 32 1
  | .absent => s.winCount .absent a
  | .refused => s.winCount .refused a
  | .wait => s

/-- A write of at most 512 bytes (R373), granule by granule. -/
def State.winWrite (s : State) (x : Nat) (bs : List Byte) : State :=
  let l := granulesOf (bs.length / 64 + 2) x bs.length
  if !s.serverUp || decide (512 < bs.length) || s.winWaits true (s.winSpans x bs.length) then s
  else l.foldl (fun s g => s.winWriteOne (s.winAddr g.1) ((bs.drop (g.1 - x)).take g.2)) s

/-- WINDOW_WRITE. -/
def execWindowWrite (x : Nat) (data : List Byte) (s : State) : Host.Outcome State Fault Refusal := .next (s.winWrite x data)

/-! ### The mailbox (R374) -/

/-- The request PDU in MB_REQ (R348). -/
def State.mbReq (s : State) : DictReq :=
  let h := natOf ((List.range 16).map s.bar2.get)
  let n := fieldAt h 80 16
  { master := ⟨.pcie, 0⟩, seq := 0, bcast := false, inverted := false
    op := BitVec.ofNat 8 h, last := bitAt h 9, rsv := BitVec.ofNat 6 (h / 2 ^ 10), tag := BitVec.ofNat 16 (h / 2 ^ 16)
    index := BitVec.ofNat 16 (h / 2 ^ 32), subindex := BitVec.ofNat 8 (h / 2 ^ 48), session := BitVec.ofNat 8 (h / 2 ^ 56)
    len := BitVec.ofNat 16 n, offset := BitVec.ofNat 32 (h / 2 ^ 96)
    data := if fieldAt h 0 8 = 2 then (List.range (min n 4080)).map fun i => s.bar2.get (16 + i) else [] }

/-- GO: the request is submitted, and waits for its arbitration slot. While BUSY it is discarded and counted. -/
def State.mbGo (s : State) : State :=
  if !s.serverUp then s
  else if s.mbState = .busy then { s with mbDropped := s.mbDropped + 1 }
  else { s with mbState := .busy, mbWaiting := if s.dictUp .pcie then some s.mbReq else none }

/-- GO. -/
def execGo (s : State) : Host.Outcome State Fault Refusal := .next s.mbGo

/-- The header of a response (R348, R349). -/
def respHeader (r : DictResp) : Nat :=
  r.req.op.toNat + 2 ^ 8 + r.req.tag.toNat * 2 ^ 16 + r.req.index.toNat * 2 ^ 32 + r.req.subindex.toNat * 2 ^ 48
    + r.req.session.toNat * 2 ^ 56 + r.status.toNat * 2 ^ 64 + r.data.length * 2 ^ 80 + r.req.offset.toNat * 2 ^ 96

/-- The mailbox reaches DONE or ABORTED: the response in MB_RSP, its TAG, and vector 0 when IRQ is set. -/
def State.mbFinish (s : State) (st : MbState) (r : DictResp) : State :=
  let s := { s with
    bar2 := s.bar2.fill 0x1000 (16 + r.data.length) fun i => (bytesOf 16 (respHeader r) ++ r.data).getD i 0
    mbState := st, mbTag := r.req.tag, mbWaiting := none }
  if s.mbIrq then s.emit (.msix 0) else s

/-- MB_CTRL as it reads. -/
def State.mbCtrl (s : State) : Nat :=
  (match s.mbState with | .idle => 0 | .busy => 1 | .done => 2 | .aborted => 3) * 2 + (if s.mbIrq then 8 else 0) + s.mbTag.toNat * 2 ^ 16

/-- Bytes written over a register of `n` bytes at BAR2 offset `at_`. -/
def mergeBytes (old at_ n off : Nat) (data : List Byte) : Nat :=
  natOf ((List.range n).map fun i => if off ≤ at_ + i then data.getD (at_ + i - off) (BitVec.ofNat 8 (old / 256 ^ i)) else BitVec.ofNat 8 (old / 256 ^ i))

/-- Do the bytes written touch a span? -/
def touches (at_ n off len : Nat) : Bool := decide (off < at_ + n) && decide (at_ < off + len)

/-- A write of MB_REQ: discarded and counted while BUSY. -/
def State.writeMbReq (s : State) (off : Nat) (data : List Byte) : State :=
  if !touches 0 0x1000 off data.length then s
  else if s.mbState = .busy then { s with mbDropped := s.mbDropped + 1 }
  else { s with bar2 := s.bar2.fill off (min data.length (0x1000 - off)) fun i => data.getD i 0 }

/-- A write of MB_CTRL: IRQ, then GO; one with a reserved bit set is not applied (R13). -/
def State.writeMbCtrl (s : State) (off : Nat) (data : List Byte) : State :=
  if !touches 0x2000 4 off data.length then s
  else
    let w := mergeBytes (if s.mbIrq then 8 else 0) 0x2000 4 off data
    if fieldAt w 4 12 ≠ 0 then s
    else
      let s := { s with mbIrq := bitAt w 3 }
      if bitAt w 0 then s.mbGo else s

/-- A write of WIN_BASE; one with a reserved bit set is not applied (R13). -/
def State.writeWinBase (s : State) (off : Nat) (data : List Byte) : State :=
  if !touches 0x2008 8 off data.length then s
  else
    let w := mergeBytes (s.winBase.toNat * 2 ^ 26) 0x2008 8 off data
    if fieldAt w 0 26 ≠ 0 ∨ fieldAt w 44 20 ≠ 0 then s else { s with winBase := BitVec.ofNat 18 (w / 2 ^ 26) }

/-- A server write to BAR2: what no register holds is discarded. -/
def State.writeBar2 (s : State) (off : Nat) (data : List Byte) : State :=
  if !s.serverUp then s else ((s.writeMbReq off data).writeWinBase off data).writeMbCtrl off data

/-- BAR2_WRITE. -/
def execBar2Write (off : Nat) (data : List Byte) (s : State) : Host.Outcome State Fault Refusal := .next (s.writeBar2 off data)

/-! ### Link resets and link up (R376, R419, R438) -/

/-- Number of a cause (R378); PCIE_PERST_N acts as a link down (R438). -/
def pcieCauseNum : PcieCause → Nat
  | .hotReset => 1 | .linkDown => 2 | .flr => 3 | .perst => 2

/-- A hot reset, a link down or a function-level reset; only the last leaves the link up. -/
def State.pcieDown (s : State) (c : PcieCause) : State :=
  if !s.serverUp then s
  else
    let r := s.mbReq
    let abort := s.mbState == .busy
    let s := if abort then s.mbFinish .aborted ⟨r, stWrongState, []⟩ else s
    let s := { s with winBase := 0x4000, mbIrq := false, serverUp := decide (c = PcieCause.flr) }
    let s := (s.logEvent 0x71 0x0B10 (pcieCauseNum c)).advanceEpoch pcieOwner
    if abort then s.logEvent 0x71 0x0B11 (r.tag.toNat + r.index.toNat * 2 ^ 16 + r.subindex.toNat * 2 ^ 32) else s

/-- PCIE_RESET. -/
def execPcieReset (cause : PcieCause) (s : State) : Host.Outcome State Fault Refusal := .next (s.pcieDown cause)

/-- PCIE_LINK_UP: from REST on (R408), the link trains, or retrains while it is up. -/
def State.pcieUp (s : State) (width gen : Nat) : State :=
  if !s.clockRuns then s
  else
    let s := (s.setObj 0x5030 1 width).setObj 0x5030 2 gen
    if s.serverUp then s.count 0x5030 3 32 1 else { s with serverUp := true }

/-- PCIE_LINK_UP. -/
def execPcieLinkUp (width gen : Byte) (s : State) : Host.Outcome State Fault Refusal := .next (s.pcieUp width.toNat gen.toNat)

/-! ### Outbound host windows (R28, R326, R377) -/

/-- May a partition's access of `n` bytes at `a` go out: not sealed, every window it touches open? -/
def State.hostReach (s : State) (p a n : Nat) : Bool :=
  !s.isSealed p && match placeOf a with
    | .host w o => s.hostOpen w && (decide (o + n ≤ hostSize) || s.hostOpen (w + 1))
    | _ => false

/-- An engine's access through an outbound host window; one that is not performed (R25) and one that a seal closes, which
is counted, reach no server. -/
def State.hostAccess (s : State) (p a : Nat) (write : Option (List Byte)) (len : Nat) : State :=
  let n := match write with | some bs => bs.length | none => len
  if s.isSealed p then s.count (0x1230 + p) 7 32 1
  else if n = 0 || !s.hostReach p a n then s
  else match write with
    | some bs => s.hostPut a bs
    | none => s.hostGet a n

/-- HOST_WINDOW_ACCESS. -/
def execHostWindowAccess (p : PartId) (addr : Nat) (write : Option (List Byte)) (len : Nat) (s : State) : Host.Outcome State Fault Refusal :=
  .next (s.hostAccess p.val addr write len)

end Sys2Proof.Machine
end

