-- ==== Sys2Proof/Machine/Dict.lean ====
section
/-! DEFINITION. The object dictionary (R343–R358): what every read shows, what every write does, the order of statuses,
segments, snapshots, arbitration slots, and the management sessions (R371). -/

namespace Sys2Proof.Machine

/-! ### What a read shows -/

/-- Bytes measured at index 0x20 + p (R319): QMASK, SEALED, MODE and the partition's region records in region order. -/
def State.configBytes (s : State) (p : Nat) : List Byte :=
  bytesOf 3 (s.obj (0x3100 + p) 1 + s.obj (0x1230 + p) 1 * 2 ^ 8 + s.obj (0x3050 + p) 1 * 2 ^ 16)
    ++ ((List.range 64).filter fun r => (s.region r).owner == p).flatMap fun r =>
      let g := s.region r
      bytesOf 7 (g.base + g.size * 2 ^ 16 + g.attr * 2 ^ 32 + g.owner * 2 ^ 48)

/-- The measurement at an index of R319; an index with no content reads as zero (log 59). -/
def State.measure (s : State) (k : Nat) : Nat :=
  if k ≤ 4 then s.onChipHash.get k
  else if k = 5 then
    (Config.sha384 (bytesOf 2 (s.obj 0x1200 1 + (if s.jtagOpen then 256 else 0)) ++ ([1, 2, 3, 4].map fun c => BitVec.ofNat 8 (s.obj 0x1210 c)))).toNat
  else if k = 6 then (Config.sha384 (bytesOf 528 (s.obj 0x2200 1))).toNat
  else if k < 0x14 then (if 2 ≤ s.pstate (k - 0x10) then (s.part (k - 0x10)).imageHash.toNat else 0)
  else if k < 0x1C then (if (s.part (k - 0x18)).wk.isSome then (s.part (k - 0x18)).pkgHash.toNat else 0)
  else if s.pstate (k - 0x20) = 0 then 0
  else (Config.sha384 (s.configBytes (k - 0x20))).toNat

/-- The log that object 0x2400 or 0x2401 shows. -/
def State.logOf (s : State) (persist : Bool) : List Event := if persist then s.plog else s.log

/-- CURSOR of an owner. -/
def State.cursor (s : State) (id : Nat) (persist : Bool) : Nat :=
  if persist then (s.masters.get id).cursor1 else (s.masters.get id).cursor0

def State.setCursor (s : State) (id : Nat) (persist : Bool) (c : Nat) : State :=
  { s with masters := s.masters.modify id fun x => if persist then { x with cursor1 := c } else { x with cursor0 := c } }

/-- The records a read of subindex 4 returns (R424). -/
def State.logNext (s : State) (id : Nat) (persist : Bool) : List Event :=
  (within (s.seqNext % 2 ^ 24) (seqDistance s.seqNext (s.cursor id persist)) (s.logOf persist)).take 32

/-- CURSOR moves past them. -/
def State.logTaken (s : State) (id : Nat) (persist : Bool) : State :=
  match (s.logNext id persist).getLast? with
  | some e => s.setCursor id persist ((e.seq + 1) % 2 ^ 24)
  | none => s

/-- Subindexes of objects 0x2400 and 0x2401. -/
def State.shownLog (s : State) (id : Nat) (persist : Bool) (k : Nat) : Nat :=
  match k with
  | 1 => s.seqNext % 2 ^ 24
  | 2 => (s.logOf persist).length
  | 3 => s.cursor id persist
  | 4 => natOf ((s.logNext id persist).flatMap fun e => eventBytes e false)
  | _ => s.obj (if persist then 0x2401 else 0x2400) k

/-- Power and temperature readings as a path shows them (R327): the service processor's own firmware reads them whole. -/
def State.shownTele (s : State) (m : Master) (i k : Nat) : Nat :=
  if m.path = .firmware ∨ !s.anySealed then s.obj i k
  else if i = 0x2302 ∧ k ≤ 11 then s.tele.get (100 + k - 1)
  else if i = 0x2300 then s.tele.get (200 + k - 1)
  else if i = 0x2303 then s.tele.get 224
  else s.obj i k

/-- JSTATE: RECOVERING, else as the job's partition stands (R234, R346; log 50). -/
def State.jstate (s : State) : Nat :=
  if s.obj 0x3500 0x13 = 2 then 2
  else if s.obj 0x3500 2 = 0 then 0
  else if s.pstate s.jobP = 3 then 1 else if s.pstate s.jobP = 4 then 3 else 0

/-- LIVE of a partition (R164). -/
def State.liveMask (s : State) (p : Nat) : Nat := (s.liveCores p).foldl (fun a c => a + 2 ^ c) 0

/-- The value a read shows; what no rule derives is the register. -/
def State.shown (s : State) (m : Master) (i k : Nat) : Nat :=
  if k = 0 ∧ (objRow i 0).isNone then objHighest i
  else if i = 0x1220 then s.measure k
  else if i = 0x1270 ∧ k = 1 then natOf ((s.masters.get (ownerId m)).spdm.getD [])
  else if i = 0x1270 ∧ k = 2 then (if (s.masters.get (ownerId m)).spdm.isSome then 1 else 0)
  else if i = 0x2010 ∧ k = 4 then s.vcoreReq
  else if 0x2101 ≤ i ∧ i ≤ 0x2108 ∧ k = 2 then (if s.suspended (i - 0x2101) then 1 else 0)
  else if i = 0x2200 ∧ k = 6 then s.obj 0x2200 1
  else if 0x2300 ≤ i ∧ i ≤ 0x2303 then s.shownTele m i k
  else if i = 0x2400 ∨ i = 0x2401 then s.shownLog (ownerId m) (i == 0x2401) k
  else if 0x3100 ≤ i ∧ i ≤ 0x3103 ∧ k = 0x0D then s.liveMask (i - 0x3100)
  else if i = 0x3460 ∧ k = 0x11 then (if (List.range 16).all fun c => s.obj 0x3460 (c + 1) == 4096 then 1 else 0)
  else if i = 0x3500 ∧ k = 0x13 then s.jstate
  else if i = 0x4211 ∧ k = 1 then connRecord (s.conn (s.obj 0x4210 0))
  else if i = 0x4221 ∧ k = 1 then keyRecord (s.keys.get (s.obj 0x4220 0))
  else s.obj i k

/-! ### What a seal closes (R89, R326, R327, R416) -/

/-- Counter objects of a core or a partition (R89, R98, R129, R154, R212), which a sealed partition hides until it grants counters (log 60). -/
def State.counterHidden (s : State) (i k : Nat) : Bool :=
  let coreHidden (c : Nat) : Bool := match s.partOf c with
    | some p => s.hides p 0
    | none => false
  if 0x3010 ≤ i ∧ i < 0x3020 then decide (5 ≤ k) && decide (k ≤ 8) && coreHidden (i - 0x3010)
  else if 0x3040 ≤ i ∧ i < 0x3050 then coreHidden (i - 0x3040)
  else if 0x3060 ≤ i ∧ i < 0x3070 then coreHidden (i - 0x3060)
  else if 0x3400 ≤ i ∧ i < 0x3410 then coreHidden (i - 0x3400)
  else if 0x3480 ≤ i ∧ i < 0x3484 then s.hides (i - 0x3480) 0
  else false

/-- The partitions that close a test object. -/
def State.testClosed (s : State) (i : Nat) : List Nat :=
  if 0x5020 ≤ i ∧ i < 0x5030 then s.bulkTestClosed
  else if 0x5050 ≤ i ∧ i < 0x5060 then s.selfTestClosed (i - 0x5050)
  else []

/-! ### Reads (R346, R347, R351, R352) -/

/-- Type and access of an object's subindex, or why there is none (R343, R344). -/
def specOf (i k : Nat) : Except (BitVec 16) (ObjType × Access) :=
  if !objDefined i then .error stNoObject
  else match objRow i k with
    | some r => .ok (r.ty, r.acc)
    | none => if k = 0 then .ok (.u8, .const) else .error stNoSub

/-- A status that a read of an object meets before any question of length. -/
def State.readStop (s : State) (i k : Nat) (acc : Access) : Option (State × BitVec 16) :=
  if acc = .wo then some (s, stWriteOnly)
  else if k = 0 ∧ (objRow i 0).isNone then none
  else if s.counterHidden i k then some (s, stSealed)
  else if !(s.testClosed i).isEmpty then some (sealedByAll (s.testClosed i) s)
  else if (i = 0x2200 ∧ k = 6 ∧ s.obj 0x2200 4 = 2) ∨ (i = 0x5060 ∧ s.bootSt ≠ .recoveryImage) then some (s, stWrongState)
  else none

/-- What reading a register does: an RC one is cleared, a log's CURSOR moves on, an SPDM response is taken. -/
def State.readTaken (s : State) (m : Master) (i k : Nat) (acc : Access) : State :=
  if acc = .rc then s.setObj i k 0
  else if (i = 0x2400 ∨ i = 0x2401) ∧ k = 4 then s.logTaken (ownerId m) (i == 0x2401)
  else if i = 0x1270 ∧ k = 1 then { s with masters := s.masters.modify (ownerId m) fun x => { x with spdm := none } }
  else s

/-- A master's snapshot and latches. -/
def State.setSnap (s : State) (m : Master) (x : Option Snapshot) : State :=
  { s with masters := s.masters.modify (ownerId m) fun y => { y with snap := x } }

/-- The halves of a 64-bit object (R351). -/
def State.readHalf (s : State) (m : Master) (i k : Nat) (acc : Access) (high : Bool) : State × BitVec 16 × List Byte :=
  let y := s.masters.get (ownerId m)
  let key := objKey i k
  let rest := y.latch.filter fun e => e.1 != key
  if high then
    match y.latch.find? fun e => e.1 == key with
    | some e => ({ s with masters := s.masters.set (ownerId m) { y with latch := rest } }, stOk, bytesOf 4 e.2)
    | none => (s, stOk, bytesOf 4 (s.shown m i k / 2 ^ 32))
  else
    let v := s.shown m i k
    (State.readTaken { s with masters := s.masters.set (ownerId m) { y with latch := (key, v / 2 ^ 32) :: rest } } m i k acc, stOk, bytesOf 4 v)

/-- A read of an object of 8 bytes or fewer. -/
def State.readShort (s : State) (m : Master) (i k : Nat) (ty : ObjType) (acc : Access) (n off : Nat) : State × BitVec 16 × List Byte :=
  if (ty = .u64 ∨ ty = .i64) ∧ n = 4 ∧ (off = 0 ∨ off = 4) then s.readHalf m i k acc (off == 4)
  else if off ≠ 0 ∨ n ≠ ty.size then (s, stLength, [])
  else (s.readTaken m i k acc, stOk, bytesOf n (s.shown m i k))

/-- A read of a longer object: from the snapshot that the read at offset 0 takes. -/
def State.readLong (s : State) (m : Master) (i k : Nat) (size : Nat) (acc : Access) (n off : Nat) : State × BitVec 16 × List Byte :=
  let held := if off = 0 then some ⟨i, k, size, s.shown m i k⟩ else (s.masters.get (ownerId m)).snap.filter fun x => x.index == i && x.subindex == k
  match held with
  | none => (s, stWrongState, [])
  | some x =>
    if size < off + n then (s, stRange, [])
    else
      let s := if off = 0 then s.readTaken m i k acc else s
      (s.setSnap m (if off + n = size then none else some x), stOk, (bytesOf size x.value).drop off |>.take n)

/-- READ of `n` bytes at an offset. A read at offset 0 of any object releases the snapshot. -/
def State.readObj (s : State) (m : Master) (i k n off : Nat) : State × BitVec 16 × List Byte :=
  let s := if off = 0 then s.setSnap m none else s
  match specOf i k with
  | .error c => (s, c, [])
  | .ok (ty, acc) =>
    match s.readStop i k acc with
    | some r => (r.1, r.2, [])
    | none => if ty.size ≤ 8 then s.readShort m i k ty acc n off else s.readLong m i k ty.size acc n off

/-- DESCRIBE (R345, R349): a RECORD's subindex 0 shows type 0x0D. -/
def describeObj (i k : Nat) : BitVec 16 × List Byte :=
  match specOf i k with
  | .error c => (c, [])
  | .ok (ty, acc) =>
    (stOk, bytesOf 8 ((if k = 0 ∧ (objRow i 0).isNone then 0x0D else ty.code) + acc.code * 2 ^ 8 + ty.size * 2 ^ 32))

/-! ### The order of statuses (R346) -/

/-- Place of a status in the table of R346. -/
def statusRank (c : BitVec 16) : Nat :=
  (([stNoObject, stNoSub, stReadOnly, stWriteOnly, stSealed, stLocked, stWrongState, stLength, stRange, stAbandoned, stSuperseded] :
    List (BitVec 16)).findIdx? (· == c)).getD 11

/-! ### What a write does -/

/-- A plain write. -/
def putAct (i k v : Nat) : Act := fun s => (s.setObj i k v, stOk)

/-- A plain write while `c` holds, else 0x0203. -/
def putWhen (c : State → Bool) (i k v : Nat) : Act := fun s => if c s then (s.setObj i k v, stOk) else (s, stWrongState)

/-- A write when `c` holds of the state and `r` of the value. -/
def putIn (c : State → Bool) (r : Bool) (i k v : Nat) : Act := fun s =>
  if !c s then (s, stWrongState) else if !r then (s, stRange) else (s.setObj i k v, stOk)

/-- A write whose outcome outside the dictionary is not stated to it: the outcome is a free bit (log 4). -/
def withFreeBit (f : Bool → Act) : Act := fun s =>
  f (Config.openValue s.freeCtr % 2 == 1) { s with freeCtr := s.freeCtr + 1 }

/-- SLOT and POD of the chain record (R370): over the management MAC, with no slot held and STATE FALLBACK; both accepted
give the node ID and raise DAISY_OUT. -/
def slotWriteAct (m : Master) (k v : Nat) : Act := fun s =>
  if m.path ≠ .mgmt ∨ s.hasSlot ∨ s.obj 0x1100 6 ≠ 2 then (s, stWrongState)
  else if (if k = 1 then 63 else 191) < v then (s, stRange)
  else
    let s := s.setObj 0x1100 k v
    if s.obj 0x1100 1 = 0xFF ∨ s.obj 0x1100 2 = 0xFF then (s, stOk)
    else
      let s := s.takeSlot (s.obj 0x1100 1) (s.obj 0x1100 2)
      ({ s with chain := { s.chain with daisyOut := true } }, stOk)

/-- Objects 0x1100–0x11FF. -/
def commAct (m : Master) (i k v : Nat) : Act :=
  if i = 0x1100 ∧ k ≤ 2 then slotWriteAct m k v
  else if i = 0x1110 ∧ k = 1 then putIn (fun _ => true) (v == 4 || v == 6) i k v
  else if i = 0x1111 then networkAct v
  else if 0x1140 ≤ i ∧ i < 0x1150 ∧ k = 1 then putIn (fun s => s.obj i 2 == 0) (v % 4096 == 0) i k v
  else if 0x1180 ≤ i ∧ i < 0x1190 then lockAct (ownerId m) (i - 0x1180) v
  else putAct i k v

/-- Partition, JOB_ID and secret of a job key slot (R337). -/
def slotFieldAct (n k v : Nat) : Act := fun s =>
  let i := 0x1251 + n
  if s.slotSealed n then sealedBy (s.obj i 1) s
  else if k = 1 ∧ v < 4 ∧ s.isSealed v then sealedBy v s
  else if k ≤ 2 ∧ s.obj i 5 ≠ 0 then (s, stWrongState)
  else if k = 1 ∧ 4 ≤ v ∧ v ≠ 0xFF then (s, stRange)
  else (s.setObj i k v, stOk)

/-- Objects 0x1200–0x12FF. -/
def secAct (m : Master) (i k v : Nat) (data : List Byte) : Act :=
  if i = 0x1200 ∧ k = 3 then withFreeBit (requestAct v)
  else if i = 0x1210 ∧ k = 0x0A then commitAct v
  else if 0x1230 ≤ i ∧ i < 0x1234 then (if k = 1 then sealedAct (i - 0x1230) v else pkgAct (i - 0x1230) v)
  else if i = 0x1240 ∧ k = 4 then (if v = 1 then pkgLoadAct else if v = 2 then pkgExportAct else refuse stRange)
  else if 0x1251 ≤ i ∧ i < 0x1260 then
    (if k = 4 then (if v = 1 then slotLoadAct (i - 0x1251) else if v = 2 then slotRevokeAct (i - 0x1251) else refuse stRange)
    else slotFieldAct (i - 0x1251) k v)
  else if i = 0x1270 ∧ k = 1 then spdmAct m data
  else putAct i k v

/-- Objects 0x2000–0x24FF. -/
def powerAct (m : Master) (i k v : Nat) : Act :=
  if i = 0x2000 ∧ k = 2 then targetAct v
  else if i = 0x2010 ∧ k = 1 then fun s => let s := s.setObj i k v; (s.settleLimits s.hotCap, stOk)
  else if 0x2011 ≤ i ∧ i < 0x2015 then pointAct (i - 0x2011) v
  else if i = 0x2020 then fun s => ((s.setObj i k v).setFans, stOk)
  else if 0x2101 ≤ i ∧ i < 0x2109 ∧ k = 3 then shareAct (i - 0x2101) v
  else if i = 0x2200 ∧ k = 3 then (if v = 1 then withFreeBit calCommitAct else refuse stRange)
  else if i = 0x2400 ∨ i = 0x2401 then fun s => if v < 2 ^ 24 then (s.setCursor (ownerId m) (i == 0x2401) v, stOk) else (s, stRange)
  else putAct i k v

/-- CONTROL of a partition (R162): a value not listed for the state is 0x0203. -/
def partControl (p v : Nat) : Act :=
  match v with
  | 1 => loadAct p
  | 2 => startAct p
  | 3 => stopAct p
  | 4 => abortAct p
  | 5 => resumeAct p
  | 6 => dissolveAct p
  | _ => refuse stWrongState

/-- Objects 0x3000–0x33FF. -/
def coreAct (i k v : Nat) : Act :=
  if 0x3010 ≤ i ∧ i < 0x3020 then returnAct (i - 0x3010) v
  else if 0x3050 ≤ i ∧ i < 0x3054 then putIn (fun s => !s.stepping (i - 0x3050)) (k != 1 || decide (v ≤ 1)) i k v
  else
    let p := i - 0x3100
    if k = 1 then qmaskAct p v
    else if k = 3 then putWhen (fun s => s.pstate p == 1 || s.pstate p == 2) i k v
    else if k = 4 then partControl p v
    else if k = 8 then putWhen (fun s => s.pstate p == 2 || s.pstate p == 4) i k v
    else putAct i k v

/-- The region field of a subindex. -/
def regionField : Nat → RegionField
  | 1 => .base
  | 2 => .size
  | 3 => .attr
  | _ => .owner

/-- Objects 0x3400–0x35FF: the job record while its partition is not RUNNING (R234), the optimiser sets while no update phase
runs (R219). -/
def memAct (i k v : Nat) : Act :=
  if i = 0x3410 then slabMapAct v
  else if 0x3420 ≤ i ∧ i < 0x3460 then regionAct (i - 0x3420) (regionField k) v
  else if i = 0x3500 then
    (if k = 2 then fun s => if s.pstate s.jobP = 3 then (s, stWrongState) else if 3 < v then (s, stRange) else (s.setRole v, stOk)
    else putWhen (fun s => s.pstate s.jobP != 3) i k v)
  else if 0x3510 ≤ i ∧ i < 0x3520 then putWhen (fun s => (List.range 4).all fun p => (s.part p).upd != .running) i k v
  else putAct i k v

/-- Is every entry of an administrative gate list clear in its reserved bits (R13, R260)? -/
def gatesOk (v : Nat) : Bool := (List.range 256).all fun n => fieldAt v (64 * n + 40) 24 == 0

/-- Objects 0x4000–0x41FF. -/
def portAct (i k v : Nat) : Act :=
  if 0x4000 ≤ i ∧ i < 0x4008 then
    (if k = 2 then portEnableAct (i - 0x4000) v
    else if k = 1 ∨ k = 6 then putWhen (fun s => s.obj i 2 == 0) i k v
    else if k = 5 then putIn (fun _ => true) (decide (v < 48) || v == 0xFF) i k v
    else if k = 0x0C then putIn (fun _ => true) (gatesOk v) i k v
    else if k = 0x0D then configTimeAct (i - 0x4000) v
    else putAct i k v)
  else if 0x4020 ≤ i ∧ i < 0x4040 then serviceAct (i - 0x4020) v
  else if 0x4040 ≤ i ∧ i < 0x4060 then putIn (fun s => s.linkDefined (i - 0x4040)) (k != 7 || decide (v < 8) || v == 0xFF) i k v
  else if i = 0x40A0 then
    (if k = 3 then clockStepAct v
    else if k = 2 then putIn (fun _ => true) (decide (-500000000 ≤ signedOf 32 v) && decide (signedOf 32 v ≤ 500000000)) i k v
    else putIn (fun _ => true) (decide (v < 32) || v == 0xFF) i k v)
  else if k = 1 then fun s =>
    let c := i - 0x4100
    if v = s.obj i 1 ∨ 1 < v then (s, if 1 < v then stRange else stOk)
    else if v = 1 then (if s.strOk c then (s.strEnable c, stOk) else (s, stRange))
    else ((s.closeOpen c 2).setObj i 1 0, stOk)
  else putWhen (fun s => s.obj i 1 == 0) i k v

/-- Objects 0x4200–0x42FF. -/
def boreAct (i k v : Nat) : Act :=
  if i = 0x4200 ∧ k ≤ 6 then fun s =>
    let quiet := fun (s : State) => s.obj 0x4201 0x0F == 0
    if k = 2 then putIn quiet (v == 4 || v == 6) i k v s
    else if k = 4 then putIn quiet (decide (v ≤ if s.obj 0x4200 2 = 4 then 18 else 114)) i k v s
    else putWhen quiet i k v s
  else if i = 0x4211 then fun s => if k = 1 then s.writeConn (s.obj 0x4210 0) v else s.connControl (s.obj 0x4210 0) v
  else if i = 0x4221 then fun s => if k = 1 then s.writeKey (s.obj 0x4220 0) v else s.keyControl (s.obj 0x4220 0) v
  else putAct i k v

/-- CLASS, COPY and OFFSET of the recovery service (R411). -/
def recoveryFieldAct (k v : Nat) : Act := fun s =>
  let cls := if k = 1 then v else s.obj 0x5060 1
  if s.bootSt ≠ .recoveryImage ∨ (k = 1 ∧ 1 ≤ v ∧ v ≤ 4 ∧ s.bootClassOk v) then (s, stWrongState)
  else if k = 3 ∧ (v % 1024 ≠ 0 ∨ (copyArea cls (s.obj 0x5060 2)).2 ≤ v) then (s, stRange)
  else (s.setObj 0x5060 k v, stOk)

/-- Objects 0x5000–0x50FF. -/
def testAct (i k v : Nat) (data : List Byte) : Act :=
  if i < 0x5020 then (if k = 1 then laneTestAct (i - 0x5000) v else putAct i k v)
  else if i < 0x5030 then
    (if k = 4 then (if v = 1 then bulkTestAct (i - 0x5020) else if v = 2 then bulkStopAct (i - 0x5020) else refuse stRange)
    else fun s => if !(s.testClosed i).isEmpty then sealedByAll (s.testClosed i) s else (s.setObj i k v, stOk))
  else if 0x5050 ≤ i ∧ i < 0x5060 then (if v = 1 then selfTestAct (i - 0x5050) else refuse stRange)
  else if i = 0x5060 then
    (if k = 4 then withFreeBit (recoveryDataAct data)
    else if k = 5 then
      (if v = 1 then withFreeBit eraseAct else if v = 2 then checkAct else if v = 3 then rebootAct else refuse stRange)
    else recoveryFieldAct k v)
  else putAct i k v

/-- What a write of a value does, by the object's own rules. -/
def writeAct (m : Master) (i k v : Nat) (data : List Byte) : Act :=
  if i < 0x1200 then commAct m i k v
  else if i < 0x2000 then secAct m i k v data
  else if i < 0x3000 then powerAct m i k v
  else if i < 0x3400 then coreAct i k v
  else if i < 0x4000 then memAct i k v
  else if i < 0x4200 then portAct i k v
  else if i < 0x5000 then boreAct i k v
  else testAct i k v data

/-- Is a value in the object's stated range (R345, R346)? -/
def valueOk (r : ObjRow) (v : Nat) : Bool :=
  match r.ty with
  | .bool => decide (v ≤ 1)
  | .f32 => !(fieldAt v 23 8 == 255 && fieldAt v 0 23 != 0)
  | .str _ => true
  | .domain _ => true
  | _ => decide (r.lo ≤ v) && decide (v ≤ r.hi)

/-- Does a length suit the object (R347)? A message may be shorter. -/
def lengthOk (r : ObjRow) (n : Nat) : Bool := n == r.ty.size || (r.base == 0x1270 && r.sub == 1 && decide (n ≤ 4096))

/-- The write in the order of R346: what its object's state decides, then length, then range, then its effect. -/
def checkedAct (r : ObjRow) (data : List Byte) (f : Act) : Act := fun s =>
  let x := f s
  if !lengthOk r data.length && decide (statusRank stLength < statusRank x.2) then (s, stLength)
  else if !valueOk r (natOf data) && decide (statusRank stRange < statusRank x.2) then (s, stRange)
  else x

/-- A whole write of an object's bytes: access, lock and the rest (R346). -/
def State.commitWrite (s : State) (m : Master) (i k : Nat) (data : List Byte) : State × BitVec 16 :=
  match objRow i k with
  | none => (s, stReadOnly)
  | some r =>
    if r.acc = .ro ∨ r.acc = .const ∨ r.acc = .rc then (s, stReadOnly)
    else s.guarded m i k (checkedAct r data (writeAct m i k (natOf data) data))

/-! ### Segments and arbitration (R353, R355) -/

/-- A write applied in the slot in progress: its source, its object, its bytes. -/
structure Applied where
  path : Path
  key  : Nat
  data : List Byte
  deriving DecidableEq, Repr

/-- Does a write lose to one of another source in its slot? -/
def loses (l : List Applied) (p : Path) (key : Nat) (data : List Byte) : Bool :=
  l.any fun a => a.path != p && a.key == key && a.data != data

/-- Commit under arbitration: the loser is not applied. -/
def State.commitSlot (s : State) (l : List Applied) (m : Master) (i k : Nat) (data : List Byte) : State × BitVec 16 × List Applied :=
  let r := s.commitWrite m i k data
  if r.2 ≠ stOk then (r.1, r.2, l)
  else if loses l m.path (objKey i k) data then (s, stSuperseded, l)
  else (r.1, stOk, ⟨m.path, objKey i k, data⟩ :: l)

def State.setSeg (s : State) (m : Master) (x : Option SegBuf) : State :=
  { s with masters := s.masters.modify (ownerId m) fun y => { y with seg := x } }

/-- WRITE: whole for 8 bytes or fewer, else a segment. -/
def State.writeObj (s : State) (l : List Applied) (m : Master) (i k off : Nat) (last : Bool) (data : List Byte) : State × BitVec 16 × List Applied :=
  match specOf i k with
  | .error c => (s, c, l)
  | .ok (ty, _) =>
    if ty.size ≤ 8 then
      if off = 0 then s.commitSlot l m i k data
      else
        let r := s.commitWrite m i k (data ++ List.replicate 9 0)
        (r.1, r.2, l)
    else
      let held := (s.masters.get (ownerId m)).seg.getD ⟨i, k, []⟩
      let s' := s.setSeg m none
      if held.index ≠ i ∨ held.subindex ≠ k ∨ off ≠ held.data.length ∨ ty.size < off + data.length then (s', stRange, l)
      else if last then s'.commitSlot l m i k (held.data ++ data)
      else (s.setSeg m (some ⟨i, k, held.data ++ data⟩), stOk, l)

/-! ### Sessions of the management MAC (R371) -/

/-- A bare response. -/
def answer (r : DictReq) (st : BitVec 16) (data : List Byte) : DictResp := ⟨r, st, data⟩

/-- OPEN: the lowest free session. -/
def State.openFree (s : State) (r : DictReq) : State :=
  match ((List.range 16).map (· + 1)).find? fun n => !(s.sessions.get n).isOpen with
  | none => s.emit (.resp r.master (answer r stWrongState []))
  | some n =>
    let s := { s with sessions := s.sessions.set n { isOpen := true, kept := [] } }
    (s.setObj 0x1110 0x0A (s.obj 0x1110 0x0A + 1)).emit (.resp ⟨.mgmt, BitVec.ofNat 14 n⟩ (answer { r with session := BitVec.ofNat 8 n } stOk []))

/-- Is a source inside ALLOW, its bytes in network order? -/
def State.allowed (s : State) (src : Nat) : Bool :=
  let l := s.obj 0x1110 9
  l == 0 || (let pre := (bytesOf 16 (s.obj 0x1110 8)).foldl (fun a b => a * 256 + b.toNat) 0
    pre / 2 ^ (128 - l) == src / 2 ^ (128 - l))

/-- A session ends: its owner's epoch advances (R354), and what it held goes with it. -/
def State.endMgmt (s : State) (n : Nat) : State :=
  if !(s.sessions.get n).isOpen then s
  else
    let s := { s with sessions := s.sessions.set n {} }.setObj 0x1110 0x0A (s.obj 0x1110 0x0A - 1)
    let id := n + 2 * 2 ^ 14
    State.advanceEpoch { s with masters := s.masters.modify id fun x => { x with latch := [], snap := none, seg := none, spdm := none } } id

/-- The session keeps its last 8 responses, newest first. -/
def State.keep8 (s : State) (n : Nat) (x : DictResp) : State :=
  { s with sessions := s.sessions.modify n fun y => { y with kept := (x :: y.kept).take 8 } }

/-! ### One request (R346–R349, R362–R364, R371) -/

/-- Most data bytes of a PDU on a path (R348). -/
def lenMax : Path → Nat
  | .firmware => 65535 | .chain => 256 | .mgmt => 1024 | .pcie => 4080

/-- The master of a request: on the management MAC its SESSION names it. -/
def reqMaster (r : DictReq) : Master := if r.master.path = .mgmt then ⟨.mgmt, BitVec.ofNat 14 r.session.toNat⟩ else r.master

/-- READ, WRITE or DESCRIBE, or any other OP: status and data, with the writes applied in the slot. -/
def State.operate (s : State) (l : List Applied) (r : DictReq) : State × BitVec 16 × List Byte × List Applied :=
  let m := reqMaster r
  let i := r.index.toNat
  let k := r.subindex.toNat
  if r.op = 1 then
    let x := s.readObj m i k r.len.toNat r.offset.toNat
    (x.1, x.2.1, x.2.2, l)
  else if r.op = 2 then
    let x := s.writeObj l m i k r.offset.toNat r.last r.data
    (x.1, x.2.1, [], x.2.2)
  else if r.op = 3 then (s, (describeObj i k).1, (describeObj i k).2, l)
  else (s, stRange, [], l)

/-- A request whose LEN passes the path's limit is 0x0301 (R348), one with a reserved bit set 0x0302 (R13), unless a status
before that one applies. In recovery what is not served is 0x0203 (R411). -/
def State.perform (s : State) (l : List Applied) (r : DictReq) : State × BitVec 16 × List Byte × List Applied :=
  if s.recovering && !s.served r.index.toNat r.subindex.toNat (r.op == 2) then (s, stWrongState, [], l)
  else
    let x := s.operate l r
    let long := decide (lenMax r.master.path < if r.op = 2 then r.data.length else r.len.toNat)
    if long && decide (statusRank stLength < statusRank x.2.1) then (s, stLength, [], l)
    else if r.rsv != 0 && decide (statusRank stRange < statusRank x.2.1) then (s, stRange, [], l)
    else x

/-- A chain request (R361–R366): broadcasts carry WRITE only and get no response; a repeated request gets the kept one. -/
def State.serveChain (s : State) (l : List Applied) (r : DictReq) : State × List Applied :=
  if r.bcast then
    if !s.chainUp || decide (256 < r.data.length) then (s, l)
    else
      let s := (s.decidePolarity r.inverted).chainHeard
      if r.op ≠ 2 then (s, l)
      else
        let x := s.perform l r
        (x.1, x.2.2.2)
  else if !s.reaches .chain || decide (256 < r.data.length) then (s, l)
  else
    let s := s.chainHeard
    match s.chain.keptReq, s.chain.keptResp with
    | some q, some a => if q = r then ((s.count 0x1100 0x0C 32 1).emit (.resp r.master a), l) else run s
    | _, _ => run s
where
  run (s : State) : State × List Applied :=
    let x := s.perform l r
    let a := answer r x.2.1 x.2.2.1
    (State.emit { x.1 with chain := { x.1.chain with keptReq := some r, keptResp := some a } } (.resp r.master a), x.2.2.2)

/-- A management datagram (R371). -/
def State.serveMgmt (s : State) (l : List Applied) (r : DictReq) : State × List Applied :=
  let n := r.session.toNat
  let m := reqMaster r
  if r.op = 0x10 then (s.openFree r, l)
  else if !(s.sessions.get n).isOpen then (s.emit (.resp m (answer r stWrongState [])), l)
  else match (s.sessions.get n).kept.find? fun a => a.req.tag == r.tag with
    | some a => (s.emit (.resp m a), l)
    | none =>
      if r.op = 0x11 then ((s.endMgmt n).emit (.resp m (answer r stOk [])), l)
      else
        let x := s.perform l r
        let a := answer r x.2.1 x.2.2.1
        ((x.1.keep8 n a).emit (.resp m a), x.2.2.2)

/-- One request, of whichever path. The mailbox answers in MB_RSP. -/
def State.serve (s : State) (l : List Applied) (r : DictReq) : State × List Applied :=
  if !s.dictUp r.master.path then (s, l)
  else match r.master.path with
    | .chain => s.serveChain l r
    | .mgmt => s.serveMgmt l r
    | .firmware =>
      let x := s.perform l r
      (x.1.emit (.resp r.master (answer r x.2.1 x.2.2.1)), x.2.2.2)
    | .pcie =>
      let x := s.perform l r
      let a := answer r x.2.1 x.2.2.1
      ((x.1.mbFinish .done a).emit (.resp r.master a), x.2.2.2)

/-- The requests of a slot in their order: by source, then by arrival (R355). -/
def slotOrder (reqs : List DictReq) : List DictReq :=
  [Path.firmware, .chain, .mgmt, .pcie].flatMap fun p => reqs.filter fun r => r.master.path == p

/-- An arbitration slot ends: its requests, and the one the mailbox has submitted. -/
def State.arbitrate (s : State) (reqs : List DictReq) : State :=
  if !s.dictUp .firmware then s
  else ((slotOrder (reqs ++ s.mbWaiting.toList)).foldl (fun (x : State × List Applied) r => x.1.serve x.2 r) (s, [])).1

/-! ### The commands -/

/-- ARBITRATION_SLOT. -/
def execArbitrationSlot (reqs : List DictReq) (s : State) : Host.Outcome State Fault Refusal := .next (s.arbitrate reqs)

/-- DICT_READ. -/
def execDictRead (r : DictReq) (s : State) : Host.Outcome State Fault Refusal := .next (s.serve [] { r with op := 1 }).1

/-- DICT_WRITE. -/
def execDictWrite (r : DictReq) (s : State) : Host.Outcome State Fault Refusal := .next (s.serve [] { r with op := 2 }).1

/-- DESCRIBE. -/
def execDescribe (r : DictReq) (s : State) : Host.Outcome State Fault Refusal := .next (s.serve [] { r with op := 3 }).1

/-- OPEN: off the management MAC it is any other OP; a source outside ALLOW is discarded and counted. -/
def State.openFrom (s : State) (r : DictReq) (src : Nat) : State :=
  if r.master.path = .mgmt ∧ s.dictUp .mgmt ∧ !s.allowed src then s.count 0x1110 0x0B 32 1
  else (s.serve [] { r with op := 0x10 }).1

/-- OPEN. -/
def execOpenSession (r : DictReq) (src : BitVec 128) (s : State) : Host.Outcome State Fault Refusal := .next (s.openFrom r src.toNat)

/-- CLOSE. -/
def execCloseSession (r : DictReq) (s : State) : Host.Outcome State Fault Refusal := .next (s.serve [] { r with op := 0x11 }).1

/-- SESSION_TIMEOUT: 10 s without a request. -/
def execSessionTimeout (n : SessionId) (s : State) : Host.Outcome State Fault Refusal := .next (s.endMgmt (n.val + 1))

/-- SNAPSHOT_TIMEOUT: 1 s since the snapshot was taken. -/
def execSnapshotTimeout (m : Master) (s : State) : Host.Outcome State Fault Refusal := .next (s.setSnap m none)

/-- SEGMENT_TIMEOUT: a buffer left for 1 s. -/
def execSegmentTimeout (m : Master) (s : State) : Host.Outcome State Fault Refusal := .next (s.setSeg m none)

/-- The request that a read of a log's records is. -/
def logReadReq (m : Master) (persist : Bool) : DictReq :=
  { master := m, seq := 0, bcast := false, inverted := false, op := 1, last := false, rsv := 0, tag := 0
    index := if persist then 0x2401 else 0x2400, subindex := 4, session := BitVec.ofNat 8 m.tag.toNat, len := 1024, offset := 0, data := [] }

/-- A read of up to 32 records from CURSOR, which moves past them (R424). -/
def State.readLog (s : State) (m : Master) (persist : Bool) : State :=
  let i := if persist then 0x2401 else 0x2400
  if !s.reaches m.path then s
  else if !s.sessionOk m || (s.recovering && !s.served i 4 false) then s.emit (.status m stWrongState)
  else
    let x := (s.heard m.path).readObj m i 4 1024 0
    x.1.emit (.resp m (answer (logReadReq m persist) x.2.1 x.2.2))

/-- LOG_READ. -/
def execLogRead (m : Master) (persist : Bool) (s : State) : Host.Outcome State Fault Refusal := .next (s.readLog m persist)

end Sys2Proof.Machine
end

