-- ==== Sys2Proof/Machine/Dispatch.lean ====
section
/-! DEFINITION. One arm per command (the table of operations and events): each calls its meaning. -/

namespace Sys2Proof.Machine

open Sys2Proof

/-- The effect of a command on everything but the queue. -/
def exec (i : Instr) (s : State) : Host.Outcome State Fault Refusal :=
  match i with
  | .matmul core ctx => Sys2Proof.Machine.execMatmul core ctx s
  | .drain core ctx => Sys2Proof.Machine.execDrain core ctx s
  | .vec core ctx => Sys2Proof.Machine.execVec core ctx s
  | .move core ctx => Sys2Proof.Machine.execMove core ctx s
  | .gather core ctx => Sys2Proof.Machine.execGather core ctx s
  | .scatter core ctx => Sys2Proof.Machine.execScatter core ctx s
  | .scatterAdd core ctx => Sys2Proof.Machine.execScatterAdd core ctx s
  | .window core ctx => Sys2Proof.Machine.execWindow core ctx s
  | .spill core ctx => Sys2Proof.Machine.execSpill core ctx s
  | .prefetch core ctx => Sys2Proof.Machine.execPrefetch core ctx s
  | .coll core ctx => Sys2Proof.Machine.execColl core ctx s
  | .reduceScatter coll peers => Sys2Proof.Machine.execReduceScatter coll peers s
  | .allGather coll peers => Sys2Proof.Machine.execAllGather coll peers s
  | .allReduce coll peers sums => Sys2Proof.Machine.execAllReduce coll peers sums s
  | .ringPass coll incoming => Sys2Proof.Machine.execRingPass coll incoming s
  | .bore core ctx => Sys2Proof.Machine.execBore core ctx s
  | .fence core ctx => Sys2Proof.Machine.execFence core ctx s
  | .signal core ctx => Sys2Proof.Machine.execSignal core ctx s
  | .wait core ctx => Sys2Proof.Machine.execWait core ctx s
  | .barrier core ctx => Sys2Proof.Machine.execBarrier core ctx s
  | .phase core ctx => Sys2Proof.Machine.execPhase core ctx s
  | .slot core ctx => Sys2Proof.Machine.execSlot core ctx s
  | .endQueue core ctx => Sys2Proof.Machine.execEndQueue core ctx s
  | .destinationReady core ctx slot => Sys2Proof.Machine.execDestinationReady core ctx slot s
  | .bellRelease core ctx => Sys2Proof.Machine.execBellRelease core ctx s
  | .clockGate core => Sys2Proof.Machine.execClockGate core s
  | .vAdd core o => Sys2Proof.Machine.execVAdd core o s
  | .vSub core o => Sys2Proof.Machine.execVSub core o s
  | .vMul core o => Sys2Proof.Machine.execVMul core o s
  | .vFma core o => Sys2Proof.Machine.execVFma core o s
  | .vMin core o => Sys2Proof.Machine.execVMin core o s
  | .vMax core o => Sys2Proof.Machine.execVMax core o s
  | .vAbs core o => Sys2Proof.Machine.execVAbs core o s
  | .vNeg core o => Sys2Proof.Machine.execVNeg core o s
  | .vCmpEq core o => Sys2Proof.Machine.execVCmpEq core o s
  | .vCmpNe core o => Sys2Proof.Machine.execVCmpNe core o s
  | .vCmpLt core o => Sys2Proof.Machine.execVCmpLt core o s
  | .vCmpLe core o => Sys2Proof.Machine.execVCmpLe core o s
  | .vCmpUnord core o => Sys2Proof.Machine.execVCmpUnord core o s
  | .vSel core o => Sys2Proof.Machine.execVSel core o s
  | .vIadd core o => Sys2Proof.Machine.execVIadd core o s
  | .vIsub core o => Sys2Proof.Machine.execVIsub core o s
  | .vAnd core o => Sys2Proof.Machine.execVAnd core o s
  | .vOr core o => Sys2Proof.Machine.execVOr core o s
  | .vXor core o => Sys2Proof.Machine.execVXor core o s
  | .vNot core o => Sys2Proof.Machine.execVNot core o s
  | .vShl core o => Sys2Proof.Machine.execVShl core o s
  | .vShr core o => Sys2Proof.Machine.execVShr core o s
  | .vSar core o => Sys2Proof.Machine.execVSar core o s
  | .vImul core o => Sys2Proof.Machine.execVImul core o s
  | .vCvt core o => Sys2Proof.Machine.execVCvt core o s
  | .vExp2 core o => Sys2Proof.Machine.execVExp2 core o s
  | .vLog2 core o => Sys2Proof.Machine.execVLog2 core o s
  | .vRcp core o => Sys2Proof.Machine.execVRcp core o s
  | .vRsq core o => Sys2Proof.Machine.execVRsq core o s
  | .vRsum core o => Sys2Proof.Machine.execVRsum core o s
  | .vRmax core o => Sys2Proof.Machine.execVRmax core o s
  | .vRmin core o => Sys2Proof.Machine.execVRmin core o s
  | .vRand16 core o => Sys2Proof.Machine.execVRand16 core o s
  | .vRand32 core o => Sys2Proof.Machine.execVRand32 core o s
  | .vLds core o => Sys2Proof.Machine.execVLds core o s
  | .vLdc core o => Sys2Proof.Machine.execVLdc core o s
  | .vLdt core o => Sys2Proof.Machine.execVLdt core o s
  | .vStc core o => Sys2Proof.Machine.execVStc core o s
  | .vStt core o => Sys2Proof.Machine.execVStt core o s
  | .updAdd eng o => Sys2Proof.Machine.execUpdAdd eng o s
  | .updSub eng o => Sys2Proof.Machine.execUpdSub eng o s
  | .updMul eng o => Sys2Proof.Machine.execUpdMul eng o s
  | .updDiv eng o => Sys2Proof.Machine.execUpdDiv eng o s
  | .updMin eng o => Sys2Proof.Machine.execUpdMin eng o s
  | .updMax eng o => Sys2Proof.Machine.execUpdMax eng o s
  | .updFma eng o => Sys2Proof.Machine.execUpdFma eng o s
  | .updSqrt eng o => Sys2Proof.Machine.execUpdSqrt eng o s
  | .updAbs eng o => Sys2Proof.Machine.execUpdAbs eng o s
  | .updNeg eng o => Sys2Proof.Machine.execUpdNeg eng o s
  | .updLt eng o => Sys2Proof.Machine.execUpdLt eng o s
  | .updSel eng o => Sys2Proof.Machine.execUpdSel eng o s
  | .updNf eng o => Sys2Proof.Machine.execUpdNf eng o s
  | .qmask m p v => Sys2Proof.Machine.execQmask m p v s
  | .load m p => Sys2Proof.Machine.execLoad m p s
  | .start m p => Sys2Proof.Machine.execStart m p s
  | .stop m p => Sys2Proof.Machine.execStop m p s
  | .abortPart m p => Sys2Proof.Machine.execAbortPart m p s
  | .resume m p => Sys2Proof.Machine.execResume m p s
  | .dissolve m p => Sys2Proof.Machine.execDissolve m p s
  | .stepStart p => Sys2Proof.Machine.execStepStart p s
  | .stepBoundary p => Sys2Proof.Machine.execStepBoundary p s
  | .stepTimeout p => Sys2Proof.Machine.execStepTimeout p s
  | .hung core ctx => Sys2Proof.Machine.execHung core ctx s
  | .coreFence core ctx cause info => Sys2Proof.Machine.execCoreFence core ctx cause info s
  | .rerunStart core => Sys2Proof.Machine.execRerunStart core s
  | .coreReturn m core v => Sys2Proof.Machine.execCoreReturn m core v s
  | .updatePhaseStart p => Sys2Proof.Machine.execUpdatePhaseStart p s
  | .updateElement p entry elem => Sys2Proof.Machine.execUpdateElement p entry elem s
  | .workingCopyTile p entry block data => Sys2Proof.Machine.execWorkingCopyTile p entry block data s
  | .updatePhaseComplete p => Sys2Proof.Machine.execUpdatePhaseComplete p s
  | .digestReport rank step wc master => Sys2Proof.Machine.execDigestReport rank step wc master s
  | .collectiveComplete coll => Sys2Proof.Machine.execCollectiveComplete coll s
  | .staleFetchServe conn => Sys2Proof.Machine.execStaleFetchServe conn s
  | .hold core word data => Sys2Proof.Machine.execHold core word data s
  | .holdWriteback core => Sys2Proof.Machine.execHoldWriteback core s
  | .vaultWipe core trigger => Sys2Proof.Machine.execVaultWipe core trigger s
  | .scratchpadZeroing core => Sys2Proof.Machine.execScratchpadZeroing core s
  | .sramScrub core found => Sys2Proof.Machine.execSramScrub core found s
  | .retentionEntry q => Sys2Proof.Machine.execRetentionEntry q s
  | .retentionWake q => Sys2Proof.Machine.execRetentionWake q s
  | .pllLock core => Sys2Proof.Machine.execPllLock core s
  | .pllStop core => Sys2Proof.Machine.execPllStop core s
  | .bulkReread ch unit good p => Sys2Proof.Machine.execBulkReread ch unit good p s
  | .zeroing ch => Sys2Proof.Machine.execZeroing ch s
  | .regionZeroing r => Sys2Proof.Machine.execRegionZeroing r s
  | .patrolScrub ch found => Sys2Proof.Machine.execPatrolScrub ch found s
  | .slabMapWrite m v => Sys2Proof.Machine.execSlabMapWrite m v s
  | .regionWrite m r f v => Sys2Proof.Machine.execRegionWrite m r f v s
  | .breathPeriod wanted busy => Sys2Proof.Machine.execBreathPeriod wanted busy s
  | .arbitrationSlot reqs => Sys2Proof.Machine.execArbitrationSlot reqs s
  | .dictRead r => Sys2Proof.Machine.execDictRead r s
  | .dictWrite r => Sys2Proof.Machine.execDictWrite r s
  | .describe r => Sys2Proof.Machine.execDescribe r s
  | .openSession r src => Sys2Proof.Machine.execOpenSession r src s
  | .closeSession r => Sys2Proof.Machine.execCloseSession r s
  | .sessionTimeout n => Sys2Proof.Machine.execSessionTimeout n s
  | .snapshotTimeout m => Sys2Proof.Machine.execSnapshotTimeout m s
  | .segmentTimeout m => Sys2Proof.Machine.execSegmentTimeout m s
  | .acquire m n => Sys2Proof.Machine.execAcquire m n s
  | .release m n => Sys2Proof.Machine.execRelease m n s
  | .repaired m n => Sys2Proof.Machine.execRepaired m n s
  | .assign slot pod rsv daisyIn inverted => Sys2Proof.Machine.execAssign slot pod rsv daisyIn inverted s
  | .daisyOutRise => Sys2Proof.Machine.execDaisyOutRise s
  | .rate code broadcast inverted => Sys2Proof.Machine.execRate code broadcast inverted s
  | .rateApply => Sys2Proof.Machine.execRateApply s
  | .chainBreak chars => Sys2Proof.Machine.execChainBreak chars s
  | .stuck short => Sys2Proof.Machine.execStuck short s
  | .shortFault kind => Sys2Proof.Machine.execShortFault kind s
  | .retry idle => Sys2Proof.Machine.execRetry idle s
  | .restored seconds => Sys2Proof.Machine.execRestored seconds s
  | .silent seconds => Sys2Proof.Machine.execSilent seconds s
  | .go => Sys2Proof.Machine.execGo s
  | .windowRead x n => Sys2Proof.Machine.execWindowRead x n s
  | .windowWrite x data => Sys2Proof.Machine.execWindowWrite x data s
  | .pcieReset cause => Sys2Proof.Machine.execPcieReset cause s
  | .hostWindowAccess p addr write len => Sys2Proof.Machine.execHostWindowAccess p addr write len s
  | .connOpen m c => Sys2Proof.Machine.execConnOpen m c s
  | .connClose m c => Sys2Proof.Machine.execConnClose m c s
  | .connectResend c => Sys2Proof.Machine.execConnectResend c s
  | .connectTimeout c => Sys2Proof.Machine.execConnectTimeout c s
  | .closeTimeout c => Sys2Proof.Machine.execCloseTimeout c s
  | .registerKey m k => Sys2Proof.Machine.execRegisterKey m k s
  | .invalidateKey m k => Sys2Proof.Machine.execInvalidateKey m k s
  | .weSend c => Sys2Proof.Machine.execWeSend c s
  | .weRecv c => Sys2Proof.Machine.execWeRecv c s
  | .weWrite c => Sys2Proof.Machine.execWeWrite c s
  | .weWriteAcc c => Sys2Proof.Machine.execWeWriteAcc c s
  | .weRead c => Sys2Proof.Machine.execWeRead c s
  | .weFetchAdd c => Sys2Proof.Machine.execWeFetchAdd c s
  | .weCmpSwap c => Sys2Proof.Machine.execWeCmpSwap c s
  | .chainRelease c => Sys2Proof.Machine.execChainRelease c s
  | .rxSend pkt => Sys2Proof.Machine.execRxSend pkt s
  | .rxWrite pkt => Sys2Proof.Machine.execRxWrite pkt s
  | .rxWriteAcc pkt => Sys2Proof.Machine.execRxWriteAcc pkt s
  | .rxReadReq pkt => Sys2Proof.Machine.execRxReadReq pkt s
  | .rxReadResp pkt => Sys2Proof.Machine.execRxReadResp pkt s
  | .rxFetchAdd pkt => Sys2Proof.Machine.execRxFetchAdd pkt s
  | .rxCmpSwap pkt => Sys2Proof.Machine.execRxCmpSwap pkt s
  | .rxAtomicResp pkt => Sys2Proof.Machine.execRxAtomicResp pkt s
  | .rxAck pkt rtt => Sys2Proof.Machine.execRxAck pkt rtt s
  | .rxNak pkt => Sys2Proof.Machine.execRxNak pkt s
  | .rxConnect pkt => Sys2Proof.Machine.execRxConnect pkt s
  | .rxAccept pkt => Sys2Proof.Machine.execRxAccept pkt s
  | .rxClose pkt => Sys2Proof.Machine.execRxClose pkt s
  | .barrierArrive pkt => Sys2Proof.Machine.execBarrierArrive pkt s
  | .barrierRelease pkt => Sys2Proof.Machine.execBarrierRelease pkt s
  | .ackTimer c => Sys2Proof.Machine.execAckTimer c s
  | .retransmitTimeout c => Sys2Proof.Machine.execRetransmitTimeout c s
  | .rnrResend c => Sys2Proof.Machine.execRnrResend c s
  | .busyResend c => Sys2Proof.Machine.execBusyResend c s
  | .placementTimeout pkt => Sys2Proof.Machine.execPlacementTimeout pkt s
  | .heartbeat node => Sys2Proof.Machine.execHeartbeat node s
  | .heartbeatLoss node => Sys2Proof.Machine.execHeartbeatLoss node s
  | .deputyTakeover confirmed => Sys2Proof.Machine.execDeputyTakeover confirmed s
  | .failureReport rank cause => Sys2Proof.Machine.execFailureReport rank cause s
  | .spareTakeover rank => Sys2Proof.Machine.execSpareTakeover rank s
  | .retire => Sys2Proof.Machine.execRetire s
  | .restore rank fromBuddy => Sys2Proof.Machine.execRestore rank fromBuddy s
  | .ckptBegin slot step jobId rank len => Sys2Proof.Machine.execCkptBegin slot step jobId rank len s
  | .ckptRecords slot off data => Sys2Proof.Machine.execCkptRecords slot off data s
  | .ckptEnd slot digest => Sys2Proof.Machine.execCkptEnd slot digest s
  | .ckptComplete rank step => Sys2Proof.Machine.execCkptComplete rank step s
  | .checkpointStream n => Sys2Proof.Machine.execCheckpointStream n s
  | .portEnable m port v => Sys2Proof.Machine.execPortEnable m port v s
  | .laneReady lane announce phys => Sys2Proof.Machine.execLaneReady lane announce phys s
  | .amBoundary link => Sys2Proof.Machine.execAmBoundary link s
  | .linkStartTimeout link => Sys2Proof.Machine.execLinkStartTimeout link s
  | .laneOut lane cause txLit => Sys2Proof.Machine.execLaneOut lane cause txLit s
  | .losClear lane txLit => Sys2Proof.Machine.execLosClear lane txLit s
  | .service m lane v => Sys2Proof.Machine.execService m lane v s
  | .laneStatus link status => Sys2Proof.Machine.execLaneStatus link status s
  | .allPortsDown => Sys2Proof.Machine.execAllPortsDown s
  | .frameReceive link f => Sys2Proof.Machine.execFrameReceive link f s
  | .pauseFrame link pfc mask times => Sys2Proof.Machine.execPauseFrame link pfc mask times s
  | .pauseExpiry link tc => Sys2Proof.Machine.execPauseExpiry link tc s
  | .pfcStorm link tc => Sys2Proof.Machine.execPfcStorm link tc s
  | .pfcSend link tc bytes => Sys2Proof.Machine.execPfcSend link tc bytes s
  | .gateEntry link => Sys2Proof.Machine.execGateEntry link s
  | .configTime m port v => Sys2Proof.Machine.execConfigTime m port v s
  | .clockStep m v => Sys2Proof.Machine.execClockStep m v s
  | .rtpPacket stream pk => Sys2Proof.Machine.execRtpPacket stream pk s
  | .frameTimeout stream => Sys2Proof.Machine.execFrameTimeout stream s
  | .targetHush m => Sys2Proof.Machine.execTargetHush m s
  | .targetRest m => Sys2Proof.Machine.execTargetRest m s
  | .targetIdle m => Sys2Proof.Machine.execTargetIdle m s
  | .wakeTimer => Sys2Proof.Machine.execWakeTimer s
  | .pwrGood level => Sys2Proof.Machine.execPwrGood level s
  | .porstN => Sys2Proof.Machine.execPorstN s
  | .warmRstN => Sys2Proof.Machine.execWarmRstN s
  | .railUndervoltage rail => Sys2Proof.Machine.execRailUndervoltage rail s
  | .boot => Sys2Proof.Machine.execBoot s
  | .bootDone ids usToRest usToIdle => Sys2Proof.Machine.execBootDone ids usToRest usToIdle s
  | .dutyAdjust avg => Sys2Proof.Machine.execDutyAdjust avg s
  | .governorGrant => Sys2Proof.Machine.execGovernorGrant s
  | .thermtrip sensor reading => Sys2Proof.Machine.execThermtrip sensor reading s
  | .fanFail g => Sys2Proof.Machine.execFanFail g s
  | .fanClear g => Sys2Proof.Machine.execFanClear g s
  | .tamper src => Sys2Proof.Machine.execTamper src s
  | .oboeTask lane heaterPct => Sys2Proof.Machine.execOboeTask lane heaterPct s
  | .laserAgeing eng low biasPct => Sys2Proof.Machine.execLaserAgeing eng low biasPct s
  | .wearLevelling sector failed => Sys2Proof.Machine.execWearLevelling sector failed s
  | .persistWrite failed => Sys2Proof.Machine.execPersistWrite failed s
  | .telemetrySample rd => Sys2Proof.Machine.execTelemetrySample rd s
  | .logRead m persist => Sys2Proof.Machine.execLogRead m persist s
  | .request m target burnOk => Sys2Proof.Machine.execRequest m target burnOk s
  | .commit m cls => Sys2Proof.Machine.execCommit m cls s
  | .calCommit m flashOk => Sys2Proof.Machine.execCalCommit m flashOk s
  | .networkRecordStore m v => Sys2Proof.Machine.execNetworkRecordStore m v s
  | .spdmMessage m msg => Sys2Proof.Machine.execSpdmMessage m msg s
  | .bind sess p leaf mutAuth => Sys2Proof.Machine.execBind sess p leaf mutAuth s
  | .releaseSecret sess rs => Sys2Proof.Machine.execReleaseSecret sess rs s
  | .jobkey sess slot jobId secret => Sys2Proof.Machine.execJobkey sess slot jobId secret s
  | .revoke sess slot => Sys2Proof.Machine.execRevoke sess slot s
  | .grant sess v => Sys2Proof.Machine.execGrant sess v s
  | .logRequest sess seq => Sys2Proof.Machine.execLogRequest sess seq s
  | .sessionEnd sess cause => Sys2Proof.Machine.execSessionEnd sess cause s
  | .sealed m p v => Sys2Proof.Machine.execSealed m p v s
  | .pkg m p addr => Sys2Proof.Machine.execPkg m p addr s
  | .pkgLoad m => Sys2Proof.Machine.execPkgLoad m s
  | .pkgExport m => Sys2Proof.Machine.execPkgExport m s
  | .slotKeyLoad m k => Sys2Proof.Machine.execSlotKeyLoad m k s
  | .slotKeyRevoke m k => Sys2Proof.Machine.execSlotKeyRevoke m k s
  | .erase m ok => Sys2Proof.Machine.execErase m ok s
  | .recoveryData m data ok => Sys2Proof.Machine.execRecoveryData m data ok s
  | .recoveryCheck m => Sys2Proof.Machine.execRecoveryCheck m s
  | .reboot m => Sys2Proof.Machine.execReboot m s
  | .laneTestMode m lane v => Sys2Proof.Machine.execLaneTestMode m lane v s
  | .bulkTestStart m ch => Sys2Proof.Machine.execBulkTestStart m ch s
  | .bulkTestStop m ch => Sys2Proof.Machine.execBulkTestStop m ch s
  | .selfTestStart m core => Sys2Proof.Machine.execSelfTestStart m core s
  | .transitionComplete => Sys2Proof.Machine.execTransitionComplete s
  | .packageLoadCompleted => Sys2Proof.Machine.execPackageLoadCompleted s
  | .bulkTestEnd ch bad first => Sys2Proof.Machine.execBulkTestEnd ch bad first s
  | .selfTestEnd core result word => Sys2Proof.Machine.execSelfTestEnd core result word s
  | .checkerLock lane => Sys2Proof.Machine.execCheckerLock lane s
  | .checkerLockLoss lane bits errors => Sys2Proof.Machine.execCheckerLockLoss lane bits errors s
  | .pcieLinkUp width gen => Sys2Proof.Machine.execPcieLinkUp width gen s
  | .lockstepMismatch pair within10s => Sys2Proof.Machine.execLockstepMismatch pair within10s s
  | .spRestart pair => Sys2Proof.Machine.execSpRestart pair s
  | .bar2Write off data => Sys2Proof.Machine.execBar2Write off data s
  | .idleGap => Sys2Proof.Machine.execIdleGap s

end Sys2Proof.Machine
end

