-- ==== Sys2Proof/Safety.lean ====
section
/-! DEFINITION. What counts as a safe run of the device (every step answers a next state, and the tables it leaves stay in
canonical form), and the words the statements use: what a step leaves alone, what it logs, and what a command at the head
of a queue needs to issue. -/

namespace Sys2Proof.Machine

open Sys2Proof

/-- A step that answers a next state: neither a fault nor a refusal. -/
def Goes (s : State) : Prop := ∃ t, step s = .next t

/-- `n` steps, every one of which answers a next state. -/
def Runs : Nat → State → State → Prop
  | 0, s, t => t = s
  | n + 1, s, t => ∃ u, step s = .next u ∧ Runs n u t

/-- Memory, its errors, the registers, the cores and the partitions are in canonical form: keys rise and no entry equals
what an unlisted key reads as. A holding buffer holds a word once, and only words of its core's window (R127). -/
structure State.Canonical (s : State) : Prop where
  mem     : s.mem.wf
  sramBad : s.sramBad.wf
  bulkBad : s.bulkBad.wf
  objs    : s.objs.wf
  cores   : s.cores.wf
  parts   : s.parts.wf
  held    : ∀ c, ((s.core c).held.map (·.word)).Nodup ∧ ∀ h ∈ (s.core c).held, h.word < 0x200000

/-! ### Frames -/

/-- Every register but those listed reads as before. Subindexes are below 256 (R343). -/
def SameObjs (s t : State) (l : List (Nat × Nat)) : Prop :=
  ∀ i k, k < 256 → (i, k) ∉ l → t.obj i k = s.obj i k

/-- Every byte of memory reads as before. -/
def SameMem (s t : State) : Prop := ∀ a, t.byteAt a = s.byteAt a

/-- The byte that cells written in order leave at a physical address, if they write it. -/
def lastByte (l : Cells) (x : Nat) : Option Byte := (l.reverse.find? fun c => c.1 == x).map (·.2)

/-- Cells at their physical addresses (R208). -/
def State.placed (s : State) (l : Cells) : Cells := l.map fun c => (redirectBy s.redirects c.1, c.2)

/-- Memory reads as the cells say where they write, and as before elsewhere; device addresses that a redirect brings to one
place are one byte (R208). -/
def MemWritten (s t : State) (l : Cells) : Prop :=
  ∀ x, t.byteAt x = (lastByte (s.placed l) (redirectBy s.redirects x)).getD (s.byteAt x)

/-- `s` with the registers, the event logs and the outputs of `t`: a step that leaves `t = s.noting t` has changed
nothing else. -/
def State.noting (s t : State) : State :=
  { s with
    objs := t.objs, log := t.log, pwait := t.pwait, seqNext := t.seqNext, seqEnd := t.seqEnd, msCount := t.msCount
    msIndex := t.msIndex, gapDue := t.gapDue, out := t.out }

/-- The log has room in this millisecond (R423). -/
def State.logRoom (s : State) : Prop := s.now / 1000000 ≠ s.msIndex ∨ s.msCount < 1024

/-- The first event that a step from `s` logs is this one: it has the next number of `s` (R424). -/
def Logged (s t : State) (unit code detail : Nat) : Prop :=
  ∃ e ∈ t.log, e.seq = s.seqNext % 2 ^ 24 ∧ e.unit = unit ∧ e.code = code ∧ e.detail = BitVec.ofNat 128 detail

/-! ### Queues -/

/-- The command at the head of a context is `e`, of opcode `op`, in a queue that accepts it, and its 32 bytes read without
an error (R162, R170, R175, R195). -/
def AtHead (s : State) (core : CoreId) (ctx : CtxId) (op : Nat) (e : Env) : Prop :=
  s.headEnv core ctx = some e ∧ s.sramError (headAddr e.home ((s.core core).ctxs.get ctx)) 32 = false
    ∧ opAccepted (e.word % 256) (ctx % 4) = true ∧ e.word % 256 = op

/-- The context has moved past one command, which is counted (R212). -/
def Issued (s t : State) (core : CoreId) (ctx : CtxId) : Prop :=
  ((t.core core).ctxs.get ctx).ptr = ((s.core core).ctxs.get ctx).ptr + 1
    ∧ t.obj (0x3010 + core) 7 = counterAt 64 (s.obj (0x3010 + core) 7 + 1)

/-- Of the cores only this context has changed, and the list of commands a re-run has yet to pass. -/
def OnlyCtx (s t : State) (core : CoreId) (ctx : CtxId) : Prop :=
  (∀ d : Nat, d ≠ core → t.core d = s.core d) ∧ (∀ k : Nat, k ≠ ctx → (t.core core).ctxs.get k = (s.core core).ctxs.get k)
    ∧ t.core core = { s.core core with ctxs := (t.core core).ctxs, rerunLeft := (t.core core).rerunLeft }

/-- Of the cores only this one has changed. -/
def OnlyCore (s t : State) (core : CoreId) : Prop := ∀ d : Nat, d ≠ core → t.core d = s.core d

/-- Bytes written at a physical address: memory reads as them there and as before elsewhere. -/
def RawWritten (s t : State) (a : Nat) (bs : List Byte) : Prop :=
  ∀ x, t.rawByte x = if a ≤ x ∧ x < a + bs.length then bs.getD (x - a) 0 else s.rawByte x

/-- A mover command that writes `w` has issued: memory holds `w`, the destination slot is WRITING, the context's writes are
unfenced, and nothing but memory, its error marks, the cores, the registers and what is sent has changed. -/
def MoverDone (s t : State) (core : CoreId) (ctx : CtxId) (e : Env) (dst : Nat) (w : Cells) : Prop :=
  Issued s t core ctx ∧ MemWritten s t w ∧ (t.slotOf e dst).st = .writing ∧ ((t.core core).ctxs.get ctx).unfenced = 0b1111
    ∧ t = { s with objs := t.objs, mem := t.mem, sramBad := t.sramBad, cores := t.cores, out := t.out }

/-- A collective's tiles are in place: it is marked done, and no byte outside the spans of the destination's tiles `l` has
changed. -/
def TilesPlaced (s t : State) (x : Coll) (l : List Nat) : Prop :=
  (∀ y ∈ t.colls, y.id = x.id → y.done = true)
    ∧ (∀ a, (∀ q ∈ l.flatMap (s.collDst x).tileSpans, ¬ (redirectBy s.redirects q.1 ≤ a ∧ a < redirectBy s.redirects q.1 + q.2)) →
        t.rawByte a = s.rawByte a)
    ∧ t.syncs = s.syncs ∧ t.parts = s.parts

/-! ### Dictionary writes -/

/-- The dictionary takes a write of object `i` subindex `k` by this master: its path answers (R371, R408), its session is
open, the recovery service serves the object (R411), and no lock stands against it (R357). What receiving the request does
to the chain's state is `State.heard`. -/
def Accepts (s : State) (m : Master) (i k : Nat) : Prop :=
  s.reaches m.path = true ∧ s.sessionOk m = true
    ∧ ((s.heard m.path).recovering = true → (s.heard m.path).served i k true = true)
    ∧ (s.heard m.path).lockStatus (ownerId m) i = none

/-- The latest thing sent is this status to this master. -/
def Answered (t : State) (m : Master) (st : BitVec 16) : Prop := t.out.head? = some (.status m st)

/-- A dictionary command that the dictionary takes (object `idx`, subindex `k`) and answers OK: from `u`, the state as its request
is received, in which `pre` holds, it goes to a state in which `post` holds. -/
def Takes (i : Master → Instr) (idx k : Nat) (pre : State → Prop) (post : State → State → Prop) : Prop :=
  ∀ (m : Master) (s : State), Accepts s m idx k → pre (s.heard m.path) →
    ∃ t, exec (i m) s = .next t ∧ Answered t m stOk ∧ post (s.heard m.path) t

/-- A request that its path takes and no kept response answers (R355, R361–R366, R371): the dictionary answers, the device is
not in recovery; on the chain it is addressed to this device; on the management MAC its session is open. -/
def PathOpen (s : State) (r : DictReq) : Prop :=
  s.dictUp r.master.path = true ∧ s.recovering = false
    ∧ (r.master.path = .chain → r.bcast = false ∧ s.reaches .chain = true ∧ r.data.length ≤ 256 ∧ s.chain.keptReq ≠ some r)
    ∧ (r.master.path = .mgmt → (s.sessions.get r.session.toNat).isOpen = true
        ∧ (s.sessions.get r.session.toNat).kept.find? (fun a => a.req.tag == r.tag) = none)

/-- The latest thing sent is the response to a request. -/
def Responded (t : State) (r : DictReq) (st : BitVec 16) (data : List Byte) : Prop :=
  t.out.head? = some (.resp (reqMaster r) (answer r st data))

/-- Of the state only registers, what the paths keep of their masters, and what is sent has changed. -/
def OnlyPaths (u t : State) : Prop :=
  t = { u with objs := t.objs, masters := t.masters, sessions := t.sessions, chain := t.chain, bar2 := t.bar2, mbState := t.mbState,
               mbTag := t.mbTag, mbWaiting := t.mbWaiting, out := t.out }

/-! ### Partitions -/

/-- A core that has been handed over (R163): its scratchpad and vault read as zero, it has no queue, slot or command left, and its
vector registers and flags are clear. -/
def HandedOver (t : State) (c : Nat) : Prop :=
  (∀ o, o < scratchSize → t.rawByte (winOf c + o) = 0)
    ∧ (t.core c).slots = .empty ∧ (t.core c).ctxs = .empty ∧ (t.core c).outst = []
    ∧ (t.core c).vreg = .empty ∧ (t.core c).sreg = .empty ∧ (t.core c).flags = .empty

/-- No Bore connection has an entry or a buffer left to complete. -/
def Quiet (s : State) : Prop := ∀ c, (s.conn c).sendQ = [] ∧ (s.conn c).recvQ = []

/-- A partition is dissolved: FREE, its quadrants in no partition, its cores UNASSIGNED; no other partition changes its state. With no
Bore entry left, whose completion is still written, the cores are handed over and no other core changes. -/
def Dissolved (s t : State) (p : Nat) : Prop :=
  t.pstate p = 0 ∧ t.obj (0x3100 + p) 1 = 0
    ∧ (∀ c ∈ s.coresOf p, t.cstate c = 3 ∧ t.partOf c = none ∧ (Quiet s → HandedOver t c))
    ∧ (Quiet s → ∀ c, c ∉ s.coresOf p → t.core c = s.core c) ∧ (∀ q, q < 4 → q ≠ p → t.pstate q = s.pstate q)

/-! ### Resets -/

/-- A reset (R412) leaves a register that `keep` does not name at its reset value, and, where no connection was open, one that it
names as it was; those listed aside. -/
def RegsReset (s t : State) (keep : Nat → Bool) (l : List (Nat × Nat)) : Prop :=
  ∀ i k, k < 256 → (i, k) ∉ l → (keep (objKey i k) = false → t.obj i k = objReset i k)
    ∧ ((∀ c, (s.conn c).st = .free) → keep (objKey i k) = true → t.obj i k = s.obj i k)

/-- What PORST_N and its like leave: no memory, no core, partition or connection keeps anything, and the device is down, with the cause
noted; flash, the network record and the persistent log stay, as do the commands that wait. -/
def PowerReset (s t : State) (cause : Nat) : Prop :=
  (∀ a, t.rawByte a = 0) ∧ t.cores = .empty ∧ t.parts = .empty ∧ t.syncs = .empty ∧ t.conns = .empty ∧ t.bootSt = .down
    ∧ t.bootCause = cause ∧ t.flash = s.flash ∧ t.network = s.network ∧ t.plog = s.plog ∧ t.pending = s.pending

/-- The chunks of a channel's bulk test read as zero, and every other byte as before (R418). -/
def ChunksZeroed (s t : State) (ch : Nat) : Prop :=
  ∀ a, t.rawByte a = if bulkBase ≤ a ∧ a < hostBase ∧ (bulkMap (s.obj 0x3410 1) (a - bulkBase)).1 = ch
      ∧ s.tests.get ch * 0x200000 ≤ (bulkMap (s.obj 0x3410 1) (a - bulkBase)).2
      ∧ (bulkMap (s.obj 0x3410 1) (a - bulkBase)).2 < (s.tests.get ch + s.tests.get (16 + ch)) * 0x200000 then 0 else s.rawByte a

/-! ### Bore -/

/-- A packet of kind `k` that passes checks 1 and 2 as `q` and has the expected PSN; `v` is the state as its body meets it. -/
def Expected (s : State) (p : Packet) (k : PktKind) (q : Packet) (v : State) : Prop :=
  p.kind = k ∧ ∃ u, s.admitPacket p = (u, some q)
    ∧ v = u.setConn p.dconn.toNat { u.conn p.dconn.toNat with ceSeen := (u.conn p.dconn.toNat).ceSeen || q.ce }
    ∧ q.psn = (v.conn p.dconn.toNat).epsn

/-- A CONNECT or ACCEPT has opened its connection: the agreed ATOMIC bit, the peer's initial PSN and EPOCH (R283). -/
def OpenedBy (s t : State) (p : Packet) : Prop :=
  (t.conn p.dconn.toNat).st = .isOpen ∧ (t.conn p.dconn.toNat).epsn = p.psn ∧ (t.conn p.dconn.toNat).peerEpoch = p.epoch
    ∧ (t.conn p.dconn.toNat).atomicAgreed = ((s.conn p.dconn.toNat).atomic && p.atomic) ∧ (t.conn p.dconn.toNat).ccount = 0
    ∧ (∀ d, d ≠ p.dconn.toNat → t.conn d = s.conn d) ∧ t.mem = s.mem

/-- The next `n` packets of an entry are on the wire, on the next PSNs, of which the connection has used `k` more. -/
def Transmitted (s t : State) (c : Nat) (e : WorkEntry) (n k : Nat) : Prop :=
  (let e' := { e with psn := if e.sent = 0 then (s.conn c).spsn else e.psn, sent := e.sent + n }
   (t.conn c).sendQ = putEntry (s.conn c).sendQ e'
    ∧ ∀ i, i < n → ∃ p, .packet c p ∈ t.out ∧ p.kind = entryKind e.op ∧ p.psn = e'.psn + BitVec.ofNat 24 (e.sent + i))
  ∧ (t.conn c).spsn = (s.conn c).spsn + BitVec.ofNat 24 k ∧ (t.conn c).inflight = (s.conn c).inflight + e.payNext n
  ∧ (∀ d, d ≠ c → t.conn d = s.conn d) ∧ t.mem = s.mem ∧ t.cores = s.cores

/-! ### Numbers -/

/-- The rational number of a finite value. -/
def Fp.rat : Fp → ℚ
  | .fin neg m e => (if neg then -(m : ℚ) else m) * (2 : ℚ) ^ e
  | _ => 0

/-- Is it finite? -/
def Fp.isFin : Fp → Bool
  | .fin .. => true
  | _ => false

/-! ### The vector row -/

/-- One instruction is counted on the core's vector row (R98), and beside the cores, the registers and the model's counter of
free values nothing has changed but what a store writes. -/
def VecCounted (s t : State) (core : CoreId) : Prop :=
  t.obj (0x3060 + core) 1 = counterAt 64 (s.obj (0x3060 + core) 1 + 1) ∧ OnlyCore s t core ∧ t.parts = s.parts ∧ t.syncs = s.syncs
    ∧ t.log = s.log

/-- An instruction's destination takes `f` in the lanes of `mask` (R91, R180): of a V register those lanes and no other; of
an S register the value that all 512 lanes agree on. An S register with no lane to take keeps what it held; what it takes
when lanes differ is not stated (log 16). -/
def DstWritten (s t : State) (core : CoreId) (o : VecOps) (mask : Nat → Bool) (f : Nat → Word) : Prop :=
  (o.ds = false → (t.core core).sreg = (s.core core).sreg ∧ ∀ r l, l < 512 → (t.core core).vreg.get (r * 512 + l)
      = if r = o.dst.toNat ∧ mask l then f l else (s.core core).vreg.get (r * 512 + l))
  ∧ (o.ds = true → (t.core core).vreg = (s.core core).vreg
      ∧ (∀ r, r ≠ o.dst.toNat → (t.core core).sreg.get r = (s.core core).sreg.get r)
      ∧ ((∀ l, l < 512 → mask l = true ∧ f l = f 0) → (t.core core).sreg.get o.dst.toNat = f 0)
      ∧ ((∀ l, l < 512 → mask l = false) → (t.core core).sreg.get o.dst.toNat = (s.core core).sreg.get o.dst.toNat))

/-- Of a core nothing has changed but its V and S registers. -/
def OnlyVregs (s t : State) (core : CoreId) : Prop :=
  t.core core = { s.core core with vreg := (t.core core).vreg, sreg := (t.core core).sreg }

/-- What an instruction that works lane by lane on its sources does, whatever the state. -/
def LaneOp (i : CoreId → VecOps → Instr) (f : Word → Word → Word → Word) : Prop :=
  ∀ (core : CoreId) (o : VecOps) (s : State), ∃ t, exec (i core o) s = .next t
    ∧ t = { s with objs := t.objs, cores := t.cores } ∧ SameObjs s t [(0x3060 + core, 1)] ∧ VecCounted s t core ∧ OnlyVregs s t core
    ∧ DstWritten s t core o ((s.core core).active o.flg)
        fun l => f ((s.core core).src o.src1 l) ((s.core core).src o.src2 l) ((s.core core).src o.src3 l)

end Sys2Proof.Machine
end

