-- ==== Sys2Proof/WellFormed.lean ====
section
/-! DEFINITION. Which terms are commands that the outside can send: the ranges and sizes that the types do not hold. Most
operands carry their range in their type. -/

namespace Sys2Proof

/-- TAGNO by path (R354): 0 on the chain and in the mailbox, a session 1–16 on the management MAC. -/
def Master.wf (m : Master) : Bool :=
  match m.path with
  | .firmware => true
  | .chain => m.tag == 0
  | .mgmt => decide (1 ≤ m.tag.toNat) && decide (m.tag.toNat ≤ 16)
  | .pcie => m.tag == 0

/-- A request PDU (R348, R362): its data are LEN bytes for a WRITE and none otherwise; chain fields only on the chain;
SESSION names the master on the management MAC, but for OPEN, and is 0 elsewhere. -/
def DictReq.wf (r : DictReq) : Bool :=
  (if r.op = 2 then r.data.length == r.len.toNat else r.data.isEmpty)
    && (r.master.path == .chain || (!r.bcast && !r.inverted && r.seq == 0))
    && (if r.master.path = .mgmt then r.op == 0x10 || (r.session.toNat == r.master.tag.toNat && r.master.wf)
        else r.session == 0 && r.master.wf)

/-- A Bore packet of a kind (R278, R279): at most 4,096 bytes of payload. -/
def Packet.wf (p : Packet) (k : PktKind) : Bool := p.kind == k && decide (p.payload.length ≤ 4096)

/-- A received Ethernet frame: its bytes are no more than its length. -/
def Frame.wf (f : Frame) : Bool := decide (f.bytes.length ≤ f.len)

/-- An RTP datagram: its line segments lie in lines of at most 16,384 (R276). -/
def RtpPacket.wf (p : RtpPacket) : Bool := p.segs.all fun x => decide (x.1 < 16384)

/-- One sample's readings (R404): 24 temperatures, 15 monitors, four quadrants, six rails, two fans, each in its width. -/
def Readings.wf (r : Readings) : Bool :=
  r.temps.length == 24 && r.temps.all (fun t => decide (-32768 ≤ t) && decide (t < 32768))
    && r.mons.length == 15 && r.mons.all (fun v => decide (v < 65536)) && decide (r.package < 65536)
    && r.quads.length == 4 && r.quads.all (fun v => decide (v < 65536))
    && r.rails.length == 6 && r.rails.all (fun v => decide (v < 65536))
    && r.fans.length == 2 && r.fans.all fun v => decide (v < 65536)

/-- Is a command well formed? -/
def Instr.wf : Instr → Bool
  | .matmul _ _ => true
  | .drain _ _ => true
  | .vec _ _ => true
  | .move _ _ => true
  | .gather _ _ => true
  | .scatter _ _ => true
  | .scatterAdd _ _ => true
  | .window _ _ => true
  | .spill _ _ => true
  | .prefetch _ _ => true
  | .coll _ _ => true
  | .reduceScatter _ _ => true
  | .allGather _ _ => true
  | .allReduce _ _ _ => true
  | .ringPass _ _ => true
  | .bore _ _ => true
  | .fence _ _ => true
  | .signal _ _ => true
  | .wait _ _ => true
  | .barrier _ _ => true
  | .phase _ _ => true
  | .slot _ _ => true
  | .endQueue _ _ => true
  | .destinationReady _ _ _ => true
  | .bellRelease _ _ => true
  | .clockGate _ => true
  | .vAdd _ _ => true
  | .vSub _ _ => true
  | .vMul _ _ => true
  | .vFma _ _ => true
  | .vMin _ _ => true
  | .vMax _ _ => true
  | .vAbs _ _ => true
  | .vNeg _ _ => true
  | .vCmpEq _ _ => true
  | .vCmpNe _ _ => true
  | .vCmpLt _ _ => true
  | .vCmpLe _ _ => true
  | .vCmpUnord _ _ => true
  | .vSel _ _ => true
  | .vIadd _ _ => true
  | .vIsub _ _ => true
  | .vAnd _ _ => true
  | .vOr _ _ => true
  | .vXor _ _ => true
  | .vNot _ _ => true
  | .vShl _ _ => true
  | .vShr _ _ => true
  | .vSar _ _ => true
  | .vImul _ _ => true
  | .vCvt _ _ => true
  | .vExp2 _ _ => true
  | .vLog2 _ _ => true
  | .vRcp _ _ => true
  | .vRsq _ _ => true
  | .vRsum _ _ => true
  | .vRmax _ _ => true
  | .vRmin _ _ => true
  | .vRand16 _ _ => true
  | .vRand32 _ _ => true
  | .vLds _ _ => true
  | .vLdc _ _ => true
  | .vLdt _ _ => true
  | .vStc _ _ => true
  | .vStt _ _ => true
  | .updAdd _ _ => true
  | .updSub _ _ => true
  | .updMul _ _ => true
  | .updDiv _ _ => true
  | .updMin _ _ => true
  | .updMax _ _ => true
  | .updFma _ _ => true
  | .updSqrt _ _ => true
  | .updAbs _ _ => true
  | .updNeg _ _ => true
  | .updLt _ _ => true
  | .updSel _ _ => true
  | .updNf _ _ => true
  | .qmask m _ _ => m.wf
  | .load m _ => m.wf
  | .start m _ => m.wf
  | .stop m _ => m.wf
  | .abortPart m _ => m.wf
  | .resume m _ => m.wf
  | .dissolve m _ => m.wf
  | .stepStart _ => true
  | .stepBoundary _ => true
  | .stepTimeout _ => true
  | .hung _ _ => true
  | .coreFence _ _ _ _ => true
  | .rerunStart _ => true
  | .coreReturn m _ _ => m.wf
  | .updatePhaseStart _ => true
  | .updateElement _ _ elem => decide (elem < 2 ^ 48)
  | .workingCopyTile _ _ _ _ => true
  | .updatePhaseComplete _ => true
  | .digestReport _ _ _ _ => true
  | .collectiveComplete _ => true
  | .staleFetchServe _ => true
  | .hold _ _ _ => true
  | .holdWriteback _ => true
  | .vaultWipe _ _ => true
  | .scratchpadZeroing _ => true
  | .sramScrub _ _ => true
  | .retentionEntry _ => true
  | .retentionWake _ => true
  | .pllLock _ => true
  | .pllStop _ => true
  | .bulkReread _ unit _ _ => decide (unit < 2 ^ 27)
  | .zeroing _ => true
  | .regionZeroing _ => true
  | .patrolScrub _ _ => true
  | .slabMapWrite m _ => m.wf
  | .regionWrite m _ f v => m.wf && (f != .owner || decide (v.toNat < 256))
  | .breathPeriod wanted busy => wanted.length == 8 && busy.length == 8
  | .arbitrationSlot reqs => reqs.all DictReq.wf
  | .dictRead r => r.wf && r.op == 1
  | .dictWrite r => r.wf && r.op == 2
  | .describe r => r.wf && r.op == 3
  | .openSession r _ => r.wf && r.op == 0x10
  | .closeSession r => r.wf && r.op == 0x11
  | .sessionTimeout _ => true
  | .snapshotTimeout m => m.wf
  | .segmentTimeout m => m.wf
  | .acquire m _ => m.wf
  | .release m _ => m.wf
  | .repaired m _ => m.wf
  | .assign _ _ _ _ _ => true
  | .daisyOutRise => true
  | .rate _ _ _ => true
  | .rateApply => true
  | .chainBreak chars => decide (2 ≤ chars)
  | .stuck _ => true
  | .shortFault _ => true
  | .retry _ => true
  | .restored _ => true
  | .silent _ => true
  | .go => true
  | .windowRead x n => decide (x < 2 ^ 26) && decide (1 ≤ n) && decide (n ≤ 4096) && decide (x + n ≤ 2 ^ 26)
  | .windowWrite x data => decide (x < 2 ^ 26) && decide (1 ≤ data.length) && decide (data.length ≤ 512) && decide (x + data.length ≤ 2 ^ 26)
  | .pcieReset _ => true
  | .hostWindowAccess _ addr write len => decide (addr < 2 ^ 44) && match write with | some bs => bs.length == len | none => true
  | .connOpen m _ => m.wf
  | .connClose m _ => m.wf
  | .connectResend _ => true
  | .connectTimeout _ => true
  | .closeTimeout _ => true
  | .registerKey m _ => m.wf
  | .invalidateKey m _ => m.wf
  | .weSend _ => true
  | .weRecv _ => true
  | .weWrite _ => true
  | .weWriteAcc _ => true
  | .weRead _ => true
  | .weFetchAdd _ => true
  | .weCmpSwap _ => true
  | .chainRelease _ => true
  | .rxSend pkt => pkt.wf .send
  | .rxWrite pkt => pkt.wf .write
  | .rxWriteAcc pkt => pkt.wf .writeAcc
  | .rxReadReq pkt => pkt.wf .readReq
  | .rxReadResp pkt => pkt.wf .readResp
  | .rxFetchAdd pkt => pkt.wf .fetchAdd
  | .rxCmpSwap pkt => pkt.wf .cmpSwap
  | .rxAtomicResp pkt => pkt.wf .atomicResp
  | .rxAck pkt _ => pkt.wf .ack
  | .rxNak pkt => pkt.wf .nak
  | .rxConnect pkt => pkt.wf .connect
  | .rxAccept pkt => pkt.wf .accept
  | .rxClose pkt => pkt.wf .close
  | .barrierArrive pkt => pkt.wf .barrierArrive
  | .barrierRelease pkt => pkt.wf .barrierRelease
  | .ackTimer _ => true
  | .retransmitTimeout _ => true
  | .rnrResend _ => true
  | .busyResend _ => true
  | .placementTimeout pkt => decide (pkt.payload.length ≤ 4096)
  | .heartbeat _ => true
  | .heartbeatLoss _ => true
  | .deputyTakeover _ => true
  | .failureReport _ _ => true
  | .spareTakeover _ => true
  | .retire => true
  | .restore _ _ => true
  | .ckptBegin _ _ _ _ _ => true
  | .ckptRecords _ _ _ => true
  | .ckptEnd _ _ => true
  | .ckptComplete _ _ => true
  | .checkpointStream _ => true
  | .portEnable m _ _ => m.wf
  | .laneReady _ _ _ => true
  | .amBoundary _ => true
  | .linkStartTimeout _ => true
  | .laneOut _ _ _ => true
  | .losClear _ _ => true
  | .service m _ _ => m.wf
  | .laneStatus _ _ => true
  | .allPortsDown => true
  | .frameReceive _ f => f.wf
  | .pauseFrame _ pfc mask times => times.length == 8 && times.all (fun t => decide (t < 65536)) && (pfc || mask == 0)
  | .pauseExpiry _ _ => true
  | .pfcStorm _ _ => true
  | .pfcSend _ _ _ => true
  | .gateEntry _ => true
  | .configTime m _ _ => m.wf
  | .clockStep m _ => m.wf
  | .rtpPacket _ pk => pk.wf
  | .frameTimeout _ => true
  | .targetHush m => m.wf
  | .targetRest m => m.wf
  | .targetIdle m => m.wf
  | .wakeTimer => true
  | .pwrGood _ => true
  | .porstN => true
  | .warmRstN => true
  | .railUndervoltage _ => true
  | .boot => true
  | .bootDone ids _ _ => ids.length == 32
  | .dutyAdjust _ => true
  | .governorGrant => true
  | .thermtrip _ _ => true
  | .fanFail _ => true
  | .fanClear _ => true
  | .tamper _ => true
  | .oboeTask _ heaterPct => decide (heaterPct ≤ 100)
  | .laserAgeing _ _ biasPct => decide (biasPct ≤ 100)
  | .wearLevelling sector _ => decide (sector < 7680)
  | .persistWrite failed => match failed with | some k => decide (k < 7680) | none => true
  | .telemetrySample rd => rd.wf
  | .logRead m _ => m.wf
  | .request m _ _ => m.wf
  | .commit m _ => m.wf
  | .calCommit m _ => m.wf
  | .networkRecordStore m _ => m.wf
  | .spdmMessage m msg => m.wf && decide (msg.length ≤ 4096)
  | .bind _ _ _ _ => true
  | .releaseSecret _ _ => true
  | .jobkey _ _ _ _ => true
  | .revoke _ _ => true
  | .grant _ _ => true
  | .logRequest _ _ => true
  | .sessionEnd _ _ => true
  | .sealed m _ _ => m.wf
  | .pkg m _ _ => m.wf
  | .pkgLoad m => m.wf
  | .pkgExport m => m.wf
  | .slotKeyLoad m _ => m.wf
  | .slotKeyRevoke m _ => m.wf
  | .erase m _ => m.wf
  | .recoveryData m data _ => m.wf && data.length == 1024
  | .recoveryCheck m => m.wf
  | .reboot m => m.wf
  | .laneTestMode m _ _ => m.wf
  | .bulkTestStart m _ => m.wf
  | .bulkTestStop m _ => m.wf
  | .selfTestStart m _ => m.wf
  | .transitionComplete => true
  | .packageLoadCompleted => true
  | .bulkTestEnd _ _ _ => true
  | .selfTestEnd _ _ _ => true
  | .checkerLock _ => true
  | .checkerLockLoss _ _ _ => true
  | .pcieLinkUp _ _ => true
  | .lockstepMismatch _ _ => true
  | .spRestart _ => true
  | .bar2Write off data => decide (1 ≤ data.length) && decide (off + data.length ≤ 0x4000)
  | .idleGap => true

end Sys2Proof
end

