-- ==== Sys2Proof/Certificates/Slice0/Obligations.lean ====
section
/-! DEFINITION. The statements for the provers: what the rules of the spec say the device does. -/

open Sys2Proof Sys2Proof.Machine

/-! ### The whole machine -/

/-- One step takes the command at the front of the queue and runs it with the queue's rest. The model's own choices and readings:
log 1. -/
def Obligations.StepRunsFrontCommand : Prop :=
  ∀ (c : Instr) (rest : List Instr) (s : State),
    step { s with pending := c :: rest } = exec c { s with pending := rest }

/-- With nothing waiting, a step advances the device clock by 1 ns while it runs, and changes nothing else (the model's choice,
log 2). -/
def Obligations.IdleStepTicksClock : Prop :=
  ∀ s : State, s.pending = [] →
    ∃ t, step s = .next t ∧ t = { s with objs := t.objs } ∧ SameObjs s t [(0x40A0, 1)]
      ∧ t.now = if s.clockRuns then (s.now + 1) % 2 ^ 64 else s.now

/-- Every command answers a next state, neither a fault nor a refusal, and leaves the queue of commands that wait as it is. The
model's own choices and readings: log 1, 7. -/
def Obligations.CommandsCompleteAndKeepQueue : Prop :=
  ∀ (c : Instr) (s : State), ∃ t, exec c s = .next t ∧ t.pending = s.pending

/-- Every step keeps memory, its error marks, the registers, the cores and the partitions in canonical form. -/
def Obligations.TablesStayCanonical : Prop :=
  ∀ s t : State, s.Canonical → step s = .next t → t.Canonical

/-- The device after reset has them in canonical form. -/
def Obligations.ResetTablesCanonical : Prop := State.reset.Canonical

/-! ### Queue commands (R187–R198) -/

/-- A FENCE with nothing outstanding covers the writes of its queue up to its scope, and issues. The model's own choices and
readings: log 74. -/
def Obligations.FenceCoversWrites : Prop :=
  ∀ (core : CoreId) (ctx : CtxId) (e : Env) (s : State), AtHead s core ctx 0x30 e →
    onlyFields e.word [(0, 8), (8, 2)] = true → s.ctxBusy core ctx = false →
    (fieldAt e.word 8 2 = 3 → s.fabricBusy core ctx = false) →
    ∃ t, exec (.fence core ctx) s = .next t ∧ Issued s t core ctx
      ∧ (∀ k, k < 4 → ((t.core core).ctxs.get ctx).unfenced.getLsbD k
          = (((s.core core).ctxs.get ctx).unfenced.getLsbD k && decide (fieldAt e.word 8 2 < k)))
      ∧ OnlyCtx s t core ctx ∧ t = { s with objs := t.objs, cores := t.cores } ∧ SameObjs s t [(0x3010 + core, 7)]

/-- SIGNAL adds to a counter, or with FW = 1 writes its 64-bit value, little-endian, to the flag word of its slot; WAIT passes
when the count has reached its target and blocks the context when it has not. -/
def Obligations.SignalsAndWaits : Prop :=
  (∀ (core : CoreId) (ctx : CtxId) (e : Env) (i : Nat) (s : State), AtHead s core ctx 0x31 e →
    onlyFields e.word [(0, 8), (8, 2), (12, 12), (24, 1), (32, 8), (48, 16), (96, 64)] = true → e.b 24 = false →
    e.f 48 16 ≠ 0 → (s.part e.p).syncMap[e.f 12 12]? = some i → (s.sync i).kind = 0 →
    unfencedAt s e (e.f 8 2) = false → (s.sync i).scope.toNat ≤ e.f 8 2 → s.recorded e = false →
    (s.sync i).count.toNat + e.f 48 16 < 2 ^ 32 →
    ∃ t, exec (.signal core ctx) s = .next t ∧ Issued s t core ctx
      ∧ (t.sync i).count.toNat = (s.sync i).count.toNat + e.f 48 16
      ∧ t.sync i = { s.sync i with count := (t.sync i).count } ∧ (∀ j, j ≠ i → t.sync j = s.sync j)
      ∧ OnlyCtx s t core ctx ∧ t = { s with objs := t.objs, cores := t.cores, syncs := t.syncs }
      ∧ SameObjs s t [(0x3010 + core, 7)])
  ∧ (∀ (core : CoreId) (ctx : CtxId) (e : Env) (i : Nat) (s : State), AtHead s core ctx 0x32 e →
    onlyFields e.word [(0, 8), (12, 12), (64, 32)] = true → (s.part e.p).syncMap[e.f 12 12]? = some i → (s.sync i).kind = 0 →
    ∃ t, exec (.wait core ctx) s = .next t ∧ Issued s t core ctx
      ∧ ((t.core core).ctxs.get ctx).blocked = (if e.f 64 32 ≤ (s.sync i).count.toNat then .no else .wait i (e.f 64 32))
      ∧ OnlyCtx s t core ctx ∧ t = { s with objs := t.objs, cores := t.cores } ∧ SameObjs s t [(0x3010 + core, 7)])
  ∧ (∀ (core : CoreId) (ctx : CtxId) (e : Env) (a : Nat) (s : State), s.Canonical → AtHead s core ctx 0x31 e →
    onlyFields e.word [(0, 8), (8, 2), (12, 12), (24, 1), (32, 8), (48, 16), (96, 64)] = true → e.b 24 = true →
    e.f 48 16 ≠ 0 → (s.slotOf e (e.f 32 8)).st = .ready → (s.slotOf e (e.f 32 8)).readers < 255 →
    (s.slotOf e (e.f 32 8)).kind.toNat = kFlag → (∃ n, listSlot (s.content e (e.f 32 8)) = .ok (a, n)) →
    a < bulkBase → spanCheck s e true a 8 = .ok a → unfencedAt s e (e.f 8 2) = false → s.recorded e = false →
    partialHalf s (s.placed (cellsAt a (bytesOf 8 (e.f 96 64)))) = none →
    ∃ t, exec (.signal core ctx) s = .next t ∧ Issued s t core ctx ∧ MemWritten s t (cellsAt a (bytesOf 8 (e.f 96 64)))
      ∧ t.syncs = s.syncs)

/-- BARRIER blocks its context on the generation it finds and adds one arrival; the last one advances the generation. -/
def Obligations.BarrierCountsArrivals : Prop :=
  ∀ (core : CoreId) (ctx : CtxId) (e : Env) (i : Nat) (s : State), AtHead s core ctx 0x33 e →
    onlyFields e.word [(0, 8), (12, 12)] = true → (s.part e.p).syncMap[e.f 12 12]? = some i → (s.sync i).kind = 1 →
    s.recorded e = false →
    ∃ t, exec (.barrier core ctx) s = .next t ∧ Issued s t core ctx
      ∧ ((t.core core).ctxs.get ctx).blocked = .barrier i (s.sync i).gen
      ∧ t.sync i = (if (s.sync i).need ≤ (s.sync i).arrivals + 1
          then { s.sync i with arrivals := 0, gen := ((s.sync i).gen + 1) % 2 ^ 16 }
          else { s.sync i with arrivals := (s.sync i).arrivals + 1 })
      ∧ (∀ j, j ≠ i → t.sync j = s.sync j)
      ∧ OnlyCtx s t core ctx ∧ t = { s with objs := t.objs, cores := t.cores, syncs := t.syncs }
      ∧ SameObjs s t [(0x3010 + core, 7)]

/-- PHASE n blocks its context until every live XQ context of the partition has issued it: the last one sets PHASE and installs
the phase map of n. SLOT gives a slot its content, kind and state, with MODE = 2 its state alone. END ends its queue for the step.
The model's own choices and readings: log 24. -/
def Obligations.PhaseSlotAndEndIssue : Prop :=
  (∀ (core : CoreId) (ctx : CtxId) (e : Env) (s : State), AtHead s core ctx 0x34 e →
    onlyFields e.word [(0, 8), (8, 2)] = true → e.f 8 2 ≠ 3 → ((s.core core).ctxs.get ctx).phase < 2 ^ e.f 8 2 →
    (s.part e.p).phased.testBit (e.f 8 2) = false → s.recorded e = false →
    ∃ t, exec (.phase core ctx) s = .next t ∧ Issued s t core ctx
      ∧ ((t.core core).ctxs.get ctx).blocked = .phase (e.f 8 2)
      ∧ ((t.core core).ctxs.get ctx).phase = ((s.core core).ctxs.get ctx).phase + 2 ^ e.f 8 2
      ∧ ((s.liveXq e.p).all (fun x => (((t.core x.1).ctxs.get x.2).phase).testBit (e.f 8 2)) = true →
          t.obj (0x3100 + e.p) 7 = e.f 8 2
            ∧ (t.part e.p).groups = s.phaseGroups ((s.part e.p).phaseWords.getD (e.f 8 2) 0))
      ∧ ((s.liveXq e.p).all (fun x => (((t.core x.1).ctxs.get x.2).phase).testBit (e.f 8 2)) = false → t.parts = s.parts
          ∧ t.obj (0x3100 + e.p) 7 = s.obj (0x3100 + e.p) 7)
      ∧ OnlyCtx s t core ctx ∧ t = { s with objs := t.objs, cores := t.cores, parts := t.parts }
      ∧ SameObjs s t [(0x3010 + core, 7), (0x3100 + e.p, 7)])
  ∧ (∀ (core : CoreId) (ctx : CtxId) (e : Env) (s : State), AtHead s core ctx 0x38 e →
    onlyFields e.word [(0, 8), (8, 8), (16, 2), (18, 1), (19, 3), (32, 32), (64, 27)] = true → e.f 16 2 = 2 →
    (s.slotOf e (e.f 8 8)).st ≠ .writing → (s.slotOf e (e.f 8 8)).readers = 0 →
    ∃ t, exec (.slot core ctx) s = .next t ∧ Issued s t core ctx
      ∧ t.slotOf e (e.f 8 8) = { s.slotOf e (e.f 8 8) with
          st := if e.b 18 then .ready else .empty, rebinds := (s.slotOf e (e.f 8 8)).rebinds + 1 }
      ∧ (∀ k, k ≠ slotKey ctx (e.f 8 8) → (t.core core).slots.get k = (s.core core).slots.get k)
      ∧ OnlyCore s t core ∧ t = { s with objs := t.objs, cores := t.cores } ∧ SameObjs s t [(0x3010 + core, 7)])
  ∧ (∀ (core : CoreId) (ctx : CtxId) (e : Env) (c : Nat × Nat) (s u : State), AtHead s core ctx 0x38 e →
    onlyFields e.word [(0, 8), (8, 8), (16, 2), (18, 1), (19, 3), (32, 32), (64, 27)] = true → e.f 16 2 < 2 →
    (s.slotOf e (e.f 8 8)).st ≠ .writing → (s.slotOf e (e.f 8 8)).readers = 0 →
    slotContent s e (s.slotOf e (e.f 8 8)) (e.f 16 2) = .ok c → contentCheck s e c.2 c.1 = .ok u →
    ∃ t, exec (.slot core ctx) s = .next t ∧ ((t.core core).ctxs.get ctx).ptr = ((u.core core).ctxs.get ctx).ptr + 1
      ∧ t.slotOf e (e.f 8 8) = { s.slotOf e (e.f 8 8) with
          content := BitVec.ofNat 256 c.1, kind := BitVec.ofNat 3 c.2, st := if e.b 18 then .ready else .empty
          rebinds := (s.slotOf e (e.f 8 8)).rebinds + 1 }
      ∧ (e.f 16 2 = 0 → c.1 = s.natAt (winOf e.home + e.f 64 27) 32 ∧ c.2 = e.f 19 3)
      ∧ (∀ k, k ≠ slotKey ctx (e.f 8 8) → (t.core core).slots.get k = (u.core core).slots.get k)
      ∧ t = { u with objs := t.objs, cores := t.cores })
  ∧ (∀ (core : CoreId) (ctx : CtxId) (e : Env) (s : State), AtHead s core ctx 0x3F e →
    onlyFields e.word [(0, 8)] = true → s.ctxBusy core ctx = false →
    ∃ t, exec (.endQueue core ctx) s = .next t ∧ Issued s t core ctx ∧ ((t.core core).ctxs.get ctx).ended = true
      ∧ OnlyCtx s t core ctx ∧ t = { s with objs := t.objs, cores := t.cores } ∧ SameObjs s t [(0x3010 + core, 7)])

/-- A queue command with a reserved bit set takes the parameter fault: it makes no update, and its partition is HELD with the
cause recorded. The model's own choices and readings: log 72. -/
def Obligations.ReservedBitHoldsPartition : Prop :=
  ∀ (core : CoreId) (ctx : CtxId) (e : Env) (s : State), s.logRoom →
    ∀ x ∈ [(Instr.fence core ctx, 0x30, [(0, 8), (8, 2)]), (.wait core ctx, 0x32, [(0, 8), (12, 12), (64, 32)]),
      (.barrier core ctx, 0x33, [(0, 8), (12, 12)]), (.endQueue core ctx, 0x3F, [(0, 8)])],
      AtHead s core ctx x.2.1 e → onlyFields e.word x.2.2 = false →
      ∃ t, exec x.1 s = .next t ∧ t.pstate e.p = 4 ∧ t.obj (0x3100 + e.p) 0x0E = fParameter
        ∧ t.obj (0x3010 + core) 4 = fParameter ∧ t.cores = s.cores ∧ t.syncs = s.syncs ∧ SameMem s t
        ∧ Logged s t core 0x0102 (faultDetail fParameter ctx 0 e.idx 0)

/-- The last word of a destination makes its slot READY and completes the command; a release reaches a context whose target is
met, and restarts a gated core; a core whose contexts all wait gates its clock. The model's own choices and readings: log 7. -/
def Obligations.ScoreboardReleaseAndGate : Prop :=
  (∀ (core : CoreId) (ctx : CtxId) (sl : SlotId) (o : Outst) (s : State), (s.core core).writer ctx (slotKey ctx sl) = some o →
    ∃ t, exec (.destinationReady core ctx sl) s = .next t
      ∧ (t.core core).slots.get (slotKey ctx sl) = { (s.core core).slots.get (slotKey ctx sl) with st := .ready }
      ∧ (t.core core).outst = (s.core core).outst.erase o
      ∧ (∀ k, k ≠ slotKey ctx sl → (t.core core).slots.get k = (s.core core).slots.get k)
      ∧ OnlyCore s t core ∧ t = { s with cores := t.cores })
  ∧ (∀ (core : CoreId) (ctx : CtxId) (p : Nat) (s : State), s.partOf core = some p →
    s.released p ((s.core core).ctxs.get ctx).blocked = true →
    ∃ t, exec (.bellRelease core ctx) s = .next t ∧ ((t.core core).ctxs.get ctx).blocked = .no
      ∧ (t.core core).gated = false ∧ ((s.core core).gated = true → (t.core core).clock = true ∧ (t.core core).ramp = 0)
      ∧ (∀ k : Nat, k ≠ ctx → (t.core core).ctxs.get k = (s.core core).ctxs.get k) ∧ OnlyCore s t core
      ∧ t = (s.noting t).setCore core (t.core core))
  ∧ (∀ (core : CoreId) (p : Nat) (s : State), s.partOf core = some p → s.cstate core = 0 → (s.core core).clock = true →
    (s.core core).idle = true →
    ∃ t, exec (.clockGate core) s = .next t ∧ (t.core core).clock = false ∧ (t.core core).gated = true
      ∧ t.obj (0x3010 + core) 8 = counterAt 32 (s.obj (0x3010 + core) 8 + 1)
      ∧ t.core core = { s.core core with clock := false, gated := true } ∧ OnlyCore s t core
      ∧ t = (s.noting t).setCore core (t.core core))

/-! ### The address map and reset (R14, R23–R30) -/

/-- The window of core n holds its scratchpad, whose last 4 MiB are the vault, and nothing above 96 MiB; the control page of a
unit lies at 0x1_0000_0000 + unit × 0x1000, and that of an unused unit is unpopulated; bulk memory and the host windows have their
ranges. -/
def Obligations.AddressMapPlaces : Prop :=
  (∀ (n : CoreId) (o : Nat), o < 0x8000000 → placeOf (n.val * 0x8000000 + o)
      = if o < 0x5C00000 then .scratch n o else if o < 0x6000000 then .vault n o else .nowhere)
  ∧ (∀ (u o : Nat), u < 0x10000 → o < 0x1000 → placeOf (0x100000000 + u * 0x1000 + o)
      = if u ≤ 0x13 ∨ (0x20 ≤ u ∧ u ≤ 0x37) ∨ (0x40 ≤ u ∧ u ≤ 0x42) ∨ (0x50 ≤ u ∧ u ≤ 0x53) ∨ u = 0x60
          ∨ (0x70 ≤ u ∧ u ≤ 0x72) ∨ u = 0x78 ∨ u = 0x79 then .control u else .nowhere)
  ∧ (∀ o, o < 0x2000000000 → placeOf (0x10000000000 + o) = .bulk o)
  ∧ (∀ w o, w < 16 → o < 0x8000000000 → placeOf (0x80000000000 + w * 0x8000000000 + o) = .host w o)
  ∧ (∀ a, 0x80000000 ≤ a → a < 0x100000000 ∨ (0x110000000 ≤ a ∧ a < 0x10000000000) ∨ (0x12000000000 ≤ a ∧ a < 0x80000000000)
      ∨ 0x100000000000 ≤ a → placeOf a = .nowhere)

/-- After reset every register holds its reset value, partitions are FREE and cores UNASSIGNED, no byte of memory is other than
zero (the model's choice for memory that nothing has written, log 62), no connection is open, nothing is logged, and the device is
down. The model's own choices and readings: log 3, 5. -/
def Obligations.ResetLeavesRegisters : Prop :=
  (∀ i k, k < 256 → State.reset.obj i k = objReset i k)
  ∧ (∀ p : PartId, State.reset.pstate p = 0 ∧ State.reset.obj (0x3100 + p) 0x0A = 10000)
  ∧ (∀ c : CoreId, State.reset.cstate c = 3 ∧ State.reset.partOf c = none)
  ∧ (∀ a, State.reset.rawByte a = 0) ∧ (∀ c, (State.reset.conn c).st = .free) ∧ State.reset.log = [] ∧ State.reset.bootSt = .down
  ∧ State.reset.pending = []

/-! ### Matrix array (R55–R89, R176–R178) -/

/-- A MATMUL that passes its checks leaves in its accumulator set, for each row and column that takes part, the start value with
the K blocks added in ascending order, each block the exact sum of its products rounded once; other elements keep the start value;
the other set, memory and the vector row are unchanged. In panel mode the activations are those of the panel half, which the pass
loads when no half holds the operand. The model's own choices and readings: log 14, 15, 67. -/
def Obligations.MatmulAccumulatesBlocks : Prop :=
  ∀ (core : CoreId) (ctx : CtxId) (e : Env) (a : MatArgs) (s : State), AtHead s core ctx 0x01 e →
    matCheck s e (matOps e) = .ok a → arrayFree s e = true →
    ∃ t, exec (.matmul core ctx) s = .next t ∧ Issued s t core ctx
      ∧ (∀ r c, r < 512 → c < 64 →
        ((if (matOps e).acc then (t.core core).acc1 else (t.core core).acc0).get (r * 64 + c))
          = (let start : Word := if (matOps e).init = 0 then 0
              else if (matOps e).init = 1 then (if (matOps e).acc then (s.core core).acc1 else (s.core core).acc0).get (r * 64 + c)
              else match a.load with
                | some l => if r < l.rows ∧ c < l.cols then BitVec.ofNat 32 (s.fetchNat (l.codeAddr r c) 4) else 0
                | none => 0
            let w := a.wgts.getD (if (matOps e).split ∧ !(matOps e).shw then r / 64 else 0) (tensorOf 0)
            if rowActive (matOps e) a r ∧ c < (matOps e).n then
              cellSum start (matOps e).k fun k =>
                (if a.panel then panelValue (loadPanel s e (matOps e) a) e (matOps e) a r k
                  else actValue s (matOps e) a r k).map fun x => x.mul (w.value s k c)
            else start))
      ∧ (if (matOps e).acc then (t.core core).acc0 = (s.core core).acc0 ∧ (t.core core).undrained1 = some ↑ctx
          else (t.core core).acc1 = (s.core core).acc1 ∧ (t.core core).undrained0 = some ↑ctx)
      ∧ (t.core core).mqCtx = some ↑ctx ∧ t.mem = s.mem ∧ (t.core core).vreg = (s.core core).vreg ∧ OnlyCore s t core
      ∧ t = { s with objs := t.objs, cores := t.cores }
      ∧ SameObjs s t [(0x3010 + core, 7), (0x3040 + core, 1), (0x3040 + core, 2), (0x3040 + core, 3)]
      ∧ t.obj (0x3040 + core) 1 = counterAt 64 (s.obj (0x3040 + core) 1 + kGroups (matOps e) a)

/-- A DRAIN to a destination that takes no draws writes the rectangle of its accumulator set, element by element or line by line,
under the format word, and nothing else in memory; the set is drained, NaN and saturated elements are counted, and the destination
is WRITING. The model's own choices and readings: log 15, 74. -/
def Obligations.DrainWritesAccumulators : Prop :=
  ∀ (core : CoreId) (ctx : CtxId) (e : Env) (d : Tensor) (s : State), s.Canonical → AtHead s core ctx 0x02 e →
    drainCheck s e (drainOps e) = .ok d → arrayFree s e = true → drawsOf d = false →
    (let o := drainOps e
     let w := drainAll d (fun _ _ => rndOf d.f.rnd 0)
        (fun r c => (if o.acc then (s.core core).acc1 else (s.core core).acc0).get (r * 64 + c)) o
     partialHalf s (s.placed w.cells) = none →
     ∃ t, exec (.drain core ctx) s = .next t ∧ Issued s t core ctx ∧ MemWritten s t w.cells
      ∧ (if o.acc then (t.core core).undrained1 = none else (t.core core).undrained0 = none)
      ∧ (t.core core).acc0 = (s.core core).acc0 ∧ (t.core core).acc1 = (s.core core).acc1
      ∧ t.obj (0x3010 + core) 5 = counterAt 64 (s.obj (0x3010 + core) 5 + w.nans)
      ∧ t.obj (0x3010 + core) 6 = counterAt 64 (s.obj (0x3010 + core) 6 + w.sats)
      ∧ (t.slotOf e o.dst).st = .writing)

/-! ### Vector row (R90–R102, R179, R180) -/

/-- VEC starts with zeroed V and S registers, F0 all ones and F1 to F7 clear, runs its program in order, and leaves its
destinations WRITING. The model's own choices and readings: log 74. -/
def Obligations.VecRunsProgramFromCleanRegisters : Prop :=
  ∀ (core : CoreId) (ctx : CtxId) (e : Env) (pr : Nat × Nat) (s u : State), AtHead s core ctx 0x03 e →
    vecCheck s e = .ok pr → runProgram e pr.1 pr.2 0 (vecStart s e) = .ok u →
    (∃ t, exec (.vec core ctx) s = .next t ∧ t = (u.startWrites e (vecDests e) false).issued e
      ∧ ∀ d ∈ vecDests e, (t.slotOf e d).st = .writing)
    ∧ (∀ r, ((vecStart s e).core core).vreg.get r = 0 ∧ ((vecStart s e).core core).sreg.get r = 0)
    ∧ (∀ f : Nat, ((vecStart s e).core core).flags.get f = if f = 0 then BitVec.allOnes 512 else 0)

/-- An instruction of the vector row that works lane by lane: a V destination takes the result in the lanes whose flag is set, an
S destination takes the value that all 512 lanes agree on; nothing else of the row changes. Integer sums and products are modulo
2^32, shift counts modulo 32. The model's own choices and readings: log 16. -/
def Obligations.VectorLaneArithmetic : Prop :=
  ∀ x ∈ ([(Instr.vAdd, fun a b _ => fadd a b), (.vSub, fun a b _ => fsub a b), (.vMul, fun a b _ => fmul a b), (.vFma, ffma),
      (.vMin, fun a b _ => fmin a b), (.vMax, fun a b _ => fmax a b), (.vAbs, fun a _ _ => if isNan32 a then 0x7FC00000 else a &&& 0x7FFFFFFF),
      (.vNeg, fun a _ _ => if isNan32 a then 0x7FC00000 else a ^^^ 0x80000000), (.vExp2, fun a _ _ => fexp2 a), (.vLog2, fun a _ _ => flog2 a),
      (.vRcp, fun a _ _ => frcp a), (.vRsq, fun a _ _ => frsq a),
      (.vIadd, fun a b _ => BitVec.ofNat 32 (a.toNat + b.toNat)),
      (.vIsub, fun a b _ => BitVec.ofInt 32 ((a.toNat : Int) - b.toNat)), (.vImul, fun a b _ => BitVec.ofNat 32 (a.toNat * b.toNat)),
      (.vAnd, fun a b _ => a &&& b), (.vOr, fun a b _ => a ||| b), (.vXor, fun a b _ => a ^^^ b), (.vNot, fun a _ _ => ~~~a),
      (.vShl, fun a b _ => BitVec.ofNat 32 (a.toNat * 2 ^ (b.toNat % 32))), (.vShr, fun a b _ => BitVec.ofNat 32 (a.toNat / 2 ^ (b.toNat % 32))),
      (.vSar, fun a b _ => BitVec.ofInt 32 (a.toInt / 2 ^ (b.toNat % 32)))] :
        List ((CoreId → VecOps → Instr) × (Word → Word → Word → Word))),
    LaneOp x.1 x.2

/-- The compares write one bit for each lane whose flag is set, a NaN comparing as unordered; F0 is never written. SEL writes
every lane of its destination, choosing by the flag. The model's own choices and readings: log 16. -/
def Obligations.VectorComparesAndSelect : Prop :=
  (∀ x ∈ ([(Instr.vCmpEq, fun a b => !unord a b && fcmp a b == 0), (.vCmpNe, fun a b => unord a b || fcmp a b != 0),
      (.vCmpLt, fun a b => !unord a b && decide (fcmp a b < 0)), (.vCmpLe, fun a b => !unord a b && decide (fcmp a b ≤ 0)),
      (.vCmpUnord, fun a b => isNan32 a || isNan32 b)] : List ((CoreId → VecOps → Instr) × (Word → Word → Bool))),
    ∀ (core : CoreId) (o : VecOps) (s : State), ∃ t, exec (x.1 core o) s = .next t ∧ VecCounted s t core
      ∧ (∀ l, l < 512 → ((t.core core).flags.get o.fdst.toNat).getLsbD l
          = if o.fdst ≠ 0 ∧ (s.core core).active o.flg l then x.2 ((s.core core).src o.src1 l) ((s.core core).src o.src2 l)
            else ((s.core core).flags.get o.fdst.toNat).getLsbD l)
      ∧ (∀ f, f ≠ o.fdst.toNat → (t.core core).flags.get f = (s.core core).flags.get f)
      ∧ t.core core = { s.core core with flags := (t.core core).flags })
  ∧ (∀ (core : CoreId) (o : VecOps) (s : State), ∃ t, exec (.vSel core o) s = .next t ∧ VecCounted s t core ∧ OnlyVregs s t core
      ∧ DstWritten s t core o (fun _ => true) fun l =>
          if (s.core core).active o.flg l then (s.core core).src o.src1 l else (s.core core).src o.src2 l)

/-- CVT with a format word of E4M3, E5M2 or BF16 that takes no draws leaves in each active lane the FP32 value of the rounded
element. With FP32 it converts between FP32 and I32: which way is not stated (log 17), and it is one way for all lanes. The
model's own choices and readings: log 16, 17. -/
def Obligations.VectorConvertRounds : Prop :=
  ∀ (core : CoreId) (o : VecOps) (s : State), (fmtWord o.imm.toNat).ok false = true →
    (1 ≤ (fmtWord o.imm.toNat).fmt → (fmtWord o.imm.toNat).fmt ≤ 3 → (fmtWord o.imm.toNat).rnd ≠ 2 →
      ∃ t, exec (.vCvt core o) s = .next t ∧ VecCounted s t core ∧ OnlyVregs s t core
        ∧ DstWritten s t core o ((s.core core).active o.flg) fun l =>
            let w := fmtWord o.imm.toNat
            rn32 ((elemFmt w.fmt).decode ((elemFmt w.fmt).write (rndOf w.rnd 0) w.sat (val32 ((s.core core).src o.src1 l))).code))
    ∧ ((fmtWord o.imm.toNat).fmt = 0 →
      ∃ t, exec (.vCvt core o) s = .next t ∧ VecCounted s t core ∧ OnlyVregs s t core
        ∧ (DstWritten s t core o ((s.core core).active o.flg) (fun l => cvtI32 ((s.core core).src o.src1 l))
          ∨ DstWritten s t core o ((s.core core).active o.flg) (fun l => cvtFromI32 ((s.core core).src o.src1 l))))

/-- A reduction combines each segment of 32 · 2^SEG lanes pairwise, lanes whose flag is clear counting as the neutral value, and
writes the result to every lane of the segment. -/
def Obligations.VectorReductionsBySegment : Prop :=
  ∀ x ∈ ([(Instr.vRsum, fadd, 0x00000000), (.vRmax, fmax, 0xFF800000), (.vRmin, fmin, 0x7F800000)] :
      List ((CoreId → VecOps → Instr) × (Word → Word → Word) × Word)),
    ∀ (core : CoreId) (o : VecOps) (s : State), o.src3.toNat ≤ 4 →
      ∃ t, exec (x.1 core o) s = .next t ∧ VecCounted s t core ∧ OnlyVregs s t core
        ∧ DstWritten s t core o (fun _ => true) fun l =>
            let seg := 32 * 2 ^ o.src3.toNat
            reducePairs x.2.1 (5 + o.src3.toNat) ((List.range seg).map fun i =>
              if (s.core core).active o.flg (l / seg * seg + i) then (s.core core).src o.src1 (l / seg * seg + i) else x.2.2)

/-- In COUNTED mode RAND16 and RAND32 give each lane whose flag is set the top bits of one draw of its generator, which is
reseeded at the first draw of a command; lanes whose flag is clear take no draw. In FREE mode the draws are free and the
instruction completes. The model's own choices and readings: log 4, 8. -/
def Obligations.VectorRandomsDraw : Prop :=
  ∀ x ∈ ([(Instr.vRand16, 48), (.vRand32, 32)] : List ((CoreId → VecOps → Instr) × Nat)),
    ∀ (core : CoreId) (o : VecOps) (s : State), (s.core core).vec.draws = true →
      ∃ t, exec (x.1 core o) s = .next t ∧ VecCounted s t core ∧ (t.core core).vec.seeded = true
        ∧ (s.counted (vecEnv s core).p = true →
          let g (l : Nat) := if (s.core core).vec.seeded then (s.core core).lane l
            else laneSeed (BitVec.ofNat 64 (s.obj (0x3050 + (vecEnv s core).p) 2))
              (BitVec.ofNat 32 (s.obj (0x3100 + (vecEnv s core).p) 6)) (s.core core).vec.rkey l
          DstWritten s t core o ((s.core core).active o.flg)
              (fun l => BitVec.ofNat 32 ((advance (g l).1 (g l).2).2.2.toNat / 2 ^ x.2))
            ∧ ∀ l, l < 512 → (t.core core).lane l
                = if (s.core core).active o.flg l then ((advance (g l).1 (g l).2).1, (advance (g l).1 (g l).2).2.1) else g l)

/-- The loads and stores of the vector row, whose binding is a tensor the row may read or write. LDS fills S0 onward, LDC one V
register with a column, LDT 32 V registers with 32 columns, and memory is unchanged. To a destination of a plain format that takes
no draws STC writes one column of 512 elements, STT 32 columns, and nothing else in memory; padding is written +0. The model's own
choices and readings: log 15. -/
def Obligations.VectorLoadsAndStores : Prop :=
  (∀ (core : CoreId) (o : VecOps) (d : Tensor) (s u : State), u = s.count (0x3060 + core) 1 64 1 →
    (bound u (vecEnv s core) o false 0x50 = .ok d → d.f.fmt = 0 → o.src3.toNat < 64 →
      o.imm.toNat * 64 + 4 * (o.src3.toNat + 1) ≤ d.extent →
      readSpans u [(d.base + o.imm.toNat * 64, 4 * (o.src3.toNat + 1))] = .ok () →
      ∃ t, exec (.vLds core o) s = .next t ∧ VecCounted s t core
        ∧ (∀ i : Nat, (t.core core).sreg.get i = if i ≤ o.src3.toNat
            then BitVec.ofNat 32 (u.fetchNat (d.base + o.imm.toNat * 64 + 4 * i) 4) else (s.core core).sreg.get i)
        ∧ t.core core = { s.core core with sreg := (t.core core).sreg })
    ∧ (bound u (vecEnv s core) o false 0x51 = .ok d → d.layout = 3 →
      readSpans u (if o.imm.toNat < d.cols then [(d.codeAddr 0 o.imm.toNat, 512 * elemSize d.f.fmt)] else []) = .ok () →
      ∃ t, exec (.vLdc core o) s = .next t ∧ VecCounted s t core ∧ OnlyVregs s t core
        ∧ DstWritten s t core { o with ds := false } (fun _ => true) fun l => rn32 (d.value u l o.imm.toNat))
    ∧ (bound u (vecEnv s core) o false 0x52 = .ok d → d.layout = 0 →
      readSpans u (if o.imm.toNat < 2 * d.tc then columnSpans d o.imm.toNat else []) = .ok () →
      ∃ t, exec (.vLdt core o) s = .next t ∧ VecCounted s t core
        ∧ (∀ r l, l < 512 → (t.core core).vreg.get (r * 512 + l) =
            if halfBase o ≤ r ∧ r < halfBase o + 32 then rn32 (d.value u l (o.imm.toNat * 32 + (r - halfBase o)))
            else (s.core core).vreg.get (r * 512 + l))
        ∧ t.core core = { s.core core with vreg := (t.core core).vreg }))
  ∧ (∀ (core : CoreId) (o : VecOps) (d : Tensor) (s u : State), s.Canonical → u = s.count (0x3060 + core) 1 64 1 → drawsOf d = false →
    hasAreas d.f.fmt = false →
    (bound u (vecEnv s core) o true 0x53 = .ok d → d.layout = 3 → d.stored 0 o.imm.toNat = true →
      (let w : Cells := (List.range 512).flatMap fun l => d.codeCells l o.imm.toNat
          (storeCode d (rndOf d.f.rnd 0) ((s.core core).vreg.get (o.dst.toNat * 512 + l)) l o.imm.toNat)
       partialHalf u (u.placed w) = none →
       ∃ t, exec (.vStc core o) s = .next t ∧ VecCounted s t core ∧ MemWritten s t w))
    ∧ (bound u (vecEnv s core) o true 0x54 = .ok d → d.layout = 0 → o.imm.toNat < 2 * d.tc →
      (let w : Cells := (List.range 32).flatMap fun j => (List.range 512).flatMap fun r => d.codeCells r (o.imm.toNat * 32 + j)
          (storeCode d (rndOf d.f.rnd 0) ((s.core core).vreg.get ((halfBase o + j) * 512 + r)) r (o.imm.toNat * 32 + j))
       partialHalf u (u.placed w) = none →
       ∃ t, exec (.vStt core o) s = .next t ∧ VecCounted s t core ∧ MemWritten s t w)))

/-! ### Numbers (R45, R46, R60, R61) -/

/-- Rounding to FP32 is to nearest, ties to even: no finite FP32 value lies nearer to the exact value than the one written, and of
two that lie equally near the one with an even significand is written; the sign is kept. -/
def Obligations.RoundsToNearestEven : Prop :=
  ∀ (neg : Bool) (m : Nat) (e : Int) (x : Word), (val32 (rn32 (.fin neg m e))).isFin = true → (val32 x).isFin = true →
    |(val32 (rn32 (.fin neg m e))).rat - (Fp.fin neg m e).rat| ≤ |(val32 x).rat - (Fp.fin neg m e).rat|
    ∧ (|(val32 (rn32 (.fin neg m e))).rat - (Fp.fin neg m e).rat| = |(val32 x).rat - (Fp.fin neg m e).rat| →
        (val32 x).rat ≠ (val32 (rn32 (.fin neg m e))).rat → (rn32 (.fin neg m e)).toNat % 2 = 0)
    ∧ (rn32 (.fin neg m e)).msb = neg

/-- Writing the value of a finite element back to its format, under any rounding that takes no draw, gives the same code, and
counts no saturation; a NaN is written as the format's canonical NaN. An E8M0 byte scales its block by 2^(X − 127), and 0xFF makes
every element of it NaN (R47). -/
def Obligations.ElementsAndScales : Prop :=
  (∀ f ∈ [fp32, bf16, e4m3, e5m2], ∀ (x : Nat) (sat : Bool), x < 2 ^ f.bits →
    ((f.decode x).isFin = true → f.write .rne sat (f.decode x) = ⟨x, false⟩ ∧ f.write .rtz sat (f.decode x) = ⟨x, false⟩)
    ∧ (f.decode x = .nan → f.write .rne sat (f.decode x) = ⟨f.nanC, false⟩))
  ∧ (∀ (x : Nat) (v : Fp), x < 255 → v.isFin = true → (v.scale (scaleExp x)).isFin = true
      ∧ (v.scale (scaleExp x)).rat = v.rat * (2 : ℚ) ^ ((x : Int) - 127))
  ∧ (∀ (d : Tensor) (r c : Nat) (s : State), hasAreas d.f.fmt = true → r < d.rows → c < d.cols →
      ((s.fetchByte (d.scaleAddr r c)).toNat = 0xFF → d.value s r c = .nan)
      ∧ ((s.fetchByte (d.scaleAddr r c)).toNat ≠ 0xFF → d.f.fmt < 6 →
          d.value s r c = ((elemFmt d.f.fmt).decode (s.fetchNat (d.codeAddr r c) 1)).scale (scaleExp (s.fetchByte (d.scaleAddr r c)).toNat)))

/-! ### Tile mover and spill engine (R112–R120, R151, R152, R181–R184) -/

/-- MOVE of whole tiles that lie in place, GATHER of a local source, and SCATTER write exactly the cells that the copy of their
tiles or blocks gives, and nothing else in memory; the destination is WRITING and the write unfenced. A GATHER entry that is null
or beyond the grid gives a block of zeros; a SCATTER entry later in the list wins. The model's own choices and readings: log 12,
74. -/
def Obligations.MoveGatherScatterCopy : Prop :=
  ∀ (core : CoreId) (ctx : CtxId) (e : Env) (a b : Tensor) (g : ListArgs) (s : State), s.Canonical → s.recorded e = false →
    (AtHead s core ctx 0x10 e → onlyFields e.word ((0, 8) :: moveFields) = true → e.b 32 = false → 1 ≤ e.f 40 24 →
      board s e [(e.f 8 8, kTensor)] [(e.f 16 8, kTensor)] = .ok () → inCompressed s (tensorOf (s.content e (e.f 8 8))).base = false →
      slotTensor s e true false (e.f 8 8) = .ok a → moverDst s e (e.f 16 8) = .ok b → copyOk a b = true →
      (hasAreas a.f.fmt = true → hasAreas b.f.fmt = true → a.axis = b.axis) →
      e.f 64 32 + e.f 40 24 ≤ a.tiles → e.f 96 32 + e.f 40 24 ≤ b.tiles →
      (∀ i, i < e.f 40 24 → readSpans s (a.tileReads (e.f 64 32 + i) (if a.f.fmt = 8 then min a.held b.held else 0)) = .ok ()) →
      (let w := (List.range (e.f 40 24)).flatMap fun i => copyTile s a b (e.f 64 32 + i) (e.f 96 32 + i)
       partialHalf s (s.placed w) = none →
       ∃ t, exec (.move core ctx) s = .next t ∧ MoverDone s t core ctx e (e.f 16 8) w))
    ∧ (AtHead s core ctx 0x11 e → listArgs s e true = .ok (g, s) → g.table = none → g.packed = false →
      g.src.f.fmt = g.dst.f.fmt → g.src.f.kst = g.dst.f.kst → g.entries.length ≤ g.dst.tiles * 32 →
      (∀ x ∈ g.entries, nullEntry x = false → g.src.inGrid x.1 x.2 = true →
        readSpans s (blockSpans g.src (g.src.block x.1 x.2)) = .ok ()) →
      (let w := (g.entries.mapIdx fun i x => blockCells g.dst i
          (if nullEntry x || !g.src.inGrid x.1 x.2 then g.dst.areas.map fun n => List.replicate n 0
            else blockBytes s g.src (g.src.block x.1 x.2))).flatten
       partialHalf s (s.placed w) = none →
       ∃ t, exec (.gather core ctx) s = .next t ∧ MoverDone s t core ctx e (e.f 16 8) w))
    ∧ (AtHead s core ctx 0x12 e → listArgs s e false = .ok (g, s) → g.src.f.fmt = g.dst.f.fmt → g.src.f.kst = g.dst.f.kst →
      g.entries.length ≤ g.src.tiles * 32 → readSpans s ((scatterEntries g).flatMap fun y => blockSpans g.src y.1) = .ok () →
      (let w := (scatterEntries g).flatMap fun y => blockCells g.dst (g.dst.block y.2.1 y.2.2) (blockBytes s g.src y.1)
       partialHalf s (s.placed w) = none →
       ∃ t, exec (.scatter core ctx) s = .next t ∧ MoverDone s t core ctx e (e.f 16 8) w))

/-- SCATTER_ADD adds the blocks of its list one after another, each seeing those before it; with one acting entry it writes the
rounded FP32 sums of that block. WINDOW writes one tile for each tap of its walk. The model's own choices and readings: log 74. -/
def Obligations.ScatterAddAndWindowWrite : Prop :=
  ∀ (core : CoreId) (ctx : CtxId) (e : Env) (s : State), s.Canonical → s.recorded e = false →
    (∀ g : ListArgs, AtHead s core ctx 0x13 e → listArgs s e false = .ok (g, s) → g.dst.f.fmt = 0 → g.src.f.fmt ≤ 3 →
      g.entries.length ≤ g.src.tiles * 32 →
      (∀ u, scatterAdds s e g (scatterEntries g) = .ok u →
        ∃ t, exec (.scatterAdd core ctx) s = .next t ∧ Issued s t core ctx ∧ t.mem = u.mem
          ∧ (t.slotOf e (e.f 16 8)).st = .writing)
      ∧ (∀ y, scatterEntries g = [y] → readSpans s (blockSpans g.src y.1) = .ok () →
        readSpans s (blockSpans g.dst (g.dst.block y.2.1 y.2.2)) = .ok () →
        partialHalf s (s.placed (addBlock s g.src g.dst y.1 y.2.1 y.2.2)) = none →
        ∃ t, exec (.scatterAdd core ctx) s = .next t
          ∧ MoverDone s t core ctx e (e.f 16 8) (addBlock s g.src g.dst y.1 y.2.1 y.2.2)))
    ∧ (∀ (a b : Tensor) (n : Nat), AtHead s core ctx 0x14 e →
      onlyFields e.word [(0, 8), (8, 8), (16, 8), (24, 8), (32, 16), (48, 2), (64, 32)] = true → e.f 48 2 ≠ 3 →
      board s e [(e.f 8 8, kTensor), (e.f 24 8, kWalk)] [(e.f 16 8, kTensor)] = .ok () →
      slotTensor s e false false (e.f 8 8) = .ok a → moverDst s e (e.f 16 8) = .ok b → a.f.fmt = b.f.fmt → a.layout = 2 →
      b.layout = 0 →
      (let w := walkOf (s.content e (e.f 24 8))
       w.kh * w.kw ≤ b.tiles → w.ok a.f.fmt = true → w.groups = 1 → e.f 32 16 % 32 = 0 → e.f 32 16 < w.cg →
       spanCheck s e false a.base w.inputBytes = .ok n → readSpans s [(n, w.inputBytes)] = .ok () →
       (let cells := (List.range (w.kh * w.kw)).flatMap fun t => (List.range 512).flatMap fun r => (List.range 64).flatMap fun c =>
          b.codeCells ((b.tilePos t).1 * 512 + r) ((b.tilePos t).2 * 64 + c)
            (if (b.tilePos t).1 * 512 + r ≥ b.rows ∨ (b.tilePos t).2 * 64 + c ≥ b.cols then 0
              else windowCode s w a (w.mBase + e.f 64 32 + r) (e.f 32 16 + c) (e.f 48 2) (t / w.kw) (t % w.kw))
        partialHalf s (s.placed cells) = none →
        ∃ t, exec (.window core ctx) s = .next t ∧ MoverDone s t core ctx e (e.f 16 8) cells)))

/-- SPILL appends an entry to its ring, header first, at the ring's head or its start, and writes it to bulk memory. PREFETCH
copies the entry of its step, tensor and tile back, and consumes it. The model's own choices and readings: log 20, 74. -/
def Obligations.SpillAndPrefetchRing : Prop :=
  (∀ (core : CoreId) (ctx : CtxId) (e : Env) (r : Nat) (g : Region) (d : Tensor) (off : Nat) (rest : List SpillEntry) (s : State),
    s.Canonical → AtHead s core ctx 0x15 e → (ctx : Nat) < 4 → spillArgs s e false = .ok (r, g, d) →
    readSpans s (d.tileSpans (e.f 48 32)) = .ok () →
    spillPlace (s.rings.get r) (bulkBase + g.start) g.bytes (64 + ceilDiv d.tileSize 64 * 64) = some (off, rest) →
    s.bulkReady (g.start + off) (64 + ceilDiv d.tileSize 64 * 64) = true →
    ∃ t, exec (.spill core ctx) s = .next t ∧ Issued s t core ctx
      ∧ (let n := 64 + ceilDiv d.tileSize 64 * 64
         let en : SpillEntry := ⟨bulkBase + g.start + off, BitVec.ofNat 32 (s.obj (0x3100 + e.p) 6), e.f 32 16, e.f 48 32, n / 64,
          true, false, false⟩
         t.rings.get r = ⟨off + n, rest ++ [en]⟩ ∧ (∀ q, q ≠ r → t.rings.get q = s.rings.get q)
          ∧ RawWritten s t en.addr (spillHeader en ++ spillBytes s d (e.f 48 32)))
      ∧ ((t.core core).ctxs.get ctx).unfenced = 0b1111)
  ∧ (∀ (core : CoreId) (ctx : CtxId) (e : Env) (r : Nat) (g : Region) (d : Tensor) (en : SpillEntry) (s : State),
    s.Canonical → AtHead s core ctx 0x16 e → s.recorded e = false → spillArgs s e true = .ok (r, g, d) →
    spillFind (s.rings.get r).entries (BitVec.ofNat 32 (s.obj (0x3100 + e.p) 6)) (e.f 32 16) (e.f 48 32) = some en →
    en.valid = true → en.consumed = false → en.size * 64 = 64 + ceilDiv d.tileSize 64 * 64 →
    readSpans s [(en.addr, en.size * 64)] = .ok () → bulkBase ≤ en.addr →
    (let offs := (d.areas.foldl (fun (y : Nat × List Nat) n => (y.1 + 32 * n, y.2 ++ [y.1])) (64, [])).2
     let w := (d.areas.mapIdx fun a n =>
      cellsAt (d.areaAddr a (e.f 48 32 * 32)) ((List.range (32 * n)).map fun j => s.byteAt (en.addr + offs.getD a 0 + j))).flatten
     partialHalf s (s.placed w) = none →
     ∃ t, exec (.prefetch core ctx) s = .next t ∧ Issued s t core ctx
      ∧ (∀ x, redirectBy s.redirects x < bulkBase →
          t.byteAt x = (lastByte (s.placed w) (redirectBy s.redirects x)).getD (s.byteAt x))
      ∧ (∀ y ∈ (t.rings.get r).entries, y.addr = en.addr → y.consumed = true)
      ∧ (t.slotOf e (e.f 8 8)).st = .writing))

/-! ### Collectives (R185, R218, R228, R233) -/

/-- COLL hands a collective to the sequencer: it is held under a number of its own, its destination is WRITING and its source has
one reader more until it completes. The model's own choices and readings: log 25. -/
def Obligations.CollHandsOver : Prop :=
  ∀ (core : CoreId) (ctx : CtxId) (e : Env) (g : Group) (a b : Tensor) (s : State), AtHead s core ctx 0x20 e →
    onlyFields e.word [(0, 8), (8, 8), (16, 8), (24, 4), (32, 16), (48, 32), (80, 24)] = true → e.f 24 4 ≤ 3 →
    board s e [(e.f 8 8, kTensor)] [(e.f 16 8, kTensor)] = .ok () →
    (s.part e.p).groups.find? (fun g => g.group == e.f 32 16) = some g → collTensor s e false (e.f 8 8) = .ok a →
    collTensor s e true (e.f 16 8) = .ok b → g.alg < 2 → (s.memberIndex g).isSome = true → a.tileSize = b.tileSize →
    overQueue s e b.base b.extent = false →
    ∃ t, exec (.coll core ctx) s = .next t ∧ Issued s t core ctx
      ∧ t.colls = s.colls ++ [⟨s.collNext, e.p, core, ctx, e.idx, e.f 24 4, g, e.f 8 8, e.f 16 8, e.f 48 32, e.f 80 24, false,
          s.recorded e⟩]
      ∧ t.collNext = s.collNext + 1 ∧ (t.slotOf e (e.f 16 8)).st = .writing
      ∧ (e.f 8 8 ≠ e.f 16 8 → (t.slotOf e (e.f 8 8)).readers = (s.slotOf e (e.f 8 8)).readers + 1)
      ∧ (t.core core).outst = (s.core core).outst ++ [⟨ctx, e.idx, slotKey ctx (e.f 16 8), some s.collNext, true⟩]
      ∧ ((t.core core).ctxs.get ctx).unfenced = 0b1111 ∧ OnlyCore s t core
      ∧ t = { s with objs := t.objs, cores := t.cores, colls := t.colls, collNext := t.collNext }

/-- The four kinds, each for a collective that the sequencer holds and whose tiles read without error: REDUCE_SCATTER sends the
other members their contributions and adds the sum to the owned shard; ALL_GATHER sends the owned shard and stores the others;
ALL_REDUCE does one and then the other; RING_PASS sends the source tiles to the next member and stores the predecessor's. The
tiles are then in place, and no byte outside the destination's tiles has changed. The model's own choices and readings: log 25,
26. -/
def Obligations.CollectiveKindsMoveTiles : Prop :=
  ∀ (x : Coll) (i : Nat) (peers : List (List Word)) (sums : List (List Byte)) (incoming : List Byte) (s : State), s.Canonical →
    s.tilesBad (s.collSrc x) x.allTiles = none → s.tilesBad (s.collDst x) x.allTiles = none →
    (s.collOf x.id 0 = some (x, i) → s.peersFit x i peers = true →
      ∃ t, exec (.reduceScatter x.id peers) s = .next t ∧ TilesPlaced s t x (x.shard i)
        ∧ t.mem = ((s.sendContributions x i).reduceShard x i peers).mem)
    ∧ (s.collOf x.id 1 = some (x, i) → s.gatherFit x i sums = true →
      ∃ t, exec (.allGather x.id sums) s = .next t ∧ TilesPlaced s t x x.allTiles
        ∧ t.mem = (((s.sendAll x i (s.tilesAt (s.collSrc x) (x.shard i))).putTiles (s.collDst x) (x.shard i)
            (s.tilesAt (s.collSrc x) (x.shard i))).storeShards x i sums).mem)
    ∧ (s.collOf x.id 2 = some (x, i) → s.peersFit x i peers = true → s.gatherFit x i sums = true →
      ∃ t, exec (.allReduce x.id peers sums) s = .next t ∧ TilesPlaced s t x x.allTiles
        ∧ (let u := (s.sendContributions x i).reduceShard x i peers;
           t.mem = ((u.sendAll x i (u.tilesAt (u.collDst x) (x.shard i))).storeShards x i sums).mem))
    ∧ (s.collOf x.id 3 = some (x, i) → incoming.length = x.nt * (s.collSrc x).tileSize →
      ∃ t, exec (.ringPass x.id incoming) s = .next t ∧ TilesPlaced s t x x.allTiles
        ∧ t.mem = ((s.sendTiles x ((i + 1) % x.group.nmem) (s.tilesAt (s.collSrc x) x.allTiles)).putTiles (s.collDst x) x.allTiles
            incoming).mem
        ∧ (x.silent = false → .collTiles x.id (s.memberAt x.group ((i + 1) % x.group.nmem))
            (s.tilesAt (s.collSrc x) x.allTiles) ∈ t.out))

/-- A collective whose tiles are in place completes: its destination becomes READY, its source loses the reader, its command is no
longer outstanding and its effect is recorded. -/
def Obligations.CollectiveCompletes : Prop :=
  ∀ (x : Coll) (s : State), s.colls.find? (fun y => y.id == x.id && y.done) = some x →
    ((s.core x.core).outst.any fun o => o.entry == some x.id) = true →
    ∃ t, exec (.collectiveComplete x.id) s = .next t ∧ t.colls = s.colls.filter (fun y => y.id != x.id)
      ∧ ((t.core x.core).slots.get (slotKey x.ctx x.dst)).st = .ready
      ∧ (slotKey x.ctx x.src ≠ slotKey x.ctx x.dst →
          ((t.core x.core).slots.get (slotKey x.ctx x.src)).readers
            = ((s.core x.core).slots.get (slotKey x.ctx x.src)).readers - 1)
      ∧ (t.core x.core).outst = (s.core x.core).outst.filter (fun o => o.entry != some x.id)
      ∧ x.index ∈ ((t.core x.core).ctxs.get x.ctx).effects
      ∧ (∀ d, d ≠ x.core → t.core d = s.core d) ∧ t = { s with cores := t.cores, colls := t.colls }

/-! ### Bore: connections and keys (R282, R283, R289, R290) -/

/-- CONTROL = 1 on a FREE, fully configured connection leaves it OPENING with a drawn PSN and sends CONNECT, which goes again
every millisecond; a CONNECT or ACCEPT that matches opens it; after 100 ms without one it is in ERROR with its queues empty.
CONTROL = 2 on an OPEN connection with empty queues leaves it CLOSING and sends CLOSE; on one in ERROR it frees it; 10 ms in
CLOSING frees it; a CLOSE from the peer that passes its checks is acknowledged and frees it. A freed connection keeps its
configuration. The model's own choices and readings: log 6, 27. -/
def Obligations.ConnectionsOpenAndClose : Prop :=
  ((∀ (m : Master) (c : ConnId) (s : State), Accepts s m 0x4211 2 →
    (let u := s.heard m.path
     let x := u.conn c
     x.st = .free → (u.isSealed x.part = false ∨ x.keysel ≠ 0) → u.obj 0x1100 3 ≠ 0xFFFF → u.frameOk x.link = true → 16 ≤ x.cqlen →
     ∃ t, exec (.connOpen m c) s = .next t ∧ Answered t m stOk ∧ (t.conn c).st = .opening ∧ (t.conn c).upsn = (t.conn c).spsn
      ∧ (t.conn c).cwnd = u.obj 0x4200 7 * 1024 ∧ (∀ d : Nat, d ≠ c → t.conn d = u.conn d)
      ∧ ∃ p, Output.packet c p ∈ t.out ∧ p.kind = .connect ∧ p.psn = (t.conn c).spsn ∧ p.jobId.toNat = u.obj 0x3500 1 % 2 ^ 32))
  ∧ (∀ (c : ConnId) (s : State), (s.conn c).st = .opening →
    (∃ t, exec (.connectResend c) s = .next t ∧ t.conns = s.conns ∧ SameMem s t
      ∧ ∃ p, t.out.head? = some (.packet c p) ∧ p.kind = .connect ∧ p.psn = (s.conn c).upsn)
    ∧ (∃ t, exec (.connectTimeout c) s = .next t ∧ (t.conn c).st = .error ∧ (t.conn c).err = 9 ∧ (t.conn c).sendQ = []
      ∧ (t.conn c).recvQ = []))
  ∧ (∀ (p : Packet) (s : State), (s.conn p.dconn.toNat).st = .opening → (s.received p).matchesConn p = true →
    (s.received p).connectOpens p = true →
    (∃ t, exec (.rxConnect p) s = .next t ∧ OpenedBy s t p
      ∧ ∃ q, t.out.head? = some (.packet p.dconn.toNat q) ∧ q.kind = .accept)
    ∧ (∃ t, exec (.rxAccept p) s = .next t ∧ OpenedBy s t p ∧ t.out = s.out)))
  ∧ ((∀ (m : Master) (c : ConnId) (s : State), Accepts s m 0x4211 2 →
    (let u := s.heard m.path
     let x := u.conn c
     (x.st = .isOpen → x.sendQ = [] → x.recvQ = [] → x.closePsn = none →
       ∃ t, exec (.connClose m c) s = .next t ∧ Answered t m stOk ∧ (t.conn c).st = .closing ∧ (t.conn c).closePsn = some x.spsn
        ∧ (t.conn c).spsn = x.spsn + 1 ∧ ∃ p, Output.packet c p ∈ t.out ∧ p.kind = .close ∧ p.psn = x.spsn)
     ∧ (x.st = .error → ∃ t, exec (.connClose m c) s = .next t ∧ Answered t m stOk ∧ t.conn c = x.freed)))
  ∧ (∀ (c : ConnId) (s : State), (s.conn c).st = .closing →
      ∃ t, exec (.closeTimeout c) s = .next t ∧ t.conn c = (s.conn c).freed)
  ∧ (∀ (p q : Packet) (u s : State), p.kind = .close → (s.conn p.dconn.toNat).st = .isOpen → s.admitPacket p = (u, some q) →
      ∃ t, exec (.rxClose p) s = .next t ∧ t.conn p.dconn.toNat = (s.conn p.dconn.toNat).freed
        ∧ ∃ a, Output.packet p.dconn.toNat a ∈ t.out ∧ a.kind = .ack))

/-- REGISTER makes an entry VALID whose range and rights its memory allows; INVALIDATE clears VALID and advances the tag; the
other entries are unchanged. The model's own choices and readings: log 31. -/
def Obligations.KeysRegisterAndInvalidate : Prop :=
  ∀ (m : Master) (k : KeyIdx) (s : State), Accepts s m 0x4221 2 →
    (let u := s.heard m.path
     let x := u.keys.get k
     ((u.keySealed x = none ∨ ∃ p, u.keySealed x = some p ∧ u.keyBound x p = true) → u.keyOk x = true → 64 ≤ x.len →
       ∃ t, exec (.registerKey m k) s = .next t ∧ Answered t m stOk ∧ t.keys.get k = { x with valid := true }
        ∧ (∀ j : Nat, j ≠ k → t.keys.get j = u.keys.get j) ∧ t.mem = s.mem)
     ∧ (∃ t, exec (.invalidateKey m k) s = .next t ∧ Answered t m stOk ∧ t.keys.get k = { x with valid := false, tag := x.tag + 1 }
        ∧ (∀ j : Nat, j ≠ k → t.keys.get j = u.keys.get j) ∧ t.mem = s.mem))

/-! ### Bore: the sender (R186, R285, R288, R295–R299) -/

/-- A BORE command posts the work entry of its slot on the queue of its OPEN connection: a RECV on the receive queue while it has
room for 64, any other on the send queue while it has room for 32; the RDY slot it names becomes WRITING. The model's own choices
and readings: log 28. -/
def Obligations.BorePostsEntry : Prop :=
  ∀ (core : CoreId) (ctx : CtxId) (e : Env) (a b n : Nat) (s : State), AtHead s core ctx 0x21 e →
    onlyFields e.word [(0, 8), (8, 8), (16, 12), (32, 8), (40, 1)] = true →
    board s e [(e.f 8 8, kWork)] (if e.b 40 then [(e.f 32 8, (s.slotOf e (e.f 32 8)).kind.toNat)] else []) = .ok () →
    (s.conn (e.f 16 12)).st = .isOpen → (s.conn (e.f 16 12)).part = e.p → listSlot (s.content e (e.f 8 8)) = .ok (b, n) →
    spanCheck s e false b 64 = .ok a → inScratch a = true → readSpans s [(a, 64)] = .ok () →
    entryCheck s e (s.conn (e.f 16 12)) (s.natAt a 64) = .ok () → s.recorded e = false →
    (if fieldAt (s.natAt a 64) 0 8 = 2 then (s.conn (e.f 16 12)).recvQ.length < 64
      else ((s.conn (e.f 16 12)).sendQ.filter fun y => !y.isBarrier).length < 32) →
    ∃ t, exec (.bore core ctx) s = .next t ∧ Issued s t core ctx
      ∧ (let w := workEntry s e (s.natAt a 64)
         t.conn (e.f 16 12) = (if w.op = 2 then { s.conn (e.f 16 12) with recvQ := (s.conn (e.f 16 12)).recvQ ++ [w] }
          else { s.conn (e.f 16 12) with sendQ := (s.conn (e.f 16 12)).sendQ ++ [w] })
         ∧ (w.isData = true → ((t.core core).ctxs.get ctx).unfenced = 0b1111))
      ∧ (∀ d, d ≠ e.f 16 12 → t.conn d = s.conn d) ∧ t.entryNext = s.entryNext + 1
      ∧ (e.b 40 = true → (t.slotOf e (e.f 32 8)).st = .writing) ∧ OnlyCore s t core ∧ t.mem = s.mem

/-- SEND, WRITE and WRITE_ACC put on the wire the packets that the window lets out, on fresh PSNs in order; READ, FETCH_ADD and
CMP_SWAP put out one request, at most 16 of each sort outstanding. No barrier packet waits behind them. The model's own choices
and readings: log 33, 79. -/
def Obligations.WorkEntriesTransmit : Prop :=
  (∀ x ∈ [(Instr.weSend, 1), (.weWrite, 3), (.weWriteAcc, 4)], ∀ (c : ConnId) (e : WorkEntry) (s : State),
    (s.conn c).mayWork x.2 = some e → (∀ y ∈ (s.conn c).sendQ, y.isBarrier = false) →
    0 < (s.conn c).packetsNow e →
    s.sramError (e.laddr + 4096 * e.sent) (e.payNext ((s.conn c).packetsNow e)) = false →
    s.sourceReady e.core (e.laddr + 4096 * e.sent) (e.payNext ((s.conn c).packetsNow e)) = true →
    ∃ t, exec (x.1 c) s = .next t ∧ Transmitted s t c e ((s.conn c).packetsNow e) ((s.conn c).packetsNow e))
  ∧ (∀ x ∈ [(Instr.weRead, 5), (.weFetchAdd, 6), (.weCmpSwap, 7)], ∀ (c : ConnId) (e : WorkEntry) (s : State),
    (s.conn c).mayWork x.2 = some e → (∀ y ∈ (s.conn c).sendQ, y.isBarrier = false) →
    (if x.2 = 5 then (s.conn c).outstanding (·.op == 5) else (s.conn c).outstanding WorkEntry.isAtomic) < 16 →
    e.psns ≤ (s.conn c).psnRoom →
    ∃ t, exec (x.1 c) s = .next t ∧ Transmitted s t c e 1 e.psns)

/-- RECV posts the oldest buffer that is not posted and completes its command; a chained entry may go once the count of its
connection has reached its target; an acknowledgement goes out 4 µs after a packet that has none. The model's own choices and
readings: log 6. -/
def Obligations.RecvChainAndAckTimer : Prop :=
  (∀ (c : ConnId) (e : WorkEntry) (s : State), (s.conn c).recvQ.find? (fun e => !e.armed) = some e →
    ∃ t, exec (.weRecv c) s = .next t ∧ (t.conn c).recvQ = putEntry (s.conn c).recvQ { e with armed := true }
      ∧ e.index ∈ ((t.core e.core).ctxs.get e.ctx).effects ∧ (∀ d : Nat, d ≠ c → t.conn d = s.conn d)
      ∧ t = { s with conns := t.conns, cores := t.cores })
  ∧ (∀ (c : ConnId) (e : WorkEntry) (s : State), (s.conn c).toSend = some e → e.chain = true → e.sent = 0 →
    (s.conn e.cconn).st ≠ .error → ((s.conn e.cconn).ccount - e.ctgt).toNat < 2 ^ 31 →
    ∃ t, exec (.chainRelease c) s = .next t ∧ (t.conn c).sendQ = putEntry (s.conn c).sendQ { e with chain := false }
      ∧ t = { s with conns := t.conns })
  ∧ (∀ (c : ConnId) (s : State), 0 < (s.conn c).unacked → (s.conn c).st = .isOpen →
    ∃ t, exec (.ackTimer c) s = .next t ∧ (t.conn c).unacked = 0 ∧ (t.conn c).epsn = (s.conn c).epsn
      ∧ ∃ p, t.out.head? = some (.packet c p) ∧ p.kind = .ack ∧ p.psn = (s.conn c).epsn - 1)

/-- A timeout without progress takes the window to 8 KiB, doubles the timeout and counts; the resend after NAK RNR or NAK BUSY
ends the wait; a NAK RNR begins one and counts at the entry; a NAK BUSY cuts the window and begins one. The model's own choices
and readings: log 6. -/
def Obligations.RetransmissionsRecover : Prop :=
  (∀ (c : ConnId) (e : WorkEntry) (s : State), (s.conn c).st = .isOpen → (s.conn c).stall = 0 →
    (s.conn c).sendQ.find? (fun e => decide (0 < e.sent)) = some e → (s.conn c).timeouts + 1 < 8 →
    ∃ t, exec (.retransmitTimeout c) s = .next t ∧ (t.conn c).cwnd = 8192 ∧ (t.conn c).rto = min (2 * (s.conn c).rto) 6400000
      ∧ (t.conn c).timeouts = (s.conn c).timeouts + 1 ∧ (t.conn c).sendQ = (s.conn c).sendQ
      ∧ t.obj 0x4201 6 = counterAt 32 (s.obj 0x4201 6 + 1) ∧ t.mem = s.mem)
  ∧ (∀ x ∈ [(Instr.rnrResend, 1), (.busyResend, 2)], ∀ (c : ConnId) (s : State), (s.conn c).stall = x.2 → (s.conn c).st = .isOpen →
    ∃ t, exec (x.1 c) s = .next t ∧ (t.conn c).stall = 0 ∧ (t.conn c).sendQ = (s.conn c).sendQ ∧ t.mem = s.mem)
  ∧ (∀ (p q : Packet) (u s : State), p.kind = .nak → s.admitPacket p = (u, some q) →
    (q.offset.toNat % 256 = 2 → ∀ e, (u.conn p.dconn.toNat).entryAt q.psn = some e → u.obj 0x4200 9 = 0 ∨ e.rnr + 1 < u.obj 0x4200 9 →
      ∃ t, exec (.rxNak p) s = .next t ∧ (t.conn p.dconn.toNat).stall = 1 ∧ (t.conn p.dconn.toNat).resendAt = e.psn
        ∧ (t.conn p.dconn.toNat).sendQ = putEntry (u.conn p.dconn.toNat).sendQ { e with rnr := e.rnr + 1 })
    ∧ (q.offset.toNat % 256 = 3 →
      ∃ t, exec (.rxNak p) s = .next t ∧ (t.conn p.dconn.toNat).stall = 2 ∧ (t.conn p.dconn.toNat).resendAt = q.psn
        ∧ (t.conn p.dconn.toNat).cwnd = if (u.conn p.dconn.toNat).tcut + (u.conn p.dconn.toNat).srtt ≤ u.now
            then max ((u.conn p.dconn.toNat).cwnd / 2) 8192 else (u.conn p.dconn.toNat).cwnd))

/-- An ACK that covers every packet of a data entry takes it off the send queue, and what it does not cover stays on it. -/
def Obligations.AckCompletesEntries : Prop :=
  ∀ (p q : Packet) (rtt : Nat) (u s : State), p.kind = .ack → s.admitPacket p = (u, some q) →
    (let x := u.conn p.dconn.toNat
     x.closePsn = none → (x.sendQ.map (·.id)).Nodup → (q.psn - x.upsn).toNat < (x.spsn - x.upsn).toNat →
     ∃ t, exec (.rxAck p rtt) s = .next t
      ∧ (t.conn p.dconn.toNat).sendQ = (ackEntries x.sendQ q.psn).filter (fun e => !e.allAcked)
      ∧ (t.conn p.dconn.toNat).timeouts = 0 ∧ (t.conn p.dconn.toNat).rto = 50000)

/-! ### Bore: the responder (R285, R288, R291–R294, R298, R300, R303) -/

/-- The expected packet of a WRITE, WRITE_ACC or SEND is placed and takes its PSN: a WRITE as it is, a WRITE_ACC added value by
value and each byte of an ORIGIN once, a SEND in the buffer at the head of the receive queue, which its last packet completes. -/
def Obligations.ResponderPlacesData : Prop :=
  ∀ (p q : Packet) (s v : State),
    (Expected s p .write q v → v.keyFail p.dconn.toNat .write q = none → (q.first = true ∨ (v.conn p.dconn.toNat).msgOk = true) →
      v.rxWaits (q.raddr.toNat + q.offset.toNat) q.payload.length = false →
      v.sramPartial (q.raddr.toNat + q.offset.toNat) q.payload.length = false → (q.last = false ∨ q.immv = false) →
      ∃ t, exec (.rxWrite p) s = .next t ∧ t.mem = (v.boreWrite (q.raddr.toNat + q.offset.toNat) q.payload).mem
        ∧ (t.conn p.dconn.toNat).epsn = q.psn + 1 ∧ (t.conn p.dconn.toNat).msgOk = !q.last)
    ∧ (Expected s p .writeAcc q v → v.keyFail p.dconn.toNat .write q = none →
      (q.first = true ∨ (v.conn p.dconn.toNat).msgOk = true) →
      v.rxWaits (q.raddr.toNat + q.offset.toNat) q.payload.length = false →
      v.sramError (q.raddr.toNat + q.offset.toNat) q.payload.length = false →
      (v.conn p.dconn.toNat).added q.origin ≤ q.offset.toNat → q.payload ≠ [] →
      ∃ t, exec (.rxWriteAcc p) s = .next t ∧ (t.conn p.dconn.toNat).epsn = q.psn + 1
        ∧ (let a := q.raddr.toNat + q.offset.toNat
           t.mem = (v.boreWrite a (accBytes q.accf (v.bytesAt a q.payload.length) q.payload)).mem)
        ∧ q.offset.toNat + q.payload.length ≤ (t.conn p.dconn.toNat).added q.origin)
    ∧ (∀ e, Expected s p .send q v → (q.first = true ∨ (v.conn p.dconn.toNat).msgOk = true) →
      (v.conn p.dconn.toNat).recvQ.find? (·.armed) = some e → e.isBarrier = false → e.cqe = false → q.abrt = false →
      q.offset.toNat + q.payload.length ≤ e.len → (q.first = true ∨ (v.conn p.dconn.toNat).trunc = false) →
      v.rxWaits (e.laddr + q.offset.toNat) q.payload.length = false →
      v.sramPartial (e.laddr + q.offset.toNat) q.payload.length = false →
      ∃ t, exec (.rxSend p) s = .next t ∧ (t.conn p.dconn.toNat).epsn = q.psn + 1
        ∧ t.mem = (v.boreStore (v.conn p.dconn.toNat).part (e.laddr + q.offset.toNat) q.payload).mem
        ∧ (q.last = true → (t.conn p.dconn.toNat).recvQ = (v.conn p.dconn.toNat).recvQ.filter (·.id != e.id)
            ∧ (t.conn p.dconn.toNat).ccount = (v.conn p.dconn.toNat).ccount + 1))

/-- An expected atomic that no ORIGIN of the step has made changes its 8 bytes once and answers with the old value; a read is
answered with its data on the PSNs of its request; the answers end the requests that wait for them. The model's own choices and
readings: log 79, 80. -/
def Obligations.ResponderReadsAndAtomics : Prop :=
  ∀ (p q : Packet) (s v : State),
    (∀ x ∈ [(Instr.rxFetchAdd, PktKind.fetchAdd, fun (old : BitVec 64) => old + q.opnd1),
        (.rxCmpSwap, .cmpSwap, fun old => if old = q.opnd1 then q.opnd2 else old)],
      Expected s p x.2.1 q v → v.keyFail p.dconn.toNat .atomic q = none →
      (v.conn p.dconn.toNat).atomicStep.find? (fun r => r.origin == q.origin) = none → v.rxWaits q.raddr.toNat 8 = false →
      v.sramError q.raddr.toNat 8 = false → v.bulkError q.raddr.toNat 8 = false →
      ∃ t, exec (x.1 p) s = .next t ∧ (t.conn p.dconn.toNat).epsn = q.psn + 1
        ∧ t.mem = (v.boreWrite q.raddr.toNat (bytesOf 8 (x.2.2 (BitVec.ofNat 64 (v.natAt q.raddr.toNat 8))).toNat)).mem
        ∧ ∃ a, Output.packet p.dconn.toNat a ∈ t.out ∧ a.kind = .atomicResp ∧ a.opnd1 = BitVec.ofNat 64 (v.natAt q.raddr.toNat 8))
    ∧ (∀ add, Expected s p .readReq q v → v.keyFail p.dconn.toNat .read q = none →
      v.rxWaits q.raddr.toNat q.len.toNat = false → v.readState q = .serve add →
      v.sramError (q.raddr.toNat + add) q.len.toNat = false → v.bulkError (q.raddr.toNat + add) q.len.toNat = false →
      ∃ t, exec (.rxReadReq p) s = .next t
        ∧ (t.conn p.dconn.toNat).epsn = q.psn + BitVec.ofNat 24 (packetsOf q.len.toNat)
        ∧ (∀ i, i < packetsOf q.len.toNat → ∃ a, Output.packet p.dconn.toNat a ∈ t.out ∧ a.kind = .readResp
            ∧ a.psn = q.psn + BitVec.ofNat 24 i) ∧ t.mem = v.mem)
    ∧ (∀ e u, p.kind = .atomicResp → s.admitPacket p = (u, some q) →
      (u.conn p.dconn.toNat).sendQ.find? (fun e => e.isAtomic && decide (0 < e.sent) && e.psn == q.psn) = some e →
      e.withdrawn = false → e.cqe = false → u.rxWaits e.laddr 8 = false →
      ∃ t, exec (.rxAtomicResp p) s = .next t ∧ t.mem = (u.boreStore (u.conn p.dconn.toNat).part e.laddr (bytesOf 8 q.opnd1.toNat)).mem
        ∧ (t.conn p.dconn.toNat).sendQ = (u.conn p.dconn.toNat).sendQ.filter (·.id != e.id))
    ∧ (∀ e u, p.kind = .readResp → s.admitPacket p = (u, some q) →
      (u.conn p.dconn.toNat).sendQ.find? (fun e => e.op == 5 && decide (0 < e.sent)
        && decide ((q.psn - e.psn).toNat < packetsOf e.len)) = some e →
      4096 * (q.psn - e.psn).toNat = e.got → e.withdrawn = false → e.cqe = false →
      (let bs := q.payload.take (e.len - e.got)
       u.rxWaits (e.laddr + e.got) bs.length = false →
       ∃ t, exec (.rxReadResp p) s = .next t ∧ t.mem = (u.boreStore (u.conn p.dconn.toNat).part (e.laddr + e.got) bs).mem
        ∧ (e.got + bs.length < e.len → (t.conn p.dconn.toNat).sendQ
            = putEntry (u.conn p.dconn.toNat).sendQ { e with got := e.got + bs.length })
        ∧ (e.len ≤ e.got + bs.length → ∀ y ∈ (t.conn p.dconn.toNat).sendQ, y.id ≠ e.id)))

/-- An arrival of a child at a fabric barrier counts for the generation held, and the release of the generation held advances it;
each takes its PSN. A placement that did not start in 20 µs is answered NAK BUSY and takes no PSN; a fetch that waited for the
owner's step is answered once the half to read is decided. The model's own choices and readings: log 6, 27, 84. -/
def Obligations.BarriersAndLatePlacement : Prop :=
  (∀ (p q : Packet) (n : Nat) (b : BarrierGroup) (s v : State), Expected s p .barrierArrive q v →
    v.barriersOf (v.conn p.dconn.toNat).part q.group.toNat = [n] → q.gen.toNat = (v.sync n).gen →
    v.barrierGroup (v.sync n).grp = some b → (v.sync n).arrivals < (v.sync n).need →
    ∃ t, exec (.barrierArrive p) s = .next t ∧ (t.conn p.dconn.toNat).epsn = q.psn + 1
      ∧ t.sync n = { v.sync n with children := (p.dconn.toNat - b.conn0 - 1) :: (v.sync n).children })
  ∧ (∀ (p q : Packet) (n i : Nat) (b : BarrierGroup) (s v : State), Expected s p .barrierRelease q v →
    v.barriersOf (v.conn p.dconn.toNat).part q.group.toNat = [n] → q.gen.toNat = (v.sync n).gen → (v.sync n).sentUp = true →
    v.barrierGroup (v.sync n).grp = some b → v.barrierIndex b = some i →
    (v.sync n).arrivals - (v.sync n).need < (v.sync n).need →
    ∃ t, exec (.barrierRelease p) s = .next t ∧ (t.conn p.dconn.toNat).epsn = q.psn + 1
      ∧ (t.sync n).gen = ((v.sync n).gen + 1) % 2 ^ 16 ∧ (t.sync n).sentUp = false
      ∧ (t.sync n).arrivals = (v.sync n).arrivals - (v.sync n).need)
  ∧ (∀ (p q : Packet) (u s : State), dataKind p.kind = true → answerKind p.kind = false → s.admitPacket p = (u, some q) →
    q.psn = (u.conn p.dconn.toNat).epsn →
    ∃ t, exec (.placementTimeout p) s = .next t ∧ (t.conn p.dconn.toNat).epsn = q.psn ∧ t.mem = s.mem
      ∧ t.obj 0x4201 8 = counterAt 32 (u.obj 0x4201 8 + 1)
      ∧ ∃ a, Output.packet p.dconn.toNat a ∈ t.out ∧ a.kind = .nak ∧ a.psn = q.psn ∧ a.offset.toNat % 256 = 3)
  ∧ (∀ (c : ConnId) (p : Packet) (add : Nat) (s : State), (s.conn c).fetches = [p] → s.readState p = .serve add →
    s.sramError (p.raddr.toNat + add) p.len.toNat = false → s.bulkError (p.raddr.toNat + add) p.len.toNat = false →
    ∃ t, exec (.staleFetchServe c) s = .next t ∧ (t.conn c).fetches = [] ∧ t.mem = s.mem
      ∧ ∀ i, i < packetsOf p.len.toNat → ∃ a, Output.packet c a ∈ t.out ∧ a.kind = .readResp ∧ a.psn = p.psn + BitVec.ofNat 24 i)

/-! ### Update engines (R214–R224, R229) -/

/-- A microcode instruction writes its result to its destination register, 1 to 15, and nothing else; sources 16 to 31 are the
optimiser set's constants. One that names another destination while the phase runs is refused: the phase is faulted. -/
def Obligations.MicrocodeWritesRegister : Prop :=
  ∀ x ∈ ([(Instr.updAdd, fun a b _ => fadd a b), (.updSub, fun a b _ => fsub a b), (.updMul, fun a b _ => fmul a b),
      (.updDiv, fun a b _ => fdiv a b), (.updMin, fun a b _ => fmin a b), (.updMax, fun a b _ => fmax a b), (.updFma, ffma),
      (.updSqrt, fun a _ _ => fsqrt a), (.updAbs, fun a _ _ => fabs a), (.updNeg, fun a _ _ => fneg a),
      (.updLt, fun a b _ => if isNan32 a = false ∧ isNan32 b = false ∧ fcmp a b < 0 then 0x3F800000 else 0),
      (.updSel, fun a b c => canon32 (if c.toNat % 2 ^ 31 = 0 then b else a)),
      (.updNf, fun a _ _ => if nonFinite32 a then 0x3F800000 else 0)] :
        List ((QuadId → UpdOps → Instr) × (Word → Word → Word → Word))),
    ∀ (q : QuadId) (o : UpdOps) (s : State),
      (1 ≤ o.d.toNat → o.d.toNat ≤ 15 → ∃ t, exec (x.1 q o) s = .next t
        ∧ (t.engines.get q).regs.get o.d.toNat = x.2 (s.updReg q o.a.toNat) (s.updReg q o.b.toNat) (s.updReg q o.c.toNat)
        ∧ (∀ r, r ≠ o.d.toNat → (t.engines.get q).regs.get r = (s.engines.get q).regs.get r)
        ∧ (∀ e : Nat, e ≠ q → t.engines.get e = s.engines.get e) ∧ t = { s with engines := t.engines })
      ∧ (o.d.toNat = 0 ∨ 16 ≤ o.d.toNat → (s.part (s.engines.get q).part).upd = .running →
        ∃ t, exec (x.1 q o) s = .next t ∧ t.engines = s.engines ∧ t.pstate (s.engines.get q).part = 4)

/-- An update phase that is due reads its list whole and checks it before any record is written, and then runs; it completes when
every element is updated and every gathered tile is written. The model's own choices and readings: log 103. -/
def Obligations.UpdatePhaseStartsAndCompletes : Prop :=
  (∀ (p : PartId) (s : State), s.updateDue p = true → s.jobPart p = true → 0 < s.obj 0x3500 0x0B →
    s.inBoot p (s.obj 0x3500 0x0A) (64 * s.obj 0x3500 0x0B) = true →
    s.bulkReady (s.obj 0x3500 0x0A - bulkBase) (64 * s.obj 0x3500 0x0B) = true →
    s.bulkError (s.obj 0x3500 0x0A) (64 * s.obj 0x3500 0x0B) = false →
    (∀ w ∈ s.updWords p, s.updEntryOk p w = true) →
    ∃ t, exec (.updatePhaseStart p) s = .next t ∧ (t.part p).upd = .running ∧ (t.part p).updList = (s.updWords p).map updEntryOf
      ∧ (t.part p).updDone = .empty ∧ (t.part p).peerTiles = .empty ∧ (∀ q : Nat, q ≠ p → t.part q = s.part q) ∧ t.mem = s.mem
      ∧ t.cores = s.cores)
  ∧ (∀ (p : PartId) (w : Nat) (s : State), s.updateDue p = true → s.jobPart p = true → 0 < s.obj 0x3500 0x0B →
    s.inBoot p (s.obj 0x3500 0x0A) (64 * s.obj 0x3500 0x0B) = true →
    s.bulkReady (s.obj 0x3500 0x0A - bulkBase) (64 * s.obj 0x3500 0x0B) = true →
    s.bulkError (s.obj 0x3500 0x0A) (64 * s.obj 0x3500 0x0B) = false →
    w ∈ s.updWords p → s.updEntryOk p w = false →
    ∃ t, exec (.updatePhaseStart p) s = .next t ∧ t.pstate p = 4 ∧ t.mem = s.mem)
  ∧ (∀ (p : PartId) (s : State), s.pstate p = 3 → (s.part p).upd = .running → s.updateAll p = true →
    ∃ t, exec (.updatePhaseComplete p) s = .next t ∧ (t.part p).upd = .complete ∧ t.part p = { s.part p with upd := .complete }
      ∧ (∀ q : Nat, q ≠ p → t.part q = s.part q) ∧ t.cores = s.cores)

/-- An element of the list is updated once: its master record takes the optimiser's result on the gradient, computed and rounded
operation by operation (momentum SGD is written out), a non-finite gradient under SKIPNF leaves it as it was, and an element
outside the tensor takes +0. No capture is due, no redirect is in force, the tile has elements left, and the working copy lies
apart. A peer's tile of a tensor that is gathered is written into the half that is not LIVE, and noted. The model's own choices
and readings: log 82, 83. -/
def Obligations.UpdateWritesRecordsAndTiles : Prop :=
  (∀ (p : PartId) (n i : Nat) (u : UpdEntry) (s : State), (s.part p).updList[n]? = some u → (s.part p).upd = .running →
    i < 1024 * u.nblk → (s.part p).updDone.get (updKey n i) ≠ 1 → s.sramError (u.gbase + 4 * i) 4 = false →
    (∀ a, a < 3 → s.bulkError (recAddr u.mbase i a) 4 = false ∧ s.bulkReady (recAddr u.mbase i a - bulkBase) 4 = true) →
    s.redirectBusy (u.gbase + 4 * i) 4 = none → s.redirects = [] → s.job.capture = none → bulkBase ≤ u.mbase →
    u.mbase + 12288 * u.nblk ≤ hostBase → u.gbase < 0x80000000 →
    s.obj (0x3510 + u.opt) 1 < 3 → inCompressed s u.tensor.base = false →
    (s.setPart p { s.part p with updDone := (s.part p).updDone.set (updKey n i) 1 }).tileDone p n u ((u.first + i / 1024) / 32) = false →
    (let q := (s.wcBack u.tensor).elemPos (u.first + i / 1024) (i % 1024)
     ∀ v : State, ∀ x ∈ v.emitCells p u (s.wcBack u.tensor) q.1 q.2, x.1 < u.mbase ∨ u.mbase + 12288 * u.nblk ≤ x.1) →
    (let g : Word := BitVec.ofNat 32 (s.natAt (u.gbase + 4 * i) 4)
     let x := s.recAt u.mbase i
     let pos := u.tensor.elemPos (u.first + i / 1024) (i % 1024)
     let gs := fmul g (s.optReg u.opt 9)
     let gd := if u.decay then ffma (s.optReg u.opt 8) x.w gs else gs
     let m := ffma (s.optReg u.opt 3) x.m gd
     let r : ParamRec := if u.tensor.rows ≤ pos.1 ∨ u.tensor.cols ≤ pos.2 then ⟨0, 0, 0⟩
      else if nonFinite32 g ∧ u.skipnf then x
      else if s.obj (0x3510 + u.opt) 1 = 2 then ⟨fsub x.w (fmul (s.optReg u.opt 2) m), m, x.v⟩
      else s.optimise u.opt p u.decay gs x
     ∃ t, exec (.updateElement p n i) s = .next t ∧ t.recAt u.mbase i = r ∧ (t.part p).updDone.get (updKey n i) = 1
      ∧ (∀ j, j ≠ i → j < 1024 * u.nblk → t.recAt u.mbase j = s.recAt u.mbase j) ∧ t.cores = s.cores))
  ∧ (∀ (p : PartId) (n tile : Nat) (data : List Byte) (u : UpdEntry) (s : State), (s.part p).updList[n]? = some u →
    (s.part p).upd = .running → tile < (s.wcBack u.tensor).tiles → data.length = (s.wcBack u.tensor).tileSize →
    (s.gatherGroup p u).isSome = true → u.blocksOf tile = [] → inCompressed s u.tensor.base = false →
    u.tensor.f.fmt < 4 → bulkBase ≤ (s.wcBack u.tensor).base →
    ∃ t, exec (.workingCopyTile p n tile data) s = .next t ∧ (t.part p).peerTiles.get (updKey n tile) = 1
      ∧ RawWritten s t ((s.wcBack u.tensor).areaAddr 0 (tile * 32)) data ∧ t.cores = s.cores)

/-! ### Partitions and steps (R161–R168, R199–R212) -/

/-- The CONTROL values and QMASK move a partition between its states: a QMASK of free quadrants defines it, its cores handed over
and LIVE; an accepted image loads it; START runs it from FIRST_STEP; STOP is noted for the boundary; ABORT holds it; RESUME loads
it again; DISSOLVE, and a QMASK of 0, free it. The model's own choices and readings: log 38. -/
def Obligations.PartitionControlMovesStates : Prop :=
  (∀ (p : PartId) (v : Byte), Takes (fun m => .qmask m p v) (0x3100 + p) 1
    (fun u => u.pstate p ≤ 1 ∧ 0 < v.toNat ∧ v.toNat ≤ 15
      ∧ ∀ q, q < 4 → q ≠ p.val → ∀ b, b < 4 → ¬ (bitAt v.toNat b = true ∧ bitAt (u.obj (0x3100 + q) 1) b = true))
    (fun u t => t.obj (0x3100 + p) 1 = v.toNat ∧ t.pstate p = 1
      ∧ (∀ c, c < 16 → bitAt v.toNat (c / 4) = true → t.cstate c = 0 ∧ t.partOf c = some p.val ∧ (Quiet u → HandedOver t c))
      ∧ (∀ c ∈ u.coresOf p, bitAt v.toNat (c / 4) = false → t.cstate c = 3 ∧ t.partOf c = none ∧ (Quiet u → HandedOver t c))
      ∧ (Quiet u → ∀ c, c ∉ u.coresOf p → (c < 16 → bitAt v.toNat (c / 4) = false) → t.core c = u.core c)
      ∧ (∀ q, q < 4 → q ≠ p.val → t.pstate q = u.pstate q)))
  ∧ (∀ p : PartId, Takes (fun m => .qmask m p 0) (0x3100 + p) 1 (fun u => u.pstate p = 1) (fun u t => Dissolved u t p))
  ∧ (∀ p : PartId, Takes (fun m => .dissolve m p) (0x3100 + p) 4
    (fun u => u.pstate p = 1 ∨ u.pstate p = 2 ∨ u.pstate p = 4) (fun u t => Dissolved u t p))
  ∧ (∀ p : PartId, Takes (fun m => .load m p) (0x3100 + p) 4
    (fun u => (u.pstate p = 1 ∨ u.pstate p = 2) ∧ u.imageResult p = 0)
    (fun u t => t.pstate p = 2 ∧ t.obj (0x3100 + p) 5 = 0 ∧ (t.part p).imageAt = u.obj (0x3100 + p) 3
      ∧ (∀ c ∈ u.coresOf p, (t.core c).shadow = (t.core c).slots ∧ (t.core c).outst = []
          ∧ ∀ k, ((t.core c).ctxs.get k).live = false)
      ∧ (∀ q : Nat, q ≠ p → t.part q = u.part q) ∧ t.conns = u.conns ∧ t.engines = u.engines))
  ∧ (∀ p : PartId, Takes (fun m => .load m p) (0x3100 + p) 4
    (fun u => (u.pstate p = 1 ∨ u.pstate p = 2) ∧ u.imageResult p ≠ 0 ∧ u.imageResult p ≠ 7)
    (fun u t => SameObjs u t [(0x3100 + p, 5)] ∧ t.obj (0x3100 + p) 5 = u.imageResult p ∧ t = { u with objs := t.objs, out := t.out }))
  ∧ (∀ p : PartId, Takes (fun m => .start m p) (0x3100 + p) 4
    (fun u => u.pstate p = 2 ∧ u.jobPart p = false)
    (fun u t => t.pstate p = 3 ∧ t.obj (0x3100 + p) 6 = u.obj (0x3100 + p) 8 ∧ t.obj (0x3100 + p) 7 = 0
      ∧ (t.part p).inStep = false ∧ (t.part p).stepsRun = 0 ∧ (t.part p).stopReq = false
      ∧ (∀ c ∈ u.coresOf p, t.core c = { u.core c with pllStarting := !(u.core c).pll })
      ∧ (∀ c, c ∉ u.coresOf p → t.core c = u.core c) ∧ (∀ q : Nat, q ≠ p → t.part q = u.part q) ∧ t.mem = u.mem
      ∧ SameObjs u t [(0x3100 + p, 2), (0x3100 + p, 6), (0x3100 + p, 7), (0x2000, 1), (0x2400, 5)]))
  ∧ (∀ p : PartId, Takes (fun m => .stop m p) (0x3100 + p) 4
    (fun u => u.pstate p = 3)
    (fun u t => (t.part p).stopReq = true ∧ t = { u.setPart p { u.part p with stopReq := true } with out := t.out }))
  ∧ (∀ p : PartId, Takes (fun m => .abortPart m p) (0x3100 + p) 4
    (fun u => u.pstate p = 3)
    (fun u t => t.pstate p = 4 ∧ t.obj (0x3100 + p) 0x0E = 0 ∧ t.obj (0x3100 + p) 6 = (u.part p).lastStep
      ∧ (t.part p).inStep = false ∧ t.cores = u.cores ∧ t.mem = u.mem ∧ t.syncs = u.syncs
      ∧ SameObjs u t [(0x3100 + p, 2), (0x3100 + p, 6), (0x3100 + p, 0x0E), (0x2000, 1), (0x2400, 5)]))
  ∧ (∀ p : PartId, Takes (fun m => .resume m p) (0x3100 + p) 4
    (fun u => u.pstate p = 4 ∧ u.isSealed p = false)
    (fun u t => t.pstate p = 2 ∧ (∀ c ∈ u.coresOf p, (t.core c).outst = [] ∧ ∀ k, ((t.core c).ctxs.get k).live = false)
      ∧ (∀ n ∈ (u.part p).syncMap, (t.sync n).count = (t.sync n).init ∧ (t.sync n).gen = 0)
      ∧ (∀ q : Nat, q ≠ p → t.part q = u.part q) ∧ t.conns = u.conns ∧ t.engines = u.engines))

/-- A step starts with the slot tables of the image, sync objects at their initial counts and queue pointers at their starts, its
cores clocked; the record of unfenced writes is kept. It ends when every live context has completed END and the update is
complete: STEP advances by one, and a partition told to stop is LOADED. When STEP_TIMEOUT expires the TIMEOUT fault holds the
partition. The model's own choices and readings: log 64, 68. -/
def Obligations.StepsStartEndAndTimeOut : Prop :=
  (∀ (p : PartId) (s : State), s.pstate p = 3 → (s.part p).inStep = false →
    ∃ t, exec (.stepStart p) s = .next t ∧ (t.part p).inStep = true ∧ (t.part p).stepStart = s.now ∧ t.obj (0x3100 + p) 7 = 0
      ∧ (t.part p).upd = .idle ∧ t.pstate p = 3
      ∧ (∀ c ∈ s.liveCores p, (t.core c).clock = true ∧ (t.core c).outst = [] ∧ (s.carried c = none → (t.core c).slots = (s.core c).shadow)
          ∧ ∀ k, k < 4 → ((t.core c).ctxs.get k).ptr = 0 ∧ ((t.core c).ctxs.get k).live = true
              ∧ ((t.core c).ctxs.get k).ended = false
              ∧ ((t.core c).ctxs.get k).unfenced = ((s.core c).ctxs.get k).unfenced)
      ∧ (∀ n ∈ (s.part p).syncMap, (t.sync n).count = (s.sync n).init ∧ (t.sync n).gen = 0 ∧ (t.sync n).arrivals = 0)
      ∧ (∀ q : Nat, q ≠ p → t.part q = s.part q) ∧ t.mem = s.mem)
  ∧ (∀ (p : PartId) (s : State), s.pstate p = 3 → (s.part p).inStep = true → (s.part p).upd = .complete → s.stepEnded p = true →
    (∀ c ∈ s.coresOf p, s.cstate c ≠ 2) → p.val ∉ s.dutyDue → (s.part p).lowered = false →
    (s.part p).updated.Nodup → (∀ r ∈ (s.part p).updated, r < 64) →
    ((s.part p).stopReq = true ∨ s.obj (0x3100 + p) 9 ≠ 0 ∧ s.obj (0x3100 + p) 9 ≤ (s.part p).stepsRun + 1) →
    ∃ t, exec (.stepBoundary p) s = .next t ∧ t.pstate p = 2 ∧ (t.part p).lastStep = s.obj (0x3100 + p) 6
      ∧ t.obj (0x3100 + p) 6 = s.obj (0x3100 + p) 6 ∧ (t.part p).inStep = false
      ∧ (∀ r, r < 64 → r ∈ (s.part p).updated → (s.region r).cls = 1 → t.obj (0x3420 + r) 5 = 1 - s.obj (0x3420 + r) 5)
      ∧ (∀ r, r < 64 → r ∉ (s.part p).updated → t.obj (0x3420 + r) 5 = s.obj (0x3420 + r) 5) ∧ t.mem = s.mem)
  ∧ (∀ (p : PartId) (s : State), s.pstate p = 3 → (s.part p).inStep = true → (s.part p).upd = .complete → s.stepEnded p = true →
    (∀ c ∈ s.coresOf p, s.cstate c ≠ 2) → (s.part p).stopReq = false → s.obj (0x3100 + p) 9 = 0 →
    ∃ t, exec (.stepBoundary p) s = .next t ∧ t.pstate p = 3 ∧ t.obj (0x3100 + p) 6 = (s.obj (0x3100 + p) 6 + 1) % 2 ^ 32
      ∧ (t.part p).lastStep = s.obj (0x3100 + p) 6 ∧ (t.part p).inStep = false)
  ∧ (∀ (p : PartId) (c : Nat) (s : State), s.pstate p = 3 → (s.part p).inStep = true → s.obj (0x3100 + p) 0x0A ≠ 0 →
    (s.liveCores p).head? = some c → s.logRoom →
    ∃ t, exec (.stepTimeout p) s = .next t ∧ t.pstate p = 4 ∧ t.obj (0x3010 + c) 4 = fTimeout
      ∧ Logged s t c (0x0100 + fTimeout) (faultDetail fTimeout 0 0 0 (s.obj (0x3100 + p) 0x0A))
      ∧ t.cores = s.cores ∧ t.mem = s.mem)

/-- A HARDWARE fault of a LIVE core, and a command that stands for too long, fence the core: its commands go, its clock stops, its
vault reads as zero. The takeover core installs the redirect and arms contexts 4 to 7. A FENCED core marked for return is
REJOINING. The model's own choices and readings: log 63. -/
def Obligations.CoresFailAndReturn : Prop :=
  (∀ (core : CoreId) (ctx : CtxId) (cause : HwFault) (info : BitVec 64) (s : State), s.cstate core = 0 →
    ∃ t, exec (.coreFence core ctx cause info) s = .next t ∧ t.cstate core = 1 ∧ (t.core core).outst = [] ∧ (t.core core).clock = false
      ∧ (Quiet s → (∀ o, vaultOff ≤ o → o < scratchSize → t.rawByte (winOf core + o) = 0)
          ∧ ∀ o, o < vaultOff → t.rawByte (winOf core + o) = s.rawByte (winOf core + o)))
  ∧ (∀ (core : CoreId) (ctx : CtxId) (s : State), s.cstate core = 0 → s.ctxBusy core ctx = true →
    ∃ t, exec (.hung core ctx) s = .next t ∧ t.cstate core = 1 ∧ (t.core core).outst = [] ∧ (t.core core).clock = false
      ∧ (Quiet s → ∀ o, vaultOff ≤ o → o < scratchSize → t.rawByte (winOf core + o) = 0))
  ∧ (∀ (core : CoreId) (f p : Nat) (s : State), (s.core core).carries = some f → s.partOf core = some p → s.cstate core = 0 →
    s.redirects.any (fun r => r.failed == f) = false →
    ∃ t, exec (.rerunStart core) s = .next t
      ∧ t.redirects = ⟨f, core, (s.core f).wrLo, (s.core f).wrHi, (s.part p).rrOff⟩ :: s.redirects
      ∧ (∀ k, k < 4 → ((t.core core).ctxs.get (4 + k)).ptr = 0 ∧ ((t.core core).ctxs.get (4 + k)).live = (s.part p).inStep
          ∧ ((t.core core).ctxs.get (4 + k)).skip = ((s.core f).ctxs.get k).effects)
      ∧ t.obj (0x3100 + p) 0x0C = counterAt 32 (s.obj (0x3100 + p) 0x0C + 1)
      ∧ (∀ k, k < 4 → (t.core core).ctxs.get k = (s.core core).ctxs.get k) ∧ t.syncs = s.syncs)
  ∧ (∀ core : CoreId, Takes (fun m => .coreReturn m core 1) (0x3010 + core) 9
    (fun u => u.cstate core = 1)
    (fun u t => t.cstate core = 2 ∧ t.obj (0x3010 + core) 9 = 1 ∧ SameObjs u t [(0x3010 + core, 1), (0x3010 + core, 9)]
      ∧ t = { u with objs := t.objs, out := t.out }))
/-! ### Memory at rest (R127–R160) -/

/-- The holding buffer, wipes, zeroing, scrub, retention and the PLLs of the cores. A held word is read from the buffer and
written back unchanged; a wipe clears the vault and nothing else, is counted and logged; zeroing clears the whole scratchpad;
scrub counts what it finds; a quadrant is RETAINED and woken; a core's PLL locks and stops. The model's own choices and readings:
log 29, 39, 77. -/
def Obligations.ScratchpadsAtRest : Prop :=
  (∀ (core : CoreId) (word : WordIdx) (data : Granule) (s : State), s.Canonical → (s.core core).held.length < 2048 →
    ∃ t, exec (.hold core word data) s = .next t ∧ RawWritten s t (winOf core + 64 * word) (granuleBytes data)
      ∧ heldData (t.core core).held word = some data ∧ t.obj (0x3400 + core) 4 = saturateAt 32 (s.obj (0x3400 + core) 4 + 1)
      ∧ t.obj (0x3400 + core) 5 = (t.core core).held.length ∧ OnlyCore s t core ∧ t.parts = s.parts
      ∧ SameObjs s t [(0x3400 + core, 1), (0x3400 + core, 4), (0x3400 + core, 5), (0x3400 + core, 6)])
  ∧ (∀ (core : CoreId) (h : HeldWord) (rest : List HeldWord) (s : State), s.Canonical → (s.core core).held = h :: rest →
    ∃ t, exec (.holdWriteback core) s = .next t ∧ (t.core core).held = rest ∧ t.obj (0x3400 + core) 5 = rest.length
      ∧ t.obj (0x3400 + core) 1 = counterAt 64 (s.obj (0x3400 + core) 1 + 1) ∧ (∀ a, t.rawByte a = s.rawByte a) ∧ OnlyCore s t core
      ∧ SameObjs s t [(0x3400 + core, 1), (0x3400 + core, 5)])
  ∧ (∀ (core : CoreId) (tr : WipeTrigger) (s : State),
    ∃ t, exec (.vaultWipe core tr) s = .next t
      ∧ (∀ a, t.rawByte a = if winOf core + vaultOff ≤ a ∧ a < winOf core + scratchSize then 0 else s.rawByte a)
      ∧ (t.core core).outst = [] ∧ t.obj 0x34A0 (core + 1) = counterAt 32 (s.obj 0x34A0 (core + 1) + 1)
      ∧ t.obj 0x34A0 0x11 = wipeNum tr ∧ (s.logRoom → Logged s t core 0x0201 (wipeNum tr))
      ∧ SameObjs s t [(0x34A0, core + 1), (0x34A0, 0x11), (0x3400 + core, 5), (0x3490 + core / 4, 3), (0x3490 + core / 4, 4), (0x2400, 5)])
  ∧ (∀ (core : CoreId) (s : State),
    ∃ t, exec (.scratchpadZeroing core) s = .next t
      ∧ (∀ a, t.rawByte a = if winOf core ≤ a ∧ a < winOf core + scratchSize then 0 else s.rawByte a)
      ∧ SameObjs s t [(0x3400 + core, 5), (0x3490 + core / 4, 3), (0x3490 + core / 4, 4)] ∧ t.parts = s.parts)
  ∧ (∀ (core : CoreId) (found : EccFind) (s : State), s.obj (0x3490 + core / 4) 3 = 0 → s.obj 0x2101 3 ≠ 0 →
    ∃ t, exec (.sramScrub core found) s = .next t ∧ t.core core = { s.core core with scrub := ((s.core core).scrub + 1) % scratchWords }
      ∧ (found = .corrected → t.obj (0x3400 + core) 8 = saturateAt 32 (s.obj (0x3400 + core) 8 + 1) ∧ t.obj (0x3400 + core) 9 = s.obj (0x3400 + core) 9)
      ∧ (found = .uncorrectable → t.obj (0x3400 + core) 9 = saturateAt 32 (s.obj (0x3400 + core) 9 + 1)
          ∧ t.sramBad.get ((winOf core + 64 * (s.core core).scrub) / 32) = 1
          ∧ (s.logRoom → Logged s t (0x10 + core / 4) 0x0202 (winOf core + 64 * (s.core core).scrub + core * 2 ^ 44)))
      ∧ (∀ a, t.rawByte a = s.rawByte a) ∧ OnlyCore s t core
      ∧ SameObjs s t [(0x3400 + core, 8), (0x3400 + core, 9), (0x2101, 6), (0x2400, 5)])
  ∧ (∀ (q : QuadId) (s : State), s.mayRetain q = true →
    ∃ t, exec (.retentionEntry q) s = .next t ∧ t.obj (0x3490 + q) 3 = 1 ∧ t = { s with objs := t.objs } ∧ SameObjs s t [(0x3490 + q, 3)])
  ∧ (∀ (q : QuadId) (s : State), s.obj (0x3490 + q) 3 ≠ 0 →
    ∃ t, exec (.retentionWake q) s = .next t ∧ t.obj (0x3490 + q) 3 = 0
      ∧ t.obj (0x3490 + q) 4 = (if s.obj (0x3490 + q) 3 = 1 then counterAt 32 (s.obj (0x3490 + q) 4 + 1) else s.obj (0x3490 + q) 4)
      ∧ (∀ c, t.core c = if c / 4 = q then { s.core c with pllStarting := !(s.core c).pll } else s.core c)
      ∧ t = { s with objs := t.objs, cores := t.cores } ∧ SameObjs s t [(0x3490 + q, 3), (0x3490 + q, 4)])
  ∧ (∀ (core : CoreId) (s : State), (s.core core).pllStarting = true →
    ∃ t, exec (.pllLock core) s = .next t ∧ (t.core core).pll = true ∧ (t.core core).pllStarting = false
      ∧ ((t.core core).clock = true ↔ (s.core core).clock = true
          ∨ (s.cstate core = 0 ∧ (s.core core).gated = false ∧ ∃ p, s.partOf core = some p ∧ s.pstate p = 3))
      ∧ OnlyCore s t core ∧ t.mem = s.mem ∧ SameObjs s t [(0x2000, 1), (0x2400, 5)])
  ∧ (∀ (core : CoreId) (s : State), (s.core core).pll = true → (s.core core).clock = false →
    (∀ p, s.partOf core = some p → s.pstate p ≠ 3) →
    ∃ t, exec (.pllStop core) s = .next t ∧ t.core core = { s.core core with pll := false, gated := false } ∧ OnlyCore s t core
      ∧ t = { s with cores := t.cores })

/-- Bulk memory: a re-read delivers its data or marks the unit uncorrectable; zeroing fronts and region fronts pass 2 MiB each;
patrol scrub passes one unit and counts what it finds; a slab map and a region record take the value written, and what they give
away reads as zero. The model's own choices and readings: log 35, 109. -/
def Obligations.BulkMemoryAtRest : Prop :=
  (∀ (ch : ChanId) (unit : Nat) (p : PartId) (s : State), unit < 2 ^ 27 →
    ∃ t, exec (.bulkReread ch unit true p) s = .next t
      ∧ (∀ k, t.bulkBad.get k = if k = s.unitKey ch unit then 0 else s.bulkBad.get k)
      ∧ t.obj (0x3470 + ch) 4 = counterAt 32 (s.obj (0x3470 + ch) 4 + 1) ∧ t.obj (0x3480 + p) 6 = saturateAt 32 (s.obj (0x3480 + p) 6 + 1)
      ∧ t = { s with objs := t.objs, bulkBad := t.bulkBad } ∧ SameObjs s t [(0x3470 + ch, 4), (0x3480 + p, 6)])
  ∧ (∀ (ch : ChanId) (unit : Nat) (p : PartId) (s : State), unit < 2 ^ 27 →
    ∃ t, exec (.bulkReread ch unit false p) s = .next t
      ∧ (∀ k, t.bulkBad.get k = if k = s.unitKey ch unit then 1 else s.bulkBad.get k)
      ∧ t.obj (0x3470 + ch) 5 = counterAt 32 (s.obj (0x3470 + ch) 5 + 1) ∧ t.obj (0x3470 + ch) 7 = 64 * unit
      ∧ t.obj (0x3480 + p) 7 = saturateAt 32 (s.obj (0x3480 + p) 7 + 1) ∧ (s.logRoom → Logged s t (0x20 + ch) 0x0301 (64 * unit))
      ∧ t = { s.noting t with bulkBad := t.bulkBad }
      ∧ SameObjs s t [(0x3470 + ch, 4), (0x3470 + ch, 5), (0x3470 + ch, 7), (0x3480 + p, 7), (0x2400, 5)])
  ∧ (∀ (ch : ChanId) (s : State), s.bulkActive = true → s.obj 0x3460 (ch + 1) < 4096 →
    ∃ t, exec (.zeroing ch) s = .next t ∧ t.obj 0x3460 (ch + 1) = s.obj 0x3460 (ch + 1) + 1
      ∧ t.obj (0x3470 + ch) 2 = counterAt 64 (s.obj (0x3470 + ch) 2 + 0x200000)
      ∧ ((∀ k, k < 16 → t.obj 0x3460 (k + 1) = 4096) → t.obj 0x3460 0x11 = 1)
      ∧ ((∃ k, k < 16 ∧ t.obj 0x3460 (k + 1) ≠ 4096) → t.obj 0x3460 0x11 = s.obj 0x3460 0x11)
      ∧ t = { s with objs := t.objs } ∧ SameObjs s t [(0x3460, ch + 1), (0x3460, 0x11), (0x3470 + ch, 2)])
  ∧ (∀ (r : RegionId) (s : State), s.bulkActive = true → (∃ j ∈ s.zeroJobs, j.region = r) →
    ∃ t, exec (.regionZeroing r) s = .next t
      ∧ (∀ j ∈ s.zeroJobs, j.region = r → j.pos + 0x200000 < j.stop → { j with pos := j.pos + 0x200000 } ∈ t.zeroJobs)
      ∧ (∀ j ∈ t.zeroJobs, j.region ≠ r → j ∈ s.zeroJobs) ∧ (∀ j ∈ t.zeroJobs, j.region = r → ∃ i ∈ s.zeroJobs, j = { i with pos := i.pos + 0x200000 })
      ∧ ((∀ j ∈ s.zeroJobs, j.region = r → j.stop ≤ j.pos + 0x200000) → t.obj (0x3420 + r) 6 = if (s.region r).size = 0 then 0 else 2)
      ∧ t.mem = s.mem ∧ t.cores = s.cores)
  ∧ (∀ (ch : ChanId) (found : EccFind) (s : State), s.bulkActive = true → s.obj 0x3460 (ch + 1) ≠ 0 → s.obj 0x2102 3 ≠ 0 →
    (let top := s.obj 0x3460 (ch + 1) * 32768
     let u := if s.patrol.get ch < top then s.patrol.get ch else 0
     ∃ t, exec (.patrolScrub ch found) s = .next t ∧ t.patrol.get ch = (if u + 1 < top then u + 1 else 0)
      ∧ t.obj (0x3470 + ch) 1 = counterAt 64 (s.obj (0x3470 + ch) 1 + 64)
      ∧ (found = .corrected → t.obj (0x3470 + ch) 3 = counterAt 32 (s.obj (0x3470 + ch) 3 + 1))
      ∧ (found = .uncorrectable → t.bulkBad.get (s.unitKey ch u) = 1 ∧ t.obj (0x3470 + ch) 7 = 64 * u
          ∧ (s.logRoom → Logged s t (0x20 + ch) 0x0301 (64 * u + 2 ^ 44)))
      ∧ (found ≠ .uncorrectable → t.bulkBad = s.bulkBad) ∧ t.mem = s.mem ∧ t.cores = s.cores))
  ∧ (∀ v : Byte, Takes (fun m => .slabMapWrite m v) 0x3410 1
    (fun u => u.obj 0x2000 1 = 2 ∧ (∀ p, p < 4 → u.pstate p = 0) ∧ v.toNat % 4 = 0 ∧ 4 ≤ v.toNat ∧ v.toNat ≤ 128)
    (fun u t => t.obj 0x3410 1 = v.toNat ∧ t.obj 0x3410 2 = (128 - v.toNat) / 4
      ∧ (∀ a, t.rawByte a = if bulkBase ≤ a ∧ a < bulkBase + bulkSize then 0 else u.rawByte a)
      ∧ (∀ k, k < 16 → t.obj 0x3460 (k + 1) = 0) ∧ t.obj 0x3460 0x11 = 0 ∧ t.cores = u.cores ∧ t.parts = u.parts
      ∧ SameObjs u t ([(0x3410, 1), (0x3410, 2), (0x3460, 0x11)] ++ (List.range 16).map fun k => (0x3460, k + 1))))
  ∧ (∀ (r : RegionId) (f : RegionField) (v : BitVec 16), Takes (fun m => .regionWrite m r f v) (0x3420 + r) (regionSub f)
    (fun u => u.regionClosed (u.region r) (u.regionAsk (u.region r) f v.toNat) f = false
      ∧ ((u.region r).owner < 4 → u.pstate (u.region r).owner ≠ 3)
      ∧ ((u.regionAsk (u.region r) f v.toNat).owner < 4 → u.pstate (u.regionAsk (u.region r) f v.toNat).owner ≠ 3)
      ∧ (u.regionAsk (u.region r) f v.toNat).recordOk = true ∧ (u.regionAsk (u.region r) f v.toNat).slabsOk (u.obj 0x3410 1) = true
      ∧ u.regionClash r (u.regionAsk (u.region r) f v.toNat) = false
      ∧ ((u.regionAsk (u.region r) f v.toNat).xts = true → (u.regionAsk (u.region r) f v.toNat).owner < 4
          ∧ u.isSealed (u.regionAsk (u.region r) f v.toNat).owner = true))
    (fun u t =>
      let h := u.regionAsk (u.region r) f v.toNat
      let z := zeroedBy (u.region r) h
      t.region r = { h with live := if h.size = 0 ∨ h.cls ≠ 1 then 0 else h.live }
      ∧ (∀ a, t.rawByte a = if bulkBase + z.1 ≤ a ∧ a < bulkBase + z.1 + z.2 then 0 else u.rawByte a)
      ∧ (0 < z.2 → t.obj (0x3420 + r) 6 = 1 ∧ t.rings.get r = {})
      ∧ t.cores = u.cores ∧ t.parts = u.parts
      ∧ SameObjs u t [(0x3420 + r, 1), (0x3420 + r, 2), (0x3420 + r, 3), (0x3420 + r, 4), (0x3420 + r, 5), (0x3420 + r, 6)]))

/-! ### The dictionary and its locks (R343–R358, R371) -/

/-- A read of a register answers its value and clears one of class RC; a write that its object takes as it is writes the register
and no other; DESCRIBE answers type, access and size. A session opens in the lowest free place and ends by CLOSE or by silence,
when its owner's epoch advances; snapshots and segments expire. A FREE lock is acquired, an abandoned one is repaired, and the
holder releases it. Of two writes in one arbitration slot the one of the lower source is refused where its value differs. The
model's own choices and readings: log 100, 101, 102. -/
def Obligations.DictionaryAnswers : Prop :=
  (∀ (q : DictReq) (ty : ObjType) (acc : Access) (s : State), (let r := { q with op := 1 }
    PathOpen s r → specOf r.index.toNat r.subindex.toNat = .ok (ty, acc) → ty.size ≤ 8 →
    (s.heard r.master.path).readStop r.index.toNat r.subindex.toNat acc = none →
    r.len.toNat = ty.size → r.offset = 0 → r.rsv = 0 →
    ∃ t, exec (.dictRead q) s = .next t
      ∧ Responded t r stOk (bytesOf ty.size ((s.heard r.master.path).shown (reqMaster r) r.index.toNat r.subindex.toNat))
      ∧ (acc = .rc → t.obj r.index.toNat r.subindex.toNat = 0)
      ∧ SameObjs (s.heard r.master.path) t (if acc = .rc then [(r.index.toNat, r.subindex.toNat)] else [])
      ∧ OnlyPaths (s.heard r.master.path) t))
  ∧ (∀ (q : DictReq) (row : ObjRow) (s : State), (let r := { q with op := 2 }
    let i := r.index.toNat
    let k := r.subindex.toNat
    let u := s.heard r.master.path
    PathOpen s r → objDefined i = true → objRow i k = some row → row.ty.size ≤ 8 → row.acc ≠ .ro → row.acc ≠ .const → row.acc ≠ .rc →
    u.lockStatus (ownerId (reqMaster r)) i = none → r.data.length = row.ty.size → r.data.length ≤ lenMax r.master.path →
    valueOk row (natOf r.data) = true → writeAct (reqMaster r) i k (natOf r.data) r.data u = (u.setObj i k (natOf r.data), stOk) →
    r.offset = 0 → r.rsv = 0 →
    ∃ t, exec (.dictWrite q) s = .next t ∧ Responded t r stOk [] ∧ t.obj i k = natOf r.data ∧ SameObjs u t [(i, k)] ∧ OnlyPaths u t))
  ∧ (∀ (q : DictReq) (ty : ObjType) (acc : Access) (s : State), (let r := { q with op := 3 }
    PathOpen s r → specOf r.index.toNat r.subindex.toNat = .ok (ty, acc) → r.len.toNat ≤ lenMax r.master.path → r.rsv = 0 →
    ∃ t, exec (.describe q) s = .next t
      ∧ Responded t r stOk (bytesOf 8 ((if r.subindex.toNat = 0 ∧ (objRow r.index.toNat 0).isNone then 0x0D else ty.code)
          + acc.code * 2 ^ 8 + ty.size * 2 ^ 32))
      ∧ SameObjs (s.heard r.master.path) t [] ∧ OnlyPaths (s.heard r.master.path) t))
  ∧ (∀ (q : DictReq) (src : BitVec 128) (n : Nat) (s : State), q.master.path = .mgmt → s.dictUp .mgmt = true → s.allowed src.toNat = true →
    1 ≤ n → n ≤ 16 → (s.sessions.get n).isOpen = false → (∀ k, 1 ≤ k → k < n → (s.sessions.get k).isOpen = true) →
    ∃ t, exec (.openSession q src) s = .next t ∧ (t.sessions.get n).isOpen = true ∧ (t.sessions.get n).kept = []
      ∧ t.out.head? = some (.resp ⟨.mgmt, BitVec.ofNat 14 n⟩ (answer { q with op := 0x10, session := BitVec.ofNat 8 n } stOk []))
      ∧ (∀ k, k ≠ n → t.sessions.get k = s.sessions.get k) ∧ t.obj 0x1110 0x0A = s.obj 0x1110 0x0A + 1
      ∧ SameObjs s t [(0x1110, 0x0A)] ∧ t = { s with objs := t.objs, sessions := t.sessions, out := t.out })
  ∧ (∀ (q : DictReq) (src : BitVec 128) (s : State), q.master.path = .mgmt → s.dictUp .mgmt = true → s.allowed src.toNat = false →
    ∃ t, exec (.openSession q src) s = .next t ∧ t.obj 0x1110 0x0B = counterAt 32 (s.obj 0x1110 0x0B + 1)
      ∧ SameObjs s t [(0x1110, 0x0B)] ∧ t = { s with objs := t.objs })
  ∧ (∀ (q : DictReq) (s : State), q.master.path = .mgmt → s.dictUp .mgmt = true → (s.sessions.get q.session.toNat).isOpen = true →
    (s.sessions.get q.session.toNat).kept.find? (fun a => a.req.tag == q.tag) = none →
    ∃ t, exec (.closeSession q) s = .next t ∧ t.sessions.get q.session.toNat = {}
      ∧ t.epochOf (q.session.toNat + 2 * 2 ^ 14) = s.epochOf (q.session.toNat + 2 * 2 ^ 14) + 1
      ∧ t.obj 0x1110 0x0A = s.obj 0x1110 0x0A - 1 ∧ Responded t { q with op := 0x11 } stOk []
      ∧ (∀ k, k ≠ q.session.toNat → t.sessions.get k = s.sessions.get k) ∧ t.mem = s.mem ∧ t.cores = s.cores)
  ∧ (∀ (n : SessionId) (s : State), (s.sessions.get (n + 1)).isOpen = true →
    ∃ t, exec (.sessionTimeout n) s = .next t ∧ t.sessions.get (n + 1) = {}
      ∧ t.epochOf (n + 1 + 2 * 2 ^ 14) = s.epochOf (n + 1 + 2 * 2 ^ 14) + 1 ∧ t.obj 0x1110 0x0A = s.obj 0x1110 0x0A - 1
      ∧ (∀ k : Nat, k ≠ n + 1 → t.sessions.get k = s.sessions.get k) ∧ t.mem = s.mem ∧ t.cores = s.cores)
  ∧ (∀ (m : Master) (s : State), ∃ t, exec (.snapshotTimeout m) s = .next t ∧ (t.masters.get (ownerId m)).snap = none
      ∧ t.masters.get (ownerId m) = { s.masters.get (ownerId m) with snap := none }
      ∧ (∀ k, k ≠ ownerId m → t.masters.get k = s.masters.get k) ∧ t = { s with masters := t.masters })
  ∧ (∀ (m : Master) (s : State), ∃ t, exec (.segmentTimeout m) s = .next t
      ∧ t.masters.get (ownerId m) = { s.masters.get (ownerId m) with seg := none }
      ∧ (∀ k, k ≠ ownerId m → t.masters.get k = s.masters.get k) ∧ t = { s with masters := t.masters })
  ∧ (∀ n : LockId, Takes (fun m => .acquire m n) (0x1180 + n) 1 (fun u => u.obj (0x1180 + n) 2 = 0)
    (fun u t => t.obj (0x1180 + n) 2 = 1 ∧ SameObjs u t [(0x1180 + n, 2), (0x1180 + n, 3), (0x1180 + n, 4)]
      ∧ t = { u with objs := t.objs, out := t.out }))
  ∧ (∀ (n : LockId) (m : Master) (s : State), Accepts s m (0x1180 + n) 1 → (s.heard m.path).obj (0x1180 + n) 2 = 0 ∨ (s.heard m.path).obj (0x1180 + n) 2 = 2 →
    ∃ t, exec (.acquire m n) s = .next t ∧ t.holdsLock (ownerId m) n = true
      ∧ t.obj (0x1180 + n) 4 = ((s.heard m.path).epochOf (ownerId m)).toNat
      ∧ ((s.heard m.path).obj (0x1180 + n) 2 = 2 → t.obj (0x1180 + n) 2 = 3 ∧ Answered t m stAbandoned))
  ∧ (∀ (n : LockId) (m : Master) (s : State), Accepts s m (0x1180 + n) 1 → (s.heard m.path).holdsLock (ownerId m) n = true →
    ∃ t, exec (.release m n) s = .next t ∧ Answered t m stOk ∧ t.obj (0x1180 + n) 2 = 0 ∧ t.obj (0x1180 + n) 3 = 0
      ∧ SameObjs (s.heard m.path) t [(0x1180 + n, 2), (0x1180 + n, 3), (0x1180 + n, 4)])
  ∧ (∀ (n : LockId) (m : Master) (s : State), Accepts s m (0x1180 + n) 1 → (s.heard m.path).holdsLock (ownerId m) n = true →
    (s.heard m.path).obj (0x1180 + n) 2 = 3 →
    ∃ t, exec (.repaired m n) s = .next t ∧ Answered t m stOk ∧ t.obj (0x1180 + n) 2 = 1 ∧ SameObjs (s.heard m.path) t [(0x1180 + n, 2)])
  ∧ (∀ (a b : DictReq) (row : ObjRow) (s : State), (let i := a.index.toNat
    let k := a.subindex.toNat
    a.master.path = .firmware → b.master.path = .pcie → a.op = 2 → b.op = 2 → b.index = a.index → b.subindex = a.subindex →
    s.dictUp .firmware = true → s.dictUp .pcie = true → s.recovering = false → s.mbWaiting = none →
    objDefined i = true → objRow i k = some row → row.ty.size ≤ 8 → row.acc ≠ .ro → row.acc ≠ .const → row.acc ≠ .rc → lockOf i = none →
    (∀ r ∈ [a, b], r.data.length = row.ty.size ∧ valueOk row (natOf r.data) = true ∧ r.offset = 0 ∧ r.rsv = 0
      ∧ ∀ u, writeAct r.master i k (natOf r.data) r.data u = (u.setObj i k (natOf r.data), stOk)) →
    ∃ t, exec (.arbitrationSlot [b, a]) s = .next t ∧ t.obj i k = natOf a.data ∧ SameObjs s t [(i, k)]
      ∧ Responded t b (if b.data = a.data then stOk else stSuperseded) [] ∧ (.resp a.master (answer a stOk [])) ∈ t.out ∧ OnlyPaths s t))
/-! ### The chain and the PCIe link (R359–R377) -/

/-- Enumeration takes slot and pod and raises DAISY_OUT; a rate is selected and applied; a break, a stuck or shorted pair, a retry
and a restored frame are told from STATE and the log. The model's own choices and readings: log 98. -/
def Obligations.ChainFollowsPair : Prop :=
  (∀ (slot pod : Byte) (s : State), s.chainUp = true → s.hasSlot = false → slot.toNat ≤ 63 → pod.toNat ≤ 191 →
    ∃ t, exec (.assign slot pod 0 true false) s = .next t ∧ t.obj 0x1100 1 = slot.toNat ∧ t.obj 0x1100 2 = pod.toNat
      ∧ t.obj 0x1100 3 = pod.toNat * 64 + slot.toNat ∧ t.obj 0x4200 1 = pod.toNat * 64 + slot.toNat ∧ t.chain.outDue = true
      ∧ t.chain.daisyOut = s.chain.daisyOut
      ∧ t.out.head? = some (.assignReply slot.toNat (pod.toNat * 64 + slot.toNat) (s.obj 0x1000 1)) ∧ t.mem = s.mem ∧ t.cores = s.cores)
  ∧ (∀ s : State, s.chain.outDue = true → ∃ t, exec .daisyOutRise s = .next t
      ∧ t = { s with chain := { s.chain with outDue := false, daisyOut := true } })
  ∧ (∀ (code : Byte) (inv : Bool) (s : State), s.chainUp = true → code.toNat ≤ 3 →
      ∃ t, exec (.rate code true inv) s = .next t ∧ t.chain.rateNext = some code.toNat ∧ t.obj 0x1100 5 = s.obj 0x1100 5 ∧ t.mem = s.mem)
  ∧ (∀ (r : Nat) (s : State), s.chain.rateNext = some r → ∃ t, exec .rateApply s = .next t ∧ t.obj 0x1100 5 = r ∧ t.chain.rateNext = none
      ∧ SameObjs s t [(0x1100, 5)] ∧ t = { s with objs := t.objs, chain := t.chain })
  ∧ (∀ s : State, s.chainUp = true → ∃ t, exec .idleGap s = .next t ∧ t.obj 0x1100 0x0B = counterAt 32 (s.obj 0x1100 0x0B + 1)
      ∧ SameObjs s t [(0x1100, 0x0B)] ∧ t = { s with objs := t.objs })
  ∧ (∀ (n : Nat) (s : State), s.chainUp = true → 2 ≤ n → s.hasSlot = true → ∃ t, exec (.chainBreak n) s = .next t ∧ t.obj 0x1100 6 = 1
      ∧ (s.logRoom → Logged s t 0x70 0x0B02 n) ∧ SameObjs s t [(0x1100, 6), (0x2400, 5)] ∧ t = { s.noting t with chain := t.chain })
  ∧ (∀ (k : Fin 4) (s : State), s.chainUp = true → s.hasSlot = true → ∃ t, exec (.stuck k) s = .next t ∧ t.obj 0x1100 6 = 2
      ∧ t.obj 0x1100 7 = k ∧ t.chain.driverOn = false ∧ t.epochOf chainOwner = s.epochOf chainOwner + 1
      ∧ (s.logRoom → Logged s t 0x70 0x0B03 0) ∧ t.mem = s.mem ∧ t.cores = s.cores)
  ∧ (∀ (k : Fin 4) (s : State), s.chainUp = true → ∃ t, exec (.shortFault k) s = .next t ∧ t.obj 0x1100 6 = 2 ∧ t.obj 0x1100 7 = k
      ∧ t.chain.driverOn = false ∧ t.chain.biasOn = false ∧ t.epochOf chainOwner = s.epochOf chainOwner + 1
      ∧ (s.logRoom → Logged s t 0x70 0x0B04 k) ∧ t.mem = s.mem ∧ t.cores = s.cores)
  ∧ (∀ (idle : Bool) (s : State), s.obj 0x1100 6 = 2 → s.dictUp .chain = true → ∃ t, exec (.retry idle) s = .next t
      ∧ t.chain.attempts = s.chain.attempts + 1 ∧ t.chain.biasOn = (s.chain.biasOn || idle) ∧ t.chain.retryIdle = idle
      ∧ t.obj 0x1100 0x0D = counterAt 32 (s.obj 0x1100 0x0D + 1) ∧ t.obj 0x1100 6 = 2
      ∧ SameObjs s t [(0x1100, 0x0D), (0x2400, 5)] ∧ t = { s.noting t with chain := t.chain })
  ∧ (∀ (sec : Nat) (s : State), s.obj 0x1100 6 = 2 → s.chain.retryIdle = true → s.dictUp .chain = true →
    ∃ t, exec (.restored sec) s = .next t ∧ t.obj 0x1100 6 = 0 ∧ t.chain.driverOn = true ∧ t.chain.biasOn = true
      ∧ (s.logRoom → Logged s t 0x70 0x0B07 sec) ∧ t.mem = s.mem ∧ t.cores = s.cores)
  ∧ (∀ (sec : Nat) (s : State), s.dictUp .chain = true → s.hasSlot = true → s.obj 0x1100 8 ≠ 0 → s.chain.silentLogged = false →
    ∃ t, exec (.silent sec) s = .next t ∧ t.chain.silentLogged = true ∧ (s.logRoom → Logged s t 0x70 0x0B08 sec)
      ∧ SameObjs s t [(0x2400, 5)] ∧ t = { s.noting t with chain := t.chain })

/-- The server submits its request, moves the window and writes MB_REQ; the window reads and writes device memory granule by
granule; an outbound access goes out through its window and is counted; a link reset aborts the mailbox and advances the PCIe
epoch, a link up serves again. The model's own choices and readings: log 4, 58, 104. -/
def Obligations.ServerReachesDevice : Prop :=
  (∀ s : State, s.serverUp = true → s.mbState ≠ .busy → s.dictUp .pcie = true →
    ∃ t, exec .go s = .next t ∧ t = { s with mbState := .busy, mbWaiting := some s.mbReq })
  ∧ (∀ (off : Nat) (data : List Byte) (s : State), s.serverUp = true → s.mbState ≠ .busy → 0 < data.length → off + data.length ≤ 0x1000 →
    ∃ t, exec (.bar2Write off data) s = .next t
      ∧ (∀ i, t.bar2.get i = if off ≤ i ∧ i < off + data.length then data.getD (i - off) 0 else s.bar2.get i)
      ∧ t = { s with bar2 := t.bar2 })
  ∧ (∀ (data : List Byte) (s : State), s.serverUp = true → data.length = 8 → fieldAt (natOf data) 0 26 = 0 → fieldAt (natOf data) 44 20 = 0 →
    ∃ t, exec (.bar2Write 0x2008 data) s = .next t ∧ t.winBase.toNat * 2 ^ 26 = natOf data ∧ t = { s with winBase := t.winBase })
  ∧ (∀ (x n : Nat) (s : State), s.serverUp = true → 0 < n → n ≤ 64 - x % 64 → s.winSee false (s.winAddr x) n = .open →
    s.sramError (s.winAddr x) n = false →
    ∃ t, exec (.windowRead x n) s = .next t ∧ t.out.head? = some (.windowData x (s.bytesAt (s.winAddr x) n)) ∧ t.mem = s.mem
      ∧ t.parts = s.parts)
  ∧ (∀ (x : Nat) (data : List Byte) (s : State), s.Canonical → s.serverUp = true → 0 < data.length → data.length ≤ 64 - x % 64 →
    s.winSee true (s.winAddr x) data.length = .open → s.sramPartial (s.winAddr x) data.length = false →
    redirectBy s.redirects (s.winAddr x) % 0x8000000 + data.length ≤ 0x8000000 →
    ∃ t, exec (.windowWrite x data) s = .next t ∧ RawWritten s t (redirectBy s.redirects (s.winAddr x)) data ∧ t.parts = s.parts
      ∧ t.syncs = s.syncs)
  ∧ (∀ (p : PartId) (a : Nat) (bs : List Byte) (len : Nat) (s : State), s.isSealed p = false → 0 < bs.length →
    s.hostReach p a bs.length = true → bs.length ≤ hostSize - (a - hostBase) % hostSize →
    ∃ t, exec (.hostWindowAccess p a (some bs) len) s = .next t ∧ t.out = .hostWrite (s.hostAddr a) bs :: s.out
      ∧ t.obj (0x1140 + (a - hostBase) / hostSize) 4 = counterAt 64 (s.obj (0x1140 + (a - hostBase) / hostSize) 4 + bs.length)
      ∧ SameObjs s t [(0x1140 + (a - hostBase) / hostSize, 4)] ∧ t = { s with objs := t.objs, out := t.out })
  ∧ (∀ (p : PartId) (a len : Nat) (s : State), s.isSealed p = false → 0 < len → s.hostReach p a len = true →
    len ≤ hostSize - (a - hostBase) % hostSize →
    ∃ t, exec (.hostWindowAccess p a none len) s = .next t ∧ t.out = .hostRead (s.hostAddr a) len :: s.out
      ∧ t.obj (0x1140 + (a - hostBase) / hostSize) 3 = counterAt 64 (s.obj (0x1140 + (a - hostBase) / hostSize) 3 + len)
      ∧ SameObjs s t [(0x1140 + (a - hostBase) / hostSize, 3)]
      ∧ t = { s with objs := t.objs, out := t.out, freeCtr := t.freeCtr })
  ∧ (∀ (c : PcieCause) (s : State), s.serverUp = true → ∃ t, exec (.pcieReset c) s = .next t ∧ t.winBase = 0x4000 ∧ t.mbIrq = false
      ∧ (t.serverUp = true ↔ c = .flr) ∧ t.epochOf pcieOwner = s.epochOf pcieOwner + 1
      ∧ t.mbState = (if s.mbState = .busy then .aborted else s.mbState) ∧ (s.logRoom → Logged s t 0x71 0x0B10 (pcieCauseNum c))
      ∧ t.mem = s.mem ∧ t.cores = s.cores ∧ t.parts = s.parts)
  ∧ (∀ (w g : Byte) (s : State), s.clockRuns = true → s.serverUp = false → ∃ t, exec (.pcieLinkUp w g) s = .next t ∧ t.serverUp = true
      ∧ t.obj 0x5030 1 = w.toNat ∧ t.obj 0x5030 2 = g.toNat ∧ SameObjs s t [(0x5030, 1), (0x5030, 2)]
      ∧ t = { s with objs := t.objs, serverUp := true })

/-! ### The training job (R234–R247) -/

/-- Heartbeats are noted and their loss declared at the lead; the deputy takes the lead over; a failure report fails the rank, or
holds the job where a repeat would meet the fault again; a retired device dissolves its partition and rests; a spare takes the
failed rank; a restored rank is noted; digests of a step are judged. The model's own choices and readings: log 50, 95, 96. -/
def Obligations.JobFollowsMembers : Prop :=
  (∀ (n : NodeId) (s : State), s.spDown0 = false → s.inJob = true → n.toNat ≠ s.ownNode →
    ∃ t, exec (.heartbeat n) s = .next t ∧ t.job.missed.get n.toNat = 0 ∧ (∀ k, k ≠ n.toNat → t.job.missed.get k = s.job.missed.get k)
      ∧ t = { s with job := { s.job with missed := t.job.missed } })
  ∧ (∀ (n : NodeId) (s : State), s.spDown0 = false → s.obj 0x3500 2 = 2 → n.toNat = s.ownNode →
    ∃ t, exec (.heartbeat n) s = .next t ∧ t = s.emit (.jobMessage (s.obj 0x3500 3) 0x405 s.ownRank))
  ∧ (∀ (n : NodeId) (r : Nat) (s : State), s.spDown0 = false → s.isLead = true → s.rankOfNode n.toNat = some r → r ≠ s.ownRank →
    s.recoveringJob = false → (∀ f ∈ s.job.failed, f.1 ≠ r) →
    ∃ t, exec (.heartbeatLoss n) s = .next t ∧ t.job.missed.get n.toNat = 3 ∧ t.job.failed = s.job.failed ++ [(r, s.nodeOfRank r)]
      ∧ t = { s with job := t.job })
  ∧ (∀ (old : Nat) (s : State), s.rankOfNode (s.obj 0x3500 3) = some old → s.obj 0x3500 2 = 2 → s.deputyRank old = s.ownRank →
    old ≠ s.ownRank → s.recoveringJob = false → (∀ f ∈ s.job.failed, f.1 ≠ old) →
    ∃ t, exec (.deputyTakeover false) s = .next t ∧ t.obj 0x3500 2 = 1 ∧ t.obj 0x3500 3 = s.ownNode ∧ (old, s.nodeOfRank old) ∈ t.job.failed
      ∧ t.member = some (BitVec.ofNat 32 (s.obj 0x3500 1), 1) ∧ SameObjs s t [(0x3500, 2), (0x3500, 3)]
      ∧ t = { s with objs := t.objs, job := t.job, member := t.member, out := t.out })
  ∧ (∀ (r : Nat) (c : FailCause) (s : State), s.isLead = true → r < s.jobReps → c = .programFault ∨ c = .updateParameter →
    ∃ t, exec (.failureReport r c) s = .next t ∧ t.obj 0x3500 0x13 = 0 ∧ (s.pstate s.jobP = 3 → t.pstate s.jobP = 4)
      ∧ t.job = s.job ∧ t.cores = s.cores ∧ t.mem = s.mem)
  ∧ (∀ (r : Nat) (c : FailCause) (s : State), s.isLead = true → r < s.jobReps → c ≠ .programFault → c ≠ .updateParameter → r ≠ s.ownRank →
    s.recoveringJob = false → (∀ f ∈ s.job.failed, f.1 ≠ r) →
    ∃ t, exec (.failureReport r c) s = .next t ∧ t.job.failed = s.job.failed ++ [(r, s.nodeOfRank r)] ∧ t = { s with job := t.job })
  ∧ (∀ s : State, s.clockRuns = true → s.jobP < 4 →
    ∃ t, exec .retire s = .next t ∧ t.pstate s.jobP = 0 ∧ t.obj 0x2000 1 = 1 ∧ t.job.retired = true
      ∧ (∀ p, p < 4 → t.pstate p ≠ 3)
      ∧ (s.obj 0x2000 1 ≠ 1 → ∀ c, c < 16 → (t.core c).clock = false))
  ∧ (∀ (r : Nat) (s : State), s.obj 0x3500 2 = 3 →
    ∃ t, exec (.spareTakeover r) s = .next t ∧ t.obj 0x3500 2 = 2 ∧ t.obj 0x3500 4 = r ∧ t.obj 0x3500 0x13 = 2
      ∧ t.member = some (BitVec.ofNat 32 (s.obj 0x3500 1), 2) ∧ SameObjs s t [(0x3500, 2), (0x3500, 4), (0x3500, 0x13)]
      ∧ t = { s with objs := t.objs, member := t.member })
  ∧ (∀ (r : Nat) (b : Bool) (s : State), r ≠ s.ownRank → s.isLead = true → s.recoveringJob = true → r < s.jobReps →
    ∃ t, exec (.restore r b) s = .next t ∧ r ∈ t.job.restored ∧ (∀ k, k ≠ r → (k ∈ t.job.restored ↔ k ∈ s.job.restored))
      ∧ t = { s with job := { s.job with restored := t.job.restored } })
  ∧ (∀ (k : Bool) (s : State), s.inJob = true → s.recoveringJob = true → s.pstate s.jobP ≠ 3 → (∀ w ∈ s.updWords s.jobP, s.updEntryOk s.jobP w = true) →
    (k = true ↔ s.job.home1.st = .complete ∧ s.job.home1.step.toNat = s.obj 0x3500 0x14) → s.obj 0x3500 0x14 < 2 ^ 32 →
    (s.job.home k).st = .complete → (s.job.home k).step.toNat = s.obj 0x3500 0x14 → s.homeOk k = true →
    s.slotDigest (s.homeAddr k) = (s.job.home k).digest →
    ∃ t, exec (.restore s.ownRank false) s = .next t ∧ s.ownRank ∈ t.job.restored ∧ (t.part s.jobP).upd = .running
      ∧ (t.part s.jobP).updList = s.jobList)
  ∧ (∀ (r : Nat) (step : Word) (wc d : BitVec 64) (s : State), s.isLead = true → r < s.jobReps → s.replicated = false →
    s.obj (0x3050 + s.jobP) 1 ≠ 1 →
    ∃ t, exec (.digestReport r step wc d) s = .next t ∧ (r, wc, d) ∈ t.job.digests ∧ t.job.digStep = step
      ∧ (∀ x ∈ t.job.digests, x.1 = r → x = (r, wc, d)) ∧ t = { s with job := t.job })

/-- A buddy takes a ward's checkpoint into the slot that it may overwrite, records in order, and completes it when the digests
agree; the owner streams its home slot; the lead makes a checkpoint job-complete with the last report. The model's own choices and
readings: log 51, 52, 96. -/
def Obligations.CheckpointsReachBuddy : Prop :=
  (∀ (k : Bool) (step job : Word) (rank : BitVec 14) (len : BitVec 64) (s : State), s.wardKept k = false → s.wardOk len.toNat = true →
    (let x : CkSlot := { st := .filling, step := step, rank := rank.toNat, jobId := job, len := len.toNat }
     ∃ t, exec (.ckptBegin k step job rank len) s = .next t ∧ t.job.ward k = x ∧ t.job.ward (!k) = s.job.ward (!k)
      ∧ RawWritten s t (s.wardAddr k) (slotHeader x) ∧ t.cores = s.cores ∧ t.parts = s.parts))
  ∧ (∀ (k : Bool) (step job : Word) (rank : BitVec 14) (len : BitVec 64) (s : State), s.wardKept k = true ∨ s.wardOk len.toNat = false →
    ∃ t, exec (.ckptBegin k step job rank len) s = .next t ∧ t = s.emit (.ckptAnswer false step))
  ∧ (∀ (k : Bool) (off : Nat) (data : List Byte) (s : State), (s.job.ward k).st = .filling → off = 64 + (s.job.ward k).got →
    (s.job.ward k).got + data.length ≤ (s.job.ward k).len → s.wardOk (s.job.ward k).len = true →
    s.bulkReady (s.wardAddr k + off - bulkBase) data.length = true →
    ∃ t, exec (.ckptRecords k off data) s = .next t ∧ RawWritten s t (s.wardAddr k + off) data
      ∧ t.job.ward k = { s.job.ward k with got := (s.job.ward k).got + data.length } ∧ t.job.ward (!k) = s.job.ward (!k)
      ∧ t.cores = s.cores ∧ t.parts = s.parts)
  ∧ (∀ (k : Bool) (d : BitVec 64) (s : State), (s.job.ward k).st = .filling →
    (let good := decide ((s.job.ward k).got = (s.job.ward k).len) && decide (s.slotDigest (s.wardAddr k) = d)
     ∃ t, exec (.ckptEnd k d) s = .next t ∧ (t.job.ward k).st = (if good then .complete else .empty)
      ∧ t.out.head? = some (.ckptAnswer good (s.job.ward k).step) ∧ t.job.ward (!k) = s.job.ward (!k)
      ∧ (s.wardOk (s.job.ward k).len = true → RawWritten s t (s.wardAddr k) (slotHeader (t.job.ward k))) ∧ t.cores = s.cores))
  ∧ (∀ (n m : Nat) (k : Bool) (s : State), s.job.stream = some (k, m) → 0 < n → 0 < m → m ≤ 64 + (s.job.home k).len → s.suspended 3 = false →
    s.homeOk k = true →
    (let off := 64 + (s.job.home k).len - m
     ∃ t, exec (.checkpointStream n) s = .next t ∧ t.job.stream = some (k, m - min n m)
      ∧ .ckptBytes k off (s.bytesAt (s.homeAddr k + off) (min n m)) ∈ t.out ∧ t.obj 0x3520 4 = (off + min n m) / 65536
      ∧ t.mem = s.mem ∧ t.cores = s.cores ∧ t.parts = s.parts))
  ∧ (∀ (r : Nat) (step : Word) (s : State), s.isLead = true → r < s.jobReps → r ≠ s.ownRank → step = s.job.capStep →
    (∀ k, k < s.jobReps → k = r ∨ k ∈ s.job.reported) →
    ∃ t, exec (.ckptComplete r step) s = .next t ∧ t.obj 0x3500 0x14 = step.toNat ∧ t.job.jobDone = some step ∧ t.job.reported = []
      ∧ SameObjs s t [(0x3500, 0x14)] ∧ t = { s with objs := t.objs, job := t.job, out := t.out })
  ∧ (∀ (r : Nat) (step : Word) (s : State), s.obj 0x3500 2 = 2 → r < s.jobReps → r ≠ s.ownRank →
    ∃ t, exec (.ckptComplete r step) s = .next t ∧ t.obj 0x3500 0x14 = step.toNat ∧ t.job.jobDone = some step
      ∧ SameObjs s t [(0x3500, 0x14)] ∧ t = { s with objs := t.objs, job := t.job })

/-! ### Ports, frames and streams (R248–R275) -/

/-- A port is enabled and disabled with its lanes; a trained lane becomes ready, joins at a marker boundary, leaves and returns;
the width of a link follows its lanes in service. The model's own choices and readings: log 29, 41. -/
def Obligations.PortsFollowLanes : Prop :=
  (∀ port : PortId, Takes (fun m => .portEnable m port 1) (0x4000 + port) 2
    (fun u => u.mode port ≠ 0 ∧ 2 ≤ u.obj 0x2000 1 ∧ u.obj 0x2000 5 = 0)
    (fun u t => t.obj (0x4000 + port) 2 = 1 ∧ t.lasers.get port = 1
      ∧ (∀ k ∈ portFour port, t.laneSt k = if u.laneSt k = 0 ∧ u.obj (0x4020 + k) 2 = 1 ∧ u.obj (0x5000 + k) 1 = 0 then 1 else u.laneSt k)
      ∧ SameObjs u t ([(0x4000 + port.val, 2)] ++ (portFour port).map fun k => (0x4020 + k, 1))
      ∧ t = { u with objs := t.objs, lasers := t.lasers, out := t.out }))
  ∧ (∀ port : PortId, Takes (fun m => .portEnable m port 0) (0x4000 + port) 2 (fun _ => True)
    (fun u t => t.obj (0x4000 + port) 2 = 0 ∧ t.lasers.get port = 0 ∧ (∀ k ∈ portFour port, t.laneSt k = 0 ∧ t.linkSt k = 0)
      ∧ t.mem = u.mem ∧ t.cores = u.cores ∧ t.conns = u.conns))
  ∧ (∀ (lane : LaneId) (a : Option Announce) (phys : Fin 4) (s : State), s.laneSt lane = 1 ∨ s.laneSt lane = 2 → s.los.get lane ≠ 1 →
    s.orderOk lane a.isSome phys = true →
    ∃ t, exec (.laneReady lane a phys) s = .next t ∧ t.laneSt lane = 3 ∧ t.obj (0x4020 + lane) 7 = phys
      ∧ (t.link (s.linkOfLane lane)).announce (lane % 4) = a ∧ (∀ k : Nat, k ≠ lane → t.laneSt k = s.laneSt k)
      ∧ t = { s.noting t with links := t.links })
  ∧ (∀ (l : LinkId) (s : State), s.linkDefined l = true →
    (let lost := if s.peerMode l then s.peerLost l else []
     let n := (s.linkLanes l).length
     ∃ t, exec (.amBoundary l) s = .next t
      ∧ (∀ k ∈ s.linkLanes l, t.laneSt k = if k ∈ lost then 2
          else if s.laneSt k = 3 ∧ (s.peerMode l = true ∨ ∀ j ∈ s.linkLanes l, s.laneSt j = 3 ∨ s.laneSt j = 4) then 4 else s.laneSt k)
      ∧ t.linkSt l = (if (t.inService l).length = n then 1 else if s.peerMode l = true ∧ 0 < (t.inService l).length then 2 else 0)
      ∧ (s.linkSt l = 0 → t.linkSt l ≠ 0 → s.logRoom → Logged s t (0x30 + l / 4) 0x0801 (l + (t.inService l).length * 65536))
      ∧ t = { s.noting t with links := t.links }))
  ∧ (∀ (l : LinkId) (s : State), s.linkDefined l = true → s.portLit (l / 4) = true → s.linkSt l = 0 →
    ∃ t, exec (.linkStartTimeout l) s = .next t
      ∧ (∀ k ∈ s.linkLanes l, t.laneSt k = if s.obj (0x4020 + k) 2 = 1 then 1 else s.laneSt k)
      ∧ t.obj (0x4000 + l / 4) 0x10 = saturateAt 32 (s.obj (0x4000 + l / 4) 0x10 + 1)
      ∧ SameObjs s t ([(0x4000 + l.val / 4, 0x10)] ++ (s.linkLanes l).map fun k => (0x4020 + k, 1)) ∧ t = { s with objs := t.objs })
  ∧ (∀ (lane : LaneId) (c : LaneCause) (lit : Bool) (s : State), s.laneSt lane ≠ 0 →
    ∃ t, exec (.laneOut lane c lit) s = .next t ∧ t.laneSt lane = (if c = .los then 2 else 0)
      ∧ (∀ k : Nat, t.los.get k = if c = .los ∧ k = lane then 1 else s.los.get k)
      ∧ (s.laneSt lane = 4 → (s.obj (0x4040 + s.linkOfLane lane) 9 ≠ 2 ∨ (∀ k ∈ s.inService (s.linkOfLane lane), k = lane)) →
          t.linkSt (s.linkOfLane lane) = 0)
      ∧ (s.laneSt lane = 4 → s.logRoom → Logged s t (0x30 + s.linkOfLane lane / 4) 0x0803
          (s.linkOfLane lane + lane % 4 * 256 + causeNum c * 65536))
      ∧ (∀ k : Nat, k ≠ lane → t.laneSt k = s.laneSt k) ∧ t = { s.noting t with links := t.links, los := t.los })
  ∧ (∀ (lane : LaneId) (lit : Bool) (s : State), s.los.get lane ≠ 0 →
    ∃ t, exec (.losClear lane lit) s = .next t ∧ t.los.get lane = 0
      ∧ ((∀ k ∈ portFour (lane / 4), k ≠ lane → s.los.get k ≠ 1) → t.obj (0x4000 + lane / 4) 7 = 0)
      ∧ SameObjs s t [(0x4000 + lane / 4, 7), (0x2400, 5)] ∧ t = { s.noting t with los := t.los })
  ∧ (∀ lane : LaneId, Takes (fun m => .service m lane 1) (0x4020 + lane) 2
    (fun u => u.laneSt lane = 0 ∧ u.obj (0x5000 + lane) 1 = 0 ∧ u.portLit (lane / 4) = true)
    (fun u t => t.obj (0x4020 + lane) 2 = 1 ∧ t.laneSt lane = 1 ∧ SameObjs u t [(0x4020 + lane, 1), (0x4020 + lane, 2)]
      ∧ t = { u with objs := t.objs, out := t.out }))
  ∧ (∀ lane : LaneId, Takes (fun m => .service m lane 0) (0x4020 + lane) 2 (fun _ => True)
    (fun u t => t.obj (0x4020 + lane) 2 = 0 ∧ t.laneSt lane = 0 ∧ (∀ k : Nat, k ≠ lane → t.laneSt k = u.laneSt k)
      ∧ t = { u.noting t with links := t.links }))
  ∧ (∀ (l : LinkId) (st : BitVec 4) (s : State), s.obj (0x4040 + l) 9 = 2 → s.linkSt l ≠ 0 →
    ∃ t, exec (.laneStatus l st) s = .next t ∧ (t.link l).peerStatus = st ∧ (t.link l).newPeer = true
      ∧ (∀ k : Nat, k ≠ l → t.link k = s.link k) ∧ t = { s with links := t.links })
  ∧ (∀ s : State, (∀ l, l < 32 → s.linkSt l = 0) →
    ∃ t, exec .allPortsDown s = .next t ∧ t = s.emit (.jobMessage (s.obj 0x3500 3) 0x207 (s.obj 0x3500 4)))

/-- The MAC counts good and bad frames and sorts the good ones; PAUSE and PFC times are taken, run out and are sent; gate lists
step and are replaced; a step of the clock restarts them; stream packets fill a slot of their ring and a frame is closed. The
model's own choices and readings: log 40, 42, 43. -/
def Obligations.MacFollowsFrames : Prop :=
  (∀ (l : LinkId) (f : Frame) (s : State), s.linkSt l ≠ 0 → badFrame (s.obj (0x4000 + l / 4) 3) f = true → s.obj (0x4000 + l / 4) 4 ≠ 1 →
    ∃ t, exec (.frameReceive l f) s = .next t
      ∧ t.obj (0x4060 + l) 5 = (if f.fcsError then saturateAt 32 (s.obj (0x4060 + l) 5 + 1) else s.obj (0x4060 + l) 5)
      ∧ t.obj (0x4060 + l) 6 = (if f.len < 64 then saturateAt 32 (s.obj (0x4060 + l) 6 + 1) else s.obj (0x4060 + l) 6)
      ∧ t.obj (0x4060 + l) 7 = (if s.obj (0x4000 + l / 4) 3 < f.len then saturateAt 32 (s.obj (0x4060 + l) 7 + 1) else s.obj (0x4060 + l) 7)
      ∧ t.obj (0x4060 + l) 8 = (if f.symError then saturateAt 32 (s.obj (0x4060 + l) 8 + 1) else s.obj (0x4060 + l) 8)
      ∧ SameObjs s t [(0x4060 + l, 5), (0x4060 + l, 6), (0x4060 + l, 7), (0x4060 + l, 8)] ∧ t = { s with objs := t.objs })
  ∧ (∀ (l : LinkId) (f : Frame) (s : State), s.linkSt l ≠ 0 → badFrame (s.obj (0x4000 + l / 4) 3) f = false → f.control = false →
    ∃ t, exec (.frameReceive l f) s = .next t ∧ t.obj (0x4060 + l) 3 = counterAt 64 (s.obj (0x4060 + l) 3 + 1)
      ∧ t.obj (0x4060 + l) 4 = counterAt 64 (s.obj (0x4060 + l) 4 + f.len)
      ∧ ((s.tagCheck l f = none ∨ f.fragment = true ∨ f.badSum = true) →
          t.obj (0x4060 + l) 9 = saturateAt 32 (s.obj (0x4060 + l) 9 + 1) ∧ t.out = s.out)
      ∧ (∀ vid, s.tagCheck l f = some vid → f.fragment = false → f.badSum = false → f.service = true → t.out = .frame l 0 f :: s.out)
      ∧ (∀ vid u, s.tagCheck l f = some vid → f.fragment = false → f.badSum = false → f.service = false → f.udpPort = some u →
          u.toNat = s.obj 0x4200 6 → t.out = .frame l 1 f :: s.out))
  ∧ (∀ (l : LinkId) (pfc : Bool) (mask : Byte) (times : List Nat) (s : State), s.linkSt l ≠ 0 →
    s.obj (0x4040 + l) 5 = (if pfc then 2 else 1) →
    ∃ t, exec (.pauseFrame l pfc mask times) s = .next t ∧ t.obj (0x4060 + l) 0x0B = counterAt 64 (s.obj (0x4060 + l) 0x0B + 1)
      ∧ (∀ c, c < 8 → (t.link l).pause.get c = if c ∈ s.pauseClasses l pfc mask.toNat then times.getD (if pfc then c else 0) 0 % 65536
          else (s.link l).pause.get c)
      ∧ (∀ k : Nat, k ≠ l → t.link k = s.link k) ∧ t = { s with objs := t.objs, links := t.links })
  ∧ (∀ (l : LinkId) (pfc : Bool) (mask : Byte) (times : List Nat) (s : State), s.linkSt l ≠ 0 →
    s.obj (0x4040 + l) 5 ≠ (if pfc then 2 else 1) →
    ∃ t, exec (.pauseFrame l pfc mask times) s = .next t ∧ t.obj (0x4060 + l) 0x0C = counterAt 64 (s.obj (0x4060 + l) 0x0C + 1)
      ∧ SameObjs s t [(0x4060 + l, 0x0B), (0x4060 + l, 0x0C)] ∧ t = { s with objs := t.objs })
  ∧ (∀ (l : LinkId) (c : TcId) (s : State), (s.link l).pause.get c ≠ 0 →
    ∃ t, exec (.pauseExpiry l c) s = .next t ∧ (t.link l).pause.get c = 0 ∧ (t.link l).storm.get c = 0
      ∧ t.obj (0x4060 + l) (0x0D + c) = counterAt 64 (s.obj (0x4060 + l) (0x0D + c) + (s.link l).pause.get c)
      ∧ SameObjs s t [(0x4060 + l, 0x0D + c)] ∧ (∀ k : Nat, k ≠ l → t.link k = s.link k) ∧ t = { s with objs := t.objs, links := t.links })
  ∧ (∀ (l : LinkId) (c : TcId) (s : State), (s.link l).pause.get c ≠ 0 → (s.link l).storm.get c ≠ 1 →
    ∃ t, exec (.pfcStorm l c) s = .next t ∧ t.link l = { s.link l with storm := (s.link l).storm.set c 1 }
      ∧ (s.logRoom → Logged s t (0x30 + l / 4) 0x0808 (l + c * 65536)) ∧ SameObjs s t [(0x2400, 5)]
      ∧ t = { s.noting t with links := t.links })
  ∧ (∀ (l : LinkId) (c : TcId) (n : Nat) (s : State), s.obj (0x4040 + l) 5 = 2 → bitAt (s.obj (0x4040 + l) 6) c = true → s.linkSt l ≠ 0 →
    ∃ t, exec (.pfcSend l c n) s = .next t ∧ (t.link l).rxBytes.get c = n
      ∧ (s.xoff l c < n → (t.link l).xoffSent.get c = 1 ∧ ∃ q, 1 ≤ q ∧ q ≤ 65535 ∧ t.out = .pfc l c q :: s.out)
      ∧ (n ≤ s.xoff l c → n < s.xon l c → (s.link l).xoffSent.get c = 1 → (t.link l).xoffSent.get c = 0 ∧ t.out = .pfc l c 0 :: s.out)
      ∧ (n ≤ s.xoff l c → s.xon l c ≤ n → t.out = s.out) ∧ t = { s with links := t.links, out := t.out, freeCtr := t.freeCtr })
  ∧ (∀ (l : LinkId) (s : State), (s.link l).openAll = false → (s.link l).gate + 1 < s.gate (l / 4) 1 →
    ∃ t, exec (.gateEntry l) s = .next t ∧ t.link l = { s.link l with gate := (s.link l).gate + 1 }
      ∧ (∀ k : Nat, k ≠ l → t.link k = s.link k) ∧ t = { s with links := t.links })
  ∧ (∀ (l : LinkId) (s : State), (s.link l).openAll = true ∨ s.gate (l / 4) 1 ≤ (s.link l).gate + 1 →
    ∃ t, exec (.gateEntry l) s = .next t ∧ (t.link l).gate = 0 ∧ (t.link l).openAll = (t.gate (l / 4) 1 == 0)
      ∧ (s.gate (l / 4) 0 = 1 → s.obj (0x4000 + l / 4) 0x0D ≤ s.now →
          t.gate (l / 4) 0 = 0 ∧ t.gate (l / 4) 1 = s.obj (0x4000 + l / 4) 0x0B ∧ t.obj (0x4000 + l / 4) 0x0E = s.obj (0x4000 + l / 4) 0x0C)
      ∧ SameObjs s t [(0x4000 + l / 4, 0x0E)] ∧ t = { s with objs := t.objs, links := t.links, gates := t.gates })
  ∧ (∀ (port : PortId) (v : BitVec 64), Takes (fun m => .configTime m port v) (0x4000 + port) 0x0D
    (fun u => ∀ i, i < u.obj (0x4000 + port) 0x0B → (gateEntry (u.obj (0x4000 + port) 0x0C) i).2.1 ≠ 0 ∧ (gateEntry (u.obj (0x4000 + port) 0x0C) i).2.2 = 0)
    (fun u t => t.obj (0x4000 + port) 0x0D = v.toNat ∧ t.gate port 0 = 1 ∧ SameObjs u t [(0x4000 + port, 0x0D)]
      ∧ t = { u with objs := t.objs, gates := t.gates, out := t.out }))
  ∧ (∀ v : BitVec 64, Takes (fun m => .clockStep m v) 0x40A0 3 (fun _ => True)
    (fun u t => t.now = (u.now + v.toNat) % 2 ^ 64 ∧ (∀ l, l < 32 → t.link l = { u.link l with gate := 0, openAll := true })
      ∧ t.msCount = 0 ∧ SameObjs u t [(0x40A0, 1)] ∧ t = { u with objs := t.objs, links := t.links, msIndex := t.msIndex, msCount := 0, out := t.out }))
  ∧ (∀ (c : StreamId) (n : Nat) (pk : RtpPacket) (s : State), s.strReg c 1 = 1 → s.strReg c 2 = 0 →
    (s.strReg c 7 % 2 = 1 → pk.ssrc.toNat = s.strReg c 6) → pk.overRate = false → pk.fbit = false → pk.sampling.toNat = s.strReg c 9 →
    (s.stream c).filling = some n → pk.ts = (s.capSlot c n).ts → pk.marker = false →
    ∃ t, exec (.rtpPacket c pk) s = .next t ∧ (t.capSlot c n).st = (s.capSlot c n).st
      ∧ (t.capSlot c n).lost = (s.capSlot c n).lost + BitVec.ofNat 32 pk.gap
      ∧ (t.capSlot c n).runs = (s.capSlot c n).runs ++ ((pk.segs.flatMap fun g => s.segStores c g.1 g.2.1 g.2.2).map fun w => (w.1, w.2.length))
      ∧ (∀ a, (a < s.ringAddr c ∨ s.ringAddr c + (s.region (s.strReg c 0x0D)).bytes ≤ a) → t.rawByte a = s.rawByte a)
      ∧ t.obj (0x4100 + c) 0x13 = saturateAt 32 (s.obj (0x4100 + c) 0x13 + pk.gap) ∧ t.cores = s.cores ∧ t.parts = s.parts)
  ∧ (∀ (c : StreamId) (n : Nat) (s : State), (s.stream c).filling = some n →
    ∃ t, exec (.frameTimeout c) s = .next t ∧ (t.stream c).filling = none ∧ (t.capSlot c n).st = .closed
      ∧ (t.stream c).lastTs = some (s.capSlot c n).ts
      ∧ t.obj (0x4100 + c) 0x11 = counterAt 64 (s.obj (0x4100 + c) 0x11 + 1) ∧ t.obj (0x4100 + c) 0x12 = saturateAt 32 (s.obj (0x4100 + c) 0x12 + 1)
      ∧ (∀ a, (a < s.ringAddr c ∨ s.ringAddr c + (s.region (s.strReg c 0x0D)).bytes ≤ a) → t.rawByte a = s.rawByte a)
      ∧ t.cores = s.cores ∧ t.parts = s.parts)

/-! ### Power, resets and boot (R379–R392, R408–R414) -/

/-- TARGET moves the device between HUSH, REST and IDLE, and the move is complete when TRANSITION_COMPLETE says so; the duty
governor lowers and raises D one step at a time, grants one core at a time, and a failed fan group sets the other to full duty.
The model's own choices and readings: log 10, 44, 91, 110. -/
def Obligations.PowerFollowsTarget : Prop :=
  Takes .targetHush 0x2000 2
    (fun u => u.obj 0x2000 5 = 0 ∧ u.bootSt ≠ .restBooting ∧ u.obj 0x2000 1 = 1 ∧ ∀ p, p < 4 → u.pstate p = 0)
    (fun u t => t.bootSt = .hush ∧ t.wakeDue = false ∧ t.serverUp = false
      ∧ t.store = some (u.obj 0x1100 1, u.obj 0x1100 2, u.obj 0x1100 4, u.obj 0x2000 3)
      ∧ (∀ q, q < 4 → t.obj (0x3490 + q) 3 = 2)
      ∧ ∀ c, c < 16 → u.obj (0x3490 + c / 4) 3 ≠ 2 → ∀ o, o < scratchSize → t.rawByte (winOf c + o) = 0)
  ∧ Takes .targetRest 0x2000 2
    (fun u => u.obj 0x2000 5 = 0 ∧ u.bootSt ≠ .restBooting ∧ u.obj 0x2000 1 ≠ 1 ∧ ∀ p, p < 4 → u.pstate p ≠ 3)
    (fun u t => t.obj 0x2000 5 = 1 ∧ t.obj 0x2000 1 = u.obj 0x2000 1 ∧ t.selfRefresh = true
      ∧ ∀ c, c < 16 → (t.core c).clock = false ∧ (t.core c).pll = false)
  ∧ Takes .targetIdle 0x2000 2
    (fun u => u.obj 0x2000 5 = 0 ∧ u.obj 0x2000 1 = 1 ∧ u.bootSt = .up)
    (fun u t => t.obj 0x2000 5 = 2 ∧ SameObjs u t [(0x2000, 5)] ∧ t = { u with objs := t.objs, out := t.out })
  ∧ (∀ s : State, s.obj 0x2000 5 = 1 → ∃ t, exec .transitionComplete s = .next t ∧ t.obj 0x2000 1 = 1 ∧ t.obj 0x2000 5 = 0
      ∧ (s.logRoom → Logged s t 0x41 0x0C01 (s.obj 0x2000 1 + 256)) ∧ t = s.noting t
      ∧ SameObjs s t [(0x2000, 1), (0x2000, 5), (0x2400, 5)])
  ∧ (∀ s : State, s.obj 0x2000 5 = 2 → ∃ t, exec .transitionComplete s = .next t ∧ t.obj 0x2000 1 = 2 ∧ t.obj 0x2000 5 = 0
      ∧ t.selfRefresh = false ∧ t.mem = s.mem ∧ t.cores = s.cores ∧ t.parts = s.parts)
  ∧ (∀ (a b c d : Nat) (s : State), s.bootSt = .hush → s.store = some (a, b, c, d) → d ≠ 0 →
      ∃ t, exec .wakeTimer s = .next t ∧ t = { s with wakeDue := true })
  ∧ (∀ (avg : Nat) (s : State), ∃ t, exec (.dutyAdjust avg) s = .next t
      ∧ (∀ p, p < 4 → s.pstate p = 3 → t.obj (0x2011 + p) 3
          = dutyNext (decide (s.obj 0x2010 2 * 1000 < avg) || s.hotCap) (!s.hotCap && decide (avg * 100 < s.obj 0x2010 2 * 1000 * 95)) (s.obj (0x2011 + p) 3))
      ∧ (∀ p, p < 4 → s.pstate p = 3 → ∀ c ∈ s.coresOf p, t.core c = { s.core c with duty := min (s.core c).duty (t.obj (0x2011 + p) 3) })
      ∧ SameObjs s t ([(0x2010, 6)] ++ ((List.range 4).filter fun p => s.pstate p == 3).map fun p => (0x2011 + p, 3))
      ∧ t = { s with objs := t.objs, cores := t.cores, parts := t.parts, dutyLow := t.dutyLow, dutyDue := t.dutyDue })
  ∧ (∀ s : State, (∃ c, c < 16 ∧ s.waitsGrant c = true) →
      ∃ t c, exec .governorGrant s = .next t ∧ c < 16 ∧ s.waitsGrant c = true ∧ t.granted = c
        ∧ t.core c = (if (s.core c).ramp < 16 then { s.core c with ramp := (s.core c).ramp + 1 } else { s.core c with duty := (s.core c).duty + 1 })
        ∧ (∀ d, d ≠ c → t.core d = s.core d) ∧ t = { s with cores := t.cores, granted := t.granted })
  ∧ (∀ (g : Fin 2) (s : State), s.clockRuns = true → 20 < s.obj 0x2020 (3 + g) → bitAt (s.obj 0x2020 6) g = false →
      ∃ t, exec (.fanFail g) s = .next t ∧ t.obj 0x2020 6 = s.obj 0x2020 6 + 2 ^ g.val ∧ t.obj 0x2020 (4 - g) = 100
        ∧ (s.logRoom → Logged s t 0x41 0x0C03 (g + 256)) ∧ t = s.noting t
        ∧ SameObjs s t [(0x2020, 6), (0x2020, 3), (0x2020, 4), (0x2010, 2), (0x2010, 3), (0x2400, 5)])
  ∧ (∀ (g : Fin 2) (s : State), s.clockRuns = true → bitAt (s.obj 0x2020 6) g = true →
      ∃ t, exec (.fanClear g) s = .next t ∧ t.obj 0x2020 6 = s.obj 0x2020 6 - 2 ^ g.val
        ∧ t.obj 0x2020 (4 - g) = max (s.obj 0x2020 5) (fanCurve s.hottest) ∧ (s.logRoom → Logged s t 0x41 0x0C03 g) ∧ t = s.noting t
        ∧ SameObjs s t [(0x2020, 6), (0x2020, 3), (0x2020, 4), (0x2010, 2), (0x2010, 3), (0x2400, 5)])

/-- PORST_N, a fall of PWR_GOOD and a rail out of range reset the device but for fuses, flash and logs, and EPOCH advances;
WARM_RST_N keeps bulk memory and the registers marked for it; THERMTRIP stops it; a return from HUSH restores slot, pod and
polarity; boot wipes and zeroes the scratchpads and reaches REST or the recovery service; BOOT_DONE reaches IDLE; a tamper alarm
zeroes what is secret and holds the device in REST. The model's own choices and readings: log 9, 92, 93, 94. -/
def Obligations.ResetsAndBoot : Prop :=
  (∀ s : State, ∃ t, exec .porstN s = .next t
    ∧ PowerReset s t (if s.bootSt = .tripped ∨ (s.bootSt = .down ∧ s.bootCause ≠ 2) then s.bootCause else 1)
    ∧ RegsReset s t fusedObj [(0x4200, 0x0A)]
    ∧ ((∀ c, (s.conn c).st = .free) → t.obj 0x4200 0x0A = (s.obj 0x4200 0x0A + 1) % 65536))
  ∧ (∀ s : State, s.pwrGood = true → s.bootSt ≠ .hush → ∃ t, exec (.pwrGood false) s = .next t ∧ t.pwrGood = false
    ∧ PowerReset s t (if s.bootSt = .tripped then s.bootCause else 5) ∧ RegsReset s t fusedObj [(0x4200, 0x0A)])
  ∧ (∀ s : State, s.pwrGood = false → s.bootSt ≠ .hush → ∃ t, exec (.pwrGood true) s = .next t ∧ t = { s with pwrGood := true })
  ∧ (∀ (slot pod pol d : Nat) (s : State), s.pwrGood = false → s.bootSt = .hush → s.store = some (slot, pod, pol, d) → slot ≠ 0xFF →
    ∃ t, exec (.pwrGood true) s = .next t ∧ t.pwrGood = true ∧ PowerReset s t 3 ∧ t.obj 0x1100 1 = slot ∧ t.obj 0x1100 2 = pod
      ∧ t.obj 0x1100 4 = pol ∧ t.obj 0x1100 3 = pod * 64 + slot ∧ t.obj 0x4200 1 = pod * 64 + slot
      ∧ t.obj 0x2000 4 = (if s.wakeDue then 2 else 1)
      ∧ RegsReset s t fusedObj [(0x4200, 0x0A), (0x1100, 1), (0x1100, 2), (0x1100, 3), (0x1100, 4), (0x4200, 1), (0x2000, 4)])
  ∧ (∀ (rail : Fin 9) (s : State), rail.val ≠ 8 → s.pwrGood = true → s.bootSt ≠ .hush →
    ∃ t, exec (.railUndervoltage rail) s = .next t ∧ PowerReset s t (if s.bootSt = .tripped then s.bootCause else 5)
      ∧ RegsReset s t fusedObj [(0x4200, 0x0A)])
  ∧ (∀ s : State, s.bootSt ≠ .down → s.bootSt ≠ .hush → s.bootSt ≠ .tripped →
    ∃ t, exec .warmRstN s = .next t ∧ t.bootSt = .down ∧ t.bootCause = 2 ∧ t.selfRefresh = true ∧ t.cores = .empty ∧ t.parts = .empty
      ∧ t.conns = .empty ∧ t.log = s.log ∧ t.plog = s.plog ∧ t.flash = s.flash ∧ t.pending = s.pending
      ∧ (∀ a, a < 0x80000000 → t.rawByte a = 0)
      ∧ ((∀ p, p < 4 → s.isSealed p = false) → RegsReset s t warmObj []
          ∧ ((∀ c, (s.conn c).st = .free) → ∀ a, 0x80000000 ≤ a → t.rawByte a = s.rawByte a)))
  ∧ (∀ (sensor : Fin 14) (reading : Int) (s : State), 11500 ≤ reading → s.clockRuns = true →
    ∃ t, exec (.thermtrip sensor reading) s = .next t ∧ t.bootSt = .tripped ∧ t.tripLow = true ∧ t.bootCause = 6
      ∧ (∀ a, t.rawByte a = 0) ∧ t.cores = .empty ∧ (s.logRoom → Logged s t 0x41 0x0C04 (sensor + fieldOf 16 reading * 2 ^ 16))
      ∧ SameObjs s t [(0x2400, 5)])
  ∧ (∀ s : State, s.bootSt = .down → s.pwrGood = true → ∃ t, exec .boot s = .next t ∧ t.bootSt ≠ .down ∧ t.bootCause = 1
      ∧ (∀ c, c < 16 → ∀ o, o < scratchSize → t.rawByte (winOf c + o) = 0) ∧ t.chain.driverOn = true
      ∧ (s.obj 0x1200 1 = 4 → s.bootCause = 2 → t.bootSt = .recoveryScrapped)
      ∧ (s.obj 0x1200 1 ≠ 4 → s.bootCause = 2 → (∀ k ∈ [1, 2, 3, 4], s.bootClassOk k = true) →
          t.bootSt = if s.badOrigin = none then .restBooting else .recoveryOrigin))
  ∧ (∀ (ids : List Byte) (a b : Word) (s : State), s.bootSt = .restBooting → ids.length ≤ 32 →
    ∃ t, exec (.bootDone ids a b) s = .next t ∧ t.bootSt = .up ∧ t.obj 0x2000 1 = 2 ∧ t.selfRefresh = false
      ∧ (∀ i, i < ids.length → t.obj (0x1020 + i / 4) (i % 4 + 1) = (ids.getD i 0).toNat) ∧ t.cores = s.cores ∧ t.mem = s.mem)
  ∧ (∀ (src : TamperSource) (s : State), s.obj 0x1200 1 ≠ 0 → s.obj 0x1200 1 ≠ 4 → s.clockRuns = true →
    ∃ t, exec (.tamper src) s = .next t ∧ t.bootSt = .tamperRest ∧ t.obj 0x2000 1 = 1 ∧ t.obj 0x2000 5 = 0
      ∧ t.obj 0x1260 1 = tamperNum src ∧ t.obj 0x1260 2 = counterAt 32 (s.obj 0x1260 2 + 1) ∧ ((∀ c, (s.conn c).st = .free) → t.obj 0x1260 3 = s.now)
      ∧ (∀ p, p < 4 → s.isSealed p = true → t.pstate p = 0) ∧ (∀ p, p < 4 → s.isSealed p = false → s.pstate p ≠ 0 → t.pstate p = 4)
      ∧ (∀ k, k < 15 → t.jobKeys.get k = {}) ∧ (∀ n, n < 8 → t.spdm.get n = {})
      ∧ ∀ c, c < 16 → (t.core c).clock = false)

/-! ### Background work (R394–R404, R423, R424) -/

/-- Background work within its budgets: a breath period is accounted and new SHAREs apply; lanes, lasers, flash sectors and
persistent records are tended; a telemetry sample shows calibrated readings; a log read returns records from CURSOR and moves past
them; a calibration record that passes its checks is taken. The model's own choices and readings: log 29, 48, 49. -/
def Obligations.BackgroundWork : Prop :=
  (∀ (wanted busy : List Nat) (s : State), ∃ t, exec (.breathPeriod wanted busy) s = .next t
    ∧ (∀ a, a < 8 → t.shares.get a = s.obj (0x2101 + a) 3 + 1)
    ∧ (∀ a, 2 ≤ a → a < 8 → t.obj (0x2101 + a) 4 = if s.suspended a then 0
        else min (wanted.getD a 0 - busy.getD a 0) (s.shareNow a * s.breathAmount (s.obj (0x2101 + a) 1) / 256))
    ∧ t = { s with objs := t.objs, shares := t.shares, debts := t.debts }
    ∧ SameObjs s t ((List.range 8).flatMap fun a => [(0x2101 + a, 4), (0x2101 + a, 5), (0x2101 + a, 6)]))
  ∧ (∀ (lane : LaneId) (pct : Nat) (s : State), s.suspended 4 = false → 2 ≤ s.obj 0x2000 1 → 90 < pct →
    ∃ t, exec (.oboeTask lane pct) s = .next t ∧ (s.logRoom → Logged s t 0x42 0x0C06 lane) ∧ t = s.noting t ∧ SameObjs s t [(0x2400, 5)])
  ∧ (∀ (eng : QuadId) (bias : Nat) (s : State), s.suspended 5 = false → s.clockRuns = true →
    ∃ t, exec (.laserAgeing eng true bias) s = .next t ∧ t.laserBias.get eng = bias
      ∧ (90 ≤ bias → s.laserLogged.get eng = 0 → t.laserLogged.get eng = 1 ∧ (s.logRoom → Logged s t 0x42 0x0C07 eng))
      ∧ (∀ e : Nat, e ≠ eng → t.laserBias.get e = s.laserBias.get e) ∧ SameObjs s t [(0x2400, 5)] ∧ t.mem = s.mem)
  ∧ (∀ (k : Nat) (s : State), s.suspended 6 = false → s.clockRuns = true → k < sectors → s.erases.get (16384 + k) ≠ 1 →
    s.erases.get k < s.leastErased + 64 →
    ∃ t, exec (.wearLevelling k false) s = .next t ∧ t = { s with erases := s.erases.set k (s.erases.get k + 1) })
  ∧ (∀ (e : Event) (rest : List Event) (s : State), s.suspended 6 = false → s.clockRuns = true → s.pwait = e :: rest →
    ∃ t, exec (.persistWrite none) s = .next t ∧ t.plog.head? = some e ∧ t.pwait = rest ∧ t = { s with plog := t.plog, pwait := t.pwait })
  ∧ (∀ (r : Readings) (s : State), s.suspended 7 = false → s.clockRuns = true →
    ∃ t, exec (.telemetrySample r) s = .next t
      ∧ (∀ k, k < 24 → t.obj 0x2300 (k + 1) = fieldOf 16 (calTemp (s.obj 0x2200 1) k (r.temps.getD k 0)))
      ∧ (∀ k, k < 15 → t.obj 0x2301 (k + 1) = calMon (s.obj 0x2200 1) k (r.mons.getD k 0))
      ∧ t.obj 0x2302 1 = r.package ∧ t.obj 0x2020 1 = r.fans.getD 0 0 ∧ t.obj 0x2020 2 = r.fans.getD 1 0
      ∧ t.obj 0x2302 0x0C = counterAt 64 (s.obj 0x2302 0x0C + (s.tele.get 301 + r.package) / 10)
      ∧ t = { s.noting t with tele := t.tele })
  ∧ (∀ (m : Master) (persist : Bool) (s : State), s.reaches m.path = true → s.sessionOk m = true →
    (s.recovering = true → s.served (if persist then 0x2401 else 0x2400) 4 false = true) →
    (let u := s.heard m.path
     ∃ t, exec (.logRead m persist) s = .next t
      ∧ t.out.head? = some (.resp m (answer (logReadReq m persist) stOk
          (bytesOf 1024 (natOf ((u.logNext (ownerId m) persist).flatMap fun e => eventBytes e false)))))
      ∧ t.cursor (ownerId m) persist = (match (u.logNext (ownerId m) persist).getLast? with
          | some e => (e.seq + 1) % 2 ^ 24
          | none => u.cursor (ownerId m) persist)
      ∧ t = { u with masters := t.masters, out := t.out }))
  ∧ (Takes (fun m => .calCommit m true) 0x2200 3
    (fun u => (∀ p, p < 8 → u.obj (0x4000 + p) 2 ≠ 1) ∧ (∀ p, p < 4 → u.pstate p ≠ 3) ∧ u.calResult (u.obj 0x2200 2) true = 0)
    (fun u t => t.obj 0x2200 1 = u.obj 0x2200 2 ∧ t.obj 0x2200 4 = fieldAt (u.obj 0x2200 2) 40 8 ∧ t.obj 0x2200 5 = 0
      ∧ (u.logRoom → Logged u t 0x41 0x0C08 (u.obj 0x2200 4 + fieldAt (u.obj 0x2200 2) 40 8 * 256)) ∧ t = u.noting t
      ∧ SameObjs u t [(0x2200, 1), (0x2200, 4), (0x2200, 5), (0x2400, 5)]))

/-! ### Sealed partitions, life cycle, recovery and tests (R310–R337, R410–R426) -/

/-- Life cycle and rollback counters advance; SPDM messages are taken; a session binds a sealed partition, releases its secret,
loads, revokes and grants, reads its log and ends; a partition is sealed, a package attached, loaded and exported; job key slots
are loaded and revoked by management. The model's own choices and readings: log 46, 53, 54, 55, 56, 111. -/
def Obligations.SealsAndKeys : Prop :=
  (∀ target : Byte, Takes (fun m => .request m target true) 0x1200 3
    (fun u => (∀ p, p < 4 → u.pstate p = 0) ∧ lifeStep (u.obj 0x1200 1) target.toNat = true ∧ u.tokenOk (u.obj 0x1200 1) target.toNat = true)
    (fun u t => PowerReset u t 4 ∧ t.stateRows = u.stateRows ||| 2 ^ (target.toNat - 1) ∧ t.intentRows = u.intentRows ||| 2 ^ (target.toNat - 1)
      ∧ t.obj 0x1200 1 = lifeState (u.stateRows ||| 2 ^ (target.toNat - 1)) ∧ (target.toNat = 4 → t.keysGone = true)))
  ∧ (∀ (target : Byte) (b : Bool), Takes (fun m => .request m target b) 0x1200 3
    (fun u => (∀ p, p < 4 → u.pstate p = 0) ∧ lifeStep (u.obj 0x1200 1) target.toNat = true ∧ u.tokenOk (u.obj 0x1200 1) target.toNat = false)
    (fun u t => t.obj 0x1200 4 = 1 ∧ SameObjs u t [(0x1200, 4)] ∧ t = { u with objs := t.objs, out := t.out }))
  ∧ (∀ v : Byte, Takes (fun m => .commit m v) 0x1210 0x0A (fun _ => 1 ≤ v.toNat ∧ v.toNat ≤ 4)
    (fun u t => t.obj 0x1210 v.toNat = max (u.obj 0x1210 v.toNat) (u.obj 0x1210 (4 + v.toNat)) ∧ SameObjs u t [(0x1210, v.toNat)]
      ∧ t = { u with objs := t.objs, out := t.out }))
  ∧ Takes (fun m => .commit m 0xFF) 0x1210 0x0A (fun _ => True)
    (fun u t => (∀ k, 1 ≤ k → k ≤ 4 → t.obj 0x1210 k = max (u.obj 0x1210 k) (u.obj 0x1210 (4 + k)))
      ∧ SameObjs u t [(0x1210, 1), (0x1210, 2), (0x1210, 3), (0x1210, 4)] ∧ t = { u with objs := t.objs, out := t.out })
  ∧ Takes (fun m => .networkRecordStore m 1) 0x1111 0 (fun _ => True)
    (fun u t => t.network = some ([1, 2, 3, 4, 5, 6, 7, 8, 9].map fun k => u.obj 0x1110 k) ∧ t = { u with network := t.network, out := t.out })
  ∧ (∀ (msg : List Byte) (m : Master) (s : State), Accepts s m 0x1270 1 → msg.length ≤ 4096 →
    ∃ t, exec (.spdmMessage m msg) s = .next t ∧ Answered t m stOk ∧ (t.masters.get (ownerId m)).spdm.isSome = true
      ∧ (∀ k, k ≠ ownerId m → t.masters.get k = (s.heard m.path).masters.get k)
      ∧ t = { s.heard m.path with masters := t.masters, freeCtr := t.freeCtr, out := t.out })
  ∧ (∀ (n : SpdmId) (p : Byte) (leaf : BitVec 384) (s : State), (s.spdm.get n).part = none → p.toNat < 4 → s.isSealed p.toNat = true →
    (s.part p.toNat).wk.isSome = true → (s.part p.toNat).bound = none → leaf = BitVec.ofNat 384 (s.obj (0x1230 + p.toNat) 4) →
    ∃ t, exec (.bind n p leaf true) s = .next t ∧ t.spdm.get n = { isOpen := true, part := some p.toNat }
      ∧ (t.part p.toNat).bound = some n.val ∧ t.obj (0x1230 + p.toNat) 5 = 1 ∧ t.out = .spdm n true [] :: s.out
      ∧ SameObjs s t [(0x1230 + p.toNat, 5)] ∧ t = { s with objs := t.objs, parts := t.parts, spdm := t.spdm, out := t.out })
  ∧ (∀ (n : SpdmId) (p : Byte) (leaf : BitVec 384) (ok : Bool) (s : State), (s.spdm.get n).part.isSome = true ∨ 4 ≤ p.toNat
      ∨ s.isSealed p.toNat = false ∨ ok = false ∨ leaf ≠ BitVec.ofNat 384 (s.obj (0x1230 + p.toNat) 4) →
    ∃ t, exec (.bind n p leaf ok) s = .next t ∧ t = s.emit (.spdm n false []))
  ∧ (∀ (n : SpdmId) (p : Nat) (rs : BitVec 256) (s : State), (s.spdm.get n).part = some p →
    ∃ t, exec (.releaseSecret n rs) s = .next t ∧ (t.part p).rs = some rs ∧ t.obj (0x1230 + p) 5 = 2 ∧ t.out = .spdm n true [] :: s.out
      ∧ SameObjs s t [(0x1230 + p, 5)] ∧ t = { s with objs := t.objs, parts := t.parts, out := t.out })
  ∧ (∀ (n : SpdmId) (p : Nat) (k : Byte) (job : Word) (secret : BitVec 384) (s : State), (s.spdm.get n).part = some p → 1 ≤ k.toNat → k.toNat ≤ 15 →
    (s.obj (0x1251 + (k.toNat - 1)) 5 = 0 ∨ s.obj (0x1251 + (k.toNat - 1)) 1 = p) →
    ∃ t, exec (.jobkey n k job secret) s = .next t ∧ (t.jobKeys.get (k.toNat - 1)).key = some (slotKey336 job secret)
      ∧ t.obj (0x1251 + (k.toNat - 1)) 1 = p ∧ t.obj (0x1251 + (k.toNat - 1)) 2 = job.toNat ∧ t.obj (0x1251 + (k.toNat - 1)) 5 = 2
      ∧ (t.spdm.get n).slots = (k.toNat - 1) :: (s.spdm.get n).slots
      ∧ SameObjs s t [(0x1251 + (k.toNat - 1), 1), (0x1251 + (k.toNat - 1), 2), (0x1251 + (k.toNat - 1), 5)]
      ∧ t = { s with objs := t.objs, jobKeys := t.jobKeys, spdm := t.spdm, out := t.out })
  ∧ (∀ (n : SpdmId) (p : Nat) (k : Byte) (s : State), (s.spdm.get n).part = some p → 1 ≤ k.toNat → k.toNat ≤ 15 →
    s.obj (0x1251 + (k.toNat - 1)) 5 ≠ 0 → s.obj (0x1251 + (k.toNat - 1)) 1 = p →
    ∃ t, exec (.revoke n k) s = .next t ∧ t.jobKeys.get (k.toNat - 1) = {} ∧ t.obj (0x1251 + (k.toNat - 1)) 5 = 0
      ∧ t.obj (0x1251 + (k.toNat - 1)) 1 = 0xFF
      ∧ (Quiet s → ∀ c ∈ s.coresOf p, ∀ o, vaultOff ≤ o → o < scratchSize → t.rawByte (winOf c + o) = 0))
  ∧ (∀ (n : SpdmId) (p : Nat) (v : Byte) (s : State), (s.spdm.get n).part = some p → v.toNat < 4 →
    ∃ t, exec (.grant n v) s = .next t ∧ t.obj (0x1230 + p) 6 = v.toNat ∧ SameObjs s t [(0x1230 + p, 6)]
      ∧ t.out = .spdm n true [] :: s.out ∧ t = { s with objs := t.objs, out := t.out })
  ∧ (∀ (n : SpdmId) (p : Nat) (q : BitVec 24) (s : State), (s.spdm.get n).part = some p →
    ∃ (t : State) (l : List Event), exec (.logRequest n q) s = .next t ∧ t.out = .spdm n true (l.flatMap fun e => eventBytes e true) :: s.out ∧ l.length ≤ 64
      ∧ (∀ e ∈ l, e ∈ s.log ∧ s.eventPart e.unit e.code e.detail.toNat = some p) ∧ t = { s with out := t.out })
  ∧ (∀ (n : SpdmId) (p : Nat) (c : Byte) (s : State), (s.spdm.get n).part = some p →
    ∃ t, exec (.sessionEnd n c) s = .next t ∧ t.spdm.get n = {} ∧ (t.part p).bound = none ∧ (t.part p).rs = none
      ∧ t.pstate p = 4 ∧ (p < 4 → t.obj (0x1230 + p) 5 = 0 ∧ t.obj (0x1230 + p) 6 = 0)
      ∧ (∀ k ∈ (s.spdm.get n).slots, k < 15 → t.jobKeys.get k = {})
      ∧ (Quiet s → ∀ c ∈ s.coresOf p, ∀ o, vaultOff ≤ o → o < scratchSize → t.rawByte (winOf c + o) = 0))
  ∧ (∀ p : PartId, Takes (fun m => .sealed m p 1) (0x1230 + p) 1
    (fun u => u.obj 0x1200 1 = 2 ∧ u.pstate p = 1 ∧ u.isSealed p = false)
    (fun u t => t.isSealed p = true ∧ (t.part p).xtsKeys.isSome = true ∧ t.obj (0x1230 + p) 6 = 0
      ∧ (∀ r, r < 64 → (u.region r).owner = p → 0 < (u.region r).size → (t.region r).xts = true
          ∧ ∀ a, bulkBase + (u.region r).start ≤ a → a < bulkBase + (u.region r).stop → t.rawByte a = 0)
      ∧ (∀ r, r < 64 → (u.region r).owner ≠ p → t.region r = u.region r) ∧ t.cores = u.cores))
  ∧ (∀ (p : PartId) (a : BitVec 64), Takes (fun m => .pkg m p a) (0x1230 + p) 2 (fun u => u.isSealed p = true ∧ u.pstate p = 1)
    (fun u t => t.obj (0x1230 + p) 2 = a.toNat ∧ t.obj (0x1230 + p) 3 = (u.attachResult p (u.pkgOf a.toNat)).1
      ∧ (∀ wk, (u.attachResult p (u.pkgOf a.toNat)).2 = some wk → (t.part p).wk = some wk ∧ (t.part p).pkgAddr = a.toNat)
      ∧ ((u.attachResult p (u.pkgOf a.toNat)).2 = none → t.parts = u.parts ∧ t.obj (0x1230 + p) 4 = u.obj (0x1230 + p) 4)
      ∧ SameObjs u t [(0x1230 + p, 2), (0x1230 + p, 3), (0x1230 + p, 4)] ∧ t = { u with objs := t.objs, parts := t.parts, out := t.out }))
  ∧ Takes .pkgLoad 0x1240 4 (fun u => u.pkgBusy (u.obj 0x1240 1) = false)
    (fun u t => (∃ r, t.pkgRun = some r ∧ r.part = u.obj 0x1240 1 ∧ r.export_ = false
        ∧ (u.contentKey (u.obj 0x1240 1) = none → r.result = 1 ∨ r.result = 5)) ∧ t.parts = u.parts ∧ t.syncs = u.syncs)
  ∧ Takes .pkgExport 0x1240 4
    (fun u => u.pkgBusy (u.obj 0x1240 1) = false ∧ (u.pstate (u.obj 0x1240 1) = 2 ∨ u.pstate (u.obj 0x1240 1) = 4))
    (fun u t => (∃ r, t.pkgRun = some r ∧ r.part = u.obj 0x1240 1 ∧ r.export_ = true) ∧ t.parts = u.parts ∧ t.syncs = u.syncs)
  ∧ (∀ (r : PkgRun) (s : State), s.pkgRun = some r → r.export_ = true ∨ (r.result = 0 ∧ r.regions = []) →
    ∃ t, exec .packageLoadCompleted s = .next t ∧ t.pkgRun = none ∧ t.obj 0x1240 5 = r.result ∧ SameObjs s t [(0x1240, 5)]
      ∧ t = { s with objs := t.objs, pkgRun := none })
  ∧ (∀ (r : PkgRun) (s : State), s.pkgRun = some r → r.export_ = false → r.result ≠ 0 → (∀ x ∈ r.written, bulkBase ≤ x.1) →
    ∃ t, exec .packageLoadCompleted s = .next t ∧ t.pkgRun = none ∧ t.obj 0x1240 5 = r.result
      ∧ (∀ a, t.rawByte a = if (∃ x ∈ r.written, x.1 ≤ a ∧ a < x.1 + x.2) then 0 else s.rawByte a)
      ∧ (s.logRoom → Logged s t 0x60 0x0A07 (r.part + r.result * 2 ^ 8 + r.chunk * 2 ^ 16)) ∧ t.cores = s.cores ∧ t.parts = s.parts)
  ∧ (∀ k : JobSlot, Takes (fun m => .slotKeyLoad m k) (0x1251 + k) 4
    (fun u => u.slotSealed k = false ∧ u.obj (0x1251 + k) 5 = 0 ∧ u.obj (0x1251 + k) 1 < 4)
    (fun u t => (t.jobKeys.get k).key = some (slotKey336 (BitVec.ofNat 32 (u.obj (0x1251 + k) 2)) (BitVec.ofNat 384 (u.obj (0x1251 + k) 3)))
      ∧ t.obj (0x1251 + k) 5 = 1 ∧ t.obj (0x1251 + k) 1 = u.obj (0x1251 + k) 1
      ∧ SameObjs u t [(0x1251 + k, 1), (0x1251 + k, 2), (0x1251 + k, 5)] ∧ t = { u with objs := t.objs, jobKeys := t.jobKeys, out := t.out }))
  ∧ (∀ k : JobSlot, Takes (fun m => .slotKeyRevoke m k) (0x1251 + k) 4 (fun u => u.slotSealed k = false)
    (fun _ t => t.jobKeys.get k = {} ∧ t.obj (0x1251 + k) 5 = 0 ∧ t.obj (0x1251 + k) 1 = 0xFF ∧ t.obj (0x1251 + k) 3 = 0))

/-- The recovery service erases, writes, checks and reboots; lanes, bulk channels and cores are tested; a lock-step mismatch
restarts its pair and a restarted pair is back. The model's own choices and readings: log 78, 97. -/
def Obligations.TestsAndRecovery : Prop :=
  Takes (fun m => .erase m true) 0x5060 5 (fun u => u.copyOpen = true)
    (fun u t => (∀ a, t.flash.get a = if (copyArea (u.obj 0x5060 1) (u.obj 0x5060 2)).1 ≤ a
          ∧ a < (copyArea (u.obj 0x5060 1) (u.obj 0x5060 2)).1 + (copyArea (u.obj 0x5060 1) (u.obj 0x5060 2)).2 then 0xFF else u.flash.get a)
      ∧ t.obj 0x5060 6 = 0 ∧ SameObjs u t [(0x5060, 6)] ∧ t = { u with objs := t.objs, flash := t.flash, out := t.out })
  ∧ (∀ data : List Byte, Takes (fun m => .recoveryData m data true) 0x5060 4
    (fun u => u.copyOpen = true ∧ data.length = 1024 ∧ u.obj 0x5060 3 + 1024 ≤ (copyArea (u.obj 0x5060 1) (u.obj 0x5060 2)).2
      ∧ ∀ i, i < 1024 → u.flash.get ((copyArea (u.obj 0x5060 1) (u.obj 0x5060 2)).1 + u.obj 0x5060 3 + i) = 0xFF)
    (fun u t => (let a := (copyArea (u.obj 0x5060 1) (u.obj 0x5060 2)).1 + u.obj 0x5060 3
        ∀ x, t.flash.get x = if a ≤ x ∧ x < a + 1024 then data.getD (x - a) 0 else u.flash.get x)
      ∧ t.obj 0x5060 3 = u.obj 0x5060 3 + 1024 ∧ t.obj 0x5060 6 = 0 ∧ SameObjs u t [(0x5060, 3), (0x5060, 6)]
      ∧ t = { u with objs := t.objs, flash := t.flash, freeCtr := t.freeCtr, out := t.out }))
  ∧ Takes .recoveryCheck 0x5060 5 (fun u => u.copyOpen = true)
    (fun u t => t.obj 0x5060 6 = u.copyResult (u.obj 0x5060 1) (u.obj 0x5060 2) ∧ SameObjs u t [(0x5060, 6)]
      ∧ t = { u with objs := t.objs, out := t.out })
  ∧ Takes .reboot 0x5060 5 (fun u => u.bootSt = .recoveryImage) (fun u t => PowerReset u t 1)
  ∧ (∀ (lane : LaneId) (v : Byte), Takes (fun m => .laneTestMode m lane v) (0x5000 + lane) 1 (fun _ => 1 ≤ v.toNat ∧ v.toNat ≤ 3)
    (fun u t => t.obj (0x5000 + lane) 1 = v.toNat ∧ t.obj (0x5000 + lane) 5 = 0 ∧ t.laneSt lane = 0
      ∧ (∀ k : Nat, k ≠ lane → t.laneSt k = u.laneSt k) ∧ t = { u.noting t with links := t.links }))
  ∧ (∀ lane : LaneId, Takes (fun m => .laneTestMode m lane 0) (0x5000 + lane) 1
    (fun u => u.obj (0x4020 + lane) 2 = 1 ∧ u.laneSt lane = 0 ∧ u.portLit (lane / 4) = true)
    (fun u t => t.obj (0x5000 + lane) 1 = 0 ∧ t.laneSt lane = 1 ∧ SameObjs u t [(0x5000 + lane, 1), (0x5000 + lane, 5), (0x4020 + lane, 1)]
      ∧ t = { u with objs := t.objs, out := t.out }))
  ∧ (∀ (lane : LaneId) (s : State), s.obj (0x5000 + lane) 1 ≠ 0 → s.obj (0x5000 + lane) 5 ≠ 1 →
    ∃ t, exec (.checkerLock lane) s = .next t ∧ t.obj (0x5000 + lane) 5 = 1 ∧ t.obj (0x5000 + lane) 3 = 0 ∧ t.obj (0x5000 + lane) 4 = 0
      ∧ SameObjs s t [(0x5000 + lane, 3), (0x5000 + lane, 4), (0x5000 + lane, 5)] ∧ t = { s with objs := t.objs })
  ∧ (∀ (lane : LaneId) (b e : BitVec 64) (s : State), s.obj (0x5000 + lane) 5 ≠ 0 →
    ∃ t, exec (.checkerLockLoss lane b e) s = .next t ∧ t.obj (0x5000 + lane) 5 = 0 ∧ t.obj (0x5000 + lane) 3 = b.toNat
      ∧ t.obj (0x5000 + lane) 4 = e.toNat ∧ t.obj (0x5000 + lane) 6 = counterAt 32 (s.obj (0x5000 + lane) 6 + 1)
      ∧ SameObjs s t [(0x5000 + lane, 3), (0x5000 + lane, 4), (0x5000 + lane, 5), (0x5000 + lane, 6)] ∧ t = { s with objs := t.objs })
  ∧ (∀ ch : ChanId, Takes (fun m => .bulkTestStart m ch) (0x5020 + ch) 4
    (fun u => u.bulkTestClosed = [] ∧ u.obj 0x2000 1 = 2 ∧ (∀ p, p < 4 → u.pstate p = 0) ∧ u.obj (0x5020 + ch) 5 ≠ 1
      ∧ (∀ k, k < u.obj (0x5020 + ch) 3 → u.chunkUsed ch (u.obj (0x5020 + ch) 2 + k) = false)
      ∧ u.obj (0x5020 + ch) 2 + u.obj (0x5020 + ch) 3 ≤ 4096)
    (fun u t => t.obj (0x5020 + ch) 5 = 1 ∧ t.tests.get ch = u.obj (0x5020 + ch) 2 ∧ t.tests.get (16 + ch) = u.obj (0x5020 + ch) 3
      ∧ SameObjs u t [(0x5020 + ch, 5), (0x5020 + ch, 6), (0x5020 + ch, 7), (0x5020 + ch, 8)]
      ∧ t = { u with objs := t.objs, tests := t.tests, out := t.out }))
  ∧ (∀ ch : ChanId, Takes (fun m => .bulkTestStop m ch) (0x5020 + ch) 4
    (fun u => u.bulkTestClosed = [] ∧ u.obj (0x5020 + ch) 5 = 1)
    (fun u t => t.obj (0x5020 + ch) 5 = 4 ∧ t.obj (0x5020 + ch) 6 ≤ u.tests.get (16 + ch) * 0x200000
      ∧ SameObjs u t [(0x5020 + ch, 5), (0x5020 + ch, 6)] ∧ ChunksZeroed u t ch ∧ t.cores = u.cores ∧ t.parts = u.parts))
  ∧ (∀ (ch : ChanId) (bad : Word) (first : BitVec 64) (s : State), s.obj (0x5020 + ch) 5 = 1 →
    ∃ t, exec (.bulkTestEnd ch bad first) s = .next t ∧ t.obj (0x5020 + ch) 5 = (if bad.toNat = 0 then 2 else 3)
      ∧ t.obj (0x5020 + ch) 6 = s.tests.get (16 + ch) * 0x200000 ∧ t.obj (0x5020 + ch) 7 = bad.toNat ∧ t.obj (0x5020 + ch) 8 = first.toNat
      ∧ ChunksZeroed s t ch ∧ (s.logRoom → Logged s t 0x40 0x0D05 (0x5020 + ch + (if bad.toNat = 0 then 2 else 3) * 2 ^ 16))
      ∧ t.cores = s.cores ∧ t.parts = s.parts)
  ∧ (∀ core : CoreId, Takes (fun m => .selfTestStart m core) (0x5050 + core) 1
    (fun u => u.selfTestClosed core = [] ∧ (u.cstate core = 1 ∨ u.cstate core = 3) ∧ u.obj (0x5050 + core) 2 ≠ 1)
    (fun u t => t.obj (0x5050 + core) 2 = 1 ∧ SameObjs u t [(0x5050 + core, 2), (0x3490 + core / 4, 3), (0x3490 + core / 4, 4)]
      ∧ t.mem = u.mem ∧ t.parts = u.parts))
  ∧ (∀ (core : CoreId) (r : TestResult) (w : Word) (s : State), s.obj (0x5050 + core) 2 = 1 →
    ∃ t, exec (.selfTestEnd core r w) s = .next t ∧ t.obj (0x5050 + core) 2 = testNum r
      ∧ t.obj (0x5050 + core) 3 = (if r = .sram then w.toNat else 0xFFFFFFFF)
      ∧ t.obj (0x5050 + core) 4 = counterAt 32 (s.obj (0x5050 + core) 4 + 1) ∧ t.cstate core = s.cstate core
      ∧ (∀ a, t.rawByte a = if winOf core ≤ a ∧ a < winOf core + scratchSize then 0 else s.rawByte a)
      ∧ (s.logRoom → Logged s t 0x40 0x0D05 (0x5050 + core + testNum r * 2 ^ 16))
      ∧ SameObjs s t [(0x5050 + core, 2), (0x5050 + core, 3), (0x5050 + core, 4), (0x3400 + core, 5), (0x2400, 5)])
  ∧ (∀ (pair : Fin 2) (s : State), s.clockRuns = true →
    ∃ t, exec (.lockstepMismatch pair false) s = .next t ∧ t.spDown0 = (s.spDown0 || pair == 0) ∧ t.spDown1 = (s.spDown1 || pair == 1)
      ∧ t.mbWaiting = none ∧ t.mem = s.mem ∧ t.cores = s.cores ∧ t.parts = s.parts)
  ∧ (∀ (pair : Fin 2) (s : State), ∃ t, exec (.spRestart pair) s = .next t
      ∧ t = { s with spDown0 := s.spDown0 && pair != 0, spDown1 := s.spDown1 && pair != 1 })
end

