-- ==== Sys2Proof/Laws/Issue.lean ====
section
/-! SUPPORT. What the shared operation behind every queue command can do, case by case (R170, R175, R195): nothing stands at
the head; the head waits; it issues; it ends in a fault. And what a dictionary write that is accepted answers (R371, R411). -/

namespace Sys2Proof.Machine

/-- No command stands at the head of the context: nothing happens. -/
theorem issue_of_none {op core ctx : Nat} {s : State} (run : Env → State → Res) (h : s.headEnv core ctx = none) :
    issue op core ctx s run = s := by
  unfold issue
  rw [h]

/-- A command of the opcode stands at the head: its meaning decides. -/
theorem issue_atHead {op : Nat} {core : CoreId} {ctx : CtxId} {e : Env} {s : State} (run : Env → State → Res)
    (h : AtHead s core ctx op e) :
    issue op core ctx s run = match run e s with
      | .ok s' => s'.issued e
      | .stop _ .wait => s
      | .stop s' why => (s'.count (0x3010 + core) 7 64 1).applyStop e why := by
  unfold issue
  obtain ⟨h1, h2, h3, h4⟩ := h
  rw [h1]
  dsimp only
  rw [h2, h3, if_neg (by simp), if_neg (by simp), if_neg (by simp [h4])]
  first | done | rfl

/-- It issues. -/
theorem issue_of_ok {op : Nat} {core : CoreId} {ctx : CtxId} {e : Env} {s t : State} {run : Env → State → Res}
    (h : AtHead s core ctx op e) (r : run e s = .ok t) : issue op core ctx s run = t.issued e := by
  rw [issue_atHead run h, r]

/-- It waits: the state is as it was. -/
theorem issue_of_wait {op : Nat} {core : CoreId} {ctx : CtxId} {e : Env} {s t : State} {run : Env → State → Res}
    (h : AtHead s core ctx op e) (r : run e s = .stop t .wait) : issue op core ctx s run = s := by
  rw [issue_atHead run h, r]

/-- A command of another opcode stands at the head: this row does nothing. -/
theorem issue_of_other {op : Nat} {core ctx : Nat} {e : Env} {s : State} (run : Env → State → Res)
    (h1 : s.headEnv core ctx = some e) (h2 : s.sramError (headAddr e.home ((s.core core).ctxs.get ctx)) 32 = false)
    (h3 : opAccepted (e.word % 256) (ctx % 4) = true) (h4 : e.word % 256 ≠ op) : issue op core ctx s run = s := by
  unfold issue
  rw [h1]
  dsimp only
  rw [h2, h3, if_neg (by simp), if_neg (by simp), if_pos h4]

/-- An opcode the queue does not take ends in the OPCODE fault, whichever row issues it (R175). -/
theorem issue_of_opcode {op : Nat} {core ctx : Nat} {e : Env} {s : State} (run : Env → State → Res)
    (h1 : s.headEnv core ctx = some e) (h2 : s.sramError (headAddr e.home ((s.core core).ctxs.get ctx)) 32 = false)
    (h3 : opAccepted (e.word % 256) (ctx % 4) = false) :
    issue op core ctx s run = (s.count (0x3010 + core) 7 64 1).applyStop e (.prog fOpcode 0 (e.word % 256)) := by
  unfold issue
  rw [h1]
  dsimp only
  rw [h2, h3, if_neg (by simp), if_pos (by simp)]

/-- A write that the dictionary accepts does what its object says and answers the status (R344, R346). -/
theorem act_of_accepts {s : State} {m : Master} {i k : Nat} (f : Act) (h : Accepts s m i k) :
    s.act m i k f = ((s.heard m.path).guarded m i k f).1.emit (.status m ((s.heard m.path).guarded m i k f).2) := by
  unfold State.act
  obtain ⟨h1, h2, -⟩ := h
  rw [if_neg (by simp [h1]), if_neg (by simp [h2])]

/-- A path that does not answer changes nothing (R371, R408). -/
theorem act_of_unreached {s : State} {m : Master} {i k : Nat} (f : Act) (h : s.reaches m.path = false) : s.act m i k f = s := by
  unfold State.act
  rw [if_pos (by simp [h])]

end Sys2Proof.Machine
end

