-- ==== Sys2Proof/Laws/Tab.lean ====
section
/-! SUPPORT. The laws of tables: what a key reads as after each operation, and that every operation keeps the canonical
form (R23: a byte of memory is a key of a table). -/

namespace Sys2Proof.Machine

variable {α : Type} {d : Nat → α}

/-! ### Reading -/

@[simp] theorem Tab.get_empty (k : Nat) : (Tab.empty : Tab d).get k = d k := rfl

theorem Tab.find_insert_self (k : Nat) (v : α) (l : List (Nat × α)) (h : ∀ e ∈ l, e.1 ≠ k) :
    Tab.find d k (Tab.insert k v l) = v := by
  induction l with
  | nil => simp [Tab.insert, Tab.find]
  | cons x r ih =>
    have hx : k ≠ x.1 := fun e => h x (by simp) e.symm
    have hr := ih fun e he => h e (List.mem_cons_of_mem _ he)
    simp only [Tab.insert]
    split
    · simp [Tab.find]
    · simp [Tab.find, hx, hr]

theorem Tab.find_insert_other (k j : Nat) (v : α) (l : List (Nat × α)) (h : j ≠ k) :
    Tab.find d j (Tab.insert k v l) = Tab.find d j l := by
  induction l with
  | nil => simp [Tab.insert, Tab.find, h]
  | cons x r ih =>
    simp only [Tab.insert]
    split
    · simp [Tab.find, h]
    · simp [Tab.find, ih]

/-- Keeping entries whose key satisfies `p` changes nothing at such a key. -/
theorem Tab.find_filter_of_true (p : Nat → Bool) (j : Nat) (h : p j = true) (l : List (Nat × α)) :
    Tab.find d j (l.filter fun e => p e.1) = Tab.find d j l := by
  induction l with
  | nil => rfl
  | cons x r ih =>
    by_cases hx : p x.1 = true
    · simp [hx, Tab.find, ih]
    · have : j ≠ x.1 := fun e => hx (e ▸ h)
      simp [hx, Tab.find, this, ih]

/-- A key that no entry has reads as its default. -/
theorem Tab.find_of_absent (j : Nat) (l : List (Nat × α)) (h : ∀ e ∈ l, e.1 ≠ j) : Tab.find d j l = d j := by
  induction l with
  | nil => rfl
  | cons x r ih =>
    have hx : j ≠ x.1 := fun e => h x (by simp) e.symm
    simp [Tab.find, hx, ih fun e he => h e (List.mem_cons_of_mem _ he)]

theorem Tab.find_filter_of_false (p : Nat → Bool) (j : Nat) (h : p j = false) (l : List (Nat × α)) :
    Tab.find d j (l.filter fun e => p e.1) = d j := by
  refine Tab.find_of_absent j _ fun e he => ?_
  rintro rfl
  simp [List.mem_filter, h] at he

@[simp] theorem Tab.get_set_self [DecidableEq α] (t : Tab d) (k : Nat) (v : α) : (t.set k v).get k = v := by
  have h : ∀ e ∈ t.entries.filter (fun e => e.1 ≠ k), e.1 ≠ k := fun e he => by simpa using (List.mem_filter.1 he).2
  simp only [Tab.set, Tab.get]
  split
  · next hv => rw [Tab.find_of_absent k _ h, hv]
  · exact Tab.find_insert_self k v _ h

theorem Tab.get_set_of_ne [DecidableEq α] (t : Tab d) {k j : Nat} (v : α) (h : j ≠ k) : (t.set k v).get j = t.get j := by
  have hf : Tab.find d j (t.entries.filter fun e => decide (e.1 ≠ k)) = Tab.find d j t.entries :=
    Tab.find_filter_of_true (fun n => decide (n ≠ k)) j (by simpa using h) _
  simp only [Tab.set, Tab.get]
  split
  · exact hf
  · rw [Tab.find_insert_other k j v _ h, hf]

theorem Tab.get_set [DecidableEq α] (t : Tab d) (k j : Nat) (v : α) :
    (t.set k v).get j = if j = k then v else t.get j := by
  split
  · next h => rw [h, Tab.get_set_self]
  · next h => exact Tab.get_set_of_ne t v h

@[simp] theorem Tab.get_modify_self [DecidableEq α] (t : Tab d) (k : Nat) (f : α → α) : (t.modify k f).get k = f (t.get k) := by
  simp [Tab.modify]

theorem Tab.get_modify_of_ne [DecidableEq α] (t : Tab d) {k j : Nat} (f : α → α) (h : j ≠ k) :
    (t.modify k f).get j = t.get j := Tab.get_set_of_ne t _ h

theorem Tab.get_clear (t : Tab d) (lo hi j : Nat) :
    (t.clear lo hi).get j = if lo ≤ j ∧ j < hi then d j else t.get j := by
  have h := Tab.find_filter_of_true (d := d) (fun n => decide (n < lo) || decide (hi ≤ n)) j
  have h' := Tab.find_filter_of_false (d := d) (fun n => decide (n < lo) || decide (hi ≤ n)) j
  simp only [Tab.clear, Tab.get]
  split
  · next hj => exact h' (by simp; omega) _
  · next hj => exact h (by simp; omega) _

theorem Tab.get_keep (t : Tab d) (p : Nat → Bool) (j : Nat) :
    (t.keep p).get j = if p j then t.get j else d j := by
  simp only [Tab.keep, Tab.get]
  split
  · next h => exact Tab.find_filter_of_true p j h _
  · next h => exact Tab.find_filter_of_false p j (by simpa using h) _

theorem Tab.get_setList_of_lt [DecidableEq α] (l : List α) (t : Tab d) {k j : Nat} (h : j < k) :
    (t.setList k l).get j = t.get j := by
  induction l generalizing t k with
  | nil => rfl
  | cons v r ih => rw [Tab.setList, ih _ (Nat.lt_succ_of_lt h), Tab.get_set_of_ne t v (Nat.ne_of_lt h)]

/-- A list written at consecutive keys. -/
theorem Tab.get_setList [DecidableEq α] (l : List α) (t : Tab d) (k j : Nat) :
    (t.setList k l).get j = if k ≤ j then l[j - k]?.getD (t.get j) else t.get j := by
  induction l generalizing t k with
  | nil => simp [Tab.setList]
  | cons v r ih =>
    rw [Tab.setList, ih, Tab.get_set]
    rcases Nat.lt_trichotomy j k with h | rfl | h
    · rw [if_neg (by omega), if_neg (by omega), if_neg (by omega)]
    · rw [if_neg (by omega), if_pos rfl, if_pos (Nat.le_refl _)]
      simp
    · obtain ⟨i, rfl⟩ : ∃ i, j = k + 1 + i := ⟨j - (k + 1), by omega⟩
      rw [if_pos (by omega), if_neg (by omega), if_pos (by omega)]
      rw [show k + 1 + i - (k + 1) = i by omega, show k + 1 + i - k = i + 1 by omega, List.getElem?_cons_succ]

/-! ### The canonical form -/

theorem Tab.empty_wf : (Tab.empty : Tab d).wf := by simp [Tab.wf, Tab.empty]

theorem Tab.filter_wf (t : Tab d) (p : Nat × α → Bool) (h : t.wf) : (⟨t.entries.filter p⟩ : Tab d).wf :=
  ⟨h.1.filter p, fun e he => h.2 e (List.mem_of_mem_filter he)⟩

theorem Tab.clear_wf (t : Tab d) (lo hi : Nat) (h : t.wf) : (t.clear lo hi).wf := Tab.filter_wf t _ h

theorem Tab.keep_wf (t : Tab d) (p : Nat → Bool) (h : t.wf) : (t.keep p).wf := Tab.filter_wf t _ h

theorem Tab.mem_insert (k : Nat) (v : α) (l : List (Nat × α)) (e : Nat × α) :
    e ∈ Tab.insert k v l ↔ e = (k, v) ∨ e ∈ l := by
  induction l with
  | nil => simp [Tab.insert]
  | cons x r ih =>
    simp only [Tab.insert]
    split
    · simp
    · simp [ih, or_left_comm]

theorem Tab.insert_pairwise (k : Nat) (v : α) (l : List (Nat × α)) (hl : l.Pairwise fun a b => a.1 < b.1)
    (hk : ∀ e ∈ l, e.1 ≠ k) : (Tab.insert k v l).Pairwise fun a b => a.1 < b.1 := by
  induction l with
  | nil => simp [Tab.insert]
  | cons x r ih =>
    have hx : x.1 ≠ k := hk x (by simp)
    rw [List.pairwise_cons] at hl
    simp only [Tab.insert]
    split
    · next h =>
      simp only [List.pairwise_cons, List.mem_cons]
      exact ⟨fun e he => by rcases he with rfl | he; exacts [h, Nat.lt_trans h (hl.1 e he)], hl⟩
    · next h =>
      rw [List.pairwise_cons]
      refine ⟨fun e he => ?_, ih hl.2 fun e he => hk e (List.mem_cons_of_mem _ he)⟩
      rcases (Tab.mem_insert k v r e).1 he with rfl | he
      · exact Nat.lt_of_le_of_ne (Nat.not_lt.1 h) hx
      · exact hl.1 e he

theorem Tab.set_wf [DecidableEq α] (t : Tab d) (k : Nat) (v : α) (h : t.wf) : (t.set k v).wf := by
  have hf : (⟨t.entries.filter fun e => decide (e.1 ≠ k)⟩ : Tab d).wf := Tab.filter_wf t _ h
  have hk : ∀ e ∈ t.entries.filter (fun e => decide (e.1 ≠ k)), e.1 ≠ k := fun e he => by simpa using (List.mem_filter.1 he).2
  simp only [Tab.set]
  split
  · exact hf
  · next hv =>
    refine ⟨Tab.insert_pairwise k v _ hf.1 hk, fun e he => ?_⟩
    rcases (Tab.mem_insert k v _ e).1 he with rfl | he
    · exact hv
    · exact hf.2 e he

theorem Tab.modify_wf [DecidableEq α] (t : Tab d) (k : Nat) (f : α → α) (h : t.wf) : (t.modify k f).wf := Tab.set_wf t k _ h

theorem Tab.setList_wf [DecidableEq α] (l : List α) (t : Tab d) (k : Nat) (h : t.wf) : (t.setList k l).wf := by
  induction l generalizing t k with
  | nil => exact h
  | cons v r ih => exact ih _ _ (Tab.set_wf t k v h)

/-- Writing a list of cells one after another keeps the form. -/
theorem Tab.foldl_set_wf [DecidableEq α] {β : Type} (l : List β) (f : β → Nat) (g : β → α) (t : Tab d) (h : t.wf) :
    (l.foldl (fun t c => t.set (f c) (g c)) t).wf := by
  induction l generalizing t with
  | nil => exact h
  | cons c r ih => exact ih _ (Tab.set_wf t _ _ h)

theorem Tab.fill_pairwise [DecidableEq α] (k : Nat) (f : Nat → α) (n : Nat) :
    ((List.range n).filterMap fun i => if f i = d (k + i) then none else some (k + i, f i)).Pairwise fun a b => a.1 < b.1 := by
  rw [List.pairwise_filterMap]
  refine (List.pairwise_lt_range (n := n)).imp fun hab b hb b' hb' => ?_
  simp only [Option.ite_none_left_eq_some, Option.some.injEq] at hb hb'
  rw [← hb.2, ← hb'.2]
  simpa using hab

theorem Tab.mem_fill [DecidableEq α] (k : Nat) (f : Nat → α) (n : Nat) (e : Nat × α)
    (h : e ∈ (List.range n).filterMap fun i => if f i = d (k + i) then none else some (k + i, f i)) :
    k ≤ e.1 ∧ e.1 < k + n ∧ e.2 ≠ d e.1 := by
  simp only [List.mem_filterMap, List.mem_range, Option.ite_none_left_eq_some, Option.some.injEq] at h
  obtain ⟨i, hi, hne, rfl⟩ := h
  exact ⟨Nat.le_add_right _ _, Nat.add_lt_add_left hi _, hne⟩

theorem Tab.fill_wf [DecidableEq α] (t : Tab d) (k n : Nat) (f : Nat → α) (h : t.wf) : (t.fill k n f).wf := by
  have lo : ∀ e ∈ t.entries.filter (fun e => decide (e.1 < k)), e.1 < k := fun e he => by simpa using (List.mem_filter.1 he).2
  have hi : ∀ e ∈ t.entries.filter (fun e => decide (k + n ≤ e.1)), k + n ≤ e.1 := fun e he => by
    simpa using (List.mem_filter.1 he).2
  refine ⟨?_, fun e he => ?_⟩
  · simp only [Tab.fill]
    rw [List.pairwise_append, List.pairwise_append]
    refine ⟨⟨h.1.filter _, Tab.fill_pairwise k f n, fun a ha b hb => ?_⟩, h.1.filter _, fun a ha b hb => ?_⟩
    · exact Nat.lt_of_lt_of_le (lo a ha) (Tab.mem_fill k f n b hb).1
    · rcases List.mem_append.1 ha with ha | ha
      · exact Nat.lt_of_lt_of_le (lo a ha) (Nat.le_trans (Nat.le_add_right _ _) (hi b hb))
      · exact Nat.lt_of_lt_of_le (Tab.mem_fill k f n a ha).2.1 (hi b hb)
  · simp only [Tab.fill, List.mem_append] at he
    rcases he with (he | he) | he
    · exact h.2 e (List.mem_of_mem_filter he)
    · exact (Tab.mem_fill k f n e he).2.2
    · exact h.2 e (List.mem_of_mem_filter he)

/-! ### Reading after a fill -/

theorem Tab.find_append_right (l r : List (Nat × α)) (j : Nat) (h : ∀ e ∈ l, e.1 ≠ j) :
    Tab.find d j (l ++ r) = Tab.find d j r := by
  induction l with
  | nil => rfl
  | cons x l ih =>
    have hx : j ≠ x.1 := fun e => h x (by simp) e.symm
    simp [Tab.find, hx, ih fun e he => h e (List.mem_cons_of_mem _ he)]

theorem Tab.find_append_left (l r : List (Nat × α)) (j : Nat) (h : ∀ e ∈ r, e.1 ≠ j) :
    Tab.find d j (l ++ r) = Tab.find d j l := by
  induction l with
  | nil => exact Tab.find_of_absent j r h
  | cons x l ih => simp [Tab.find, ih]

theorem Tab.find_fill [DecidableEq α] (k : Nat) (f : Nat → α) (n i : Nat) (h : i < n) :
    Tab.find d (k + i) ((List.range n).filterMap fun i => if f i = d (k + i) then none else some (k + i, f i)) = f i := by
  induction n with
  | zero => omega
  | succ n ih =>
    rw [List.range_succ, List.filterMap_append]
    by_cases hi : i < n
    · rw [Tab.find_append_left _ _ _ ?_, ih hi]
      intro e he
      simp only [List.filterMap_cons, List.filterMap_nil] at he
      split at he
      · simp at he
      · next v hv =>
        simp only [Option.ite_none_left_eq_some, Option.some.injEq] at hv
        simp only [List.mem_singleton] at he
        rw [he, ← hv.2]
        simp only [ne_eq]
        omega
    · obtain rfl : i = n := by omega
      rw [Tab.find_append_right _ _ _ fun e he hek => ?_]
      · simp only [List.filterMap_cons, List.filterMap_nil]
        split
        · next hv =>
          simp only [ite_eq_left_iff, reduceCtorEq, imp_false, Decidable.not_not] at hv
          simp [Tab.find, hv]
        · next v hv =>
          simp only [Option.ite_none_left_eq_some, Option.some.injEq] at hv
          simp [Tab.find, ← hv.2]
      · have := (Tab.mem_fill k f i e he).2.1
        omega

theorem Tab.get_fill_of_mem [DecidableEq α] (t : Tab d) (k n : Nat) (f : Nat → α) (j : Nat) (h1 : k ≤ j) (h2 : j < k + n) :
    (t.fill k n f).get j = f (j - k) := by
  simp only [Tab.fill, Tab.get]
  rw [Tab.find_append_left _ _ _ fun e he hek => ?_, Tab.find_append_right _ _ _ fun e he hek => ?_]
  · have hf := Tab.find_fill (d := d) k f n (j - k) (by omega)
    rwa [show k + (j - k) = j by omega] at hf
  · have := (List.mem_filter.1 he).2
    simp only [decide_eq_true_eq] at this
    omega
  · have := (List.mem_filter.1 he).2
    simp only [decide_eq_true_eq] at this
    omega

theorem Tab.get_fill_of_lt [DecidableEq α] (t : Tab d) (k n : Nat) (f : Nat → α) (j : Nat) (h : j < k) :
    (t.fill k n f).get j = t.get j := by
  simp only [Tab.fill, Tab.get]
  rw [Tab.find_append_left _ _ _ fun e he hek => ?_, Tab.find_append_left _ _ _ fun e he hek => ?_]
  · exact Tab.find_filter_of_true (fun m => decide (m < k)) j (by simpa using h) _
  · have := (Tab.mem_fill k f n e he).1
    omega
  · have := (List.mem_filter.1 he).2
    simp only [decide_eq_true_eq] at this
    omega

theorem Tab.get_fill_of_ge [DecidableEq α] (t : Tab d) (k n : Nat) (f : Nat → α) (j : Nat) (h : k + n ≤ j) :
    (t.fill k n f).get j = t.get j := by
  simp only [Tab.fill, Tab.get]
  rw [Tab.find_append_right _ _ _ fun e he hek => ?_]
  · exact Tab.find_filter_of_true (fun m => decide (k + n ≤ m)) j (by simpa using h) _
  · rcases List.mem_append.1 he with he | he
    · have := (List.mem_filter.1 he).2
      simp only [decide_eq_true_eq] at this
      omega
    · have := (Tab.mem_fill k f n e he).2.1
      omega

theorem Tab.get_fill [DecidableEq α] (t : Tab d) (k n : Nat) (f : Nat → α) (j : Nat) :
    (t.fill k n f).get j = if k ≤ j ∧ j < k + n then f (j - k) else t.get j := by
  by_cases h1 : j < k
  · rw [Tab.get_fill_of_lt t k n f j h1, if_neg (by omega)]
  · by_cases h2 : j < k + n
    · rw [Tab.get_fill_of_mem t k n f j (by omega) h2, if_pos (by omega)]
    · rw [Tab.get_fill_of_ge t k n f j (by omega), if_neg (by omega)]

end Sys2Proof.Machine
end

