-- ==== Sys2Proof/Laws/Keeps.lean ====
section
/-! SUPPORT. What every operation of the model keeps: the queue of commands that wait, and the canonical form of the
tables (State.Canonical). One relation says both; here are its rules for the ways a definition is put together, and the
files beside this one hold its lemma for each operation. -/

namespace Sys2Proof.Machine

/-- From `u` to `s` the queue is as it was, and the tables are canonical if they were. -/
structure Keeps (u s : State) : Prop where
  pending : s.pending = u.pending
  canon   : u.Canonical → s.Canonical

/-- A result that may be absent satisfies `P` where it is there. -/
structure Keeps.Some {α : Type} (P : α → Prop) (x : Option α) : Prop where
  get : ∀ a, x = some a → P a

/-- A checked result satisfies `P` where the check passes. -/
structure Keeps.Ok {ε α : Type} (P : α → Prop) (x : Except ε α) : Prop where
  get : ∀ a, x = .ok a → P a

/-- A write keeps them. -/
structure Act.Keeps (f : Act) : Prop where
  run : ∀ {u s}, Machine.Keeps u s → Machine.Keeps u (f s).1

/-- The end of a command's attempt keeps them. -/
def Res.Keeps (u : State) : Res → Prop
  | .ok s => Machine.Keeps u s
  | .stop s _ => Machine.Keeps u s

variable {u s t : State} {α β ε : Type}

theorem Keeps.refl (s : State) : Keeps s s := ⟨rfl, id⟩

theorem Keeps.trans {a b c : State} (h : Keeps a b) (g : Keeps b c) : Keeps a c := ⟨g.1.trans h.1, g.2 ∘ h.2⟩

/-- A holding buffer in order: a word once, of the core's window. -/
def HeldOk (l : List HeldWord) : Prop := (l.map (·.word)).Nodup ∧ ∀ h ∈ l, h.word < 0x200000

theorem HeldOk.nil : HeldOk [] := ⟨List.nodup_nil, by simp⟩

theorem HeldOk.sublist {k l : List HeldWord} (h : HeldOk l) (g : k.Sublist l) : HeldOk k :=
  ⟨h.1.sublist (g.map _), fun x hx => h.2 x (g.subset hx)⟩

/-- An update of fields other than the cores: each table it changes stays canonical. -/
theorem Keeps.of (h : Keeps u s) (hp : t.pending = s.pending) (hc : t.cores = s.cores) (hm : s.mem.wf → t.mem.wf)
    (hb : s.sramBad.wf → t.sramBad.wf) (hk : s.bulkBad.wf → t.bulkBad.wf) (ho : s.objs.wf → t.objs.wf)
    (hq : s.parts.wf → t.parts.wf) : Keeps u t := by
  refine ⟨hp.trans h.pending, fun c => ?_⟩
  have c := h.canon c
  refine ⟨hm c.mem, hb c.sramBad, hk c.bulkBad, ho c.objs, hc ▸ c.cores, hq c.parts, fun n => ?_⟩
  simpa only [State.core, hc] using c.held n

/-- An update that changes none of the tables. -/
theorem Keeps.of_same (h : Keeps u s) (hp : t.pending = s.pending) (hc : t.cores = s.cores) (hm : t.mem = s.mem)
    (hb : t.sramBad = s.sramBad) (hk : t.bulkBad = s.bulkBad) (ho : t.objs = s.objs) (hq : t.parts = s.parts) : Keeps u t :=
  h.of hp hc (hm ▸ id) (hb ▸ id) (hk ▸ id) (ho ▸ id) (hq ▸ id)

/-- An update of cores: the holding buffer of each stays in order. -/
theorem Keeps.of_cores (h : Keeps u s) (hc : s.cores.wf → t.cores.wf) (hh : ∀ n, HeldOk (s.core n).held → HeldOk (t.core n).held)
    (ht : t = { s with cores := t.cores }) : Keeps u t := by
  refine ⟨by rw [ht]; exact h.pending, fun c => ?_⟩
  have c := h.canon c
  refine ⟨?_, ?_, ?_, ?_, hc c.cores, ?_, fun n => hh n (c.held n)⟩ <;> rw [ht]
  exacts [c.mem, c.sramBad, c.bulkBad, c.objs, c.parts]

/-- An update that changes none of the tables, as a record. -/
theorem Keeps.mk_same {redirects' : List Redirect} {syncs' : Tab syncReset} {colls' : List Coll} {collNext' mbDropped' entryNext' boreDrops'
    seqNext' seqEnd' msCount' msIndex' winDrops' bootCause' dutyLow' granted' intentRows' stateRows' freeCtr' : Nat} {engines' :
    Tab engineReset} {zeroJobs' : List ZeroJob} {rings' : Tab ringReset} {patrol' debts' shares' lasers' los' gates'
    laserLogged' laserBias' erases' tele' tests' accepted' onChipHash' : NatTab} {masters' : Tab masterReset} {sessions' : Tab
    sessionReset} {mbWaiting' : Option DictReq} {bar2' : ByteTab} {mbState' : MbState} {mbIrq' serverUp' gapDue' pwrGood'
    tripLow' wakeDue' selfRefresh' keysGone' jtagOpen' spDown0' spDown1' : Bool} {mbTag' : BitVec 16} {winBase' : BitVec 18}
    {chain' : Chain} {conns' : Tab connReset} {keys' : Tab keyReset} {job' : Job} {links' : Tab linkReset} {streams' : Tab
    streamReset} {log' plog' pwait' : List Event} {bootSt' : BootSt} {store' : Option (Nat × Nat × Nat × Nat)} {dutyDue' : List
    Nat} {flash' : FlashTab} {member' : Option (Word × Nat)} {network' : Option (List Nat)} {spdm' : Tab spdmReset} {jobKeys' :
    Tab jobKeyReset} {pkgRun' : Option PkgRun} {out' : List Output}
    (h : Keeps u s) :
    Keeps u (State.mk s.pending s.objs s.mem s.sramBad s.bulkBad s.cores redirects' syncs' s.parts colls' collNext' engines' zeroJobs'
    rings' patrol' debts' shares' masters' sessions' mbWaiting' bar2' mbState' mbIrq' mbTag' winBase' mbDropped' serverUp'
    chain' conns' keys' entryNext' boreDrops' job' links' streams' lasers' los' gates' log' plog' pwait' seqNext' seqEnd'
    msCount' msIndex' gapDue' winDrops' bootSt' pwrGood' tripLow' bootCause' store' wakeDue' selfRefresh' dutyLow' granted'
    dutyDue' laserLogged' laserBias' erases' tele' tests' flash' accepted' onChipHash' member' network' intentRows' stateRows'
    keysGone' jtagOpen' spdm' jobKeys' pkgRun' spDown0' spDown1' freeCtr' out') :=
  h.of_same rfl rfl rfl rfl rfl rfl rfl

/-- An update of fields other than the cores, as a record. -/
theorem Keeps.mk_tabs {redirects' : List Redirect} {syncs' : Tab syncReset} {colls' : List Coll} {collNext' mbDropped' entryNext' boreDrops'
    seqNext' seqEnd' msCount' msIndex' winDrops' bootCause' dutyLow' granted' intentRows' stateRows' freeCtr' : Nat} {engines' :
    Tab engineReset} {zeroJobs' : List ZeroJob} {rings' : Tab ringReset} {patrol' debts' shares' lasers' los' gates'
    laserLogged' laserBias' erases' tele' tests' accepted' onChipHash' : NatTab} {masters' : Tab masterReset} {sessions' : Tab
    sessionReset} {mbWaiting' : Option DictReq} {bar2' : ByteTab} {mbState' : MbState} {mbIrq' serverUp' gapDue' pwrGood'
    tripLow' wakeDue' selfRefresh' keysGone' jtagOpen' spDown0' spDown1' : Bool} {mbTag' : BitVec 16} {winBase' : BitVec 18}
    {chain' : Chain} {conns' : Tab connReset} {keys' : Tab keyReset} {job' : Job} {links' : Tab linkReset} {streams' : Tab
    streamReset} {log' plog' pwait' : List Event} {bootSt' : BootSt} {store' : Option (Nat × Nat × Nat × Nat)} {dutyDue' : List
    Nat} {flash' : FlashTab} {member' : Option (Word × Nat)} {network' : Option (List Nat)} {spdm' : Tab spdmReset} {jobKeys' :
    Tab jobKeyReset} {pkgRun' : Option PkgRun} {out' : List Output} {objs' : ObjTab} {mem' : ByteTab} {sramBad' : NatTab}
    {bulkBad' : NatTab} {parts' : Tab partReset}
    (h : Keeps u s) (hm : s.mem.wf → mem'.wf) (hb : s.sramBad.wf → sramBad'.wf) (hk : s.bulkBad.wf → bulkBad'.wf)
    (ho : s.objs.wf → objs'.wf) (hq : s.parts.wf → parts'.wf) :
    Keeps u (State.mk s.pending objs' mem' sramBad' bulkBad' s.cores redirects' syncs' parts' colls' collNext' engines' zeroJobs' rings'
    patrol' debts' shares' masters' sessions' mbWaiting' bar2' mbState' mbIrq' mbTag' winBase' mbDropped' serverUp' chain'
    conns' keys' entryNext' boreDrops' job' links' streams' lasers' los' gates' log' plog' pwait' seqNext' seqEnd' msCount'
    msIndex' gapDue' winDrops' bootSt' pwrGood' tripLow' bootCause' store' wakeDue' selfRefresh' dutyLow' granted' dutyDue'
    laserLogged' laserBias' erases' tele' tests' flash' accepted' onChipHash' member' network' intentRows' stateRows' keysGone'
    jtagOpen' spdm' jobKeys' pkgRun' spDown0' spDown1' freeCtr' out') :=
  h.of rfl rfl hm hb hk ho hq

/-! ### Parts of a definition -/

theorem Keeps.ite {c : Prop} [Decidable c] {a b : State} (ha : Keeps u a) (hb : Keeps u b) : Keeps u (if c then a else b) := by
  split <;> assumption

theorem Keeps.ite1 {c : Prop} [Decidable c] {a b : State × β} (ha : Keeps u a.1) (hb : Keeps u b.1) : Keeps u (if c then a else b).1 := by
  split <;> assumption

theorem Keeps.ite2 {c : Prop} [Decidable c] {a b : β × State} (ha : Keeps u a.2) (hb : Keeps u b.2) : Keeps u (if c then a else b).2 := by
  split <;> assumption

theorem Keeps.pair1 {b : β} (h : Keeps u s) : Keeps u (s, b).1 := h
theorem Keeps.pair2 {b : β} (h : Keeps u s) : Keeps u (b, s).2 := h

theorem Keeps.fold {l : List α} {f : State → α → State} (h : Keeps u s) (hf : ∀ s a, Keeps u s → Keeps u (f s a)) :
    Keeps u (l.foldl f s) := by
  induction l generalizing s with
  | nil => exact h
  | cons a l ih => exact ih (hf s a h)

theorem Keeps.fold1 {l : List α} {f : State × β → α → State × β} {x : State × β} (h : Keeps u x.1)
    (hf : ∀ x a, Keeps u x.1 → Keeps u (f x a).1) : Keeps u (l.foldl f x).1 := by
  induction l generalizing x with
  | nil => exact h
  | cons a l ih => exact ih (hf x a h)

theorem Keeps.of_some {x : Option α} {P : α → Prop} {a : α} (e : x = some a) (h : Keeps.Some P x) : P a := h.get a e

theorem Keeps.of_pair {x : State × β} {b : β} (e : x = (s, b)) (h : Keeps u x.1) : Keeps u s := by rw [e] at h; exact h

theorem Keeps.of_ok {x : Except ε α} {P : α → Prop} {a : α} (e : x = .ok a) (h : Keeps.Ok P x) : P a := h.get a e

theorem Keeps.getD {x : Option State} (hx : Keeps.Some (Keeps u) x) (h : Keeps u s) : Keeps u (x.getD s) := by
  cases x with
  | none => exact h
  | some t => exact hx.get t rfl

theorem Keeps.some_some {P : α → Prop} {a : α} (h : P a) : Keeps.Some P (some a) := ⟨by rintro _ ⟨⟩; exact h⟩
theorem Keeps.some_none {P : α → Prop} : Keeps.Some P (none : Option α) := ⟨by rintro _ ⟨⟩⟩
theorem Keeps.some_ite {P : α → Prop} {c : Prop} [Decidable c] {a b : Option α} (ha : Keeps.Some P a) (hb : Keeps.Some P b) :
    Keeps.Some P (if c then a else b) := by split <;> assumption
theorem Keeps.ok_ok {P : α → Prop} {a : α} (h : P a) : Keeps.Ok P (.ok a : Except ε α) := ⟨by rintro _ ⟨⟩; exact h⟩
theorem Keeps.ok_pure {P : α → Prop} {a : α} (h : P a) : Keeps.Ok P (pure a : Except ε α) := ⟨by rintro _ ⟨⟩; exact h⟩
theorem Keeps.ok_error {P : α → Prop} {e : ε} : Keeps.Ok P (.error e : Except ε α) := ⟨by rintro _ ⟨⟩⟩
theorem Keeps.ok_ite {P : α → Prop} {c : Prop} [Decidable c] {a b : Except ε α} (ha : Keeps.Ok P a) (hb : Keeps.Ok P b) :
    Keeps.Ok P (if c then a else b) := by split <;> assumption
theorem Keeps.ok_bind {P : α → Prop} (Q : β → Prop) {x : Except ε β} {f : β → Except ε α} (hx : Keeps.Ok Q x)
    (hf : ∀ b, Q b → Keeps.Ok P (f b)) : Keeps.Ok P (x >>= f) := by
  refine ⟨fun a ha => ?_⟩
  cases x with
  | error e => cases ha
  | ok b => exact (hf b (hx.get b rfl)).get a ha

theorem Keeps.ok_map {P : α → Prop} {Q : β → Prop} {x : Except ε β} {f : β → α} (hx : Keeps.Ok Q x) (hf : ∀ b, Q b → P (f b)) :
    Keeps.Ok P (x.map f) := by
  refine ⟨fun a ha => ?_⟩
  cases x with
  | error e => cases ha
  | ok b => cases ha; exact hf b (hx.get b rfl)

theorem Keeps.ok_any {x : Except ε α} : Keeps.Ok (fun _ => True) x := ⟨fun _ _ => trivial⟩

theorem Keeps.ok_bind_st {P : α → Prop} {x : Except ε State} {f : State → Except ε α} (hx : Keeps.Ok (Keeps u) x)
    (hf : ∀ b, Keeps u b → Keeps.Ok P (f b)) : Keeps.Ok P (x >>= f) := Keeps.ok_bind _ hx hf

theorem Keeps.ok_bind_snd {P : α → Prop} {x : Except ε (β × State)} {f : β × State → Except ε α}
    (hx : Keeps.Ok (fun p => Keeps u p.2) x) (hf : ∀ b, Keeps u b.2 → Keeps.Ok P (f b)) : Keeps.Ok P (x >>= f) :=
  Keeps.ok_bind _ hx hf

theorem Keeps.ok_bind_trd {γ : Type} {P : α → Prop} {x : Except ε (β × γ × State)} {f : β × γ × State → Except ε α}
    (hx : Keeps.Ok (fun p => Keeps u p.2.2) x) (hf : ∀ b, Keeps u b.2.2 → Keeps.Ok P (f b)) : Keeps.Ok P (x >>= f) :=
  Keeps.ok_bind _ hx hf

theorem Keeps.ok_bind_any {P : α → Prop} {x : Except ε β} {f : β → Except ε α} (hf : ∀ b, Keeps.Ok P (f b)) : Keeps.Ok P (x >>= f) :=
  Keeps.ok_bind _ Keeps.ok_any fun b _ => hf b

theorem Keeps.ok_map_st {P : α → Prop} {x : Except ε State} {f : State → α} (hx : Keeps.Ok (Keeps u) x)
    (hf : ∀ b, Keeps u b → P (f b)) : Keeps.Ok P (x.map f) := Keeps.ok_map hx hf

theorem Keeps.ok_map_snd {P : α → Prop} {x : Except ε (β × State)} {f : β × State → α} (hx : Keeps.Ok (fun p => Keeps u p.2) x)
    (hf : ∀ b, Keeps u b.2 → P (f b)) : Keeps.Ok P (x.map f) := Keeps.ok_map hx hf

theorem Keeps.ok_map_any {P : α → Prop} {x : Except ε β} {f : β → α} (hf : ∀ b, P (f b)) : Keeps.Ok P (x.map f) :=
  Keeps.ok_map Keeps.ok_any fun b _ => hf b

theorem Keeps.ok_paramFault {P : α → Prop} : Keeps.Ok P (paramFault : Chk α) := Keeps.ok_error

theorem Keeps.ok_foldlM {P : β → Prop} {l : List α} {f : β → α → Except ε β} {x : β} (h : P x)
    (hf : ∀ x a, P x → Keeps.Ok P (f x a)) : Keeps.Ok P (l.foldlM f x) := by
  induction l generalizing x with
  | nil => exact Keeps.ok_pure h
  | cons a l ih =>
    rw [List.foldlM_cons]
    exact Keeps.ok_bind P (hf x a h) fun b hb => ih hb

theorem Res.keeps_ok (h : Machine.Keeps u s) : Res.Keeps u (.ok s) := h
theorem Res.keeps_stop {why : Stop} (h : Machine.Keeps u s) : Res.Keeps u (.stop s why) := h
theorem Res.keeps_ite {c : Prop} [Decidable c] {a b : Res} (ha : Res.Keeps u a) (hb : Res.Keeps u b) : Res.Keeps u (if c then a else b) := by
  split <;> assumption
theorem Res.keeps_of {x : Chk State} (h : Machine.Keeps u s) (hx : Keeps.Ok (Machine.Keeps u) x) : Res.Keeps u (Res.of s x) := by
  cases x with
  | error e => exact h
  | ok t => exact hx.get t rfl

/-! ### Tables -/

theorem Tab.wf_set [DecidableEq α] {d : Nat → α} {t : Tab d} {k : Nat} {v : α} (h : t.wf) : (t.set k v).wf := Tab.set_wf t k v h

/-- The device after reset lists nothing. -/
theorem State.reset_canonical_mem : State.reset.mem.wf := Tab.empty_wf

end Sys2Proof.Machine
end

