-- ==== Sys2Proof/Laws/KeepsOps.lean ====
section
/-! SUPPORT. Every operation keeps the queue and the canonical tables: the registers, memory, events, queues of a core, Bore's packets, the dictionary's way to a write, the generators. -/

namespace Sys2Proof.Machine

set_option linter.unusedTactic false
set_option linter.unreachableTactic false

variable {u s : State}

/-! ### Machine/Ops.lean -/

/-- A core written whose holding buffer is in order. -/
theorem State.setCore_keeps' {n : ℕ} {c : Core} (h : Keeps u s) (hc : s.Canonical → HeldOk c.held) : Keeps u (s.setCore n c) := by
  refine ⟨h.pending, fun w => ?_⟩
  have w := h.canon w
  refine ⟨w.mem, w.sramBad, w.bulkBad, w.objs, Tab.wf_set w.cores, w.parts, fun k => ?_⟩
  change HeldOk ((s.cores.set n c).get k).held
  rw [Tab.get_set]
  split
  exacts [hc w, w.held k]

/-- A core written with the holding buffer it has. -/
theorem State.setCore_keeps {n : ℕ} {c : Core} (h : Keeps u s) (hc : c.held = (s.core n).held) : Keeps u (s.setCore n c) :=
  State.setCore_keeps' h fun w => hc ▸ w.held n

theorem State.setHeld_keeps' {n : ℕ} {l : List HeldWord} (h : Keeps u s) (hl : s.Canonical → HeldOk l) : Keeps u (s.setHeld n l) := by
  unfold State.setHeld
  refine Keeps.of (State.setCore_keeps' h hl) rfl rfl id id id (fun w => Tab.wf_set w) id

theorem putHeld_wf (n : ℕ) (m : ByteTab) (l : List HeldWord) (h : m.wf) : (putHeld n m l).wf := by
  induction l generalizing m with
  | nil => exact h
  | cons x r ih => exact ih _ (Tab.setList_wf _ _ _ h)

theorem wf_ite {α : Type} {d : Nat → α} {c : Prop} [Decidable c] {a b : Tab d} (ha : a.wf) (hb : b.wf) : (if c then a else b).wf := by
  split <;> assumption

theorem clearBad_wf (t : NatTab) (n a k : ℕ) (h : t.wf) : (clearBad t n a k).wf := by
  unfold clearBad
  split
  exacts [h, Tab.clear_wf t _ _ h]

theorem State.setObj_keeps {a1 : ℕ} {a2 : ℕ} {a3 : ℕ} (h : Keeps u s) : Keeps u (State.setObj s a1 a2 a3) := h.of rfl rfl id id id (fun w => Tab.wf_set w) id

theorem State.count_keeps {a1 : ℕ} {a2 : ℕ} {a3 : ℕ} {a4 : ℕ} (h : Keeps u s) : Keeps u (State.count s a1 a2 a3 a4) := by
  unfold State.count
  repeat' first
    | with_reducible assumption
    | with_reducible apply State.setObj_keeps

theorem State.countSat_keeps {a1 : ℕ} {a2 : ℕ} {a3 : ℕ} {a4 : ℕ} (h : Keeps u s) : Keeps u (State.countSat s a1 a2 a3 a4) := by
  unfold State.countSat
  repeat' first
    | with_reducible assumption
    | with_reducible apply State.setObj_keeps

theorem State.setPart_keeps {a1 : ℕ} {a2 : Part} (h : Keeps u s) : Keeps u (State.setPart s a1 a2) := h.of rfl rfl id id id id fun w => Tab.wf_set w

theorem State.setSync_keeps {a1 : ℕ} {a2 : Sync} (h : Keeps u s) : Keeps u (State.setSync s a1 a2) := by
  unfold State.setSync
  repeat' first
    | with_reducible assumption
    | (fail_if_no_progress with_reducible refine Keeps.mk_same ?_)

theorem State.setConn_keeps {a1 : ℕ} {a2 : Conn} (h : Keeps u s) : Keeps u (State.setConn s a1 a2) := by
  unfold State.setConn
  repeat' first
    | with_reducible assumption
    | (fail_if_no_progress with_reducible refine Keeps.mk_same ?_)

theorem State.setLink_keeps {a1 : ℕ} {a2 : Link} (h : Keeps u s) : Keeps u (State.setLink s a1 a2) := by
  unfold State.setLink
  repeat' first
    | with_reducible assumption
    | (fail_if_no_progress with_reducible refine Keeps.mk_same ?_)

theorem State.setStream_keeps {a1 : ℕ} {a2 : Stream} (h : Keeps u s) : Keeps u (State.setStream s a1 a2) := by
  unfold State.setStream
  repeat' first
    | with_reducible assumption
    | (fail_if_no_progress with_reducible refine Keeps.mk_same ?_)

theorem State.each_keeps {a1 : List ℕ} {a2 : (State → ℕ → State)} (h : Keeps u s) (h2 : ∀ s n, Keeps u s → Keeps u (a2 s n)) : Keeps u (State.each s a1 a2) := Keeps.fold h h2

theorem State.emit_keeps {a1 : Output} (h : Keeps u s) : Keeps u (State.emit s a1) := by
  unfold State.emit
  repeat' first
    | with_reducible assumption
    | (fail_if_no_progress with_reducible refine Keeps.mk_same ?_)

theorem State.takeFree_keeps (h : Keeps u s) : Keeps u (State.takeFree s).2 := by
  unfold State.takeFree
  repeat' first
    | with_reducible assumption
    | (fail_if_no_progress with_reducible refine Keeps.mk_same ?_)

theorem State.logEvent_keeps {a1 : ℕ} {a2 : ℕ} {a3 : ℕ} (h : Keeps u s) : Keeps u (State.logEvent s a1 a2 a3) := by
  unfold State.logEvent
  repeat' first
    | with_reducible assumption
    | with_reducible apply State.count_keeps
    | with_reducible apply Keeps.ite
    | (lift_lets; intro x)
    | split
    | (fail_if_no_progress with_reducible refine Keeps.mk_same ?_)

theorem State.portWrites_keeps {a1 : ℕ} {a2 : ℕ} (h : Keeps u s) : Keeps u (State.portWrites s a1 a2) := by
  unfold State.portWrites
  exact Keeps.ite h (State.count_keeps h)

@[simp] theorem State.portWrites_mem (s : State) (c n : ℕ) : (s.portWrites c n).mem = s.mem := by
  unfold State.portWrites; split <;> rfl

@[simp] theorem State.portWrites_core (s : State) (c n : ℕ) : (s.portWrites c n).core = s.core := by
  unfold State.portWrites; split <;> rfl

@[simp] theorem State.portWrites_rawByte (s : State) (c n : ℕ) : (s.portWrites c n).rawByte = s.rawByte := by
  unfold State.portWrites; split <;> rfl

theorem State.flushHeld_keeps {a1 : ℕ} {a2 : ℕ} {a3 : ℕ} (h : Keeps u s) : Keeps u (State.flushHeld s a1 a2 a3) := by
  unfold State.flushHeld
  dsimp only
  split
  · exact h
  · refine State.portWrites_keeps (State.setHeld_keeps' (h.mk_tabs (putHeld_wf _ _ _) id id id id) fun w => ?_)
    exact HeldOk.sublist (w.held a1) List.filter_sublist

theorem State.countHost_keeps {a1 : ℕ} {a2 : ℕ} {a3 : ℕ} (h : Keeps u s) : Keeps u (State.countHost s a1 a2 a3) := by
  unfold State.countHost
  repeat' first
    | with_reducible assumption
    | with_reducible apply State.count_keeps
    | with_reducible apply Keeps.ite

theorem State.hostGet_keeps {a1 : ℕ} {a2 : ℕ} (h : Keeps u s) : Keeps u (State.hostGet s a1 a2) := by
  unfold State.hostGet
  extract_lets m w
  have hw : Keeps u w := Keeps.mk_same h
  clear_value w
  repeat' first
    | with_reducible assumption
    | with_reducible apply State.countHost_keeps
    | with_reducible apply State.emit_keeps
    | with_reducible apply Keeps.ite
    | (lift_lets; intro x)

theorem State.hostPut_keeps {a1 : ℕ} {a2 : List Byte} (h : Keeps u s) : Keeps u (State.hostPut s a1 a2) := by
  unfold State.hostPut
  repeat' first
    | with_reducible assumption
    | with_reducible apply State.countHost_keeps
    | with_reducible apply State.emit_keeps
    | with_reducible apply Keeps.ite

theorem State.countBulk_keeps {a1 : ℕ} {a2 : ℕ} {a3 : ℕ} (h : Keeps u s) : Keeps u (State.countBulk s a1 a2 a3) := by
  unfold State.countBulk
  repeat' first
    | with_reducible assumption
    | with_reducible apply State.count_keeps
    | with_reducible apply State.hostGet_keeps
    | with_reducible apply Keeps.ite
    | with_reducible refine Keeps.fold ?_ fun _ _ _ => ?_

theorem State.wakeQuad_keeps {a1 : ℕ} (h : Keeps u s) : Keeps u (State.wakeQuad s a1) := by
  unfold State.wakeQuad
  repeat' first
    | with_reducible assumption
    | with_reducible apply State.setObj_keeps
    | with_reducible apply State.count_keeps
    | with_reducible refine State.each_keeps ?_ (fun _ _ _ => ?_)
    | with_reducible refine State.setCore_keeps ?_ ?_
    | exact rfl
    | with_reducible apply Keeps.ite

theorem State.touch_keeps {a1 : ℕ} (h : Keeps u s) : Keeps u (State.touch s a1) := by
  unfold State.touch
  repeat' first
    | with_reducible assumption
    | with_reducible apply State.wakeQuad_keeps
    | with_reducible apply Keeps.ite

theorem State.putBytes_keeps {a1 : ℕ} {a2 : List Byte} (h : Keeps u s) : Keeps u (State.putBytes s a1 a2) := by
  unfold State.putBytes
  dsimp only
  split
  · exact h
  · have hx : Keeps u (if a1 < 0x80000000 then
        (s.touch a1).flushHeld (a1 / 0x8000000) (a1 % 0x8000000 / 64) ((a1 + a2.length - 1) % 0x8000000 / 64)
        else s.countBulk 2 a1 a2.length) :=
      Keeps.ite (State.flushHeld_keeps (State.touch_keeps h)) (State.countBulk_keeps h)
    refine hx.mk_tabs (Tab.fill_wf _ _ _ _) (fun w => ?_) (fun w => ?_) id id
    · exact wf_ite (clearBad_wf _ _ _ _ w) w
    · exact wf_ite w (clearBad_wf _ _ _ _ w)

theorem State.writeAt_keeps {a1 : ℕ} {a2 : List Byte} (h : Keeps u s) : Keeps u (State.writeAt s a1 a2) := by
  unfold State.writeAt
  repeat' first
    | with_reducible assumption
    | with_reducible apply State.putBytes_keeps

theorem State.clearScratch_keeps {a1 : ℕ} {a2 : ℕ} {a3 : ℕ} (h : Keeps u s) : Keeps u (State.clearScratch s a1 a2 a3) := by
  unfold State.clearScratch
  have hx := State.setHeld_keeps' (n := a1) h fun w => HeldOk.sublist (w.held a1)
    (List.filter_sublist (p := fun h : HeldWord => decide (h.word * 64 + 64 ≤ a2) || decide (a3 ≤ h.word * 64)))
  exact hx.mk_tabs (Tab.clear_wf _ _ _) (Tab.clear_wf _ _ _) id id id

theorem State.abortCore_keeps {a1 : ℕ} (h : Keeps u s) : Keeps u (State.abortCore s a1) := by
  unfold State.abortCore
  repeat' first
    | with_reducible assumption
    | with_reducible refine State.setCore_keeps ?_ ?_
    | exact rfl

theorem State.wipeVault_keeps {a1 : ℕ} {a2 : WipeTrigger} (h : Keeps u s) : Keeps u (State.wipeVault s a1 a2) := by
  unfold State.wipeVault
  repeat' first
    | with_reducible assumption
    | with_reducible apply State.abortCore_keeps
    | with_reducible apply State.clearScratch_keeps
    | with_reducible apply State.logEvent_keeps
    | with_reducible apply State.setObj_keeps
    | with_reducible apply State.count_keeps

theorem State.zeroScratch_keeps {a1 : ℕ} (h : Keeps u s) : Keeps u (State.zeroScratch s a1) := by
  unfold State.zeroScratch
  repeat' first
    | with_reducible assumption
    | with_reducible apply State.clearScratch_keeps

theorem State.reseed_keeps {a1 : ℕ} (h : Keeps u s) : Keeps u (State.reseed s a1) := by
  unfold State.reseed
  repeat' first
    | with_reducible assumption
    | with_reducible refine State.setCore_keeps ?_ ?_
    | exact rfl
    | (intro x; refine (fun (_ : Keeps u x) => ?_) ?_; on_goal 2 => unfold x; on_goal 1 => clear_value x)
    | (intro x)
    | (lift_lets; intro x)
    | (fail_if_no_progress with_reducible refine Keeps.mk_same ?_)

theorem State.tellLead_keeps {a1 : ℕ} {a2 : ℕ} (h : Keeps u s) : Keeps u (State.tellLead s a1 a2) := by
  unfold State.tellLead
  repeat' first
    | with_reducible assumption
    | with_reducible apply State.emit_keeps

theorem State.reportFailure_keeps {a1 : FailCause} (h : Keeps u s) : Keeps u (State.reportFailure s a1) := by
  unfold State.reportFailure
  repeat' first
    | with_reducible assumption
    | with_reducible apply State.tellLead_keeps

theorem State.settlePower_keeps (h : Keeps u s) : Keeps u (State.settlePower s) := by
  unfold State.settlePower
  repeat' first
    | with_reducible assumption
    | with_reducible apply State.logEvent_keeps
    | with_reducible apply State.setObj_keeps
    | with_reducible apply Keeps.ite

theorem State.enterHeld_keeps {a1 : ℕ} {a2 : ℕ} (h : Keeps u s) : Keeps u (State.enterHeld s a1 a2) := by
  unfold State.enterHeld
  repeat' first
    | with_reducible assumption
    | with_reducible apply State.setObj_keeps
    | with_reducible apply State.settlePower_keeps
    | with_reducible apply State.setPart_keeps

theorem State.hold_keeps {a1 : ℕ} {a2 : ℕ} (h : Keeps u s) : Keeps u (State.hold s a1 a2) := by
  unfold State.hold
  repeat' first
    | with_reducible assumption
    | with_reducible apply State.tellLead_keeps
    | with_reducible apply State.enterHeld_keeps

theorem State.programFault_keeps {a1 : ℕ} {a2 : ℕ} {a3 : ℕ} {a4 : ℕ} {a5 : ℕ} {a6 : ℕ} (h : Keeps u s) : Keeps u (State.programFault s a1 a2 a3 a4 a5 a6) := by
  unfold State.programFault
  repeat' first
    | with_reducible assumption
    | with_reducible apply State.logEvent_keeps
    | with_reducible apply State.setObj_keeps
    | with_reducible apply State.count_keeps
    | with_reducible apply State.hold_keeps
    | with_reducible apply Keeps.ite
    | (lift_lets; intro x; refine (fun (_ : Keeps u x) => ?_) ?_; on_goal 2 => unfold x; on_goal 1 => clear_value x)
    | split

theorem State.isolationNote_keeps {a1 : ℕ} {a2 : Option ℕ} (h : Keeps u s) : Keeps u (State.isolationNote s a1 a2) := by
  unfold State.isolationNote
  repeat' first
    | with_reducible assumption
    | with_reducible apply State.count_keeps
    | with_reducible apply State.logEvent_keeps
    | (lift_lets; intro x; refine (fun (_ : Keeps u x) => ?_) ?_; on_goal 2 => unfold x; on_goal 1 => clear_value x)
    | split

/-! ### Machine/Operands.lean -/

/-- A fault that concerns a slot is a fault still. -/
theorem Keeps.ok_atSlot {α : Type} {P : α → Prop} {n : ℕ} {x : Chk α} (h : Keeps.Ok P x) : Keeps.Ok P (atSlot n x) := by
  refine ⟨fun a e => ?_⟩
  unfold atSlot at e
  split at e <;> first | exact h.get a e | cases e

theorem storeCells_keeps {a1 : Cells} (h : Keeps u s) : Keeps u (storeCells s a1) := by
  unfold storeCells
  repeat' first
    | with_reducible assumption
    | with_reducible apply State.flushHeld_keeps
    | exact id
    | exact Tab.keep_wf _ _
    | exact Tab.foldl_set_wf _ _ _ _
    | with_reducible apply Keeps.ite
    | (lift_lets; intro x; refine (fun (_ : Keeps u x) => ?_) ?_; on_goal 2 => unfold x; on_goal 1 => clear_value x)
    | with_reducible refine Keeps.fold ?_ fun _ _ _ => ?_
    | (fail_if_no_progress with_reducible refine Keeps.mk_tabs ?_ ?_ ?_ ?_ ?_ ?_)

theorem commitCells_keeps {a1 : Cells} (h : Keeps u s) : Keeps.Ok (Keeps u) (commitCells s a1) := by
  unfold commitCells
  repeat' first
    | with_reducible assumption
    | with_reducible apply storeCells_keeps
    | (lift_lets; intro x)
    | with_reducible apply Keeps.ok_ok
    | with_reducible apply Keeps.ok_error
    | split

/-! ### Machine/BoreBase.lean -/

theorem State.countFrame_keeps {a1 : ℕ} {a2 : Packet} (h : Keeps u s) : Keeps u (State.countFrame s a1 a2) := by
  unfold State.countFrame
  repeat' first
    | with_reducible assumption
    | with_reducible apply State.count_keeps
    | split

theorem State.sendPacket_keeps {a1 : ℕ} {a2 : Packet} (h : Keeps u s) : Keeps u (State.sendPacket s a1 a2) := by
  unfold State.sendPacket
  repeat' first
    | with_reducible assumption
    | with_reducible apply State.emit_keeps
    | with_reducible apply State.countFrame_keeps
    | with_reducible apply State.count_keeps

theorem State.putHalves_keeps {a1 : ℕ} {a2 : ℕ} {a3 : List Byte} (h : Keeps u s) : Keeps u (State.putHalves s a1 a2 a3) := by
  induction a2 generalizing s a1 a3 with
  | zero => exact h
  | succ n ih =>
    unfold State.putHalves
    split
    · exact h
    · exact ih (Keeps.ite h (State.putBytes_keeps h))

theorem State.boreWrite_keeps {a1 : ℕ} {a2 : List Byte} (h : Keeps u s) : Keeps u (State.boreWrite s a1 a2) := by
  unfold State.boreWrite
  repeat' first
    | with_reducible assumption
    | with_reducible apply State.hostPut_keeps
    | with_reducible apply State.putBytes_keeps
    | with_reducible apply State.count_keeps
    | with_reducible apply State.putHalves_keeps
    | with_reducible apply Keeps.ite

theorem State.boreStore_keeps {a1 : ℕ} {a2 : ℕ} {a3 : List Byte} (h : Keeps u s) : Keeps u (State.boreStore s a1 a2 a3) := by
  unfold State.boreStore
  repeat' first
    | with_reducible assumption
    | with_reducible apply State.boreWrite_keeps
    | with_reducible apply Keeps.ite

theorem State.slotReady_keeps {a1 : ℕ} {a2 : ℕ} (h : Keeps u s) : Keeps u (State.slotReady s a1 a2) := by
  unfold State.slotReady
  repeat' first
    | with_reducible assumption
    | with_reducible refine State.setCore_keeps ?_ ?_
    | exact rfl

theorem State.recordEffect_keeps {a1 : ℕ} {a2 : ℕ} {a3 : ℕ} (h : Keeps u s) : Keeps u (State.recordEffect s a1 a2 a3) := by
  unfold State.recordEffect
  repeat' first
    | with_reducible assumption
    | with_reducible refine State.setCore_keeps ?_ ?_
    | exact rfl

theorem State.writeCqe_keeps {a1 : ℕ} {a2 : Word} {a3 : ℕ} {a4 : Bool} {a5 : Bool} {a6 : ℕ} {a7 : ℕ} (h : Keeps u s) : Keeps u (State.writeCqe s a1 a2 a3 a4 a5 a6 a7) := by
  unfold State.writeCqe
  repeat' first
    | with_reducible assumption
    | with_reducible apply State.boreStore_keeps
    | with_reducible apply State.setConn_keeps

theorem State.finish_keeps {a1 : ℕ} {a2 : WorkEntry} {a3 : ℕ} {a4 : Bool} {a5 : Bool} {a6 : ℕ} {a7 : ℕ} (h : Keeps u s) : Keeps u (State.finish s a1 a2 a3 a4 a5 a6 a7) := by
  unfold State.finish
  repeat' first
    | with_reducible assumption
    | with_reducible apply State.writeCqe_keeps
    | with_reducible apply State.setConn_keeps
    | with_reducible apply State.slotReady_keeps
    | with_reducible apply State.recordEffect_keeps
    | with_reducible apply Keeps.ite
    | (lift_lets; intro x)
    | split

theorem State.finishSend_keeps {a1 : ℕ} {a2 : WorkEntry} {a3 : ℕ} {a4 : ℕ} {a5 : ℕ} (h : Keeps u s) : Keeps u (State.finishSend s a1 a2 a3 a4 a5) := by
  unfold State.finishSend
  repeat' first
    | with_reducible assumption
    | with_reducible apply State.finish_keeps
    | with_reducible apply State.setConn_keeps

theorem State.finishRecv_keeps {a1 : ℕ} {a2 : WorkEntry} {a3 : ℕ} {a4 : ℕ} {a5 : Bool} {a6 : ℕ} (h : Keeps u s) : Keeps u (State.finishRecv s a1 a2 a3 a4 a5 a6) := by
  unfold State.finishRecv
  repeat' first
    | with_reducible assumption
    | with_reducible apply State.finish_keeps
    | with_reducible apply State.setConn_keeps

theorem State.flushConn_keeps {a1 : ℕ} (h : Keeps u s) : Keeps u (State.flushConn s a1) := by
  unfold State.flushConn
  repeat' first
    | with_reducible assumption
    | with_reducible apply State.finishSend_keeps
    | with_reducible apply State.finishRecv_keeps
    | (lift_lets; intro x; refine (fun (_ : Keeps u x) => ?_) ?_; on_goal 2 => unfold x; on_goal 1 => clear_value x)
    | with_reducible refine Keeps.fold ?_ fun _ _ _ => ?_

theorem State.breakChains_keeps {a1 : ℕ} (h : Keeps u s) : Keeps u (State.breakChains s a1) := by
  unfold State.breakChains
  repeat' first
    | with_reducible assumption
    | with_reducible apply State.finishSend_keeps
    | with_reducible apply Keeps.ite
    | with_reducible refine Keeps.fold ?_ fun _ _ _ => ?_
    | split

theorem State.countOpen_keeps (h : Keeps u s) : Keeps u (State.countOpen s) := by
  unfold State.countOpen
  repeat' first
    | with_reducible assumption
    | with_reducible apply State.setObj_keeps

theorem State.connError_keeps {a1 : ℕ} {a2 : ℕ} (h : Keeps u s) : Keeps u (State.connError s a1 a2) := by
  unfold State.connError
  repeat' first
    | with_reducible assumption
    | with_reducible apply State.setConn_keeps
    | with_reducible apply State.countOpen_keeps
    | with_reducible apply State.breakChains_keeps
    | with_reducible apply State.flushConn_keeps
    | with_reducible apply State.logEvent_keeps

theorem State.connHandOver_keeps {a1 : ℕ} (h : Keeps u s) : Keeps u (State.connHandOver s a1) := by
  unfold State.connHandOver
  repeat' first
    | with_reducible assumption
    | with_reducible apply State.flushConn_keeps
    | with_reducible apply State.sendPacket_keeps
    | with_reducible apply State.countOpen_keeps
    | with_reducible apply State.setConn_keeps
    | with_reducible apply Keeps.ite

theorem State.transmit_keeps {a1 : ℕ} {a2 : WorkEntry} {a3 : ℕ} (h : Keeps u s) : Keeps u (State.transmit s a1 a2 a3) := by
  unfold State.transmit
  repeat' first
    | with_reducible assumption
    | with_reducible apply State.sendPacket_keeps
    | with_reducible apply State.countBulk_keeps
    | with_reducible apply State.setConn_keeps
    | with_reducible refine Keeps.fold ?_ fun _ _ _ => ?_

theorem State.pumpBarrier_keeps {a1 : ℕ} (h : Keeps u s) : Keeps u (State.pumpBarrier s a1) := by
  unfold State.pumpBarrier
  repeat' first
    | with_reducible assumption
    | with_reducible apply State.transmit_keeps
    | with_reducible apply Keeps.ite
    | with_reducible refine Keeps.fold ?_ fun _ _ _ => ?_
    | split

theorem State.withdrawEntry_keeps {a1 : ℕ} {a2 : WorkEntry} (h : Keeps u s) : Keeps u (State.withdrawEntry s a1 a2) := by
  unfold State.withdrawEntry
  repeat' first
    | with_reducible assumption
    | with_reducible apply State.finishSend_keeps
    | with_reducible apply State.sendPacket_keeps
    | with_reducible apply State.setConn_keeps
    | with_reducible apply Keeps.ite

theorem State.withdraw_keeps {a1 : ℕ} (h : Keeps u s) : Keeps u (State.withdraw s a1) := by
  unfold State.withdraw
  repeat' first
    | with_reducible assumption
    | with_reducible apply State.pumpBarrier_keeps
    | with_reducible apply State.withdrawEntry_keeps
    | with_reducible refine Keeps.fold ?_ fun _ _ _ => ?_

theorem State.sendBarrier_keeps {a1 : ℕ} {a2 : PktKind} {a3 : ℕ} {a4 : ℕ} (h : Keeps u s) : Keeps u (State.sendBarrier s a1 a2 a3 a4) := by
  unfold State.sendBarrier
  repeat' first
    | with_reducible assumption
    | with_reducible apply State.pumpBarrier_keeps
    | with_reducible apply State.setConn_keeps
    | with_reducible apply Keeps.ite
    | (lift_lets; intro x; refine (fun (_ : Keeps u x) => ?_) ?_; on_goal 2 => unfold x; on_goal 1 => clear_value x)
    | (fail_if_no_progress with_reducible refine Keeps.mk_same ?_)

theorem State.barrierDone_keeps {a1 : ℕ} {a2 : BarrierGroup} {a3 : ℕ} (h : Keeps u s) : Keeps u (State.barrierDone s a1 a2 a3) := by
  unfold State.barrierDone
  repeat' first
    | with_reducible assumption
    | with_reducible apply State.sendBarrier_keeps
    | with_reducible apply State.setSync_keeps
    | with_reducible refine Keeps.fold ?_ fun _ _ _ => ?_

theorem State.barrierTry_keeps {a1 : ℕ} (h : Keeps u s) : Keeps u (State.barrierTry s a1) := by
  unfold State.barrierTry
  repeat' first
    | with_reducible assumption
    | with_reducible apply State.barrierDone_keeps
    | with_reducible apply State.sendBarrier_keeps
    | with_reducible apply State.setSync_keeps
    | with_reducible apply Keeps.ite
    | (lift_lets; intro x)
    | split

/-! ### Machine/Issue.lean -/

theorem State.fenceCore_keeps {a1 : ℕ} {a2 : ℕ} {a3 : ℕ} {a4 : ℕ} {a5 : HwFault} {a6 : ℕ} (h : Keeps u s) : Keeps u (State.fenceCore s a1 a2 a3 a4 a5 a6) := by
  unfold State.fenceCore
  repeat' first
    | with_reducible assumption
    | with_reducible apply State.logEvent_keeps
    | with_reducible apply State.setObj_keeps
    | with_reducible apply State.wipeVault_keeps
    | with_reducible refine State.setCore_keeps ?_ ?_
    | exact rfl
    | with_reducible apply State.withdraw_keeps
    | with_reducible apply State.settlePower_keeps
    | with_reducible apply State.tellLead_keeps
    | with_reducible apply State.programFault_keeps
    | with_reducible apply Keeps.ite
    | (intro x; refine (fun (_ : Keeps u x) => ?_) ?_; on_goal 2 => unfold x; on_goal 1 => clear_value x)
    | (intro x)
    | (lift_lets; intro x)
    | split
    | (fail_if_no_progress with_reducible refine Keeps.mk_same ?_)

theorem State.applyStop_keeps {a1 : Env} {a2 : Stop} (h : Keeps u s) : Keeps u (State.applyStop s a1 a2) := by
  unfold State.applyStop
  repeat' first
    | with_reducible assumption
    | with_reducible apply State.count_keeps
    | with_reducible apply State.programFault_keeps
    | with_reducible apply State.isolationNote_keeps
    | with_reducible apply State.fenceCore_keeps
    | with_reducible apply Keeps.ite
    | split

theorem State.issued_keeps {a1 : Env} (h : Keeps u s) : Keeps u (State.issued s a1) := by
  unfold State.issued
  repeat' first
    | with_reducible assumption
    | with_reducible apply State.count_keeps
    | with_reducible refine State.setCore_keeps ?_ ?_
    | exact rfl

theorem issue_keeps {a0 : ℕ} {a1 : ℕ} {a2 : ℕ} {a4 : (Env → State → Res)} (h : Keeps u s) (h4 : ∀ e s, Keeps u s → Res.Keeps u (a4 e s)) : Keeps u (issue a0 a1 a2 s a4) := by
  unfold issue
  split
  · exact h
  · next e _ =>
    split
    · exact State.fenceCore_keeps (State.count_keeps h)
    split
    · exact State.applyStop_keeps (State.count_keeps h)
    split
    · exact h
    have g := h4 e s h
    split
    · next s' q => rw [q] at g; exact State.issued_keeps g
    · exact h
    · next s' why _ q => rw [q] at g; exact State.applyStop_keeps (State.count_keeps g)

theorem State.setSlot_keeps {a1 : Env} {a2 : ℕ} {a3 : Slot} (h : Keeps u s) : Keeps u (State.setSlot s a1 a2 a3) := by
  unfold State.setSlot
  repeat' first
    | with_reducible assumption
    | with_reducible refine State.setCore_keeps ?_ ?_
    | exact rfl

theorem State.noteWrite_keeps {a1 : Env} (h : Keeps u s) : Keeps u (State.noteWrite s a1) := by
  unfold State.noteWrite
  repeat' first
    | with_reducible assumption
    | with_reducible refine State.setCore_keeps ?_ ?_
    | exact rfl

theorem State.startWrites_keeps {a1 : Env} {a2 : List ℕ} {a3 : Bool} (h : Keeps u s) : Keeps u (State.startWrites s a1 a2 a3) := by
  unfold State.startWrites
  repeat' first
    | with_reducible assumption
    | with_reducible refine State.setCore_keeps ?_ ?_
    | exact rfl

theorem State.handOverCore_keeps {a0 : Option WipeTrigger} {a2 : ℕ} (h : Keeps u s) : Keeps u (State.handOverCore a0 s a2) := by
  unfold State.handOverCore
  repeat' first
    | with_reducible assumption
    | with_reducible apply State.wipeVault_keeps
    | with_reducible apply State.reseed_keeps
    | with_reducible apply State.zeroScratch_keeps
    | with_reducible refine State.setCore_keeps ?_ ?_
    | exact rfl
    | (intro x; refine (fun (_ : Keeps u x) => ?_) ?_; on_goal 2 => unfold x; on_goal 1 => clear_value x)
    | (intro x)
    | (lift_lets; intro x; refine (fun (_ : Keeps u x) => ?_) ?_; on_goal 2 => unfold x; on_goal 1 => clear_value x)
    | split
    | (fail_if_no_progress with_reducible refine Keeps.mk_same ?_)

theorem State.handOver_keeps {a1 : ℕ} {a2 : List ℕ} {a3 : Option WipeTrigger} (h : Keeps u s) : Keeps u (State.handOver s a1 a2 a3) := by
  unfold State.handOver
  repeat' first
    | with_reducible assumption
    | with_reducible refine State.each_keeps ?_ (fun _ _ _ => ?_)
    | with_reducible apply State.handOverCore_keeps
    | with_reducible apply State.connHandOver_keeps
    | with_reducible apply State.settlePower_keeps
    | with_reducible apply State.setPart_keeps
    | with_reducible apply Keeps.ite
    | with_reducible refine Keeps.fold ?_ fun _ _ _ => ?_
    | (fail_if_no_progress with_reducible refine Keeps.mk_same ?_)

theorem State.assignCore_keeps {a1 : ℕ} {a2 : ℕ} {a3 : ℕ} (h : Keeps u s) : Keeps u (State.assignCore s a1 a2 a3) := by
  unfold State.assignCore
  repeat' first
    | with_reducible assumption
    | with_reducible apply State.setObj_keeps

/-! ### Machine/DictBase.lean -/

theorem State.abandon_keeps {a1 : ℕ} (h : Keeps u s) : Keeps u (State.abandon s a1) := by
  unfold State.abandon
  repeat' first
    | with_reducible assumption
    | with_reducible refine State.each_keeps ?_ (fun _ _ _ => ?_)
    | with_reducible apply State.logEvent_keeps
    | with_reducible apply State.count_keeps
    | with_reducible apply State.setObj_keeps
    | with_reducible apply Keeps.ite

theorem State.advanceEpoch_keeps {a1 : ℕ} (h : Keeps u s) : Keeps u (State.advanceEpoch s a1) := by
  unfold State.advanceEpoch
  repeat' first
    | with_reducible assumption
    | with_reducible apply State.abandon_keeps
    | (fail_if_no_progress with_reducible refine Keeps.mk_same ?_)

theorem State.advanceFirmware_keeps (h : Keeps u s) : Keeps u (State.advanceFirmware s) := by
  unfold State.advanceFirmware
  repeat' first
    | with_reducible assumption
    | with_reducible refine State.each_keeps ?_ (fun _ _ _ => ?_)
    | with_reducible apply State.advanceEpoch_keeps

theorem State.chainHeard_keeps (h : Keeps u s) : Keeps u (State.chainHeard s) := by
  unfold State.chainHeard
  repeat' first
    | with_reducible assumption
    | with_reducible apply State.setObj_keeps
    | with_reducible apply State.advanceEpoch_keeps
    | with_reducible apply Keeps.ite
    | (lift_lets; intro x)
    | split
    | (fail_if_no_progress with_reducible refine Keeps.mk_same ?_)

theorem State.heard_keeps {a1 : Path} (h : Keeps u s) : Keeps u (State.heard s a1) := by
  unfold State.heard
  repeat' first
    | with_reducible assumption
    | with_reducible apply State.chainHeard_keeps
    | with_reducible apply Keeps.ite

theorem refuse_keeps {a0 : BitVec 16} : Act.Keeps (refuse a0) := by
  refine ⟨fun {u s} h => ?_⟩
  unfold refuse
  repeat' first
    | with_reducible assumption

theorem require_keeps {a1 : Bool} {a2 : BitVec 16} {a3 : State × BitVec 16} (h : Keeps u s) (h3 : Keeps u a3.1) : Keeps u (require s a1 a2 a3).1 := by
  unfold require
  split
  exacts [h3, h]

theorem State.guarded_keeps {a1 : Master} {a2 : ℕ} {a3 : ℕ} {a4 : Act} (h : Keeps u s) (h4 : Act.Keeps a4) : Keeps u (State.guarded s a1 a2 a3 a4).1 := by
  unfold State.guarded
  dsimp only
  split
  · exact h
  split
  · exact h4.run h
  split
  exacts [h, h4.run h]

theorem sealedBy_keeps {a0 : ℕ} : Act.Keeps (sealedBy a0) := by
  refine ⟨fun {u s} h => ?_⟩
  unfold sealedBy
  repeat' first
    | with_reducible assumption
    | with_reducible apply State.count_keeps

theorem State.act_keeps {a1 : Master} {a2 : ℕ} {a3 : ℕ} {a4 : Act} (h : Keeps u s) (h4 : Act.Keeps a4) : Keeps u (State.act s a1 a2 a3 a4) := by
  unfold State.act
  dsimp only
  split
  · exact h
  split
  · exact State.emit_keeps h
  · exact State.emit_keeps (State.guarded_keeps (State.heard_keeps h) h4)

/-! ### Machine/Random.lean -/

theorem State.reseedCounted_keeps {a1 : Env} {a2 : Word} (h : Keeps u s) : Keeps u (State.reseedCounted s a1 a2) := by
  unfold State.reseedCounted
  repeat' first
    | with_reducible assumption
    | with_reducible refine State.setCore_keeps ?_ ?_
    | exact rfl

theorem State.takeDraws_keeps {a1 : ℕ} {a2 : ℕ} {a3 : (ℕ → ℕ)} (h : Keeps u s) : Keeps u (State.takeDraws s a1 a2 a3).2 := by
  unfold State.takeDraws
  repeat' first
    | with_reducible assumption
    | with_reducible refine State.setCore_keeps ?_ ?_
    | exact rfl
    | (intro x)
    | (lift_lets; intro x)
    | with_reducible apply Keeps.ite2
    | (fail_if_no_progress with_reducible refine Keeps.mk_same ?_)

end Sys2Proof.Machine
end

