-- ==== Sys2Proof/Laws/KeepsCores.lean ====
section
/-! SUPPORT. Every operation keeps the queue and the canonical tables: the matrix array, the vector row, the mover, the sequencers. -/

namespace Sys2Proof.Machine

set_option linter.unusedTactic false
set_option linter.unreachableTactic false

variable {u s : State}

/-! ### Machine/Matrix.lean -/

theorem loadPanel_keeps {a1 : Env} {a2 : MatOps} {a3 : MatArgs} (h : Keeps u s) : Keeps u (loadPanel s a1 a2 a3) := by
  unfold loadPanel
  repeat' first
    | with_reducible assumption
    | with_reducible refine State.setCore_keeps ?_ ?_
    | (split <;> exact rfl)
    | with_reducible apply Keeps.ite

theorem matEffect_keeps {a1 : Env} {a2 : MatOps} {a3 : MatArgs} (h : Keeps u s) : Keeps u (matEffect s a1 a2 a3) := by
  unfold matEffect
  repeat' first
    | with_reducible assumption
    | with_reducible apply loadPanel_keeps
    | with_reducible refine State.setCore_keeps ?_ ?_
    | (split <;> exact rfl)
    | with_reducible apply State.countSat_keeps
    | with_reducible apply State.count_keeps

theorem runMatmul_keeps {a0 : Env} (h : Keeps u s) : Res.Keeps u (runMatmul a0 s) := by
  unfold runMatmul
  repeat' first
    | with_reducible assumption
    | with_reducible apply matEffect_keeps
    | with_reducible apply Res.keeps_ok
    | with_reducible apply Res.keeps_stop
    | with_reducible apply Res.keeps_ite
    | split

theorem drainEffect_keeps {a1 : Env} {a2 : DrainOps} {a3 : Tensor} (h : Keeps u s) : Keeps.Ok (Keeps u) (drainEffect s a1 a2 a3) := by
  unfold drainEffect
  repeat' first
    | with_reducible assumption
    | with_reducible apply State.reseedCounted_keeps
    | with_reducible apply State.takeDraws_keeps
    | with_reducible apply commitCells_keeps
    | with_reducible refine State.setCore_keeps ?_ ?_
    | (split <;> exact rfl)
    | with_reducible apply State.count_keeps
    | with_reducible apply State.startWrites_keeps
    | with_reducible apply State.noteWrite_keeps
    | with_reducible apply Keeps.ite
    | (intro x; refine (fun (_ : Keeps u x) => ?_) ?_; on_goal 2 => unfold x; on_goal 1 => clear_value x)
    | (intro x; refine (fun (_ : Keeps u (Prod.snd x)) => ?_) ?_; on_goal 2 => unfold x; on_goal 1 => clear_value x)
    | (intro x)
    | (lift_lets; intro x)
    | with_reducible apply Keeps.ok_atSlot
    | with_reducible apply Keeps.ok_ok
    | with_reducible refine Keeps.ok_bind_st (u := u) ?_ fun _ _ => ?_

theorem runDrain_keeps {a0 : Env} (h : Keeps u s) : Res.Keeps u (runDrain a0 s) := by
  unfold runDrain
  repeat' first
    | with_reducible assumption
    | with_reducible apply drainEffect_keeps
    | with_reducible apply Res.keeps_stop
    | with_reducible apply Res.keeps_ite
    | with_reducible apply Res.keeps_of
    | split

/-! ### Machine/VectorRow.lean -/

theorem Core.setDst_held (c : Core) (o : VecOps) (m : ℕ → Bool) (f : ℕ → Word) : (c.setDst o m f).held = c.held := by
  unfold Core.setDst
  dsimp only
  split_ifs <;> rfl

theorem lanes_keeps {a0 : (Word → Word → Word → Word)} {a1 : VecOps} {e : Env} (h : Keeps u s) : Keeps.Ok (Keeps u) (lanes a0 a1 e s) := by
  unfold lanes
  repeat' first
    | with_reducible assumption
    | with_reducible refine State.setCore_keeps ?_ ?_
    | exact Core.setDst_held _ _ _ _
    | (lift_lets; intro x)
    | with_reducible apply Keeps.ok_ok

theorem compares_keeps {a0 : (Word → Word → Bool)} {a1 : VecOps} {e : Env} (h : Keeps u s) : Keeps.Ok (Keeps u) (compares a0 a1 e s) := by
  unfold compares
  repeat' first
    | with_reducible assumption
    | with_reducible refine State.setCore_keeps ?_ ?_
    | exact rfl
    | with_reducible apply Keeps.ok_ite
    | (intro x)
    | (lift_lets; intro x)
    | with_reducible apply Keeps.ok_ok

theorem stepAdd_keeps {a0 : VecOps} {e : Env} (h : Keeps u s) : Keeps.Ok (Keeps u) (stepAdd a0 e s) := by
  unfold stepAdd
  repeat' first
    | with_reducible assumption
    | with_reducible apply lanes_keeps

theorem stepSub_keeps {a0 : VecOps} {e : Env} (h : Keeps u s) : Keeps.Ok (Keeps u) (stepSub a0 e s) := by
  unfold stepSub
  repeat' first
    | with_reducible assumption
    | with_reducible apply lanes_keeps

theorem stepMul_keeps {a0 : VecOps} {e : Env} (h : Keeps u s) : Keeps.Ok (Keeps u) (stepMul a0 e s) := by
  unfold stepMul
  repeat' first
    | with_reducible assumption
    | with_reducible apply lanes_keeps

theorem stepFma_keeps {a0 : VecOps} {e : Env} (h : Keeps u s) : Keeps.Ok (Keeps u) (stepFma a0 e s) := by
  unfold stepFma
  repeat' first
    | with_reducible assumption
    | with_reducible apply lanes_keeps

theorem stepMin_keeps {a0 : VecOps} {e : Env} (h : Keeps u s) : Keeps.Ok (Keeps u) (stepMin a0 e s) := by
  unfold stepMin
  repeat' first
    | with_reducible assumption
    | with_reducible apply lanes_keeps

theorem stepMax_keeps {a0 : VecOps} {e : Env} (h : Keeps u s) : Keeps.Ok (Keeps u) (stepMax a0 e s) := by
  unfold stepMax
  repeat' first
    | with_reducible assumption
    | with_reducible apply lanes_keeps

theorem stepAbs_keeps {a0 : VecOps} {e : Env} (h : Keeps u s) : Keeps.Ok (Keeps u) (stepAbs a0 e s) := by
  unfold stepAbs
  repeat' first
    | with_reducible assumption
    | with_reducible apply lanes_keeps

theorem stepNeg_keeps {a0 : VecOps} {e : Env} (h : Keeps u s) : Keeps.Ok (Keeps u) (stepNeg a0 e s) := by
  unfold stepNeg
  repeat' first
    | with_reducible assumption
    | with_reducible apply lanes_keeps

theorem stepIadd_keeps {a0 : VecOps} {e : Env} (h : Keeps u s) : Keeps.Ok (Keeps u) (stepIadd a0 e s) := by
  unfold stepIadd
  repeat' first
    | with_reducible assumption
    | with_reducible apply lanes_keeps

theorem stepIsub_keeps {a0 : VecOps} {e : Env} (h : Keeps u s) : Keeps.Ok (Keeps u) (stepIsub a0 e s) := by
  unfold stepIsub
  repeat' first
    | with_reducible assumption
    | with_reducible apply lanes_keeps

theorem stepAnd_keeps {a0 : VecOps} {e : Env} (h : Keeps u s) : Keeps.Ok (Keeps u) (stepAnd a0 e s) := by
  unfold stepAnd
  repeat' first
    | with_reducible assumption
    | with_reducible apply lanes_keeps

theorem stepOr_keeps {a0 : VecOps} {e : Env} (h : Keeps u s) : Keeps.Ok (Keeps u) (stepOr a0 e s) := by
  unfold stepOr
  repeat' first
    | with_reducible assumption
    | with_reducible apply lanes_keeps

theorem stepXor_keeps {a0 : VecOps} {e : Env} (h : Keeps u s) : Keeps.Ok (Keeps u) (stepXor a0 e s) := by
  unfold stepXor
  repeat' first
    | with_reducible assumption
    | with_reducible apply lanes_keeps

theorem stepNot_keeps {a0 : VecOps} {e : Env} (h : Keeps u s) : Keeps.Ok (Keeps u) (stepNot a0 e s) := by
  unfold stepNot
  repeat' first
    | with_reducible assumption
    | with_reducible apply lanes_keeps

theorem stepShl_keeps {a0 : VecOps} {e : Env} (h : Keeps u s) : Keeps.Ok (Keeps u) (stepShl a0 e s) := by
  unfold stepShl
  repeat' first
    | with_reducible assumption
    | with_reducible apply lanes_keeps

theorem stepShr_keeps {a0 : VecOps} {e : Env} (h : Keeps u s) : Keeps.Ok (Keeps u) (stepShr a0 e s) := by
  unfold stepShr
  repeat' first
    | with_reducible assumption
    | with_reducible apply lanes_keeps

theorem stepSar_keeps {a0 : VecOps} {e : Env} (h : Keeps u s) : Keeps.Ok (Keeps u) (stepSar a0 e s) := by
  unfold stepSar
  repeat' first
    | with_reducible assumption
    | with_reducible apply lanes_keeps

theorem stepImul_keeps {a0 : VecOps} {e : Env} (h : Keeps u s) : Keeps.Ok (Keeps u) (stepImul a0 e s) := by
  unfold stepImul
  repeat' first
    | with_reducible assumption
    | with_reducible apply lanes_keeps

theorem stepExp2_keeps {a0 : VecOps} {e : Env} (h : Keeps u s) : Keeps.Ok (Keeps u) (stepExp2 a0 e s) := by
  unfold stepExp2
  repeat' first
    | with_reducible assumption
    | with_reducible apply lanes_keeps

theorem stepLog2_keeps {a0 : VecOps} {e : Env} (h : Keeps u s) : Keeps.Ok (Keeps u) (stepLog2 a0 e s) := by
  unfold stepLog2
  repeat' first
    | with_reducible assumption
    | with_reducible apply lanes_keeps

theorem stepRcp_keeps {a0 : VecOps} {e : Env} (h : Keeps u s) : Keeps.Ok (Keeps u) (stepRcp a0 e s) := by
  unfold stepRcp
  repeat' first
    | with_reducible assumption
    | with_reducible apply lanes_keeps

theorem stepRsq_keeps {a0 : VecOps} {e : Env} (h : Keeps u s) : Keeps.Ok (Keeps u) (stepRsq a0 e s) := by
  unfold stepRsq
  repeat' first
    | with_reducible assumption
    | with_reducible apply lanes_keeps

theorem stepCmpEq_keeps {a0 : VecOps} {e : Env} (h : Keeps u s) : Keeps.Ok (Keeps u) (stepCmpEq a0 e s) := by
  unfold stepCmpEq
  repeat' first
    | with_reducible assumption
    | with_reducible apply compares_keeps

theorem stepCmpNe_keeps {a0 : VecOps} {e : Env} (h : Keeps u s) : Keeps.Ok (Keeps u) (stepCmpNe a0 e s) := by
  unfold stepCmpNe
  repeat' first
    | with_reducible assumption
    | with_reducible apply compares_keeps

theorem stepCmpLt_keeps {a0 : VecOps} {e : Env} (h : Keeps u s) : Keeps.Ok (Keeps u) (stepCmpLt a0 e s) := by
  unfold stepCmpLt
  repeat' first
    | with_reducible assumption
    | with_reducible apply compares_keeps

theorem stepCmpLe_keeps {a0 : VecOps} {e : Env} (h : Keeps u s) : Keeps.Ok (Keeps u) (stepCmpLe a0 e s) := by
  unfold stepCmpLe
  repeat' first
    | with_reducible assumption
    | with_reducible apply compares_keeps

theorem stepCmpUnord_keeps {a0 : VecOps} {e : Env} (h : Keeps u s) : Keeps.Ok (Keeps u) (stepCmpUnord a0 e s) := by
  unfold stepCmpUnord
  repeat' first
    | with_reducible assumption
    | with_reducible apply compares_keeps

theorem stepSel_keeps {a0 : VecOps} {e : Env} (h : Keeps u s) : Keeps.Ok (Keeps u) (stepSel a0 e s) := by
  unfold stepSel
  repeat' first
    | with_reducible assumption
    | with_reducible refine State.setCore_keeps ?_ ?_
    | exact Core.setDst_held _ _ _ _
    | (lift_lets; intro x)
    | with_reducible apply Keeps.ok_ok

theorem vecDraws_keeps {a0 : Env} {a2 : (ℕ → ℕ)} (h : Keeps u s) : Keeps.Ok (fun p => Keeps u p.2) (vecDraws a0 s a2) := by
  unfold vecDraws
  repeat' first
    | with_reducible assumption
    | with_reducible apply State.reseedCounted_keeps
    | with_reducible refine State.setCore_keeps ?_ ?_
    | exact rfl
    | with_reducible apply State.takeDraws_keeps
    | with_reducible apply Keeps.ite
    | (intro x; refine (fun (_ : Keeps u x) => ?_) ?_; on_goal 2 => unfold x; on_goal 1 => clear_value x)
    | (intro x)
    | (lift_lets; intro x)
    | with_reducible apply Keeps.ok_ok
    | with_reducible refine Keeps.ok_bind_any fun _ => ?_

theorem randoms_keeps {a0 : (BitVec 64 → ℕ)} {a1 : VecOps} {e : Env} (h : Keeps u s) : Keeps.Ok (Keeps u) (randoms a0 a1 e s) := by
  unfold randoms
  repeat' first
    | with_reducible assumption
    | with_reducible apply vecDraws_keeps
    | with_reducible refine State.setCore_keeps ?_ ?_
    | exact Core.setDst_held _ _ _ _
    | (lift_lets; intro x)
    | with_reducible apply Keeps.ok_ok
    | with_reducible refine Keeps.ok_bind_snd (u := u) ?_ fun _ _ => ?_

theorem stepRand16_keeps {a0 : VecOps} {e : Env} (h : Keeps u s) : Keeps.Ok (Keeps u) (stepRand16 a0 e s) := by
  unfold stepRand16
  repeat' first
    | with_reducible assumption
    | with_reducible apply randoms_keeps

theorem stepRand32_keeps {a0 : VecOps} {e : Env} (h : Keeps u s) : Keeps.Ok (Keeps u) (stepRand32 a0 e s) := by
  unfold stepRand32
  repeat' first
    | with_reducible assumption
    | with_reducible apply randoms_keeps

theorem stepCvt_keeps {a0 : VecOps} {e : Env} (h : Keeps u s) : Keeps.Ok (Keeps u) (stepCvt a0 e s) := by
  unfold stepCvt
  repeat' first
    | with_reducible assumption
    | with_reducible refine State.setCore_keeps ?_ ?_
    | exact Core.setDst_held _ _ _ _
    | with_reducible apply vecDraws_keeps
    | with_reducible apply Keeps.ok_ite
    | (intro x)
    | (lift_lets; intro x)
    | with_reducible apply Keeps.ok_ok
    | with_reducible refine Keeps.ok_bind_snd (u := u) ?_ fun _ _ => ?_
    | with_reducible refine Keeps.ok_bind_any fun _ => ?_

theorem reduces_keeps {a0 : (Word → Word → Word)} {a1 : Word} {a2 : VecOps} {e : Env} (h : Keeps u s) : Keeps.Ok (Keeps u) (reduces a0 a1 a2 e s) := by
  unfold reduces
  repeat' first
    | with_reducible assumption
    | with_reducible refine State.setCore_keeps ?_ ?_
    | exact Core.setDst_held _ _ _ _
    | (intro x)
    | (lift_lets; intro x)
    | with_reducible apply Keeps.ok_ok
    | with_reducible refine Keeps.ok_bind_any fun _ => ?_

theorem stepRsum_keeps {a0 : VecOps} {e : Env} (h : Keeps u s) : Keeps.Ok (Keeps u) (stepRsum a0 e s) := by
  unfold stepRsum
  repeat' first
    | with_reducible assumption
    | with_reducible apply reduces_keeps

theorem stepRmax_keeps {a0 : VecOps} {e : Env} (h : Keeps u s) : Keeps.Ok (Keeps u) (stepRmax a0 e s) := by
  unfold stepRmax
  repeat' first
    | with_reducible assumption
    | with_reducible apply reduces_keeps

theorem stepRmin_keeps {a0 : VecOps} {e : Env} (h : Keeps u s) : Keeps.Ok (Keeps u) (stepRmin a0 e s) := by
  unfold stepRmin
  repeat' first
    | with_reducible assumption
    | with_reducible apply reduces_keeps

theorem stepLds_keeps {a0 : VecOps} {e : Env} (h : Keeps u s) : Keeps.Ok (Keeps u) (stepLds a0 e s) := by
  unfold stepLds
  repeat' first
    | with_reducible assumption
    | with_reducible refine State.setCore_keeps ?_ ?_
    | exact rfl
    | (intro x)
    | (lift_lets; intro x)
    | with_reducible apply Keeps.ok_atSlot
    | with_reducible apply Keeps.ok_ok
    | with_reducible refine Keeps.ok_bind_any fun _ => ?_

theorem stepLdc_keeps {a0 : VecOps} {e : Env} (h : Keeps u s) : Keeps.Ok (Keeps u) (stepLdc a0 e s) := by
  unfold stepLdc
  repeat' first
    | with_reducible assumption
    | with_reducible refine State.setCore_keeps ?_ ?_
    | exact rfl
    | (intro x)
    | (lift_lets; intro x)
    | with_reducible apply Keeps.ok_atSlot
    | with_reducible apply Keeps.ok_ok
    | with_reducible refine Keeps.ok_bind_any fun _ => ?_

theorem stepLdt_keeps {a0 : VecOps} {e : Env} (h : Keeps u s) : Keeps.Ok (Keeps u) (stepLdt a0 e s) := by
  unfold stepLdt
  repeat' first
    | with_reducible assumption
    | with_reducible refine State.setCore_keeps ?_ ?_
    | exact rfl
    | (intro x)
    | (lift_lets; intro x)
    | with_reducible apply Keeps.ok_atSlot
    | with_reducible apply Keeps.ok_ok
    | with_reducible refine Keeps.ok_bind_any fun _ => ?_

theorem storeDraws_keeps {a0 : Env} {a2 : Tensor} {a3 : ℕ} (h : Keeps u s) : Keeps.Ok (fun p => Keeps u p.2) (storeDraws a0 s a2 a3) := by
  unfold storeDraws
  repeat' first
    | with_reducible assumption
    | with_reducible apply vecDraws_keeps
    | with_reducible apply Keeps.ok_ite
    | with_reducible refine Keeps.ok_map_snd (u := u) ?_ fun _ _ => ?_
    | with_reducible apply Keeps.ok_ok

theorem stepStc_keeps {a0 : VecOps} {e : Env} (h : Keeps u s) : Keeps.Ok (Keeps u) (stepStc a0 e s) := by
  unfold stepStc
  repeat' first
    | with_reducible assumption
    | with_reducible apply storeDraws_keeps
    | with_reducible apply State.noteWrite_keeps
    | with_reducible apply commitCells_keeps
    | (intro x)
    | (lift_lets; intro x)
    | with_reducible apply Keeps.ok_atSlot
    | with_reducible refine Keeps.ok_map_st (u := u) ?_ fun _ _ => ?_
    | with_reducible refine Keeps.ok_bind_snd (u := u) ?_ fun _ _ => ?_
    | with_reducible refine Keeps.ok_bind_any fun _ => ?_

theorem stepStt_keeps {a0 : VecOps} {e : Env} (h : Keeps u s) : Keeps.Ok (Keeps u) (stepStt a0 e s) := by
  unfold stepStt
  repeat' first
    | with_reducible assumption
    | with_reducible apply storeDraws_keeps
    | with_reducible apply State.noteWrite_keeps
    | with_reducible apply commitCells_keeps
    | (intro x)
    | (lift_lets; intro x)
    | with_reducible apply Keeps.ok_atSlot
    | with_reducible refine Keeps.ok_map_st (u := u) ?_ fun _ _ => ?_
    | with_reducible refine Keeps.ok_bind_snd (u := u) ?_ fun _ _ => ?_
    | with_reducible refine Keeps.ok_bind_any fun _ => ?_

theorem vecIssue_keeps {a0 : VecStep} {a1 : Env} (h0 : ∀ e s, Keeps u s → Keeps.Ok (Keeps u) (a0 e s)) (h : Keeps u s) : Keeps.Ok (Keeps u) (vecIssue a0 a1 s) := by
  unfold vecIssue
  repeat' first
    | with_reducible assumption
    | with_reducible apply h0
    | with_reducible apply State.count_keeps

theorem vecRow_keeps {a0 : CoreId} {a1 : VecStep} (h1 : ∀ e s, Keeps u s → Keeps.Ok (Keeps u) (a1 e s)) (h : Keeps u s) : Keeps u (vecRow a0 a1 s) := by
  unfold vecRow
  repeat' first
    | with_reducible assumption
    | with_reducible apply State.applyStop_keeps
    | split
    | exact Keeps.of_ok (by assumption) (by first | exact vecIssue_keeps (by assumption) (by assumption) | exact h1 _ _ (by assumption))

/-- Every instruction of the vector row keeps them. -/
theorem vecOp_keeps {n : ℕ} {op : VecOps → VecStep} (q : vecOp n = some op) (o : VecOps) (e : Env) (h : Keeps u s) :
    Keeps.Ok (Keeps u) (op o e s) := by
  unfold vecOp at q
  split at q <;> cases q
  exacts [stepAdd_keeps h, stepSub_keeps h, stepMul_keeps h, stepFma_keeps h, stepMin_keeps h, stepMax_keeps h, stepAbs_keeps h, stepNeg_keeps h, stepCmpEq_keeps h, stepCmpNe_keeps h, stepCmpLt_keeps h, stepCmpLe_keeps h, stepCmpUnord_keeps h, stepSel_keeps h, stepIadd_keeps h, stepIsub_keeps h, stepAnd_keeps h, stepOr_keeps h, stepXor_keeps h, stepNot_keeps h, stepShl_keeps h, stepShr_keeps h, stepSar_keeps h, stepImul_keeps h, stepCvt_keeps h, stepExp2_keeps h, stepLog2_keeps h, stepRcp_keeps h, stepRsq_keeps h, stepRsum_keeps h, stepRmax_keeps h, stepRmin_keeps h, stepRand16_keeps h, stepRand32_keeps h, stepLds_keeps h, stepLdc_keeps h, stepLdt_keeps h, stepStc_keeps h, stepStt_keeps h]

theorem runProgram_keeps {a0 : Env} {a1 : ℕ} {a2 : ℕ} {a3 : ℕ} (h : Keeps u s) : Res.Keeps u (runProgram a0 a1 a2 a3 s) := by
  induction a2 generalizing s a3 with
  | zero => exact h
  | succ n ih =>
    unfold runProgram
    dsimp only
    split
    · exact h
    split
    · exact h
    · next op q =>
      split
      · exact h
      split
      · next t k => exact ih (Keeps.of_ok k (vecIssue_keeps (fun _ _ g => vecOp_keeps q _ _ g) h))
      · exact h
      · exact h

theorem vecStart_keeps {a1 : Env} (h : Keeps u s) : Keeps u (vecStart s a1) := by
  unfold vecStart
  repeat' first
    | with_reducible assumption
    | with_reducible refine State.setCore_keeps ?_ ?_
    | exact rfl

theorem runVec_keeps {a0 : Env} (h : Keeps u s) : Res.Keeps u (runVec a0 s) := by
  unfold runVec
  split
  · exact h
  · next pr _ =>
    have g := runProgram_keeps (a0 := a0) (a1 := pr.1) (a2 := pr.2) (a3 := 0) (vecStart_keeps (a1 := a0) h)
    split
    · next t q => rw [q] at g; exact State.startWrites_keeps g
    · exact g

/-! ### Machine/Mover.lean -/

theorem moverWrite_keeps {a1 : Env} {a2 : Cells} (h : Keeps u s) : Keeps.Ok (Keeps u) (moverWrite s a1 a2) := by
  unfold moverWrite
  repeat' first
    | with_reducible assumption
    | with_reducible apply commitCells_keeps
    | with_reducible apply State.portWrites_keeps
    | with_reducible apply Keeps.ite
    | (lift_lets; intro x)
    | with_reducible apply Keeps.ok_ok
    | with_reducible refine Keeps.ok_bind_st (u := u) ?_ fun _ _ => ?_
    | with_reducible refine Keeps.fold ?_ fun _ _ _ => ?_

theorem moverReads_keeps {a1 : Spans} (h : Keeps u s) : Keeps u (moverReads s a1) := by
  unfold moverReads
  repeat' first
    | with_reducible assumption
    | with_reducible apply State.count_keeps
    | with_reducible apply State.countBulk_keeps
    | with_reducible apply Keeps.ite
    | with_reducible refine Keeps.fold ?_ fun _ _ _ => ?_

theorem moverDone_keeps {a1 : Env} {a2 : ℕ} {a3 : Tensor} (h : Keeps u s) : Keeps u (moverDone s a1 a2 a3) := by
  unfold moverDone
  repeat' first
    | with_reducible assumption
    | with_reducible apply State.startWrites_keeps
    | with_reducible apply State.noteWrite_keeps

theorem ownerTableOf_keeps {a1 : Env} {a2 : ℕ} (h : Keeps u s) : Keeps.Ok (fun p => Keeps u p.2) (ownerTableOf s a1 a2) := by
  unfold ownerTableOf
  repeat' first
    | with_reducible assumption
    | with_reducible apply State.setPart_keeps
    | with_reducible apply Keeps.ok_ite
    | (lift_lets; intro x)
    | with_reducible apply Keeps.ok_ok
    | with_reducible refine Keeps.ok_bind_any fun _ => ?_

theorem ownerTable_keeps {a1 : Env} {a2 : ℕ} (h : Keeps u s) : Keeps.Ok (fun p => Keeps u p.2) (ownerTable s a1 a2) := by
  unfold ownerTable
  repeat' first
    | with_reducible assumption
    | with_reducible apply ownerTableOf_keeps
    | with_reducible apply Keeps.ok_atSlot

theorem fetchBlock_keeps {a1 : Env} {a2 : Tensor} {a3 : OwnerTable} {a4 : ℕ} {a5 : ℕ} (h : Keeps u s) : Keeps.Ok (fun p => Keeps u p.2) (fetchBlock s a1 a2 a3 a4 a5) := by
  unfold fetchBlock
  repeat' first
    | with_reducible assumption
    | with_reducible apply State.emit_keeps
    | with_reducible apply Keeps.ok_ite
    | (intro x)
    | (lift_lets; intro x)
    | with_reducible apply Keeps.ok_ok
    | with_reducible apply Keeps.ok_error
    | with_reducible apply Keeps.ok_paramFault
    | with_reducible refine Keeps.ok_bind_any fun _ => ?_
    | with_reducible refine Keeps.fold ?_ fun _ _ _ => ?_
    | split
    | (fail_if_no_progress with_reducible refine Keeps.mk_same ?_)

theorem fetchBlocks_keeps {a1 : Env} {a2 : Tensor} {a3 : OwnerTable} {a4 : ℕ} {a5 : List ℕ} (h : Keeps u s) : Keeps.Ok (fun p => Keeps u p.2) (fetchBlocks s a1 a2 a3 a4 a5) := by
  induction a5 generalizing s with
  | nil =>
    unfold fetchBlocks
    repeat' first
      | with_reducible assumption
      | with_reducible apply fetchBlock_keeps
      | (intro x; refine (fun (_ : Keeps u x) => ?_) ?_; on_goal 2 => unfold x; on_goal 1 => clear_value x)
      | (intro x; refine (fun (_ : Keeps u (Prod.fst x)) => ?_) ?_; on_goal 2 => unfold x; on_goal 1 => clear_value x)
      | (intro x; refine (fun (_ : Keeps u (Prod.snd x)) => ?_) ?_; on_goal 2 => unfold x; on_goal 1 => clear_value x)
      | (intro x)
      | (lift_lets; intro x; refine (fun (_ : Keeps u x) => ?_) ?_; on_goal 2 => unfold x; on_goal 1 => clear_value x)
      | (lift_lets; intro x; refine (fun (_ : Keeps u (Prod.fst x)) => ?_) ?_; on_goal 2 => unfold x; on_goal 1 => clear_value x)
      | (lift_lets; intro x; refine (fun (_ : Keeps u (Prod.snd x)) => ?_) ?_; on_goal 2 => unfold x; on_goal 1 => clear_value x)
      | (lift_lets; intro x)
      | with_reducible apply Keeps.ok_ok
      | with_reducible apply Keeps.ok_pure
      | with_reducible apply Keeps.ok_error
      | with_reducible apply Keeps.ok_paramFault
      | with_reducible refine Keeps.ok_bind_st (u := u) ?_ fun _ _ => ?_
      | with_reducible refine Keeps.ok_bind_snd (u := u) ?_ fun _ _ => ?_
      | with_reducible refine Keeps.ok_bind_trd (u := u) ?_ fun _ _ => ?_
      | with_reducible refine Keeps.ok_bind_any fun _ => ?_
      | split
      | (fail_if_no_progress dsimp +zetaDelta only)
  | cons b r ih =>
    unfold fetchBlocks
    repeat' first
      | with_reducible assumption
      | with_reducible apply ih
      | with_reducible apply fetchBlock_keeps
      | (intro x; refine (fun (_ : Keeps u x) => ?_) ?_; on_goal 2 => unfold x; on_goal 1 => clear_value x)
      | (intro x; refine (fun (_ : Keeps u (Prod.fst x)) => ?_) ?_; on_goal 2 => unfold x; on_goal 1 => clear_value x)
      | (intro x; refine (fun (_ : Keeps u (Prod.snd x)) => ?_) ?_; on_goal 2 => unfold x; on_goal 1 => clear_value x)
      | (intro x)
      | (lift_lets; intro x; refine (fun (_ : Keeps u x) => ?_) ?_; on_goal 2 => unfold x; on_goal 1 => clear_value x)
      | (lift_lets; intro x; refine (fun (_ : Keeps u (Prod.fst x)) => ?_) ?_; on_goal 2 => unfold x; on_goal 1 => clear_value x)
      | (lift_lets; intro x; refine (fun (_ : Keeps u (Prod.snd x)) => ?_) ?_; on_goal 2 => unfold x; on_goal 1 => clear_value x)
      | (lift_lets; intro x)
      | with_reducible apply Keeps.ok_ok
      | with_reducible apply Keeps.ok_pure
      | with_reducible apply Keeps.ok_error
      | with_reducible apply Keeps.ok_paramFault
      | with_reducible refine Keeps.ok_bind_st (u := u) ?_ fun _ _ => ?_
      | with_reducible refine Keeps.ok_bind_snd (u := u) ?_ fun _ _ => ?_
      | with_reducible refine Keeps.ok_bind_trd (u := u) ?_ fun _ _ => ?_
      | with_reducible refine Keeps.ok_bind_any fun _ => ?_
      | split
      | (fail_if_no_progress dsimp +zetaDelta only)

theorem keepTile_keeps {a1 : Env} {a2 : Tensor} {a3 : ℕ} {a4 : ℕ} {a5 : ℕ} {a6 : Cells} (h : Keeps u s) : Keeps u (keepTile s a1 a2 a3 a4 a5 a6) := by
  unfold keepTile
  repeat' first
    | with_reducible assumption
    | with_reducible apply State.writeAt_keeps
    | with_reducible apply State.count_keeps
    | with_reducible refine State.setCore_keeps ?_ ?_
    | exact rfl
    | with_reducible apply Keeps.ite

theorem fetchTile_keeps {a1 : Env} {a2 : Tensor} {a3 : OwnerTable} {a4 : ℕ} {a5 : ℕ} (h : Keeps u s) : Keeps.Ok (fun p => Keeps u p.2) (fetchTile s a1 a2 a3 a4 a5) := by
  unfold fetchTile
  dsimp only
  repeat' first
    | with_reducible assumption
    | with_reducible apply fetchBlocks_keeps
    | with_reducible apply State.count_keeps
    | with_reducible apply keepTile_keeps
    | with_reducible apply Keeps.ite
    | with_reducible apply Keeps.ok_ok
    | with_reducible refine Keeps.ok_bind_snd (u := u) ?_ fun _ _ => ?_
    | split

theorem moveTiles_keeps {a1 : Env} {a2 : Tensor} {a3 : Tensor} {a4 : Bool} {a5 : Option OwnerTable} {a6 : ℕ} {a7 : List (ℕ × ℕ)} (h : Keeps u s) : Keeps.Ok (fun p => Keeps u p.2.2) (moveTiles s a1 a2 a3 a4 a5 a6 a7) := by
  induction a7 generalizing s with
  | nil =>
    unfold moveTiles
    repeat' first
      | with_reducible assumption
      | with_reducible apply fetchTile_keeps
      | exact id
      | exact Tab.set_wf _ _ _
      | exact Tab.modify_wf _ _ _
      | exact Tab.clear_wf _ _ _
      | exact Tab.keep_wf _ _
      | exact Tab.fill_wf _ _ _ _
      | exact Tab.setList_wf _ _ _
      | exact Tab.foldl_set_wf _ _ _ _
      | exact fun _ => Tab.empty_wf
      | with_reducible apply Keeps.ite
      | with_reducible apply Keeps.ok_ite
      | (intro x; refine (fun (_ : Keeps u x) => ?_) ?_; on_goal 2 => unfold x; on_goal 1 => clear_value x)
      | (intro x; refine (fun (_ : Keeps u (Prod.fst x)) => ?_) ?_; on_goal 2 => unfold x; on_goal 1 => clear_value x)
      | (intro x; refine (fun (_ : Keeps u (Prod.snd x)) => ?_) ?_; on_goal 2 => unfold x; on_goal 1 => clear_value x)
      | (intro x)
      | (lift_lets; intro x; refine (fun (_ : Keeps u x) => ?_) ?_; on_goal 2 => unfold x; on_goal 1 => clear_value x)
      | (lift_lets; intro x; refine (fun (_ : Keeps u (Prod.fst x)) => ?_) ?_; on_goal 2 => unfold x; on_goal 1 => clear_value x)
      | (lift_lets; intro x; refine (fun (_ : Keeps u (Prod.snd x)) => ?_) ?_; on_goal 2 => unfold x; on_goal 1 => clear_value x)
      | (lift_lets; intro x)
      | with_reducible refine Keeps.ok_map_st (u := u) ?_ fun _ _ => ?_
      | with_reducible refine Keeps.ok_map_snd (u := u) ?_ fun _ _ => ?_
      | with_reducible refine Keeps.ok_map_any fun _ => ?_
      | with_reducible apply Keeps.ok_ok
      | with_reducible apply Keeps.ok_pure
      | with_reducible apply Keeps.ok_error
      | with_reducible apply Keeps.ok_paramFault
      | with_reducible refine Keeps.ok_bind_st (u := u) ?_ fun _ _ => ?_
      | with_reducible refine Keeps.ok_bind_snd (u := u) ?_ fun _ _ => ?_
      | with_reducible refine Keeps.ok_bind_trd (u := u) ?_ fun _ _ => ?_
      | with_reducible refine Keeps.ok_bind_any fun _ => ?_
      | with_reducible refine Keeps.fold ?_ fun _ _ _ => ?_
      | with_reducible refine Keeps.fold1 ?_ fun _ _ _ => ?_
      | split
      | exact Keeps.of_ok (by assumption) (by first | exact fetchTile_keeps (by assumption))
      | (fail_if_no_progress with_reducible refine Keeps.mk_same ?_)
      | (fail_if_no_progress with_reducible refine Keeps.mk_tabs ?_ ?_ ?_ ?_ ?_ ?_)
      | (fail_if_no_progress dsimp +zetaDelta only)
  | cons b r ih =>
    unfold moveTiles
    repeat' first
      | with_reducible assumption
      | with_reducible apply ih
      | with_reducible apply fetchTile_keeps
      | exact id
      | exact Tab.set_wf _ _ _
      | exact Tab.modify_wf _ _ _
      | exact Tab.clear_wf _ _ _
      | exact Tab.keep_wf _ _
      | exact Tab.fill_wf _ _ _ _
      | exact Tab.setList_wf _ _ _
      | exact Tab.foldl_set_wf _ _ _ _
      | exact fun _ => Tab.empty_wf
      | with_reducible apply Keeps.ite
      | with_reducible apply Keeps.ok_ite
      | (intro x; refine (fun (_ : Keeps u x) => ?_) ?_; on_goal 2 => unfold x; on_goal 1 => clear_value x)
      | (intro x; refine (fun (_ : Keeps u (Prod.fst x)) => ?_) ?_; on_goal 2 => unfold x; on_goal 1 => clear_value x)
      | (intro x; refine (fun (_ : Keeps u (Prod.snd x)) => ?_) ?_; on_goal 2 => unfold x; on_goal 1 => clear_value x)
      | (intro x)
      | (lift_lets; intro x; refine (fun (_ : Keeps u x) => ?_) ?_; on_goal 2 => unfold x; on_goal 1 => clear_value x)
      | (lift_lets; intro x; refine (fun (_ : Keeps u (Prod.fst x)) => ?_) ?_; on_goal 2 => unfold x; on_goal 1 => clear_value x)
      | (lift_lets; intro x; refine (fun (_ : Keeps u (Prod.snd x)) => ?_) ?_; on_goal 2 => unfold x; on_goal 1 => clear_value x)
      | (lift_lets; intro x)
      | with_reducible refine Keeps.ok_map_st (u := u) ?_ fun _ _ => ?_
      | with_reducible refine Keeps.ok_map_snd (u := u) ?_ fun _ _ => ?_
      | with_reducible refine Keeps.ok_map_any fun _ => ?_
      | with_reducible apply Keeps.ok_ok
      | with_reducible apply Keeps.ok_pure
      | with_reducible apply Keeps.ok_error
      | with_reducible apply Keeps.ok_paramFault
      | with_reducible refine Keeps.ok_bind_st (u := u) ?_ fun _ _ => ?_
      | with_reducible refine Keeps.ok_bind_snd (u := u) ?_ fun _ _ => ?_
      | with_reducible refine Keeps.ok_bind_trd (u := u) ?_ fun _ _ => ?_
      | with_reducible refine Keeps.ok_bind_any fun _ => ?_
      | with_reducible refine Keeps.fold ?_ fun _ _ _ => ?_
      | with_reducible refine Keeps.fold1 ?_ fun _ _ _ => ?_
      | split
      | exact Keeps.of_ok (by assumption) (by first | exact fetchTile_keeps (by assumption))
      | (fail_if_no_progress with_reducible refine Keeps.mk_same ?_)
      | (fail_if_no_progress with_reducible refine Keeps.mk_tabs ?_ ?_ ?_ ?_ ?_ ?_)
      | (fail_if_no_progress dsimp +zetaDelta only)

theorem moveCommand_keeps {a0 : Env} (h : Keeps u s) : Keeps.Ok (Keeps u) (moveCommand a0 s) := by
  unfold moveCommand
  repeat' first
    | with_reducible assumption
    | with_reducible apply moveTiles_keeps
    | with_reducible apply moverWrite_keeps
    | with_reducible apply moverDone_keeps
    | with_reducible apply moverReads_keeps
    | with_reducible apply ownerTable_keeps
    | with_reducible apply Keeps.ok_ite
    | (intro x)
    | (lift_lets; intro x)
    | with_reducible apply Keeps.ok_atSlot
    | with_reducible refine Keeps.ok_map_snd (u := u) ?_ fun _ _ => ?_
    | with_reducible apply Keeps.ok_ok
    | with_reducible refine Keeps.ok_bind_st (u := u) ?_ fun _ _ => ?_
    | with_reducible refine Keeps.ok_bind_snd (u := u) ?_ fun _ _ => ?_
    | with_reducible refine Keeps.ok_bind_trd (u := u) ?_ fun _ _ => ?_
    | with_reducible refine Keeps.ok_bind_any fun _ => ?_

theorem listArgs_keeps {a1 : Env} {a2 : Bool} (h : Keeps u s) : Keeps.Ok (fun p => Keeps u p.2) (listArgs s a1 a2) := by
  unfold listArgs
  repeat' first
    | with_reducible assumption
    | with_reducible apply ownerTable_keeps
    | with_reducible apply Keeps.ok_ite
    | (intro x)
    | (lift_lets; intro x)
    | with_reducible refine Keeps.ok_map_snd (u := u) ?_ fun _ _ => ?_
    | with_reducible apply Keeps.ok_ok
    | with_reducible refine Keeps.ok_bind_snd (u := u) ?_ fun _ _ => ?_
    | with_reducible refine Keeps.ok_bind_any fun _ => ?_

theorem countRange_keeps {a1 : Env} {a2 : Tensor} {a3 : List (ℕ × ℕ)} (h : Keeps u s) : Keeps u (countRange s a1 a2 a3) := by
  unfold countRange
  repeat' first
    | with_reducible assumption
    | with_reducible apply State.count_keeps

theorem gatherBlock_keeps {a1 : Env} {a2 : ListArgs} {a3 : ℕ} (h : Keeps u s) : Keeps.Ok (fun p => Keeps u p.2.2) (gatherBlock s a1 a2 a3) := by
  unfold gatherBlock
  repeat' first
    | with_reducible assumption
    | with_reducible apply fetchBlock_keeps
    | exact id
    | exact Tab.foldl_set_wf _ _ _ _
    | with_reducible apply Keeps.ok_ite
    | (intro x; refine (fun (_ : Keeps u x) => ?_) ?_; on_goal 2 => unfold x; on_goal 1 => clear_value x)
    | (lift_lets; intro x; refine (fun (_ : Keeps u x) => ?_) ?_; on_goal 2 => unfold x; on_goal 1 => clear_value x)
    | with_reducible apply Keeps.ok_ok
    | with_reducible refine Keeps.ok_bind_snd (u := u) ?_ fun _ _ => ?_
    | with_reducible refine Keeps.ok_bind_any fun _ => ?_
    | split
    | (fail_if_no_progress with_reducible refine Keeps.mk_tabs ?_ ?_ ?_ ?_ ?_ ?_)

theorem gatherAll_keeps {a1 : Env} {a2 : ListArgs} {a3 : ℕ} {a4 : List (ℕ × ℕ)} (h : Keeps u s) : Keeps.Ok (fun p => Keeps u p.2.2) (gatherAll s a1 a2 a3 a4) := by
  induction a4 generalizing s a3 with
  | nil =>
    unfold gatherAll
    repeat' first
      | with_reducible assumption
      | with_reducible apply gatherBlock_keeps
      | with_reducible apply Keeps.ite
      | with_reducible apply Keeps.ok_ite
      | (intro x; refine (fun (_ : Keeps u x) => ?_) ?_; on_goal 2 => unfold x; on_goal 1 => clear_value x)
      | (intro x; refine (fun (_ : Keeps u (Prod.fst x)) => ?_) ?_; on_goal 2 => unfold x; on_goal 1 => clear_value x)
      | (intro x; refine (fun (_ : Keeps u (Prod.snd x)) => ?_) ?_; on_goal 2 => unfold x; on_goal 1 => clear_value x)
      | (intro x)
      | (lift_lets; intro x; refine (fun (_ : Keeps u x) => ?_) ?_; on_goal 2 => unfold x; on_goal 1 => clear_value x)
      | (lift_lets; intro x; refine (fun (_ : Keeps u (Prod.fst x)) => ?_) ?_; on_goal 2 => unfold x; on_goal 1 => clear_value x)
      | (lift_lets; intro x; refine (fun (_ : Keeps u (Prod.snd x)) => ?_) ?_; on_goal 2 => unfold x; on_goal 1 => clear_value x)
      | (lift_lets; intro x)
      | with_reducible refine Keeps.ok_map_st (u := u) ?_ fun _ _ => ?_
      | with_reducible refine Keeps.ok_map_snd (u := u) ?_ fun _ _ => ?_
      | with_reducible refine Keeps.ok_map_any fun _ => ?_
      | with_reducible apply Keeps.ok_ok
      | with_reducible apply Keeps.ok_pure
      | with_reducible apply Keeps.ok_error
      | with_reducible apply Keeps.ok_paramFault
      | with_reducible refine Keeps.ok_bind_st (u := u) ?_ fun _ _ => ?_
      | with_reducible refine Keeps.ok_bind_snd (u := u) ?_ fun _ _ => ?_
      | with_reducible refine Keeps.ok_bind_trd (u := u) ?_ fun _ _ => ?_
      | with_reducible refine Keeps.ok_bind_any fun _ => ?_
      | split
      | (fail_if_no_progress dsimp +zetaDelta only)
  | cons b r ih =>
    unfold gatherAll
    repeat' first
      | with_reducible assumption
      | with_reducible apply ih
      | with_reducible apply gatherBlock_keeps
      | with_reducible apply Keeps.ite
      | with_reducible apply Keeps.ok_ite
      | (intro x; refine (fun (_ : Keeps u x) => ?_) ?_; on_goal 2 => unfold x; on_goal 1 => clear_value x)
      | (intro x; refine (fun (_ : Keeps u (Prod.fst x)) => ?_) ?_; on_goal 2 => unfold x; on_goal 1 => clear_value x)
      | (intro x; refine (fun (_ : Keeps u (Prod.snd x)) => ?_) ?_; on_goal 2 => unfold x; on_goal 1 => clear_value x)
      | (intro x)
      | (lift_lets; intro x; refine (fun (_ : Keeps u x) => ?_) ?_; on_goal 2 => unfold x; on_goal 1 => clear_value x)
      | (lift_lets; intro x; refine (fun (_ : Keeps u (Prod.fst x)) => ?_) ?_; on_goal 2 => unfold x; on_goal 1 => clear_value x)
      | (lift_lets; intro x; refine (fun (_ : Keeps u (Prod.snd x)) => ?_) ?_; on_goal 2 => unfold x; on_goal 1 => clear_value x)
      | (lift_lets; intro x)
      | with_reducible refine Keeps.ok_map_st (u := u) ?_ fun _ _ => ?_
      | with_reducible refine Keeps.ok_map_snd (u := u) ?_ fun _ _ => ?_
      | with_reducible refine Keeps.ok_map_any fun _ => ?_
      | with_reducible apply Keeps.ok_ok
      | with_reducible apply Keeps.ok_pure
      | with_reducible apply Keeps.ok_error
      | with_reducible apply Keeps.ok_paramFault
      | with_reducible refine Keeps.ok_bind_st (u := u) ?_ fun _ _ => ?_
      | with_reducible refine Keeps.ok_bind_snd (u := u) ?_ fun _ _ => ?_
      | with_reducible refine Keeps.ok_bind_trd (u := u) ?_ fun _ _ => ?_
      | with_reducible refine Keeps.ok_bind_any fun _ => ?_
      | split
      | (fail_if_no_progress dsimp +zetaDelta only)

theorem gatherCommand_keeps {a0 : Env} (h : Keeps u s) : Keeps.Ok (Keeps u) (gatherCommand a0 s) := by
  unfold gatherCommand
  repeat' first
    | with_reducible assumption
    | with_reducible apply listArgs_keeps
    | with_reducible apply gatherAll_keeps
    | with_reducible apply moverWrite_keeps
    | with_reducible apply moverDone_keeps
    | with_reducible apply countRange_keeps
    | with_reducible apply moverReads_keeps
    | (lift_lets; intro x)
    | with_reducible apply Keeps.ok_atSlot
    | with_reducible apply Keeps.ok_ok
    | with_reducible refine Keeps.ok_bind_st (u := u) ?_ fun _ _ => ?_
    | with_reducible refine Keeps.ok_bind_snd (u := u) ?_ fun _ _ => ?_
    | with_reducible refine Keeps.ok_bind_trd (u := u) ?_ fun _ _ => ?_
    | with_reducible refine Keeps.ok_bind_any fun _ => ?_

theorem scatterCommand_keeps {a0 : Env} (h : Keeps u s) : Keeps.Ok (Keeps u) (scatterCommand a0 s) := by
  unfold scatterCommand
  repeat' first
    | with_reducible assumption
    | with_reducible apply listArgs_keeps
    | with_reducible apply moverWrite_keeps
    | with_reducible apply moverDone_keeps
    | with_reducible apply countRange_keeps
    | with_reducible apply moverReads_keeps
    | (intro x)
    | (lift_lets; intro x)
    | with_reducible apply Keeps.ok_atSlot
    | with_reducible apply Keeps.ok_ok
    | with_reducible refine Keeps.ok_bind_st (u := u) ?_ fun _ _ => ?_
    | with_reducible refine Keeps.ok_bind_snd (u := u) ?_ fun _ _ => ?_
    | with_reducible refine Keeps.ok_bind_any fun _ => ?_

theorem scatterAdds_keeps {a1 : Env} {a2 : ListArgs} {a3 : List (ℕ × ℕ × ℕ)} (h : Keeps u s) : Keeps.Ok (Keeps u) (scatterAdds s a1 a2 a3) := by
  induction a3 generalizing s with
  | nil =>
    unfold scatterAdds
    repeat' first
      | with_reducible assumption
      | with_reducible apply moverReads_keeps
      | with_reducible apply moverWrite_keeps
      | (intro x; refine (fun (_ : Keeps u x) => ?_) ?_; on_goal 2 => unfold x; on_goal 1 => clear_value x)
      | (intro x; refine (fun (_ : Keeps u (Prod.fst x)) => ?_) ?_; on_goal 2 => unfold x; on_goal 1 => clear_value x)
      | (intro x; refine (fun (_ : Keeps u (Prod.snd x)) => ?_) ?_; on_goal 2 => unfold x; on_goal 1 => clear_value x)
      | (intro x)
      | (lift_lets; intro x; refine (fun (_ : Keeps u x) => ?_) ?_; on_goal 2 => unfold x; on_goal 1 => clear_value x)
      | (lift_lets; intro x; refine (fun (_ : Keeps u (Prod.fst x)) => ?_) ?_; on_goal 2 => unfold x; on_goal 1 => clear_value x)
      | (lift_lets; intro x; refine (fun (_ : Keeps u (Prod.snd x)) => ?_) ?_; on_goal 2 => unfold x; on_goal 1 => clear_value x)
      | (lift_lets; intro x)
      | with_reducible apply Keeps.ok_atSlot
      | with_reducible apply Keeps.ok_ok
      | with_reducible apply Keeps.ok_pure
      | with_reducible apply Keeps.ok_error
      | with_reducible apply Keeps.ok_paramFault
      | with_reducible refine Keeps.ok_bind_st (u := u) ?_ fun _ _ => ?_
      | with_reducible refine Keeps.ok_bind_snd (u := u) ?_ fun _ _ => ?_
      | with_reducible refine Keeps.ok_bind_trd (u := u) ?_ fun _ _ => ?_
      | with_reducible refine Keeps.ok_bind_any fun _ => ?_
      | split
      | (fail_if_no_progress dsimp +zetaDelta only)
  | cons b r ih =>
    unfold scatterAdds
    repeat' first
      | with_reducible assumption
      | with_reducible apply ih
      | with_reducible apply moverReads_keeps
      | with_reducible apply moverWrite_keeps
      | (intro x; refine (fun (_ : Keeps u x) => ?_) ?_; on_goal 2 => unfold x; on_goal 1 => clear_value x)
      | (intro x; refine (fun (_ : Keeps u (Prod.fst x)) => ?_) ?_; on_goal 2 => unfold x; on_goal 1 => clear_value x)
      | (intro x; refine (fun (_ : Keeps u (Prod.snd x)) => ?_) ?_; on_goal 2 => unfold x; on_goal 1 => clear_value x)
      | (intro x)
      | (lift_lets; intro x; refine (fun (_ : Keeps u x) => ?_) ?_; on_goal 2 => unfold x; on_goal 1 => clear_value x)
      | (lift_lets; intro x; refine (fun (_ : Keeps u (Prod.fst x)) => ?_) ?_; on_goal 2 => unfold x; on_goal 1 => clear_value x)
      | (lift_lets; intro x; refine (fun (_ : Keeps u (Prod.snd x)) => ?_) ?_; on_goal 2 => unfold x; on_goal 1 => clear_value x)
      | (lift_lets; intro x)
      | with_reducible apply Keeps.ok_atSlot
      | with_reducible apply Keeps.ok_ok
      | with_reducible apply Keeps.ok_pure
      | with_reducible apply Keeps.ok_error
      | with_reducible apply Keeps.ok_paramFault
      | with_reducible refine Keeps.ok_bind_st (u := u) ?_ fun _ _ => ?_
      | with_reducible refine Keeps.ok_bind_snd (u := u) ?_ fun _ _ => ?_
      | with_reducible refine Keeps.ok_bind_trd (u := u) ?_ fun _ _ => ?_
      | with_reducible refine Keeps.ok_bind_any fun _ => ?_
      | split
      | (fail_if_no_progress dsimp +zetaDelta only)

theorem scatterAddCommand_keeps {a0 : Env} (h : Keeps u s) : Keeps.Ok (Keeps u) (scatterAddCommand a0 s) := by
  unfold scatterAddCommand
  repeat' first
    | with_reducible assumption
    | with_reducible apply listArgs_keeps
    | with_reducible apply scatterAdds_keeps
    | with_reducible apply moverDone_keeps
    | with_reducible apply countRange_keeps
    | (lift_lets; intro x)
    | with_reducible apply Keeps.ok_ok
    | with_reducible refine Keeps.ok_bind_st (u := u) ?_ fun _ _ => ?_
    | with_reducible refine Keeps.ok_bind_snd (u := u) ?_ fun _ _ => ?_
    | with_reducible refine Keeps.ok_bind_any fun _ => ?_

theorem windowCommand_keeps {a0 : Env} (h : Keeps u s) : Keeps.Ok (Keeps u) (windowCommand a0 s) := by
  unfold windowCommand
  repeat' first
    | with_reducible assumption
    | with_reducible apply moverWrite_keeps
    | with_reducible apply moverDone_keeps
    | with_reducible apply moverReads_keeps
    | (intro x)
    | (lift_lets; intro x)
    | with_reducible apply Keeps.ok_atSlot
    | with_reducible apply Keeps.ok_ok
    | with_reducible refine Keeps.ok_bind_st (u := u) ?_ fun _ _ => ?_
    | with_reducible refine Keeps.ok_bind_any fun _ => ?_

theorem spillCommand_keeps {a0 : Env} (h : Keeps u s) : Keeps.Ok (Keeps u) (spillCommand a0 s) := by
  unfold spillCommand
  refine Keeps.ok_bind_any fun x => ?_
  refine Keeps.ok_ite (Keeps.ok_ok h) (Keeps.ok_bind_any fun _ => ?_)
  extract_lets n base
  clear_value n base
  split
  · exact Keeps.ok_error
  · refine Keeps.ok_bind_any fun _ => Keeps.ok_ok ?_
    exact State.noteWrite_keeps (Keeps.mk_same (moverReads_keeps (State.putBytes_keeps h)))

theorem prefetchCommand_keeps {a0 : Env} (h : Keeps u s) : Keeps.Ok (Keeps u) (prefetchCommand a0 s) := by
  unfold prefetchCommand
  repeat' first
    | with_reducible assumption
    | with_reducible apply moverWrite_keeps
    | with_reducible apply State.putBytes_keeps
    | with_reducible apply moverReads_keeps
    | with_reducible apply moverDone_keeps
    | (intro x)
    | (lift_lets; intro x; refine (fun (_ : Keeps u x) => ?_) ?_; on_goal 2 => unfold x; on_goal 1 => clear_value x)
    | (lift_lets; intro x)
    | with_reducible apply Keeps.ok_atSlot
    | with_reducible apply Keeps.ok_ok
    | with_reducible apply Keeps.ok_paramFault
    | with_reducible refine Keeps.ok_bind_st (u := u) ?_ fun _ _ => ?_
    | with_reducible refine Keeps.ok_bind_any fun _ => ?_
    | split
    | (fail_if_no_progress with_reducible refine Keeps.mk_same ?_)

/-! ### Machine/Seq.lean -/

theorem Core.restart_held (c : Core) : c.restart.held = c.held := by
  unfold Core.restart
  split <;> rfl

theorem State.setCtx_keeps {a1 : Env} {a2 : (QCtx → QCtx)} (h : Keeps u s) : Keeps u (State.setCtx s a1 a2) := by
  unfold State.setCtx
  repeat' first
    | with_reducible assumption
    | with_reducible refine State.setCore_keeps ?_ ?_
    | exact rfl

theorem fenceCommand_keeps {a0 : Env} (h : Keeps u s) : Keeps.Ok (Keeps u) (fenceCommand a0 s) := by
  unfold fenceCommand
  repeat' first
    | with_reducible assumption
    | with_reducible apply State.setCtx_keeps
    | (lift_lets; intro x)
    | with_reducible apply Keeps.ok_ok
    | with_reducible refine Keeps.ok_bind_any fun _ => ?_

theorem signalFlag_keeps {a0 : Env} {a2 : ℕ} {a3 : ℕ} {a4 : ℕ} (h : Keeps u s) : Keeps.Ok (Keeps u) (signalFlag a0 s a2 a3 a4) := by
  unfold signalFlag
  repeat' first
    | with_reducible assumption
    | with_reducible apply State.hostPut_keeps
    | with_reducible apply commitCells_keeps
    | with_reducible apply Keeps.ok_ite
    | (intro x)
    | (lift_lets; intro x)
    | with_reducible apply Keeps.ok_atSlot
    | with_reducible apply Keeps.ok_ok
    | with_reducible refine Keeps.ok_bind_any fun _ => ?_
    | split

theorem signalCount_keeps {a0 : Env} {a2 : ℕ} {a3 : ℕ} {a4 : ℕ} (h : Keeps u s) : Keeps.Ok (Keeps u) (signalCount a0 s a2 a3 a4) := by
  unfold signalCount
  repeat' first
    | with_reducible assumption
    | with_reducible apply State.setSync_keeps
    | with_reducible apply Keeps.ok_ite
    | (lift_lets; intro x)
    | with_reducible apply Keeps.ok_ok
    | with_reducible refine Keeps.ok_bind_any fun _ => ?_

theorem signalCommand_keeps {a0 : Env} (h : Keeps u s) : Keeps.Ok (Keeps u) (signalCommand a0 s) := by
  unfold signalCommand
  repeat' first
    | with_reducible assumption
    | with_reducible apply State.recordEffect_keeps
    | with_reducible apply signalFlag_keeps
    | with_reducible apply signalCount_keeps
    | with_reducible apply Keeps.ok_ite
    | (lift_lets; intro x)
    | with_reducible apply Keeps.ok_ok
    | with_reducible refine Keeps.ok_bind_st (u := u) ?_ fun _ _ => ?_
    | with_reducible refine Keeps.ok_bind_any fun _ => ?_

theorem waitCommand_keeps {a0 : Env} (h : Keeps u s) : Keeps.Ok (Keeps u) (waitCommand a0 s) := by
  unfold waitCommand
  repeat' first
    | with_reducible assumption
    | with_reducible apply State.setCtx_keeps
    | with_reducible apply Keeps.ok_ite
    | (lift_lets; intro x)
    | with_reducible apply Keeps.ok_ok
    | with_reducible refine Keeps.ok_bind_any fun _ => ?_

theorem State.arrive_keeps {a1 : ℕ} (h : Keeps u s) : Keeps u (State.arrive s a1) := by
  unfold State.arrive
  repeat' first
    | with_reducible assumption
    | with_reducible apply State.setSync_keeps
    | with_reducible apply State.barrierTry_keeps
    | with_reducible apply Keeps.ite

theorem barrierCommand_keeps {a0 : Env} (h : Keeps u s) : Keeps.Ok (Keeps u) (barrierCommand a0 s) := by
  unfold barrierCommand
  repeat' first
    | with_reducible assumption
    | with_reducible apply State.recordEffect_keeps
    | with_reducible apply State.arrive_keeps
    | with_reducible apply State.setCtx_keeps
    | with_reducible apply Keeps.ok_ite
    | (lift_lets; intro x)
    | with_reducible apply Keeps.ok_ok
    | with_reducible refine Keeps.ok_bind_any fun _ => ?_

theorem State.installPhase_keeps {a1 : ℕ} {a2 : ℕ} (h : Keeps u s) : Keeps u (State.installPhase s a1 a2) := by
  unfold State.installPhase
  repeat' first
    | with_reducible assumption
    | with_reducible apply State.setPart_keeps

theorem State.phaseCheck_keeps {a1 : ℕ} {a2 : ℕ} (h : Keeps u s) : Keeps u (State.phaseCheck s a1 a2) := by
  unfold State.phaseCheck
  repeat' first
    | with_reducible assumption
    | with_reducible apply State.installPhase_keeps
    | with_reducible apply State.setObj_keeps
    | with_reducible apply State.setPart_keeps
    | with_reducible apply Keeps.ite

theorem phaseCommand_keeps {a0 : Env} (h : Keeps u s) : Res.Keeps u (phaseCommand a0 s) := by
  unfold phaseCommand
  repeat' first
    | with_reducible assumption
    | with_reducible apply State.setCtx_keeps
    | with_reducible apply State.recordEffect_keeps
    | with_reducible apply State.phaseCheck_keeps
    | with_reducible apply Keeps.ite
    | (intro x; refine (fun (_ : Keeps u x) => ?_) ?_; on_goal 2 => unfold x; on_goal 1 => clear_value x)
    | (lift_lets; intro x)
    | with_reducible apply Res.keeps_ok
    | with_reducible apply Res.keeps_stop
    | with_reducible apply Res.keeps_ite
    | split
    | (fail_if_no_progress with_reducible refine Keeps.mk_same ?_)

theorem contentCheck_keeps {a1 : Env} {a2 : ℕ} {a3 : ℕ} (h : Keeps u s) : Keeps.Ok (Keeps u) (contentCheck s a1 a2 a3) := by
  unfold contentCheck
  repeat' first
    | with_reducible assumption
    | with_reducible apply ownerTableOf_keeps
    | with_reducible apply Keeps.ok_ite
    | with_reducible apply Keeps.ok_ok
    | with_reducible refine Keeps.ok_bind_snd (u := u) ?_ fun _ _ => ?_
    | with_reducible refine Keeps.ok_bind_any fun _ => ?_

theorem slotCommand_keeps {a0 : Env} (h : Keeps u s) : Keeps.Ok (Keeps u) (slotCommand a0 s) := by
  unfold slotCommand
  repeat' first
    | with_reducible assumption
    | with_reducible apply State.setSlot_keeps
    | with_reducible apply contentCheck_keeps
    | with_reducible apply Keeps.ok_ite
    | (intro x)
    | (lift_lets; intro x)
    | with_reducible apply Keeps.ok_atSlot
    | with_reducible apply Keeps.ok_ok
    | with_reducible refine Keeps.ok_bind_st (u := u) ?_ fun _ _ => ?_
    | with_reducible refine Keeps.ok_bind_any fun _ => ?_

theorem endCommand_keeps {a0 : Env} (h : Keeps u s) : Keeps.Ok (Keeps u) (endCommand a0 s) := by
  unfold endCommand
  repeat' first
    | with_reducible assumption
    | with_reducible apply State.setCtx_keeps
    | with_reducible apply Keeps.ok_ok
    | with_reducible refine Keeps.ok_bind_any fun _ => ?_

theorem State.destinationReady_keeps {a1 : ℕ} {a2 : ℕ} {a3 : ℕ} (h : Keeps u s) : Keeps u (State.destinationReady s a1 a2 a3) := by
  unfold State.destinationReady
  repeat' first
    | with_reducible assumption
    | with_reducible apply State.slotReady_keeps
    | with_reducible refine State.setCore_keeps ?_ ?_
    | exact rfl
    | with_reducible apply State.recordEffect_keeps
    | with_reducible apply Keeps.ite
    | (intro x)
    | (lift_lets; intro x)
    | split

theorem State.bellRelease_keeps {a1 : ℕ} {a2 : ℕ} (h : Keeps u s) : Keeps u (State.bellRelease s a1 a2) := by
  unfold State.bellRelease
  repeat' first
    | with_reducible assumption
    | with_reducible apply State.settlePower_keeps
    | with_reducible refine State.setCore_keeps ?_ ?_
    | exact (Core.restart_held _).trans rfl
    | with_reducible apply Keeps.ite
    | (lift_lets; intro x)
    | split

theorem State.clockGate_keeps {a1 : ℕ} (h : Keeps u s) : Keeps u (State.clockGate s a1) := by
  unfold State.clockGate
  repeat' first
    | with_reducible assumption
    | with_reducible apply State.settlePower_keeps
    | with_reducible apply State.count_keeps
    | with_reducible refine State.setCore_keeps ?_ ?_
    | exact rfl
    | with_reducible apply Keeps.ite

end Sys2Proof.Machine
end

