-- ==== Sys2Proof/Laws/KeepsBore.lean ====
section
/-! SUPPORT. Every operation keeps the queue and the canonical tables: Bore and the collectives. -/

namespace Sys2Proof.Machine

set_option linter.unusedTactic false
set_option linter.unreachableTactic false

variable {u s : State}

/-! ### Machine/BoreConn.lean -/

theorem markRdy_keeps {a1 : Env} {a2 : SlotSt} (h : Keeps u s) : Keeps u (markRdy s a1 a2) := by
  unfold markRdy
  repeat' first
    | with_reducible assumption
    | with_reducible apply State.setSlot_keeps
    | with_reducible apply Keeps.ite

theorem State.post_keeps {a1 : ℕ} {a2 : WorkEntry} (h : Keeps u s) : Keeps u (State.post s a1 a2) := by
  unfold State.post
  repeat' first
    | with_reducible assumption
    | with_reducible apply State.finish_keeps
    | with_reducible apply State.setConn_keeps
    | with_reducible apply Keeps.ite
    | (fail_if_no_progress with_reducible refine Keeps.mk_same ?_)

theorem boreCommand_keeps {a0 : Env} (h : Keeps u s) : Keeps.Ok (Keeps u) (boreCommand a0 s) := by
  unfold boreCommand
  repeat' first
    | with_reducible assumption
    | with_reducible apply markRdy_keeps
    | with_reducible apply State.post_keeps
    | with_reducible apply State.noteWrite_keeps
    | with_reducible apply Keeps.ite
    | with_reducible apply Keeps.ok_ite
    | (intro x; refine (fun (_ : Keeps u x) => ?_) ?_; on_goal 2 => unfold x; on_goal 1 => clear_value x)
    | (intro x)
    | (lift_lets; intro x)
    | with_reducible apply Keeps.ok_ok
    | with_reducible refine Keeps.ok_bind_any fun _ => ?_

theorem State.writeConn_keeps {a1 : ℕ} {a2 : ℕ} (h : Keeps u s) : Keeps u (State.writeConn s a1 a2).1 := by
  unfold State.writeConn
  repeat' first
    | with_reducible assumption
    | with_reducible apply State.setConn_keeps
    | with_reducible apply Keeps.ite1

theorem State.sendConnect_keeps {a1 : ℕ} {a2 : PktKind} (h : Keeps u s) : Keeps u (State.sendConnect s a1 a2) := by
  unfold State.sendConnect
  repeat' first
    | with_reducible assumption
    | with_reducible apply State.sendPacket_keeps

theorem State.openConn_keeps {a1 : ℕ} (h : Keeps u s) : Keeps u (State.openConn s a1).1 := by
  unfold State.openConn
  repeat' first
    | with_reducible assumption
    | with_reducible apply State.count_keeps
    | with_reducible apply State.takeFree_keeps
    | with_reducible apply State.setConn_keeps
    | with_reducible apply State.sendConnect_keeps
    | with_reducible apply Keeps.ite1

theorem State.sendClose_keeps {a1 : ℕ} (h : Keeps u s) : Keeps u (State.sendClose s a1) := by
  unfold State.sendClose
  repeat' first
    | with_reducible assumption
    | with_reducible apply State.sendPacket_keeps
    | with_reducible apply State.setConn_keeps

theorem State.closeTry_keeps {a1 : ℕ} (h : Keeps u s) : Keeps u (State.closeTry s a1) := by
  unfold State.closeTry
  repeat' first
    | with_reducible assumption
    | with_reducible apply State.sendClose_keeps
    | with_reducible apply Keeps.ite

theorem State.closeConn_keeps {a1 : ℕ} (h : Keeps u s) : Keeps u (State.closeConn s a1).1 := by
  unfold State.closeConn
  repeat' first
    | with_reducible assumption
    | with_reducible apply State.closeTry_keeps
    | with_reducible apply State.countOpen_keeps
    | with_reducible apply State.setConn_keeps
    | with_reducible apply State.sendClose_keeps
    | (lift_lets; intro x)
    | split

theorem State.connControl_keeps {a1 : ℕ} {a2 : ℕ} (h : Keeps u s) : Keeps u (State.connControl s a1 a2).1 := by
  unfold State.connControl
  repeat' first
    | with_reducible assumption
    | with_reducible apply State.openConn_keeps
    | with_reducible apply State.closeConn_keeps
    | with_reducible apply Keeps.ite1

theorem State.boreDrop_keeps (h : Keeps u s) : Keeps u (State.boreDrop s) := by
  unfold State.boreDrop
  repeat' first
    | with_reducible assumption
    | (fail_if_no_progress with_reducible refine Keeps.mk_same ?_)

theorem State.received_keeps {a1 : Packet} (h : Keeps u s) : Keeps u (State.received s a1) := by
  unfold State.received
  repeat' first
    | with_reducible assumption
    | with_reducible apply State.count_keeps

theorem State.opened_keeps {a1 : Packet} (h : Keeps u s) : Keeps u (State.opened s a1) := by
  unfold State.opened
  repeat' first
    | with_reducible assumption
    | with_reducible apply State.countOpen_keeps
    | with_reducible apply State.setConn_keeps

theorem State.authFail_keeps {a1 : ℕ} (h : Keeps u s) : Keeps u (State.authFail s a1) := by
  unfold State.authFail
  repeat' first
    | with_reducible assumption
    | with_reducible apply State.setConn_keeps
    | with_reducible apply State.count_keeps
    | with_reducible apply State.connError_keeps
    | with_reducible apply State.logEvent_keeps
    | with_reducible apply Keeps.ite

theorem State.authPass_keeps {a1 : ℕ} (h : Keeps u s) : Keeps u (State.authPass s a1) := State.setConn_keeps h

theorem State.rxConnect_keeps {a1 : Packet} (h : Keeps u s) : Keeps u (State.rxConnect s a1) := by
  unfold State.rxConnect
  repeat' first
    | with_reducible assumption
    | with_reducible apply State.received_keeps
    | with_reducible apply State.boreDrop_keeps
    | with_reducible apply State.sendConnect_keeps
    | with_reducible apply State.opened_keeps
    | with_reducible apply State.authFail_keeps
    | with_reducible apply State.authPass_keeps
    | with_reducible apply State.connError_keeps
    | with_reducible apply Keeps.ite

theorem State.rxAccept_keeps {a1 : Packet} (h : Keeps u s) : Keeps u (State.rxAccept s a1) := by
  unfold State.rxAccept
  repeat' first
    | with_reducible assumption
    | with_reducible apply State.received_keeps
    | with_reducible apply State.opened_keeps
    | with_reducible apply State.authFail_keeps
    | with_reducible apply State.authPass_keeps
    | with_reducible apply State.boreDrop_keeps
    | with_reducible apply Keeps.ite

theorem State.writeKey_keeps {a1 : ℕ} {a2 : ℕ} (h : Keeps u s) : Keeps u (State.writeKey s a1 a2).1 := by
  unfold State.writeKey
  repeat' first
    | with_reducible assumption
    | with_reducible apply Keeps.ite1
    | (fail_if_no_progress with_reducible refine Keeps.mk_same ?_)

theorem State.register_keeps {a1 : ℕ} (h : Keeps u s) : Keeps u (State.register s a1).1 := by
  unfold State.register
  repeat' first
    | with_reducible assumption
    | with_reducible apply State.count_keeps
    | with_reducible apply Keeps.ite1
    | (lift_lets; intro x)
    | split
    | (fail_if_no_progress with_reducible refine Keeps.mk_same ?_)

theorem State.invalidate_keeps {a1 : ℕ} (h : Keeps u s) : Keeps u (State.invalidate s a1).1 := by
  unfold State.invalidate
  repeat' first
    | with_reducible assumption
    | (lift_lets; intro x)
    | (fail_if_no_progress with_reducible refine Keeps.mk_same ?_)

theorem State.keyControl_keeps {a1 : ℕ} {a2 : ℕ} (h : Keeps u s) : Keeps u (State.keyControl s a1 a2).1 := by
  unfold State.keyControl
  repeat' first
    | with_reducible assumption
    | with_reducible apply State.register_keeps
    | with_reducible apply State.invalidate_keeps
    | with_reducible apply Keeps.ite1

/-! ### Machine/BoreTx.lean -/

theorem State.workData_keeps {a1 : ℕ} {a2 : ℕ} (h : Keeps u s) : Keeps u (State.workData s a1 a2) := by
  unfold State.workData
  repeat' first
    | with_reducible assumption
    | with_reducible apply State.fenceCore_keeps
    | with_reducible apply State.pumpBarrier_keeps
    | with_reducible apply State.transmit_keeps
    | with_reducible apply Keeps.ite
    | split

theorem State.workRequest_keeps {a1 : ℕ} {a2 : ℕ} (h : Keeps u s) : Keeps u (State.workRequest s a1 a2) := by
  unfold State.workRequest
  repeat' first
    | with_reducible assumption
    | with_reducible apply State.pumpBarrier_keeps
    | with_reducible apply State.transmit_keeps
    | with_reducible apply Keeps.ite
    | (intro x)
    | (lift_lets; intro x)
    | split

theorem State.workRecv_keeps {a1 : ℕ} (h : Keeps u s) : Keeps u (State.workRecv s a1) := by
  unfold State.workRecv
  repeat' first
    | with_reducible assumption
    | with_reducible apply State.recordEffect_keeps
    | with_reducible apply State.setConn_keeps
    | (lift_lets; intro x)
    | split

theorem State.chainRelease_keeps {a1 : ℕ} (h : Keeps u s) : Keeps u (State.chainRelease s a1) := by
  unfold State.chainRelease
  repeat' first
    | with_reducible assumption
    | with_reducible apply State.finishSend_keeps
    | with_reducible apply State.setConn_keeps
    | with_reducible apply Keeps.ite
    | (lift_lets; intro x)
    | split

theorem State.admitPacket_keeps {a1 : Packet} (h : Keeps u s) : Keeps u (State.admitPacket s a1).1 := by
  unfold State.admitPacket
  repeat' first
    | with_reducible assumption
    | with_reducible apply State.received_keeps
    | with_reducible apply State.boreDrop_keeps
    | with_reducible apply State.authFail_keeps
    | with_reducible apply State.authPass_keeps
    | with_reducible apply State.setConn_keeps
    | with_reducible apply Keeps.ite1
    | split

theorem State.congestionCut_keeps {a1 : ℕ} (h : Keeps u s) : Keeps u (State.congestionCut s a1) := by
  unfold State.congestionCut
  repeat' first
    | with_reducible assumption
    | with_reducible apply State.setConn_keeps
    | with_reducible apply Keeps.ite

theorem State.completeAcked_keeps {a1 : ℕ} {a2 : ℕ} {a3 : BitVec 24} (h : Keeps u s) : Keeps u (State.completeAcked s a1 a2 a3) := by
  unfold State.completeAcked
  repeat' first
    | with_reducible assumption
    | with_reducible apply State.finishSend_keeps
    | with_reducible refine Keeps.fold ?_ fun _ _ _ => ?_

theorem State.rxAck_keeps {a1 : Packet} {a2 : ℕ} (h : Keeps u s) : Keeps u (State.rxAck s a1 a2) := by
  unfold State.rxAck
  repeat' first
    | with_reducible assumption
    | with_reducible apply State.completeAcked_keeps
    | with_reducible apply State.setConn_keeps
    | with_reducible apply State.congestionCut_keeps
    | with_reducible apply State.count_keeps
    | with_reducible apply State.closeTry_keeps
    | with_reducible apply Keeps.ite
    | split
    | exact Keeps.of_pair (by assumption) (by first | exact State.admitPacket_keeps (by assumption))

theorem State.resendFrom_keeps {a1 : ℕ} {a2 : BitVec 24} (h : Keeps u s) : Keeps u (State.resendFrom s a1 a2) := by
  unfold State.resendFrom
  repeat' first
    | with_reducible assumption
    | with_reducible apply State.count_keeps
    | with_reducible apply State.sendPacket_keeps
    | with_reducible apply State.countBulk_keeps
    | with_reducible apply Keeps.ite
    | (lift_lets; intro x; refine (fun (_ : Keeps u x) => ?_) ?_; on_goal 2 => unfold x; on_goal 1 => clear_value x)
    | with_reducible refine Keeps.fold ?_ fun _ _ _ => ?_
    | split

theorem State.nakRnr_keeps {a1 : ℕ} {a2 : BitVec 24} (h : Keeps u s) : Keeps u (State.nakRnr s a1 a2) := by
  unfold State.nakRnr
  repeat' first
    | with_reducible assumption
    | with_reducible apply State.count_keeps
    | with_reducible apply State.connError_keeps
    | with_reducible apply State.finishSend_keeps
    | with_reducible apply State.setConn_keeps
    | with_reducible apply Keeps.ite
    | (intro x)
    | (lift_lets; intro x; refine (fun (_ : Keeps u x) => ?_) ?_; on_goal 2 => unfold x; on_goal 1 => clear_value x)
    | split

theorem State.nakFault_keeps {a1 : ℕ} {a2 : BitVec 24} {a3 : ℕ} (h : Keeps u s) : Keeps u (State.nakFault s a1 a2 a3) := by
  unfold State.nakFault
  repeat' first
    | with_reducible assumption
    | with_reducible apply State.finishSend_keeps
    | with_reducible apply State.closeTry_keeps
    | with_reducible apply State.setConn_keeps
    | split

theorem State.nakAccess_keeps {a1 : ℕ} {a2 : Packet} (h : Keeps u s) : Keeps u (State.nakAccess s a1 a2) := by
  unfold State.nakAccess
  repeat' first
    | with_reducible assumption
    | with_reducible apply State.finishSend_keeps
    | with_reducible apply State.logEvent_keeps
    | with_reducible apply State.count_keeps
    | with_reducible apply State.connError_keeps
    | split

theorem State.rxNak_keeps {a1 : Packet} (h : Keeps u s) : Keeps u (State.rxNak s a1) := by
  unfold State.rxNak
  repeat' first
    | with_reducible assumption
    | with_reducible apply State.count_keeps
    | with_reducible apply State.resendFrom_keeps
    | with_reducible apply State.congestionCut_keeps
    | with_reducible apply State.nakRnr_keeps
    | with_reducible apply State.setConn_keeps
    | with_reducible apply State.nakFault_keeps
    | with_reducible apply State.nakAccess_keeps
    | with_reducible apply Keeps.ite
    | (intro x; refine (fun (_ : Keeps u x) => ?_) ?_; on_goal 2 => unfold x; on_goal 1 => clear_value x)
    | (intro x)
    | (lift_lets; intro x)
    | split
    | exact Keeps.of_pair (by assumption) (by first | exact State.admitPacket_keeps (by assumption))

theorem State.retransmitTimeout_keeps {a1 : ℕ} (h : Keeps u s) : Keeps u (State.retransmitTimeout s a1) := by
  unfold State.retransmitTimeout
  repeat' first
    | with_reducible assumption
    | with_reducible apply State.resendFrom_keeps
    | with_reducible apply State.count_keeps
    | with_reducible apply State.connError_keeps
    | with_reducible apply State.finishSend_keeps
    | with_reducible apply State.setConn_keeps
    | with_reducible apply Keeps.ite
    | (intro x; refine (fun (_ : Keeps u x) => ?_) ?_; on_goal 2 => unfold x; on_goal 1 => clear_value x)
    | (lift_lets; intro x; refine (fun (_ : Keeps u x) => ?_) ?_; on_goal 2 => unfold x; on_goal 1 => clear_value x)
    | split

theorem State.resume_keeps {a1 : ℕ} {a2 : ℕ} (h : Keeps u s) : Keeps u (State.resume s a1 a2) := by
  unfold State.resume
  repeat' first
    | with_reducible assumption
    | with_reducible apply State.resendFrom_keeps
    | with_reducible apply State.setConn_keeps
    | with_reducible apply Keeps.ite

/-! ### Machine/BoreRx.lean -/

theorem State.sendAck_keeps {a1 : ℕ} {a2 : ℕ} (h : Keeps u s) : Keeps u (State.sendAck s a1 a2) := by
  unfold State.sendAck
  repeat' first
    | with_reducible assumption
    | with_reducible apply State.sendPacket_keeps
    | with_reducible apply State.setConn_keeps

theorem State.sendNak_keeps {a1 : ℕ} {a2 : BitVec 24} {a3 : ℕ} {a4 : ℕ} (h : Keeps u s) : Keeps u (State.sendNak s a1 a2 a3 a4) := by
  unfold State.sendNak
  repeat' first
    | with_reducible assumption
    | with_reducible apply State.sendPacket_keeps
    | with_reducible apply State.setConn_keeps

theorem State.taken_keeps {a1 : ℕ} {a2 : Packet} {a3 : ℕ} {a4 : ℕ} (h : Keeps u s) : Keeps u (State.taken s a1 a2 a3 a4) := by
  unfold State.taken
  repeat' first
    | with_reducible assumption
    | with_reducible apply State.setConn_keeps
    | with_reducible apply State.sendAck_keeps
    | with_reducible apply Keeps.ite

theorem State.violation_keeps {a1 : ℕ} {a2 : Packet} {a3 : ℕ} (h : Keeps u s) : Keeps u (State.violation s a1 a2 a3) := by
  unfold State.violation
  repeat' first
    | with_reducible assumption
    | with_reducible apply State.sendNak_keeps
    | with_reducible apply State.logEvent_keeps
    | with_reducible apply State.count_keeps
    | with_reducible apply State.connError_keeps
    | with_reducible apply Keeps.ite

theorem State.nakSeq_keeps {a1 : ℕ} (h : Keeps u s) : Keeps u (State.nakSeq s a1) := by
  unfold State.nakSeq
  repeat' first
    | with_reducible assumption
    | with_reducible apply State.sendNak_keeps
    | with_reducible apply State.setConn_keeps
    | with_reducible apply Keeps.ite

theorem State.rxData_keeps {a1 : Packet} {a2 : PktKind} {a3 : (State → Packet → Option State)} {a4 : (State → Packet → State)} (h : Keeps u s) (h3 : ∀ s p, Keeps u s → Keeps.Some (Keeps u) (a3 s p)) (h4 : ∀ s p, Keeps u s → Keeps u (a4 s p)) : Keeps u (State.rxData s a1 a2 a3 a4) := by
  unfold State.rxData
  split
  · exact h
  have g := State.admitPacket_keeps (a1 := a1) h
  split
  · next v q => rw [q] at g; exact g
  · next v p q =>
    rw [q] at g
    extract_lets c x v' d
    have g' : Keeps u v' := State.setConn_keeps g
    split
    · exact Keeps.getD (h3 _ _ g') h
    split
    · exact State.nakSeq_keeps g'
    split
    · exact h4 _ _ (State.count_keeps g')
    · exact State.count_keeps g'

theorem State.ackAgain_keeps {a1 : Packet} (h : Keeps u s) : Keeps u (State.ackAgain s a1) := by
  unfold State.ackAgain
  repeat' first
    | with_reducible assumption
    | with_reducible apply State.sendAck_keeps

theorem State.logSram_keeps {a1 : ℕ} (h : Keeps u s) : Keeps u (State.logSram s a1) := by
  unfold State.logSram
  repeat' first
    | with_reducible assumption
    | with_reducible apply State.logEvent_keeps

theorem State.rxFault_keeps {a1 : ℕ} {a2 : Packet} {a3 : ℕ} {a4 : ℕ} {a5 : Bool} (h : Keeps u s) : Keeps u (State.rxFault s a1 a2 a3 a4 a5) := by
  unfold State.rxFault
  repeat' first
    | with_reducible assumption
    | with_reducible apply State.sendNak_keeps
    | with_reducible apply State.setConn_keeps
    | with_reducible apply State.logSram_keeps
    | with_reducible apply Keeps.ite

theorem State.placeSend_keeps {a1 : ℕ} {a2 : Packet} {a3 : WorkEntry} (h : Keeps u s) : Keeps.Some (Keeps u) (State.placeSend s a1 a2 a3) := by
  unfold State.placeSend
  repeat' first
    | with_reducible assumption
    | with_reducible apply State.rxFault_keeps
    | with_reducible apply State.boreStore_keeps
    | with_reducible apply State.setConn_keeps
    | with_reducible apply State.finishRecv_keeps
    | with_reducible apply State.taken_keeps
    | with_reducible apply Keeps.ite
    | with_reducible apply Keeps.some_ite
    | (intro x; refine (fun (_ : Keeps u x) => ?_) ?_; on_goal 2 => unfold x; on_goal 1 => clear_value x)
    | (intro x)
    | (lift_lets; intro x; refine (fun (_ : Keeps u x) => ?_) ?_; on_goal 2 => unfold x; on_goal 1 => clear_value x)
    | with_reducible apply Keeps.some_some
    | with_reducible apply Keeps.some_none

theorem State.takeSend_keeps {a1 : Packet} (h : Keeps u s) : Keeps.Some (Keeps u) (State.takeSend s a1) := by
  unfold State.takeSend
  repeat' first
    | with_reducible assumption
    | with_reducible apply State.taken_keeps
    | with_reducible apply State.sendNak_keeps
    | with_reducible apply State.placeSend_keeps
    | with_reducible apply Keeps.some_ite
    | with_reducible apply Keeps.some_some
    | split

theorem State.writeDone_keeps {a1 : ℕ} {a2 : Packet} (h : Keeps u s) : Keeps u (State.writeDone s a1 a2) := by
  unfold State.writeDone
  repeat' first
    | with_reducible assumption
    | with_reducible apply State.setConn_keeps
    | with_reducible apply State.writeCqe_keeps
    | with_reducible apply Keeps.ite

theorem State.takeWrite_keeps {a1 : Packet} (h : Keeps u s) : Keeps.Some (Keeps u) (State.takeWrite s a1) := by
  unfold State.takeWrite
  repeat' first
    | with_reducible assumption
    | with_reducible apply State.violation_keeps
    | with_reducible apply State.taken_keeps
    | with_reducible apply State.rxFault_keeps
    | with_reducible apply State.writeDone_keeps
    | with_reducible apply State.boreWrite_keeps
    | with_reducible apply Keeps.some_ite
    | (intro x)
    | (lift_lets; intro x)
    | with_reducible apply Keeps.some_some
    | with_reducible apply Keeps.some_none
    | split

theorem State.addPacket_keeps {a1 : ℕ} {a2 : Packet} (h : Keeps u s) : Keeps u (State.addPacket s a1 a2) := by
  unfold State.addPacket
  repeat' first
    | with_reducible assumption
    | with_reducible apply State.boreWrite_keeps
    | with_reducible apply State.setConn_keeps
    | with_reducible apply Keeps.ite

theorem State.takeWriteAcc_keeps {a1 : Packet} (h : Keeps u s) : Keeps.Some (Keeps u) (State.takeWriteAcc s a1) := by
  unfold State.takeWriteAcc
  repeat' first
    | with_reducible assumption
    | with_reducible apply State.violation_keeps
    | with_reducible apply State.taken_keeps
    | with_reducible apply State.reportFailure_keeps
    | with_reducible apply State.rxFault_keeps
    | with_reducible apply State.addPacket_keeps
    | with_reducible apply Keeps.some_ite
    | (intro x)
    | (lift_lets; intro x)
    | with_reducible apply Keeps.some_some
    | with_reducible apply Keeps.some_none
    | split

theorem State.sendResponses_keeps {a1 : ℕ} {a2 : Packet} {a3 : ℕ} (h : Keeps u s) : Keeps u (State.sendResponses s a1 a2 a3) := by
  unfold State.sendResponses
  repeat' first
    | with_reducible assumption
    | with_reducible apply State.sendPacket_keeps
    | (lift_lets; intro x)
    | with_reducible refine Keeps.fold ?_ fun _ _ _ => ?_

theorem State.answerRead_keeps {a1 : ℕ} {a2 : Packet} {a3 : FetchSt} (h : Keeps u s) : Keeps u (State.answerRead s a1 a2 a3) := by
  unfold State.answerRead
  repeat' first
    | with_reducible assumption
    | with_reducible apply State.sendNak_keeps
    | with_reducible apply State.setConn_keeps
    | with_reducible apply State.logSram_keeps
    | with_reducible apply State.sendResponses_keeps
    | with_reducible apply State.countBulk_keeps
    | with_reducible apply State.touch_keeps
    | with_reducible apply Keeps.ite
    | (lift_lets; intro x)
    | split

theorem State.takeRead_keeps {a1 : Packet} (h : Keeps u s) : Keeps.Some (Keeps u) (State.takeRead s a1) := by
  unfold State.takeRead
  repeat' first
    | with_reducible assumption
    | with_reducible apply State.violation_keeps
    | with_reducible apply State.taken_keeps
    | with_reducible apply State.answerRead_keeps
    | with_reducible apply Keeps.some_ite
    | (lift_lets; intro x)
    | with_reducible apply Keeps.some_some
    | with_reducible apply Keeps.some_none
    | split

theorem State.readAgain_keeps {a1 : Packet} (h : Keeps u s) : Keeps u (State.readAgain s a1) := by
  unfold State.readAgain
  repeat' first
    | with_reducible assumption
    | with_reducible apply State.ackAgain_keeps
    | with_reducible apply State.answerRead_keeps
    | split

theorem State.serveFetches_keeps {a1 : ℕ} (h : Keeps u s) : Keeps u (State.serveFetches s a1) := by
  unfold State.serveFetches
  repeat' first
    | with_reducible assumption
    | with_reducible apply State.answerRead_keeps
    | with_reducible apply State.setConn_keeps
    | (intro x)
    | (lift_lets; intro x)
    | with_reducible refine Keeps.fold ?_ fun _ _ _ => ?_

theorem State.answered_keeps {a1 : ℕ} {a2 : WorkEntry} {a3 : ℕ} (h : Keeps u s) : Keeps u (State.answered s a1 a2 a3) := by
  unfold State.answered
  repeat' first
    | with_reducible assumption
    | with_reducible apply State.finishSend_keeps
    | with_reducible apply State.closeTry_keeps
    | with_reducible apply State.setConn_keeps

theorem State.rxReadResp_keeps {a1 : Packet} (h : Keeps u s) : Keeps u (State.rxReadResp s a1) := by
  unfold State.rxReadResp
  repeat' first
    | with_reducible assumption
    | with_reducible apply State.boreStore_keeps
    | with_reducible apply State.setConn_keeps
    | with_reducible apply State.answered_keeps
    | with_reducible apply Keeps.ite
    | (lift_lets; intro x)
    | split
    | exact Keeps.of_pair (by assumption) (by first | exact State.admitPacket_keeps (by assumption))

theorem State.rxAtomicResp_keeps {a1 : Packet} (h : Keeps u s) : Keeps u (State.rxAtomicResp s a1) := by
  unfold State.rxAtomicResp
  repeat' first
    | with_reducible assumption
    | with_reducible apply State.answered_keeps
    | with_reducible apply State.boreStore_keeps
    | with_reducible apply Keeps.ite
    | (lift_lets; intro x)
    | split
    | exact Keeps.of_pair (by assumption) (by first | exact State.admitPacket_keeps (by assumption))

theorem State.sendOld_keeps {a1 : ℕ} {a2 : Packet} {a3 : BitVec 64} (h : Keeps u s) : Keeps u (State.sendOld s a1 a2 a3) := by
  unfold State.sendOld
  repeat' first
    | with_reducible assumption
    | with_reducible apply State.sendPacket_keeps

theorem State.takeAtomic_keeps {a1 : Packet} (h : Keeps u s) : Keeps.Some (Keeps u) (State.takeAtomic s a1) := by
  unfold State.takeAtomic
  repeat' first
    | with_reducible assumption
    | with_reducible apply State.violation_keeps
    | with_reducible apply State.setConn_keeps
    | with_reducible apply State.taken_keeps
    | with_reducible apply State.sendOld_keeps
    | with_reducible apply State.rxFault_keeps
    | with_reducible apply State.boreWrite_keeps
    | with_reducible apply Keeps.some_ite
    | (intro x; refine (fun (_ : Keeps u x) => ?_) ?_; on_goal 2 => unfold x; on_goal 1 => clear_value x)
    | (intro x)
    | (lift_lets; intro x; refine (fun (_ : Keeps u x) => ?_) ?_; on_goal 2 => unfold x; on_goal 1 => clear_value x)
    | (lift_lets; intro x)
    | with_reducible apply Keeps.some_some
    | with_reducible apply Keeps.some_none
    | split

theorem State.atomicAgain_keeps {a1 : Packet} (h : Keeps u s) : Keeps u (State.atomicAgain s a1) := by
  unfold State.atomicAgain
  repeat' first
    | with_reducible assumption
    | with_reducible apply State.sendOld_keeps
    | with_reducible apply State.ackAgain_keeps
    | (lift_lets; intro x)
    | split

theorem State.placementTimeout_keeps {a1 : Packet} (h : Keeps u s) : Keeps u (State.placementTimeout s a1) := by
  unfold State.placementTimeout
  repeat' first
    | with_reducible assumption
    | with_reducible apply State.count_keeps
    | with_reducible apply State.sendNak_keeps
    | with_reducible apply Keeps.ite
    | split
    | exact Keeps.of_pair (by assumption) (by first | exact State.admitPacket_keeps (by assumption))

theorem State.rxClose_keeps {a1 : Packet} (h : Keeps u s) : Keeps u (State.rxClose s a1) := by
  unfold State.rxClose
  split
  · exact h
  extract_lets c closing x v
  have hv : Keeps u v := Keeps.ite (State.setConn_keeps h) h
  have g := State.admitPacket_keeps (a1 := a1) hv
  split
  · next w q => rw [q] at g; exact Keeps.ite (State.setConn_keeps g) g
  · next w p q =>
    rw [q] at g
    exact State.countOpen_keeps (State.setConn_keeps (State.flushConn_keeps (State.sendAck_keeps (State.setConn_keeps g))))

theorem State.childArrives_keeps {a1 : ℕ} {a2 : Packet} {a3 : ℕ} (h : Keeps u s) : Keeps u (State.childArrives s a1 a2 a3) := by
  unfold State.childArrives
  repeat' first
    | with_reducible assumption
    | with_reducible apply State.barrierTry_keeps
    | with_reducible apply State.setSync_keeps
    | with_reducible apply State.logEvent_keeps
    | with_reducible apply Keeps.ite
    | split

theorem State.takeArrive_keeps {a1 : Packet} (h : Keeps u s) : Keeps.Some (Keeps u) (State.takeArrive s a1) := by
  unfold State.takeArrive
  repeat' first
    | with_reducible assumption
    | with_reducible apply State.childArrives_keeps
    | with_reducible apply State.taken_keeps
    | (intro x; refine (fun (_ : Keeps u x) => ?_) ?_; on_goal 2 => unfold x; on_goal 1 => clear_value x)
    | (lift_lets; intro x)
    | with_reducible apply Keeps.some_some
    | with_reducible refine Keeps.fold ?_ fun _ _ _ => ?_

theorem State.takeRelease_keeps {a1 : Packet} (h : Keeps u s) : Keeps.Some (Keeps u) (State.takeRelease s a1) := by
  unfold State.takeRelease
  repeat' first
    | with_reducible assumption
    | with_reducible apply State.barrierTry_keeps
    | with_reducible apply State.barrierDone_keeps
    | with_reducible apply State.logEvent_keeps
    | with_reducible apply State.taken_keeps
    | with_reducible apply Keeps.ite
    | (intro x; refine (fun (_ : Keeps u x) => ?_) ?_; on_goal 2 => unfold x; on_goal 1 => clear_value x)
    | (lift_lets; intro x)
    | with_reducible apply Keeps.some_some
    | with_reducible refine Keeps.fold ?_ fun _ _ _ => ?_
    | split

/-! ### Machine/Collective.lean -/

theorem collCommand_keeps {a0 : Env} (h : Keeps u s) : Keeps.Ok (Keeps u) (collCommand a0 s) := by
  unfold collCommand
  repeat' first
    | with_reducible assumption
    | with_reducible apply State.setSlot_keeps
    | with_reducible refine State.setCore_keeps ?_ ?_
    | exact rfl
    | with_reducible apply State.noteWrite_keeps
    | with_reducible apply Keeps.ite
    | (intro x; refine (fun (_ : Keeps u x) => ?_) ?_; on_goal 2 => unfold x; on_goal 1 => clear_value x)
    | (intro x)
    | (lift_lets; intro x)
    | with_reducible apply Keeps.ok_ok
    | with_reducible apply Keeps.ok_paramFault
    | with_reducible refine Keeps.ok_bind_any fun _ => ?_
    | split
    | (fail_if_no_progress with_reducible refine Keeps.mk_same ?_)

theorem State.putSpans_keeps {a1 : Spans} {a2 : List Byte} (h : Keeps u s) : Keeps u (State.putSpans s a1 a2) := by
  induction a1 generalizing s a2 with
  | nil =>
    unfold State.putSpans
    repeat' first
      | with_reducible assumption
      | with_reducible apply State.count_keeps
      | with_reducible apply State.writeAt_keeps
      | split
      | (fail_if_no_progress dsimp +zetaDelta only)
  | cons b r ih =>
    unfold State.putSpans
    repeat' first
      | with_reducible assumption
      | with_reducible apply ih
      | with_reducible apply State.count_keeps
      | with_reducible apply State.writeAt_keeps
      | split
      | (fail_if_no_progress dsimp +zetaDelta only)

theorem State.putTiles_keeps {a1 : Tensor} {a2 : List ℕ} {a3 : List Byte} (h : Keeps u s) : Keeps u (State.putTiles s a1 a2 a3) := by
  unfold State.putTiles
  repeat' first
    | with_reducible assumption
    | with_reducible apply State.putSpans_keeps

theorem State.sendTiles_keeps {a1 : Coll} {a2 : ℕ} {a3 : List Byte} (h : Keeps u s) : Keeps u (State.sendTiles s a1 a2 a3) := by
  unfold State.sendTiles
  repeat' first
    | with_reducible assumption
    | with_reducible apply State.emit_keeps
    | with_reducible apply Keeps.ite

theorem State.collDone_keeps {a1 : ℕ} (h : Keeps u s) : Keeps u (State.collDone s a1) := by
  unfold State.collDone
  repeat' first
    | with_reducible assumption
    | (fail_if_no_progress with_reducible refine Keeps.mk_same ?_)

theorem State.reduceShard_keeps {a1 : Coll} {a2 : ℕ} {a3 : List (List Word)} (h : Keeps u s) : Keeps u (State.reduceShard s a1 a2 a3) := by
  unfold State.reduceShard
  repeat' first
    | with_reducible assumption
    | with_reducible apply State.putTiles_keeps

theorem State.sendContributions_keeps {a1 : Coll} {a2 : ℕ} (h : Keeps u s) : Keeps u (State.sendContributions s a1 a2) := by
  unfold State.sendContributions
  repeat' first
    | with_reducible assumption
    | with_reducible apply State.sendTiles_keeps
    | with_reducible refine Keeps.fold ?_ fun _ _ _ => ?_

theorem State.storeShards_keeps {a1 : Coll} {a2 : ℕ} {a3 : List (List Byte)} (h : Keeps u s) : Keeps u (State.storeShards s a1 a2 a3) := by
  unfold State.storeShards
  repeat' first
    | with_reducible assumption
    | with_reducible apply State.putTiles_keeps
    | with_reducible refine Keeps.fold ?_ fun _ _ _ => ?_

theorem State.sendAll_keeps {a1 : Coll} {a2 : ℕ} {a3 : List Byte} (h : Keeps u s) : Keeps u (State.sendAll s a1 a2 a3) := by
  unfold State.sendAll
  repeat' first
    | with_reducible assumption
    | with_reducible apply State.sendTiles_keeps
    | with_reducible refine Keeps.fold ?_ fun _ _ _ => ?_

theorem State.collRun_keeps {a1 : Coll} {a2 : (State → State)} (h : Keeps u s) (h2 : ∀ s, Keeps u s → Keeps u (a2 s)) : Keeps u (State.collRun s a1 a2) := by
  unfold State.collRun
  repeat' first
    | with_reducible assumption
    | with_reducible apply h2
    | with_reducible apply State.fenceCore_keeps
    | with_reducible apply State.collDone_keeps
    | with_reducible apply Keeps.ite
    | split

theorem State.collComplete_keeps {a1 : ℕ} (h : Keeps u s) : Keeps u (State.collComplete s a1) := by
  unfold State.collComplete
  repeat' first
    | with_reducible assumption
    | with_reducible apply State.recordEffect_keeps
    | with_reducible apply State.slotReady_keeps
    | with_reducible refine State.setCore_keeps ?_ ?_
    | exact rfl
    | with_reducible apply Keeps.ite
    | (lift_lets; intro x; refine (fun (_ : Keeps u x) => ?_) ?_; on_goal 2 => unfold x; on_goal 1 => clear_value x)
    | split
    | (fail_if_no_progress with_reducible refine Keeps.mk_same ?_)

end Sys2Proof.Machine
end

