-- ==== Sys2Proof/Laws/KeepsUpdate.lean ====
section
/-! SUPPORT. Every operation keeps the queue and the canonical tables: the update phase, bulk memory, images, streams, partitions, scratchpads at rest. -/

namespace Sys2Proof.Machine

set_option linter.unusedTactic false
set_option linter.unreachableTactic false

variable {u s : State}

/-! ### Machine/Update.lean -/

theorem State.updateFault_keeps {a1 : ℕ} {a2 : ℕ} {a3 : ℕ} {a4 : ℕ} {a5 : ℕ} (h : Keeps u s) : Keeps u (State.updateFault s a1 a2 a3 a4 a5) := by
  unfold State.updateFault
  repeat' first
    | with_reducible assumption
    | with_reducible apply State.logEvent_keeps
    | with_reducible apply State.setPart_keeps
    | with_reducible apply State.reportFailure_keeps
    | with_reducible apply State.hold_keeps
    | with_reducible apply Keeps.ite

theorem State.updInstr_keeps {a1 : ℕ} {a2 : ℕ} {a3 : UpdOps} (h : Keeps u s) : Keeps u (State.updInstr s a1 a2 a3) := by
  unfold State.updInstr
  repeat' first
    | with_reducible assumption
    | with_reducible apply State.updateFault_keeps
    | with_reducible apply Keeps.ite
    | split
    | (fail_if_no_progress with_reducible refine Keeps.mk_same ?_)

theorem State.putRec_keeps {a1 : ℕ} {a2 : ℕ} {a3 : ParamRec} (h : Keeps u s) : Keeps u (State.putRec s a1 a2 a3) := by
  unfold State.putRec
  repeat' first
    | with_reducible assumption
    | with_reducible apply State.putBytes_keeps

theorem State.runMicrocode_keeps {a1 : ℕ} {a2 : ℕ} {a3 : UpdEntry} {a4 : Word} {a5 : ParamRec} (h : Keeps u s) : Keeps u (State.runMicrocode s a1 a2 a3 a4 a5).1 := by
  unfold State.runMicrocode
  extract_lets regs v w
  exact Keeps.fold (Keeps.mk_same h) fun _ _ g => State.updInstr_keeps g

theorem State.newRec_keeps {a1 : ℕ} {a2 : ℕ} {a3 : UpdEntry} {a4 : ℕ} (h : Keeps u s) : Keeps u (State.newRec s a1 a2 a3 a4).1 := by
  unfold State.newRec
  extract_lets x v g0 w pos y
  have hv : Keeps u v := Keeps.fold h fun _ _ g => State.countBulk_keeps g
  have hw : Keeps u w := Keeps.ite (State.count_keeps hv) hv
  have hy : Keeps u y := Keeps.ite (State.count_keeps hw) hw
  split
  · exact hw
  split
  · exact hy
  split
  · exact State.runMicrocode_keeps hy
  · exact hy

theorem State.putPacked_keeps {a1 : Tensor} {a2 : ℕ} {a3 : List (List (List Byte))} (h : Keeps u s) : Keeps u (State.putPacked s a1 a2 a3) := by
  unfold State.putPacked
  repeat' first
    | with_reducible assumption
    | with_reducible apply State.putBytes_keeps

theorem State.finishTile_keeps {a1 : ℕ} {a2 : ℕ} {a3 : UpdEntry} {a4 : ℕ} (h : Keeps u s) : Keeps u (State.finishTile s a1 a2 a3 a4) := by
  unfold State.finishTile
  repeat' first
    | with_reducible assumption
    | with_reducible apply State.putPacked_keeps
    | with_reducible apply State.countBulk_keeps
    | with_reducible apply State.emit_keeps
    | with_reducible apply Keeps.ite
    | (intro x; refine (fun (_ : Keeps u x) => ?_) ?_; on_goal 2 => unfold x; on_goal 1 => clear_value x)
    | (lift_lets; intro x)
    | with_reducible refine Keeps.fold ?_ fun _ _ _ => ?_
    | split
    | (fail_if_no_progress with_reducible refine Keeps.mk_same ?_)

theorem State.beginRegion_keeps {a1 : ℕ} {a2 : ℕ} (h : Keeps u s) : Keeps u (State.beginRegion s a1 a2) := by
  unfold State.beginRegion
  repeat' first
    | with_reducible assumption
    | with_reducible apply State.setPart_keeps
    | (lift_lets; intro x)
    | split

theorem State.captureElem_keeps {a1 : ℕ} {a2 : ℕ} {a3 : UpdEntry} {a4 : ℕ} (h : Keeps u s) : Keeps u (State.captureElem s a1 a2 a3 a4) := by
  unfold State.captureElem
  repeat' first
    | with_reducible assumption
    | with_reducible apply State.putRec_keeps
    | with_reducible apply Keeps.ite
    | split

theorem State.setHome_keeps {a1 : Bool} {a2 : CkSlot} (h : Keeps u s) : Keeps u (State.setHome s a1 a2) := by
  unfold State.setHome
  repeat' first
    | with_reducible assumption
    | with_reducible apply State.setObj_keeps
    | (lift_lets; intro x)
    | split
    | (fail_if_no_progress with_reducible refine Keeps.mk_same ?_)

theorem State.startCapture_keeps {a1 : ℕ} (h : Keeps u s) : Keeps u (State.startCapture s a1) := by
  unfold State.startCapture
  repeat' first
    | with_reducible assumption
    | with_reducible apply State.count_keeps
    | with_reducible apply State.setHome_keeps
    | with_reducible apply Keeps.ite
    | (lift_lets; intro x)
    | (fail_if_no_progress with_reducible refine Keeps.mk_same ?_)

theorem State.updateStart_keeps {a1 : ℕ} (h : Keeps u s) : Keeps u (State.updateStart s a1) := by
  unfold State.updateStart
  repeat' first
    | with_reducible assumption
    | with_reducible apply State.setPart_keeps
    | with_reducible apply State.updateFault_keeps
    | with_reducible apply State.startCapture_keeps
    | with_reducible apply Keeps.ite
    | (intro x; refine (fun (_ : Keeps u x) => ?_) ?_; on_goal 2 => unfold x; on_goal 1 => clear_value x)
    | (intro x)
    | (lift_lets; intro x)
    | with_reducible refine Keeps.fold ?_ fun _ _ _ => ?_
    | split

theorem State.updateElem_keeps {a1 : ℕ} {a2 : ℕ} {a3 : ℕ} {a4 : UpdEntry} (h : Keeps u s) : Keeps u (State.updateElem s a1 a2 a3 a4) := by
  unfold State.updateElem
  repeat' first
    | with_reducible assumption
    | with_reducible apply State.captureElem_keeps
    | with_reducible apply State.newRec_keeps
    | with_reducible apply State.putRec_keeps
    | with_reducible apply State.setPart_keeps
    | with_reducible apply State.beginRegion_keeps
    | with_reducible apply State.finishTile_keeps
    | exact id
    | exact Tab.foldl_set_wf _ _ _ _
    | with_reducible apply Keeps.ite
    | (lift_lets; intro x)
    | (fail_if_no_progress with_reducible refine Keeps.mk_tabs ?_ ?_ ?_ ?_ ?_ ?_)

theorem State.updateElement_keeps {a1 : ℕ} {a2 : ℕ} {a3 : ℕ} (h : Keeps u s) : Keeps u (State.updateElement s a1 a2 a3) := by
  unfold State.updateElement
  repeat' first
    | with_reducible assumption
    | with_reducible apply State.updateFault_keeps
    | with_reducible apply State.updateElem_keeps
    | with_reducible apply Keeps.ite
    | (lift_lets; intro x)
    | split

theorem State.peerTile_keeps {a1 : ℕ} {a2 : ℕ} {a3 : ℕ} {a4 : List Byte} (h : Keeps u s) : Keeps u (State.peerTile s a1 a2 a3 a4) := by
  unfold State.peerTile
  repeat' first
    | with_reducible assumption
    | with_reducible apply State.beginRegion_keeps
    | with_reducible apply State.setPart_keeps
    | with_reducible apply State.putPacked_keeps
    | with_reducible apply State.putBytes_keeps
    | with_reducible apply Keeps.ite
    | (lift_lets; intro x)
    | with_reducible refine Keeps.fold1 ?_ fun _ _ _ => ?_
    | split

theorem State.digestPass_keeps {a1 : ℕ} (h : Keeps u s) : Keeps u (State.digestPass s a1) := by
  unfold State.digestPass
  repeat' first
    | with_reducible assumption
    | with_reducible apply State.tellLead_keeps
    | with_reducible apply Keeps.ite

theorem State.endCapture_keeps {a1 : ℕ} (h : Keeps u s) : Keeps u (State.endCapture s a1) := by
  unfold State.endCapture
  repeat' first
    | with_reducible assumption
    | with_reducible apply State.setHome_keeps
    | with_reducible apply State.putBytes_keeps
    | with_reducible apply State.setObj_keeps
    | with_reducible apply Keeps.ite
    | (lift_lets; intro x)
    | split
    | (fail_if_no_progress with_reducible refine Keeps.mk_same ?_)

theorem State.updateComplete_keeps {a1 : ℕ} (h : Keeps u s) : Keeps u (State.updateComplete s a1) := by
  unfold State.updateComplete
  repeat' first
    | with_reducible assumption
    | with_reducible apply State.setPart_keeps
    | with_reducible apply State.endCapture_keeps
    | with_reducible apply State.digestPass_keeps
    | with_reducible apply Keeps.ite

/-! ### Machine/Bulk.lean -/

theorem State.clearBulk_keeps {a1 : ℕ} {a2 : ℕ} (h : Keeps u s) : Keeps u (State.clearBulk s a1 a2) := by
  unfold State.clearBulk
  repeat' first
    | with_reducible assumption
    | exact id
    | exact Tab.clear_wf _ _ _
    | (fail_if_no_progress with_reducible refine Keeps.mk_tabs ?_ ?_ ?_ ?_ ?_ ?_)

theorem State.restartZeroing_keeps (h : Keeps u s) : Keeps u (State.restartZeroing s) := by
  unfold State.restartZeroing
  repeat' first
    | with_reducible assumption
    | with_reducible apply State.clearBulk_keeps
    | with_reducible apply State.setObj_keeps
    | with_reducible refine State.each_keeps ?_ (fun _ _ _ => ?_)
    | (lift_lets; intro x; refine (fun (_ : Keeps u x) => ?_) ?_; on_goal 2 => unfold x; on_goal 1 => clear_value x)
    | (fail_if_no_progress with_reducible refine Keeps.mk_same ?_)

theorem State.zeroChunk_keeps {a1 : ℕ} (h : Keeps u s) : Keeps u (State.zeroChunk s a1) := by
  unfold State.zeroChunk
  repeat' first
    | with_reducible assumption
    | with_reducible apply State.count_keeps
    | with_reducible apply State.setObj_keeps
    | with_reducible apply Keeps.ite

theorem State.zeroSpan_keeps {a1 : ℕ} {a2 : ℕ} {a3 : ℕ} (h : Keeps u s) : Keeps u (State.zeroSpan s a1 a2 a3) := by
  unfold State.zeroSpan
  repeat' first
    | with_reducible assumption
    | with_reducible apply State.clearBulk_keeps
    | with_reducible apply State.setObj_keeps
    | with_reducible apply Keeps.ite
    | (fail_if_no_progress with_reducible refine Keeps.mk_same ?_)

theorem State.zeroRegionStep_keeps {a1 : ℕ} (h : Keeps u s) : Keeps u (State.zeroRegionStep s a1) := by
  unfold State.zeroRegionStep
  repeat' first
    | with_reducible assumption
    | with_reducible apply State.countBulk_keeps
    | with_reducible apply State.setObj_keeps
    | with_reducible apply Keeps.ite
    | with_reducible refine Keeps.fold ?_ fun _ _ _ => ?_
    | (fail_if_no_progress with_reducible refine Keeps.mk_same ?_)

theorem slabMapAct_keeps {a0 : ℕ} : Act.Keeps (slabMapAct a0) := by
  refine ⟨fun {u s} h => ?_⟩
  unfold slabMapAct
  repeat' first
    | with_reducible assumption
    | with_reducible apply State.restartZeroing_keeps
    | with_reducible apply State.setObj_keeps
    | with_reducible apply Keeps.ite1

theorem State.putRegion_keeps {a1 : ℕ} {a2 : Region} {a3 : Region} (h : Keeps u s) : Keeps u (State.putRegion s a1 a2 a3) := by
  unfold State.putRegion
  repeat' first
    | with_reducible assumption
    | with_reducible apply State.setObj_keeps
    | with_reducible apply State.zeroSpan_keeps
    | with_reducible apply Keeps.ite

theorem regionAct_keeps {a0 : ℕ} {a1 : RegionField} {a2 : ℕ} : Act.Keeps (regionAct a0 a1 a2) := by
  refine ⟨fun {u s} h => ?_⟩
  unfold regionAct
  repeat' first
    | with_reducible assumption
    | with_reducible apply State.putRegion_keeps
    | with_reducible apply Keeps.ite1

theorem State.bulkFault_keeps {a1 : ℕ} {a2 : ℕ} {a3 : ℕ} (h : Keeps u s) : Keeps u (State.bulkFault s a1 a2 a3) := by
  unfold State.bulkFault
  repeat' first
    | with_reducible assumption
    | with_reducible apply State.logEvent_keeps
    | with_reducible apply State.setObj_keeps
    | with_reducible apply State.count_keeps
    | exact id
    | exact Tab.set_wf _ _ _
    | (fail_if_no_progress with_reducible refine Keeps.mk_tabs ?_ ?_ ?_ ?_ ?_ ?_)

theorem State.bulkReread_keeps {a1 : ℕ} {a2 : ℕ} {a3 : Bool} {a4 : ℕ} (h : Keeps u s) : Keeps u (State.bulkReread s a1 a2 a3 a4) := by
  unfold State.bulkReread
  repeat' first
    | with_reducible assumption
    | with_reducible apply State.countSat_keeps
    | with_reducible apply State.count_keeps
    | with_reducible apply State.reportFailure_keeps
    | with_reducible apply State.bulkFault_keeps
    | exact id
    | exact Tab.set_wf _ _ _
    | with_reducible apply Keeps.ite
    | (fail_if_no_progress with_reducible refine Keeps.mk_tabs ?_ ?_ ?_ ?_ ?_ ?_)

theorem State.passDone_keeps {a1 : ℕ} (h : Keeps u s) : Keeps u (State.passDone s a1) := by
  unfold State.passDone
  repeat' first
    | with_reducible assumption
    | with_reducible apply State.setObj_keeps
    | with_reducible apply Keeps.ite
    | (fail_if_no_progress with_reducible refine Keeps.mk_same ?_)

theorem State.patrolStep_keeps {a1 : ℕ} {a2 : EccFind} (h : Keeps u s) : Keeps u (State.patrolStep s a1 a2) := by
  unfold State.patrolStep
  repeat' first
    | with_reducible assumption
    | with_reducible apply State.count_keeps
    | with_reducible apply State.bulkFault_keeps
    | with_reducible apply State.passDone_keeps
    | with_reducible apply Keeps.ite
    | split
    | (fail_if_no_progress with_reducible refine Keeps.mk_same ?_)

/-! ### Machine/SecBase.lean -/

theorem State.clearKeySlot_keeps {a1 : ℕ} (h : Keeps u s) : Keeps u (State.clearKeySlot s a1) := by
  unfold State.clearKeySlot
  repeat' first
    | with_reducible assumption
    | with_reducible apply State.setObj_keeps
    | with_reducible apply State.connError_keeps
    | with_reducible apply Keeps.ite
    | (intro x; refine (fun (_ : Keeps u x) => ?_) ?_; on_goal 2 => unfold x; on_goal 1 => clear_value x)
    | (lift_lets; intro x; refine (fun (_ : Keeps u x) => ?_) ?_; on_goal 2 => unfold x; on_goal 1 => clear_value x)
    | with_reducible refine Keeps.fold ?_ fun _ _ _ => ?_
    | (fail_if_no_progress with_reducible refine Keeps.mk_same ?_)

theorem State.clearKeySlots_keeps {a1 : (ℕ → Bool)} (h : Keeps u s) : Keeps u (State.clearKeySlots s a1) := by
  unfold State.clearKeySlots
  repeat' first
    | with_reducible assumption
    | with_reducible apply State.clearKeySlot_keeps
    | with_reducible refine Keeps.fold ?_ fun _ _ _ => ?_

theorem State.dropRegions_keeps {a1 : ℕ} (h : Keeps u s) : Keeps u (State.dropRegions s a1) := by
  unfold State.dropRegions
  repeat' first
    | with_reducible assumption
    | with_reducible refine State.each_keeps ?_ (fun _ _ _ => ?_)
    | with_reducible apply State.zeroSpan_keeps
    | with_reducible apply State.setObj_keeps
    | with_reducible apply Keeps.ite

theorem State.unbind_keeps {a1 : ℕ} (h : Keeps u s) : Keeps u (State.unbind s a1) := by
  unfold State.unbind
  repeat' first
    | with_reducible assumption
    | split
    | (fail_if_no_progress with_reducible refine Keeps.mk_same ?_)

theorem State.unseal_keeps {a1 : ℕ} (h : Keeps u s) : Keeps u (State.unseal s a1) := by
  unfold State.unseal
  repeat' first
    | with_reducible assumption
    | with_reducible apply State.dropRegions_keeps
    | with_reducible apply State.unbind_keeps
    | with_reducible refine State.each_keeps ?_ (fun _ _ _ => ?_)
    | with_reducible apply State.setObj_keeps
    | with_reducible apply State.setPart_keeps
    | with_reducible apply Keeps.ite
    | split
    | (fail_if_no_progress with_reducible refine Keeps.mk_same ?_)

theorem State.dissolvePart_keeps {a1 : ℕ} {a2 : Option WipeTrigger} (h : Keeps u s) : Keeps u (State.dissolvePart s a1 a2) := by
  unfold State.dissolvePart
  repeat' first
    | with_reducible assumption
    | with_reducible apply State.handOver_keeps
    | with_reducible refine State.each_keeps ?_ (fun _ _ _ => ?_)
    | with_reducible apply State.assignCore_keeps
    | with_reducible apply State.clearKeySlots_keeps
    | with_reducible apply State.unseal_keeps
    | with_reducible apply State.settlePower_keeps
    | with_reducible apply State.setObj_keeps

/-! ### Machine/Image.lean -/

theorem State.copyQueues_keeps {a1 : Image} {a2 : ℕ} {a3 : CoreSec} (h : Keeps u s) : Keeps u (State.copyQueues s a1 a2 a3) := by
  unfold State.copyQueues
  repeat' first
    | with_reducible assumption
    | with_reducible apply State.writeAt_keeps
    | with_reducible refine Keeps.fold ?_ fun _ _ _ => ?_

theorem State.loadCore_keeps {a1 : Image} {a2 : ℕ} {a3 : ℕ} (h : Keeps u s) : Keeps u (State.loadCore s a1 a2 a3) := by
  unfold State.loadCore
  repeat' first
    | with_reducible assumption
    | with_reducible refine State.setCore_keeps ?_ ?_
    | exact rfl
    | with_reducible apply State.copyQueues_keeps

theorem State.bindSyncs_keeps {a1 : ℕ} {a2 : Image} (h : Keeps u s) : Keeps u (State.bindSyncs s a1 a2) := by
  unfold State.bindSyncs
  repeat' first
    | with_reducible assumption
    | with_reducible apply State.setSync_keeps
    | with_reducible apply State.setPart_keeps
    | with_reducible refine Keeps.fold ?_ fun _ _ _ => ?_
    | (fail_if_no_progress with_reducible refine Keeps.mk_same ?_)

theorem State.loadImage_keeps {a1 : ℕ} (h : Keeps u s) : Keeps u (State.loadImage s a1) := by
  unfold State.loadImage
  repeat' first
    | with_reducible assumption
    | with_reducible apply State.bindSyncs_keeps
    | with_reducible apply State.loadCore_keeps
    | with_reducible apply State.setPart_keeps
    | with_reducible apply State.setObj_keeps
    | with_reducible refine Keeps.fold ?_ fun _ _ _ => ?_

/-! ### Machine/Streams.lean -/

theorem State.strPut_keeps {a1 : ℕ} {a2 : ℕ} {a3 : List Byte} (h : Keeps u s) : Keeps u (State.strPut s a1 a2 a3) := by
  unfold State.strPut
  repeat' first
    | with_reducible assumption
    | with_reducible apply State.putBytes_keeps
    | with_reducible apply Keeps.ite

theorem State.strEnable_keeps {a1 : ℕ} (h : Keeps u s) : Keeps u (State.strEnable s a1) := by
  unfold State.strEnable
  repeat' first
    | with_reducible assumption
    | with_reducible apply State.setStream_keeps
    | with_reducible apply State.setObj_keeps
    | with_reducible apply State.clearBulk_keeps

theorem State.setCap_keeps {a1 : ℕ} {a2 : ℕ} {a3 : CapSlot} (h : Keeps u s) : Keeps u (State.setCap s a1 a2 a3) := by
  unfold State.setCap
  repeat' first
    | with_reducible assumption
    | with_reducible apply State.setStream_keeps

theorem State.capState_keeps {a1 : ℕ} {a2 : ℕ} {a3 : CapSt} (h : Keeps u s) : Keeps u (State.capState s a1 a2 a3) := by
  unfold State.capState
  repeat' first
    | with_reducible assumption
    | with_reducible apply State.setCap_keeps
    | with_reducible apply State.strPut_keeps

theorem State.openFrame_keeps {a1 : ℕ} {a2 : ℕ} {a3 : Word} {a4 : Word} (h : Keeps u s) : Keeps u (State.openFrame s a1 a2 a3 a4) := by
  unfold State.openFrame
  repeat' first
    | with_reducible assumption
    | with_reducible apply State.setStream_keeps
    | with_reducible apply State.strPut_keeps

theorem State.closeFrame_keeps {a1 : ℕ} {a2 : ℕ} {a3 : ℕ} (h : Keeps u s) : Keeps u (State.closeFrame s a1 a2 a3) := by
  unfold State.closeFrame
  repeat' first
    | with_reducible assumption
    | with_reducible apply State.strPut_keeps
    | with_reducible apply State.setStream_keeps
    | with_reducible apply State.count_keeps
    | with_reducible apply State.countSat_keeps
    | with_reducible apply Keeps.ite

theorem State.closeOpen_keeps {a1 : ℕ} {a2 : ℕ} (h : Keeps u s) : Keeps u (State.closeOpen s a1 a2) := by
  unfold State.closeOpen
  repeat' first
    | with_reducible assumption
    | with_reducible apply State.closeFrame_keeps
    | split

theorem State.placePacket_keeps {a1 : ℕ} {a2 : ℕ} {a3 : RtpPacket} (h : Keeps u s) : Keeps u (State.placePacket s a1 a2 a3) := by
  unfold State.placePacket
  repeat' first
    | with_reducible assumption
    | with_reducible apply State.strPut_keeps
    | with_reducible apply State.setCap_keeps
    | with_reducible apply State.countSat_keeps
    | with_reducible apply State.closeFrame_keeps
    | with_reducible apply Keeps.ite
    | with_reducible refine Keeps.fold ?_ fun _ _ _ => ?_

theorem State.startFrame_keeps {a1 : ℕ} {a2 : RtpPacket} (h : Keeps u s) : Keeps u (State.startFrame s a1 a2) := by
  unfold State.startFrame
  repeat' first
    | with_reducible assumption
    | with_reducible apply State.placePacket_keeps
    | with_reducible apply State.openFrame_keeps
    | split

theorem State.overRate_keeps {a1 : ℕ} (h : Keeps u s) : Keeps u (State.overRate s a1) := by
  unfold State.overRate
  repeat' first
    | with_reducible assumption
    | with_reducible apply State.countSat_keeps
    | with_reducible apply State.logEvent_keeps
    | with_reducible apply State.setStream_keeps
    | with_reducible apply Keeps.ite

theorem State.rtpPacket_keeps {a1 : ℕ} {a2 : RtpPacket} (h : Keeps u s) : Keeps u (State.rtpPacket s a1 a2) := by
  unfold State.rtpPacket
  repeat' first
    | with_reducible assumption
    | with_reducible apply State.overRate_keeps
    | with_reducible apply State.countSat_keeps
    | with_reducible apply State.placePacket_keeps
    | with_reducible apply State.startFrame_keeps
    | with_reducible apply State.closeFrame_keeps
    | with_reducible apply Keeps.ite
    | split

theorem State.storeFrame_keeps {a1 : ℕ} {a2 : ℕ} {a3 : Frame} (h : Keeps u s) : Keeps u (State.storeFrame s a1 a2 a3) := by
  unfold State.storeFrame
  repeat' first
    | with_reducible assumption
    | with_reducible apply State.setStream_keeps
    | with_reducible apply State.strPut_keeps
    | with_reducible apply State.count_keeps
    | (intro x)
    | (lift_lets; intro x)
    | split

theorem State.freezeStream_keeps {a1 : ℕ} {a2 : ℕ} (h : Keeps u s) : Keeps u (State.freezeStream s a1 a2) := by
  unfold State.freezeStream
  repeat' first
    | with_reducible assumption
    | with_reducible refine State.each_keeps ?_ (fun _ _ _ => ?_)
    | with_reducible apply State.capState_keeps
    | with_reducible apply State.strPut_keeps

theorem State.freezeStreams_keeps {a1 : ℕ} {a2 : ℕ} (h : Keeps u s) : Keeps u (State.freezeStreams s a1 a2) := by
  unfold State.freezeStreams
  repeat' first
    | with_reducible assumption
    | with_reducible refine State.each_keeps ?_ (fun _ _ _ => ?_)
    | with_reducible apply State.freezeStream_keeps

/-! ### Machine/Sched.lean -/

theorem Core.rewind_held (c : Core) (live : Bool) (f : Option Core) : (c.rewind live f).held = c.held := rfl

/-- A core with other slots, contexts and commands to pass keeps its holding buffer. -/
theorem Core.rerun_held (c : Core) (l : Tab slotReset) (q : Tab qctxReset) (r : List ℕ) :
    ({ c with slots := l, ctxs := q, rerunLeft := r } : Core).held = c.held := rfl

theorem State.setRerun_keeps {n : ℕ} {l : Tab slotReset} {q : Tab qctxReset} {r : List ℕ} (h : Keeps u s) :
    Keeps u (s.setCore n (Core.restart { s.core n with slots := l, ctxs := q, rerunLeft := r })) :=
  State.setCore_keeps h ((Core.restart_held _).trans (Core.rerun_held _ l q r))

theorem Core.clockOn_held (c : Core) : c.clockOn.held = c.held := by
  unfold Core.clockOn
  split <;> rfl

theorem qmaskAct_keeps {a0 : ℕ} {a1 : ℕ} : Act.Keeps (qmaskAct a0 a1) := by
  refine ⟨fun {u s} h => ?_⟩
  unfold qmaskAct
  repeat' first
    | with_reducible assumption
    | with_reducible apply State.dissolvePart_keeps
    | with_reducible apply State.handOver_keeps
    | with_reducible refine State.each_keeps ?_ (fun _ _ _ => ?_)
    | with_reducible apply State.assignCore_keeps
    | with_reducible apply State.setObj_keeps
    | with_reducible apply Keeps.ite
    | with_reducible apply Keeps.ite1

theorem dissolveAct_keeps {a0 : ℕ} : Act.Keeps (dissolveAct a0) := by
  refine ⟨fun {u s} h => ?_⟩
  unfold dissolveAct
  repeat' first
    | with_reducible assumption
    | with_reducible apply State.dissolvePart_keeps
    | with_reducible apply Keeps.ite1

theorem loadAct_keeps {a0 : ℕ} : Act.Keeps (loadAct a0) := by
  refine ⟨fun {u s} h => ?_⟩
  unfold loadAct
  repeat' first
    | with_reducible assumption
    | with_reducible apply State.loadImage_keeps
    | with_reducible apply State.setObj_keeps
    | with_reducible apply State.logEvent_keeps
    | with_reducible apply Keeps.ite
    | with_reducible apply Keeps.ite1

theorem startAct_keeps {a0 : ℕ} : Act.Keeps (startAct a0) := by
  refine ⟨fun {u s} h => ?_⟩
  unfold startAct
  repeat' first
    | with_reducible assumption
    | with_reducible apply State.setPart_keeps
    | with_reducible refine State.each_keeps ?_ (fun _ _ _ => ?_)
    | with_reducible refine State.setCore_keeps ?_ ?_
    | exact rfl
    | with_reducible apply State.settlePower_keeps
    | with_reducible apply State.setObj_keeps
    | with_reducible apply Keeps.ite1

theorem stopAct_keeps {a0 : ℕ} : Act.Keeps (stopAct a0) := by
  refine ⟨fun {u s} h => ?_⟩
  unfold stopAct
  repeat' first
    | with_reducible assumption
    | with_reducible apply State.setPart_keeps
    | with_reducible apply Keeps.ite1

theorem abortAct_keeps {a0 : ℕ} : Act.Keeps (abortAct a0) := by
  refine ⟨fun {u s} h => ?_⟩
  unfold abortAct
  repeat' first
    | with_reducible assumption
    | with_reducible apply State.enterHeld_keeps
    | with_reducible apply Keeps.ite1

theorem State.resetSyncs_keeps {a1 : ℕ} (h : Keeps u s) : Keeps u (State.resetSyncs s a1) := by
  unfold State.resetSyncs
  repeat' first
    | with_reducible assumption
    | with_reducible refine State.each_keeps ?_ (fun _ _ _ => ?_)
    | with_reducible apply State.setSync_keeps

theorem resumeAct_keeps {a0 : ℕ} : Act.Keeps (resumeAct a0) := by
  refine ⟨fun {u s} h => ?_⟩
  unfold resumeAct
  refine Keeps.ite1 h ?_
  extract_lets i v r w j y
  have hv : Keeps u v := Keeps.fold h fun _ _ g =>
    State.copyQueues_keeps (State.setCore_keeps g (Core.rewind_held _ _ _))
  have hw : Keeps u w := Keeps.mk_same (State.resetSyncs_keeps hv)
  have hy : Keeps u y := Keeps.ite (State.setObj_keeps (Keeps.mk_same hw)) hw
  exact State.setObj_keeps hy

theorem State.beginStep_keeps {a1 : ℕ} (h : Keeps u s) : Keeps u (State.beginStep s a1) := by
  unfold State.beginStep
  refine Keeps.ite h ?_
  extract_lets v w x y z p
  have hv : Keeps u v := State.each_keeps h fun _ _ g => State.wakeQuad_keeps g
  have hw : Keeps u w := State.resetSyncs_keeps hv
  have hx : Keeps u x := State.each_keeps hw fun _ _ g =>
    State.setCore_keeps g ((Core.clockOn_held _).trans (Core.rewind_held _ _ _))
  have hy : Keeps u y := Keeps.fold hx fun _ _ g => Keeps.ite (State.setConn_keeps g) g
  have hz : Keeps u z := Keeps.mk_same hy
  exact State.settlePower_keeps (State.installPhase_keeps (State.setObj_keeps (State.setPart_keeps hz)))

theorem State.takePoint_keeps {a1 : ℕ} {a2 : Bool} (h : Keeps u s) : Keeps u (State.takePoint s a1 a2) := by
  unfold State.takePoint
  repeat' first
    | with_reducible assumption
    | with_reducible apply State.logEvent_keeps
    | with_reducible apply State.countSat_keeps
    | with_reducible apply State.setObj_keeps
    | with_reducible apply Keeps.ite

theorem State.boundaryPoint_keeps {a1 : ℕ} (h : Keeps u s) : Keeps u (State.boundaryPoint s a1) := by
  unfold State.boundaryPoint
  repeat' first
    | with_reducible assumption
    | with_reducible apply State.setPart_keeps
    | with_reducible apply State.setObj_keeps
    | with_reducible apply State.takePoint_keeps
    | with_reducible apply Keeps.ite
    | (fail_if_no_progress with_reducible refine Keeps.mk_same ?_)

theorem State.flip_keeps {a1 : ℕ} (h : Keeps u s) : Keeps u (State.flip s a1) := by
  unfold State.flip
  repeat' first
    | with_reducible assumption
    | with_reducible apply State.setObj_keeps
    | with_reducible apply Keeps.ite

theorem State.copyBack_keeps {a1 : ℕ} {a2 : ℕ} {a3 : ℕ} (h : Keeps u s) : Keeps u (State.copyBack s a1 a2 a3) := by
  unfold State.copyBack
  repeat' first
    | with_reducible assumption
    | with_reducible apply State.putBytes_keeps
    | exact id
    | exact Tab.fill_wf _ _ _ _
    | (lift_lets; intro x; refine (fun (_ : Keeps u x) => ?_) ?_; on_goal 2 => unfold x; on_goal 1 => clear_value x)
    | (fail_if_no_progress with_reducible refine Keeps.mk_tabs ?_ ?_ ?_ ?_ ?_ ?_)

theorem State.rejoin_keeps {a1 : ℕ} (h : Keeps u s) : Keeps u (State.rejoin s a1) := by
  unfold State.rejoin
  repeat' first
    | with_reducible assumption
    | with_reducible apply State.copyBack_keeps
    | with_reducible refine State.setCore_keeps ?_ ?_
    | exact rfl
    | with_reducible apply State.setObj_keeps
    | with_reducible apply Keeps.ite
    | (lift_lets; intro x; refine (fun (_ : Keeps u x) => ?_) ?_; on_goal 2 => unfold x; on_goal 1 => clear_value x)
    | split
    | (fail_if_no_progress with_reducible refine Keeps.mk_same ?_)

theorem State.boundary_keeps {a1 : ℕ} (h : Keeps u s) : Keeps u (State.boundary s a1) := by
  unfold State.boundary
  repeat' first
    | with_reducible assumption
    | with_reducible refine State.each_keeps ?_ (fun _ _ _ => ?_)
    | with_reducible apply State.flip_keeps
    | with_reducible apply State.rejoin_keeps
    | with_reducible apply State.setObj_keeps
    | with_reducible refine State.setCore_keeps ?_ ?_
    | exact rfl
    | with_reducible apply State.boundaryPoint_keeps
    | with_reducible apply State.setPart_keeps
    | with_reducible apply State.settlePower_keeps
    | with_reducible apply State.freezeStreams_keeps
    | with_reducible apply Keeps.ite

theorem State.stepTimeout_keeps {a1 : ℕ} (h : Keeps u s) : Keeps u (State.stepTimeout s a1) := by
  unfold State.stepTimeout
  repeat' first
    | with_reducible assumption
    | with_reducible apply State.programFault_keeps
    | with_reducible apply Keeps.ite
    | split

theorem State.hungCore_keeps {a1 : ℕ} {a2 : ℕ} (h : Keeps u s) : Keeps u (State.hungCore s a1 a2) := by
  unfold State.hungCore
  repeat' first
    | with_reducible assumption
    | with_reducible apply State.fenceCore_keeps
    | with_reducible apply Keeps.ite
    | split
    | (fail_if_no_progress with_reducible refine Keeps.mk_same ?_)

theorem State.rerunStart_keeps {a1 : ℕ} (h : Keeps u s) : Keeps u (State.rerunStart s a1) := by
  unfold State.rerunStart
  split
  · next f p _ _ =>
    refine Keeps.ite h ?_
    extract_lets x v i w c y
    have hv : Keeps u v := Keeps.mk_same h
    have hw : Keeps u w := State.copyQueues_keeps hv
    clear_value w
    have hy : Keeps u y := State.setRerun_keeps hw
    exact State.settlePower_keeps (State.count_keeps hy)
  · exact h

theorem returnAct_keeps {a0 : ℕ} {a1 : ℕ} : Act.Keeps (returnAct a0 a1) := by
  refine ⟨fun {u s} h => ?_⟩
  unfold returnAct
  repeat' first
    | with_reducible assumption
    | with_reducible apply State.setObj_keeps
    | with_reducible apply Keeps.ite1

/-! ### Machine/Sram.lean -/

theorem State.setHeld_held (s : State) (n : ℕ) (l : List HeldWord) : ((s.setHeld n l).core n).held = l := by
  change ((s.cores.set n { s.core n with held := l }).get n).held = l
  rw [Tab.get_set_self]

/-- What stays held when the banks of some words are written back. -/
theorem State.flushHeld_held (s : State) (n w v : ℕ) :
    ((s.flushHeld n w v).core n).held = (s.core n).held.filter fun x => !sameBanks w v x := by
  unfold State.flushHeld
  dsimp only
  split
  · next h => rw [List.isEmpty_iff.1 h]; rfl
  · rw [State.portWrites_core]; exact State.setHeld_held _ n _

/-- A word held in its bank's place. -/
theorem HeldOk.hold {l : List HeldWord} {w : ℕ} {g : Granule} (h : HeldOk l) (hw : w < 0x200000) (hn : ∀ x ∈ l, x.word ≠ w) :
    HeldOk (l ++ [⟨w, g⟩]) := by
  refine ⟨?_, fun x hx => ?_⟩
  · rw [List.map_append]
    refine List.nodup_append.2 ⟨h.1, List.nodup_singleton _, fun a ha b hb => ?_⟩
    obtain ⟨x, hx, rfl⟩ := List.mem_map.1 ha
    obtain rfl := List.mem_singleton.1 hb
    exact hn x hx
  · rcases List.mem_append.1 hx with hx | hx
    exacts [h.2 x hx, by rw [List.mem_singleton.1 hx]; exact hw]

theorem State.holdWord_keeps {a1 : ℕ} {a2 : ℕ} {a3 : Granule} (h : Keeps u s) (hw : a2 < 0x200000) : Keeps u (State.holdWord s a1 a2 a3) := by
  unfold State.holdWord
  extract_lets v l w x
  have hv : Keeps u v := State.flushHeld_keeps h
  split
  · exact hv
  have hn : ∀ x ∈ l, x.word ≠ a2 := by
    intro x hx e
    rw [show l = _ from State.flushHeld_held s a1 a2 a2] at hx
    have := (List.mem_filter.1 hx).2
    simp [sameBanks, e] at this
  have hx : Keeps u w := State.countSat_keeps (State.setHeld_keeps' hv fun c => HeldOk.hold (c.held a1) hw hn)
  exact Keeps.mk_tabs (State.setObj_keeps hx) id (Tab.clear_wf _ _ _) id id id

theorem State.holdWriteback_keeps {a1 : ℕ} (h : Keeps u s) : Keeps u (State.holdWriteback s a1) := by
  unfold State.holdWriteback
  split
  · exact h
  · next x rest q =>
    refine State.portWrites_keeps (State.setHeld_keeps' (h.mk_tabs (putHeld_wf _ _ _) id id id id) fun c => ?_)
    have g : HeldOk (s.core a1).held := c.held a1
    rw [q] at g
    exact g.sublist (List.sublist_cons_self _ _)

theorem State.sramFault_keeps {a1 : ℕ} {a2 : ℕ} (h : Keeps u s) : Keeps u (State.sramFault s a1 a2) := by
  unfold State.sramFault
  exact State.logEvent_keeps (State.countSat_keeps (h.mk_tabs id (fun w => Tab.wf_set (Tab.wf_set w)) id id id))

theorem State.scrubStep_keeps {a1 : ℕ} {a2 : EccFind} (h : Keeps u s) : Keeps u (State.scrubStep s a1 a2) := by
  unfold State.scrubStep
  repeat' first
    | with_reducible assumption
    | with_reducible apply State.countSat_keeps
    | with_reducible apply State.sramFault_keeps
    | with_reducible refine State.setCore_keeps ?_ ?_
    | exact rfl
    | with_reducible apply State.passDone_keeps
    | with_reducible apply Keeps.ite
    | split

theorem State.quadOff_keeps {a1 : ℕ} (h : Keeps u s) : Keeps u (State.quadOff s a1) := by
  unfold State.quadOff
  repeat' first
    | with_reducible assumption
    | with_reducible apply State.setObj_keeps
    | with_reducible refine State.each_keeps ?_ (fun _ _ _ => ?_)
    | with_reducible apply State.zeroScratch_keeps
    | with_reducible apply State.wipeVault_keeps

theorem State.pllLock_keeps {a1 : ℕ} (h : Keeps u s) : Keeps u (State.pllLock s a1) := by
  unfold State.pllLock
  repeat' first
    | with_reducible assumption
    | with_reducible apply State.settlePower_keeps
    | with_reducible refine State.setCore_keeps ?_ ?_
    | (split <;> exact rfl)
    | with_reducible apply Keeps.ite
    | split

theorem State.pllStop_keeps {a1 : ℕ} (h : Keeps u s) : Keeps u (State.pllStop s a1) := by
  unfold State.pllStop
  repeat' first
    | with_reducible assumption
    | with_reducible refine State.setCore_keeps ?_ ?_
    | exact rfl
    | with_reducible apply Keeps.ite

end Sys2Proof.Machine
end

