-- ==== Sys2Proof/Laws/KeepsPorts.lean ====
section
/-! SUPPORT. Every operation keeps the queue and the canonical tables: ports, the MAC, the clock, power, resets, background work, tests. -/

namespace Sys2Proof.Machine

set_option linter.unusedTactic false
set_option linter.unreachableTactic false

variable {u s : State}

/-! ### Machine/Ports.lean -/

theorem State.setLane_keeps {a1 : ℕ} {a2 : ℕ} (h : Keeps u s) : Keeps u (State.setLane s a1 a2) := by
  unfold State.setLane
  repeat' first
    | with_reducible assumption
    | with_reducible apply State.setObj_keeps

theorem State.portEvent_keeps {a1 : ℕ} {a2 : ℕ} {a3 : ℕ} {a4 : ℕ} (h : Keeps u s) : Keeps u (State.portEvent s a1 a2 a3 a4) := by
  unfold State.portEvent
  repeat' first
    | with_reducible assumption
    | with_reducible apply State.logEvent_keeps

theorem State.linkDown_keeps {a1 : ℕ} (h : Keeps u s) : Keeps u (State.linkDown s a1) := by
  unfold State.linkDown
  repeat' first
    | with_reducible assumption
    | with_reducible apply State.setLink_keeps
    | with_reducible apply State.setObj_keeps
    | with_reducible apply State.portEvent_keeps
    | with_reducible apply Keeps.ite

theorem State.portStart_keeps {a1 : ℕ} (h : Keeps u s) : Keeps u (State.portStart s a1) := by
  unfold State.portStart
  repeat' first
    | with_reducible assumption
    | with_reducible refine State.each_keeps ?_ (fun _ _ _ => ?_)
    | with_reducible apply State.setLane_keeps
    | with_reducible apply Keeps.ite
    | (fail_if_no_progress with_reducible refine Keeps.mk_same ?_)

theorem State.portOff_keeps {a1 : ℕ} (h : Keeps u s) : Keeps u (State.portOff s a1) := by
  unfold State.portOff
  repeat' first
    | with_reducible assumption
    | with_reducible refine State.each_keeps ?_ (fun _ _ _ => ?_)
    | with_reducible apply State.setLane_keeps
    | with_reducible apply State.linkDown_keeps
    | (intro x; refine (fun (_ : Keeps u x) => ?_) ?_; on_goal 2 => unfold x; on_goal 1 => clear_value x)
    | (lift_lets; intro x; refine (fun (_ : Keeps u x) => ?_) ?_; on_goal 2 => unfold x; on_goal 1 => clear_value x)
    | (fail_if_no_progress with_reducible refine Keeps.mk_same ?_)

theorem portEnableAct_keeps {a0 : ℕ} {a1 : ℕ} : Act.Keeps (portEnableAct a0 a1) := by
  refine ⟨fun {u s} h => ?_⟩
  unfold portEnableAct
  repeat' first
    | with_reducible assumption
    | with_reducible apply State.setObj_keeps
    | with_reducible apply State.portStart_keeps
    | with_reducible apply State.portOff_keeps
    | with_reducible apply Keeps.ite
    | with_reducible apply Keeps.ite1

theorem State.laneReady_keeps {a1 : ℕ} {a2 : Option Announce} {a3 : ℕ} (h : Keeps u s) : Keeps u (State.laneReady s a1 a2 a3) := by
  unfold State.laneReady
  repeat' first
    | with_reducible assumption
    | with_reducible apply State.setLane_keeps
    | with_reducible apply State.setLink_keeps
    | with_reducible apply State.setObj_keeps
    | with_reducible apply State.portEvent_keeps
    | with_reducible apply Keeps.ite

theorem State.amBoundary_keeps {a1 : ℕ} (h : Keeps u s) : Keeps u (State.amBoundary s a1) := by
  unfold State.amBoundary
  repeat' first
    | with_reducible assumption
    | with_reducible refine State.each_keeps ?_ (fun _ _ _ => ?_)
    | with_reducible apply State.setLane_keeps
    | with_reducible apply State.setLink_keeps
    | with_reducible apply State.portEvent_keeps
    | with_reducible apply State.linkDown_keeps
    | with_reducible apply State.setObj_keeps
    | with_reducible apply Keeps.ite

theorem State.laneStatus_keeps {a1 : ℕ} {a2 : BitVec 4} (h : Keeps u s) : Keeps u (State.laneStatus s a1 a2) := by
  unfold State.laneStatus
  repeat' first
    | with_reducible assumption
    | with_reducible apply State.setLink_keeps
    | with_reducible apply Keeps.ite

theorem State.linkRestart_keeps {a1 : ℕ} (h : Keeps u s) : Keeps u (State.linkRestart s a1) := by
  unfold State.linkRestart
  repeat' first
    | with_reducible assumption
    | with_reducible apply State.countSat_keeps
    | with_reducible refine State.each_keeps ?_ (fun _ _ _ => ?_)
    | with_reducible apply State.setLane_keeps
    | with_reducible apply Keeps.ite

theorem State.fibre_keeps {a1 : ℕ} {a2 : Bool} (h : Keeps u s) : Keeps u (State.fibre s a1 a2) := by
  unfold State.fibre
  repeat' first
    | with_reducible assumption
    | with_reducible apply State.setObj_keeps
    | with_reducible apply State.portEvent_keeps
    | with_reducible apply Keeps.ite

theorem State.laneLeaves_keeps {a1 : ℕ} {a2 : ℕ} {a3 : LaneCause} (h : Keeps u s) : Keeps u (State.laneLeaves s a1 a2 a3) := by
  unfold State.laneLeaves
  repeat' first
    | with_reducible assumption
    | with_reducible apply State.setLane_keeps
    | with_reducible apply State.portEvent_keeps
    | with_reducible apply State.linkDown_keeps
    | with_reducible apply Keeps.ite

theorem State.laneOut_keeps {a1 : ℕ} {a2 : LaneCause} {a3 : Bool} (h : Keeps u s) : Keeps u (State.laneOut s a1 a2 a3) := by
  unfold State.laneOut
  repeat' first
    | with_reducible assumption
    | with_reducible apply State.fibre_keeps
    | with_reducible apply State.laneLeaves_keeps
    | with_reducible apply Keeps.ite
    | split
    | (fail_if_no_progress with_reducible refine Keeps.mk_same ?_)

theorem State.losClear_keeps {a1 : ℕ} {a2 : Bool} (h : Keeps u s) : Keeps u (State.losClear s a1 a2) := by
  unfold State.losClear
  repeat' first
    | with_reducible assumption
    | with_reducible apply State.fibre_keeps
    | with_reducible apply Keeps.ite
    | (fail_if_no_progress with_reducible refine Keeps.mk_same ?_)

theorem State.setService_keeps {a1 : ℕ} {a2 : ℕ} (h : Keeps u s) : Keeps u (State.setService s a1 a2) := by
  unfold State.setService
  repeat' first
    | with_reducible assumption
    | with_reducible apply State.laneLeaves_keeps
    | with_reducible apply State.setLane_keeps
    | with_reducible apply Keeps.ite

theorem serviceAct_keeps {a0 : ℕ} {a1 : ℕ} : Act.Keeps (serviceAct a0 a1) := by
  refine ⟨fun {u s} h => ?_⟩
  unfold serviceAct
  repeat' first
    | with_reducible assumption
    | with_reducible apply State.setService_keeps
    | with_reducible apply State.setObj_keeps
    | with_reducible apply Keeps.ite1

/-! ### Machine/Mac.lean -/

theorem State.countBad_keeps {a1 : ℕ} {a2 : ℕ} {a3 : Frame} (h : Keeps u s) : Keeps u (State.countBad s a1 a2 a3) := by
  unfold State.countBad
  repeat' first
    | with_reducible assumption
    | with_reducible apply State.countSat_keeps
    | with_reducible apply Keeps.ite

theorem State.unmatched_keeps {a1 : ℕ} (h : Keeps u s) : Keeps u (State.unmatched s a1) := by
  unfold State.unmatched
  repeat' first
    | with_reducible assumption
    | with_reducible apply State.countSat_keeps

theorem State.takeBad_keeps {a1 : ℕ} {a2 : ℕ} {a3 : Frame} (h : Keeps u s) : Keeps u (State.takeBad s a1 a2 a3) := by
  unfold State.takeBad
  repeat' first
    | with_reducible assumption
    | with_reducible apply State.countBad_keeps
    | with_reducible apply State.storeFrame_keeps
    | with_reducible apply Keeps.ite

theorem State.frameReceive_keeps {a1 : ℕ} {a2 : Frame} (h : Keeps u s) : Keeps u (State.frameReceive s a1 a2) := by
  unfold State.frameReceive
  repeat' first
    | with_reducible assumption
    | with_reducible apply State.takeBad_keeps
    | with_reducible apply State.count_keeps
    | with_reducible apply State.unmatched_keeps
    | with_reducible apply State.emit_keeps
    | with_reducible apply State.storeFrame_keeps
    | with_reducible apply Keeps.ite
    | split

theorem State.setPause_keeps {a1 : ℕ} {a2 : ℕ} {a3 : ℕ} (h : Keeps u s) : Keeps u (State.setPause s a1 a2 a3) := by
  unfold State.setPause
  repeat' first
    | with_reducible assumption
    | with_reducible apply State.count_keeps
    | with_reducible apply State.setLink_keeps
    | with_reducible apply Keeps.ite

theorem State.pauseFrame_keeps {a1 : ℕ} {a2 : Bool} {a3 : ℕ} {a4 : List ℕ} (h : Keeps u s) : Keeps u (State.pauseFrame s a1 a2 a3 a4) := by
  unfold State.pauseFrame
  repeat' first
    | with_reducible assumption
    | with_reducible apply State.count_keeps
    | with_reducible refine State.each_keeps ?_ (fun _ _ _ => ?_)
    | with_reducible apply State.setPause_keeps
    | with_reducible apply Keeps.ite

theorem State.pauseExpiry_keeps {a1 : ℕ} {a2 : ℕ} (h : Keeps u s) : Keeps u (State.pauseExpiry s a1 a2) := by
  unfold State.pauseExpiry
  repeat' first
    | with_reducible assumption
    | with_reducible apply State.count_keeps
    | with_reducible apply State.setLink_keeps
    | with_reducible apply Keeps.ite

theorem State.pfcStorm_keeps {a1 : ℕ} {a2 : ℕ} (h : Keeps u s) : Keeps u (State.pfcStorm s a1 a2) := by
  unfold State.pfcStorm
  repeat' first
    | with_reducible assumption
    | with_reducible apply State.portEvent_keeps
    | with_reducible apply State.setLink_keeps
    | with_reducible apply Keeps.ite

theorem State.pfcSend_keeps {a1 : ℕ} {a2 : ℕ} {a3 : ℕ} (h : Keeps u s) : Keeps u (State.pfcSend s a1 a2 a3) := by
  unfold State.pfcSend
  repeat' first
    | with_reducible assumption
    | with_reducible apply State.setLink_keeps
    | with_reducible apply State.emit_keeps
    | with_reducible apply Keeps.ite
    | (lift_lets; intro x)
    | (fail_if_no_progress with_reducible refine Keeps.mk_same ?_)

theorem State.installGates_keeps {a1 : ℕ} (h : Keeps u s) : Keeps u (State.installGates s a1) := by
  unfold State.installGates
  repeat' first
    | with_reducible assumption
    | with_reducible apply State.setObj_keeps
    | with_reducible apply Keeps.ite
    | (intro x; refine (fun (_ : Keeps u x) => ?_) ?_; on_goal 2 => unfold x; on_goal 1 => clear_value x)
    | (lift_lets; intro x)
    | (fail_if_no_progress with_reducible refine Keeps.mk_same ?_)

theorem State.gateStep_keeps {a1 : ℕ} (h : Keeps u s) : Keeps u (State.gateStep s a1) := by
  unfold State.gateStep
  repeat' first
    | with_reducible assumption
    | with_reducible apply State.setLink_keeps
    | with_reducible apply State.installGates_keeps
    | with_reducible apply Keeps.ite

theorem configTimeAct_keeps {a0 : ℕ} {a1 : ℕ} : Act.Keeps (configTimeAct a0 a1) := by
  refine ⟨fun {u s} h => ?_⟩
  unfold configTimeAct
  repeat' first
    | with_reducible assumption
    | with_reducible apply State.setObj_keeps
    | with_reducible apply Keeps.ite1
    | (lift_lets; intro x; refine (fun (_ : Keeps u x) => ?_) ?_; on_goal 2 => unfold x; on_goal 1 => clear_value x)
    | (fail_if_no_progress with_reducible refine Keeps.mk_same ?_)

theorem clockStepAct_keeps {a0 : ℕ} : Act.Keeps (clockStepAct a0) := by
  refine ⟨fun {u s} h => ?_⟩
  unfold clockStepAct
  repeat' first
    | with_reducible assumption
    | with_reducible apply State.setObj_keeps
    | with_reducible refine State.each_keeps ?_ (fun _ _ _ => ?_)
    | with_reducible apply State.setLink_keeps
    | (intro x; refine (fun (_ : Keeps u x) => ?_) ?_; on_goal 2 => unfold x; on_goal 1 => clear_value x)
    | (lift_lets; intro x; refine (fun (_ : Keeps u x) => ?_) ?_; on_goal 2 => unfold x; on_goal 1 => clear_value x)
    | (fail_if_no_progress with_reducible refine Keeps.mk_same ?_)

/-! ### Machine/Clock.lean -/

theorem State.idleTick_keeps (h : Keeps u s) : Keeps u (State.idleTick s) := by
  unfold State.idleTick
  repeat' first
    | with_reducible assumption
    | with_reducible apply State.setObj_keeps
    | with_reducible apply Keeps.ite

/-! ### Machine/Power.lean -/

theorem State.settleLimits_keeps {a1 : Bool} (h : Keeps u s) : Keeps u (State.settleLimits s a1) := by
  unfold State.settleLimits
  repeat' first
    | with_reducible assumption
    | with_reducible apply State.logEvent_keeps
    | with_reducible apply State.setObj_keeps
    | with_reducible apply Keeps.ite

theorem State.quadRest_keeps {a1 : ℕ} (h : Keeps u s) : Keeps u (State.quadRest s a1) := by
  unfold State.quadRest
  repeat' first
    | with_reducible assumption
    | with_reducible apply State.setObj_keeps
    | with_reducible apply State.quadOff_keeps
    | with_reducible apply Keeps.ite

theorem State.enterRest_keeps (h : Keeps u s) : Keeps u (State.enterRest s) := by
  unfold State.enterRest
  repeat' first
    | with_reducible assumption
    | with_reducible apply State.connHandOver_keeps
    | with_reducible refine State.each_keeps ?_ (fun _ _ _ => ?_)
    | with_reducible apply State.portOff_keeps
    | with_reducible apply State.quadRest_keeps
    | with_reducible refine State.setCore_keeps ?_ ?_
    | exact rfl
    | with_reducible refine Keeps.fold ?_ fun _ _ _ => ?_
    | (fail_if_no_progress with_reducible refine Keeps.mk_same ?_)

theorem State.reachIdle_keeps (h : Keeps u s) : Keeps u (State.reachIdle s) := by
  unfold State.reachIdle
  repeat' first
    | with_reducible assumption
    | with_reducible apply State.setObj_keeps
    | with_reducible refine State.each_keeps ?_ (fun _ _ _ => ?_)
    | with_reducible apply State.portStart_keeps
    | (fail_if_no_progress with_reducible refine Keeps.mk_same ?_)

theorem State.enterHush_keeps (h : Keeps u s) : Keeps u (State.enterHush s) := by
  unfold State.enterHush
  repeat' first
    | with_reducible assumption
    | with_reducible refine State.each_keeps ?_ (fun _ _ _ => ?_)
    | with_reducible apply State.quadOff_keeps
    | with_reducible apply State.logEvent_keeps
    | with_reducible apply Keeps.ite
    | (intro x; refine (fun (_ : Keeps u x) => ?_) ?_; on_goal 2 => unfold x; on_goal 1 => clear_value x)
    | (lift_lets; intro x; refine (fun (_ : Keeps u x) => ?_) ?_; on_goal 2 => unfold x; on_goal 1 => clear_value x)
    | (fail_if_no_progress with_reducible refine Keeps.mk_same ?_)

theorem targetAct_keeps {a0 : ℕ} : Act.Keeps (targetAct a0) := by
  refine ⟨fun {u s} h => ?_⟩
  unfold targetAct
  repeat' first
    | with_reducible assumption
    | with_reducible apply State.setObj_keeps
    | with_reducible apply State.enterRest_keeps
    | with_reducible apply State.enterHush_keeps
    | with_reducible apply Keeps.ite1

theorem State.transitionDone_keeps (h : Keeps u s) : Keeps u (State.transitionDone s) := by
  unfold State.transitionDone
  repeat' first
    | with_reducible assumption
    | with_reducible apply State.setObj_keeps
    | with_reducible apply State.logEvent_keeps
    | with_reducible apply State.reachIdle_keeps
    | with_reducible apply Keeps.ite

theorem pointAct_keeps {a0 : ℕ} {a1 : ℕ} : Act.Keeps (pointAct a0 a1) := by
  refine ⟨fun {u s} h => ?_⟩
  unfold pointAct
  repeat' first
    | with_reducible assumption
    | with_reducible apply State.setObj_keeps
    | with_reducible apply State.takePoint_keeps
    | with_reducible apply Keeps.ite
    | with_reducible apply Keeps.ite1

theorem State.setDuty_keeps {a1 : ℕ} {a2 : ℕ} (h : Keeps u s) : Keeps u (State.setDuty s a1 a2) := by
  unfold State.setDuty
  repeat' first
    | with_reducible assumption
    | with_reducible apply State.setObj_keeps
    | with_reducible apply State.setPart_keeps
    | with_reducible refine State.each_keeps ?_ (fun _ _ _ => ?_)
    | with_reducible refine State.setCore_keeps ?_ ?_
    | exact rfl

theorem State.dutyAdjust_keeps {a1 : ℕ} (h : Keeps u s) : Keeps u (State.dutyAdjust s a1) := by
  unfold State.dutyAdjust
  repeat' first
    | with_reducible assumption
    | with_reducible refine State.each_keeps ?_ (fun _ _ _ => ?_)
    | with_reducible apply State.setDuty_keeps
    | with_reducible apply State.count_keeps
    | with_reducible apply Keeps.ite
    | split
    | (fail_if_no_progress with_reducible refine Keeps.mk_same ?_)

theorem State.grantRamp_keeps (h : Keeps u s) : Keeps u (State.grantRamp s) := by
  unfold State.grantRamp
  repeat' first
    | with_reducible assumption
    | with_reducible refine State.setCore_keeps ?_ ?_
    | (split <;> exact rfl)
    | split
    | (fail_if_no_progress with_reducible refine Keeps.mk_same ?_)

theorem State.setFans_keeps (h : Keeps u s) : Keeps u (State.setFans s) := by
  unfold State.setFans
  repeat' first
    | with_reducible assumption
    | with_reducible apply State.setObj_keeps

theorem State.fanSet_keeps {a1 : ℕ} {a2 : Bool} (h : Keeps u s) : Keeps u (State.fanSet s a1 a2) := by
  unfold State.fanSet
  repeat' first
    | with_reducible assumption
    | with_reducible apply State.setObj_keeps
    | with_reducible apply State.settleLimits_keeps
    | with_reducible apply State.logEvent_keeps
    | with_reducible apply State.setFans_keeps
    | with_reducible apply Keeps.ite

/-! ### Machine/Reset.lean -/

theorem State.endSession_keeps {a1 : ℕ} {a2 : ℕ} {a3 : Option WipeTrigger} (h : Keeps u s) : Keeps u (State.endSession s a1 a2 a3) := by
  unfold State.endSession
  repeat' first
    | with_reducible assumption
    | with_reducible refine State.each_keeps ?_ (fun _ _ _ => ?_)
    | with_reducible apply State.wipeVault_keeps
    | with_reducible apply State.clearKeySlots_keeps
    | with_reducible apply State.setObj_keeps
    | with_reducible apply State.setPart_keeps
    | with_reducible apply State.logEvent_keeps
    | with_reducible apply State.enterHeld_keeps
    | (lift_lets; intro x)
    | split
    | (fail_if_no_progress with_reducible refine Keeps.mk_same ?_)

theorem State.endSecrets_keeps {a1 : ℕ} (h : Keeps u s) : Keeps u (State.endSecrets s a1) := by
  unfold State.endSecrets
  repeat' first
    | with_reducible assumption
    | with_reducible refine State.each_keeps ?_ (fun _ _ _ => ?_)
    | with_reducible apply State.endSession_keeps
    | with_reducible apply State.clearKeySlots_keeps

theorem State.wipeAll_keeps {a1 : WipeTrigger} (h : Keeps u s) : Keeps u (State.wipeAll s a1) := by
  unfold State.wipeAll
  repeat' first
    | with_reducible assumption
    | with_reducible refine State.each_keeps ?_ (fun _ _ _ => ?_)
    | with_reducible apply State.wipeVault_keeps
    | with_reducible apply State.wakeQuad_keeps

theorem State.closeAll_keeps (h : Keeps u s) : Keeps u (State.closeAll s) := by
  unfold State.closeAll
  repeat' first
    | with_reducible assumption
    | with_reducible apply State.connHandOver_keeps
    | with_reducible refine Keeps.fold ?_ fun _ _ _ => ?_

theorem State.resetBase_keeps (h : Keeps u s) : Keeps u (State.resetBase s) := ⟨h.pending, fun _ => ⟨Tab.empty_wf, Tab.empty_wf, Tab.empty_wf, Tab.empty_wf, Tab.empty_wf, Tab.empty_wf, fun _ => HeldOk.nil⟩⟩

theorem State.porst_keeps (h : Keeps u s) : Keeps u (State.porst s) := by
  unfold State.porst
  extract_lets v e w
  have hv : Keeps u v := State.closeAll_keeps h
  refine State.setObj_keeps ⟨(State.resetBase_keeps hv).pending, fun c => ?_⟩
  have c' := (State.resetBase_keeps hv).canon c
  exact ⟨c'.mem, c'.sramBad, c'.bulkBad, Tab.keep_wf _ _ (hv.canon c).objs, c'.cores, c'.parts, c'.held⟩

theorem State.porstFor_keeps {a1 : ℕ} (h : Keeps u s) : Keeps u (State.porstFor s a1) := by
  unfold State.porstFor
  repeat' first
    | with_reducible assumption
    | with_reducible apply State.porst_keeps
    | (lift_lets; intro x; refine (fun (_ : Keeps u x) => ?_) ?_; on_goal 2 => unfold x; on_goal 1 => clear_value x)
    | (fail_if_no_progress with_reducible refine Keeps.mk_same ?_)

theorem State.dropRegion_keeps {a1 : ℕ} (h : Keeps u s) : Keeps u (State.dropRegion s a1) := by
  unfold State.dropRegion
  repeat' first
    | with_reducible assumption
    | with_reducible apply State.putRegion_keeps

theorem State.warmReset_keeps (h : Keeps u s) : Keeps u (State.warmReset s) := by
  unfold State.warmReset
  extract_lets v w x
  have hv : Keeps u v := State.closeAll_keeps h
  have hw : Keeps u w := State.each_keeps hv fun _ _ g => State.dropRegion_keeps g
  refine ⟨(State.resetBase_keeps hw).pending, fun c => ?_⟩
  have c' := (State.resetBase_keeps hw).canon c
  have d := hw.canon c
  exact ⟨Tab.clear_wf _ _ _ d.mem, c'.sramBad, d.bulkBad, Tab.keep_wf _ _ d.objs, c'.cores, c'.parts, c'.held⟩

theorem State.porstPin_keeps (h : Keeps u s) : Keeps u (State.porstPin s) := by
  unfold State.porstPin
  repeat' first
    | with_reducible assumption
    | with_reducible apply State.porstFor_keeps

theorem State.pwrFell_keeps (h : Keeps u s) : Keeps u (State.pwrFell s) := by
  unfold State.pwrFell
  exact State.porstFor_keeps (Keeps.mk_same h)

theorem State.wakeHush_keeps {a1 : ℕ} {a2 : ℕ} {a3 : ℕ} (h : Keeps u s) : Keeps u (State.wakeHush s a1 a2 a3) := by
  unfold State.wakeHush
  repeat' first
    | with_reducible assumption
    | with_reducible apply State.porstFor_keeps
    | with_reducible apply State.setObj_keeps
    | with_reducible apply Keeps.ite
    | (lift_lets; intro x; refine (fun (_ : Keeps u x) => ?_) ?_; on_goal 2 => unfold x; on_goal 1 => clear_value x)
    | (fail_if_no_progress with_reducible refine Keeps.mk_same ?_)

theorem State.pwrGoodPin_keeps {a1 : Bool} (h : Keeps u s) : Keeps u (State.pwrGoodPin s a1) := by
  unfold State.pwrGoodPin
  repeat' first
    | with_reducible assumption
    | with_reducible apply State.wakeHush_keeps
    | with_reducible apply State.pwrFell_keeps
    | with_reducible apply Keeps.ite
    | (lift_lets; intro x; refine (fun (_ : Keeps u x) => ?_) ?_; on_goal 2 => unfold x; on_goal 1 => clear_value x)
    | split
    | (fail_if_no_progress with_reducible refine Keeps.mk_same ?_)

theorem State.trip_keeps {a1 : ℕ} {a2 : ℤ} (h : Keeps u s) : Keeps u (State.trip s a1 a2) := by
  unfold State.trip
  refine Keeps.ite h ?_
  extract_lets v w
  have hv : Keeps u v := State.logEvent_keeps h
  refine ⟨(State.porst_keeps hv).pending, fun c => ?_⟩
  have c' := (State.porst_keeps hv).canon c
  exact ⟨c'.mem, c'.sramBad, c'.bulkBad, (hv.canon c).objs, c'.cores, c'.parts, c'.held⟩

theorem State.burnIntent_keeps {a1 : ℕ} (h : Keeps u s) : Keeps u (State.burnIntent s a1) := by
  unfold State.burnIntent
  repeat' first
    | with_reducible assumption
    | with_reducible apply State.setObj_keeps
    | (fail_if_no_progress with_reducible refine Keeps.mk_same ?_)

theorem State.burnState_keeps {a1 : ℕ} (h : Keeps u s) : Keeps u (State.burnState s a1) := by
  unfold State.burnState
  repeat' first
    | with_reducible assumption
    | with_reducible apply State.setObj_keeps
    | (fail_if_no_progress with_reducible refine Keeps.mk_same ?_)

theorem requestAct_keeps {a0 : ℕ} {a1 : Bool} : Act.Keeps (requestAct a0 a1) := by
  refine ⟨fun {u s} h => ?_⟩
  unfold requestAct
  repeat' first
    | with_reducible assumption
    | with_reducible apply State.setObj_keeps
    | with_reducible apply State.endSecrets_keeps
    | with_reducible apply State.wipeAll_keeps
    | with_reducible apply State.burnIntent_keeps
    | with_reducible apply State.porstFor_keeps
    | with_reducible apply State.logEvent_keeps
    | with_reducible apply State.burnState_keeps
    | with_reducible apply Keeps.ite1

theorem State.carryForward_keeps (h : Keeps u s) : Keeps u (State.carryForward s) := by
  unfold State.carryForward
  exact State.each_keeps h fun _ _ hw => State.logEvent_keeps (State.burnState_keeps hw)

theorem State.copyRefused_keeps {a1 : ℕ} {a2 : ℕ} {a3 : ℕ} (h : Keeps u s) : Keeps u (State.copyRefused s a1 a2 a3) := by
  unfold State.copyRefused
  repeat' first
    | with_reducible assumption
    | with_reducible apply State.logEvent_keeps
    | with_reducible apply Keeps.ite

theorem State.runCopy_keeps {a1 : ℕ} {a2 : ℕ} (h : Keeps u s) : Keeps u (State.runCopy s a1 a2) := by
  unfold State.runCopy
  repeat' first
    | with_reducible assumption
    | with_reducible apply State.setObj_keeps
    | (fail_if_no_progress with_reducible refine Keeps.mk_same ?_)

theorem State.loadClass_keeps {a1 : ℕ} (h : Keeps u s) : Keeps u (State.loadClass s a1) := by
  unfold State.loadClass
  repeat' first
    | with_reducible assumption
    | with_reducible apply State.runCopy_keeps
    | with_reducible apply State.copyRefused_keeps
    | with_reducible apply Keeps.ite

theorem State.loadImages_keeps (h : Keeps u s) : Keeps u (State.loadImages s) := by
  unfold State.loadImages
  repeat' first
    | with_reducible assumption
    | with_reducible apply State.loadClass_keeps
    | with_reducible refine State.each_keeps ?_ (fun _ _ _ => ?_)
    | with_reducible apply Keeps.ite

theorem State.bootNetwork_keeps (h : Keeps u s) : Keeps u (State.bootNetwork s) := by
  unfold State.bootNetwork
  repeat' first
    | with_reducible assumption
    | with_reducible apply State.setObj_keeps
    | with_reducible refine Keeps.fold ?_ fun _ _ _ => ?_
    | split

theorem State.bootMember_keeps (h : Keeps u s) : Keeps u (State.bootMember s) := by
  unfold State.bootMember
  repeat' first
    | with_reducible assumption
    | with_reducible apply State.setObj_keeps
    | split

theorem State.reachRest_keeps {a1 : BootSt} (h : Keeps u s) : Keeps u (State.reachRest s a1) := by
  unfold State.reachRest
  repeat' first
    | with_reducible assumption
    | with_reducible refine State.each_keeps ?_ (fun _ _ _ => ?_)
    | with_reducible apply State.zeroScratch_keeps
    | with_reducible apply State.wipeVault_keeps
    | with_reducible apply State.logEvent_keeps
    | with_reducible apply State.bootMember_keeps
    | with_reducible apply State.bootNetwork_keeps
    | (intro x; refine (fun (_ : Keeps u x) => ?_) ?_; on_goal 2 => unfold x; on_goal 1 => clear_value x)
    | (intro x)
    | (lift_lets; intro x; refine (fun (_ : Keeps u x) => ?_) ?_; on_goal 2 => unfold x; on_goal 1 => clear_value x)
    | (fail_if_no_progress with_reducible refine Keeps.mk_same ?_)

theorem State.bootRom_keeps (h : Keeps u s) : Keeps u (State.bootRom s) := by
  unfold State.bootRom
  repeat' first
    | with_reducible assumption
    | with_reducible apply State.carryForward_keeps
    | with_reducible apply State.reachRest_keeps
    | with_reducible apply State.loadImages_keeps
    | with_reducible apply State.logEvent_keeps
    | with_reducible apply Keeps.ite
    | split

theorem State.bootFinish_keeps {a1 : List Byte} {a2 : ℕ} {a3 : ℕ} (h : Keeps u s) : Keeps u (State.bootFinish s a1 a2 a3) := by
  unfold State.bootFinish
  repeat' first
    | with_reducible assumption
    | with_reducible apply State.setObj_keeps
    | with_reducible apply State.reachIdle_keeps
    | with_reducible apply State.logEvent_keeps
    | with_reducible apply Keeps.ite
    | with_reducible refine Keeps.fold ?_ fun _ _ _ => ?_
    | (fail_if_no_progress with_reducible refine Keeps.mk_same ?_)

theorem networkAct_keeps {a0 : ℕ} : Act.Keeps (networkAct a0) := by
  refine ⟨fun {u s} h => ?_⟩
  unfold networkAct
  repeat' first
    | with_reducible assumption
    | with_reducible apply Keeps.ite1
    | (fail_if_no_progress with_reducible refine Keeps.mk_same ?_)

theorem State.commitClass_keeps {a1 : ℕ} (h : Keeps u s) : Keeps u (State.commitClass s a1) := by
  unfold State.commitClass
  repeat' first
    | with_reducible assumption
    | with_reducible apply State.setObj_keeps

theorem commitAct_keeps {a0 : ℕ} : Act.Keeps (commitAct a0) := by
  refine ⟨fun {u s} h => ?_⟩
  unfold commitAct
  repeat' first
    | with_reducible assumption
    | with_reducible refine State.each_keeps ?_ (fun _ _ _ => ?_)
    | with_reducible apply State.commitClass_keeps
    | with_reducible apply Keeps.ite1

theorem State.flashUnknown_keeps {a1 : ℕ} {a2 : ℕ} (h : Keeps u s) : Keeps u (State.flashUnknown s a1 a2) := by
  unfold State.flashUnknown
  repeat' first
    | with_reducible assumption
    | (fail_if_no_progress with_reducible refine Keeps.mk_same ?_)

theorem eraseAct_keeps {a0 : Bool} : Act.Keeps (eraseAct a0) := by
  refine ⟨fun {u s} h => ?_⟩
  unfold eraseAct
  refine Keeps.ite1 h (Keeps.ite1 ?_ ?_)
  · exact State.setObj_keeps (Keeps.mk_same h)
  · exact State.setObj_keeps (State.flashUnknown_keeps h)

theorem recoveryDataAct_keeps {a0 : List Byte} {a1 : Bool} : Act.Keeps (recoveryDataAct a0 a1) := by
  refine ⟨fun {u s} h => ?_⟩
  unfold recoveryDataAct
  refine Keeps.ite1 h (Keeps.ite1 h (Keeps.ite1 h (Keeps.ite1 ?_ ?_)))
  · exact State.setObj_keeps (State.flashUnknown_keeps h)
  · exact State.setObj_keeps (State.setObj_keeps (Keeps.mk_same h))

theorem checkAct_keeps : Act.Keeps (checkAct) := by
  refine ⟨fun {u s} h => ?_⟩
  unfold checkAct
  repeat' first
    | with_reducible assumption
    | with_reducible apply State.setObj_keeps
    | with_reducible apply Keeps.ite1

theorem rebootAct_keeps : Act.Keeps (rebootAct) := by
  refine ⟨fun {u s} h => ?_⟩
  unfold rebootAct
  repeat' first
    | with_reducible assumption
    | with_reducible apply State.porstFor_keeps
    | with_reducible apply Keeps.ite1

theorem State.tamperAlarm_keeps {a1 : TamperSource} (h : Keeps u s) : Keeps u (State.tamperAlarm s a1) := by
  unfold State.tamperAlarm
  repeat' first
    | with_reducible assumption
    | with_reducible apply State.wipeAll_keeps
    | with_reducible refine State.each_keeps ?_ (fun _ _ _ => ?_)
    | with_reducible apply State.abortCore_keeps
    | with_reducible apply State.endSecrets_keeps
    | with_reducible apply State.dissolvePart_keeps
    | with_reducible apply State.enterHeld_keeps
    | with_reducible apply State.setObj_keeps
    | with_reducible apply State.count_keeps
    | with_reducible apply State.enterRest_keeps
    | with_reducible apply State.logEvent_keeps
    | with_reducible apply Keeps.ite
    | (lift_lets; intro x; refine (fun (_ : Keeps u x) => ?_) ?_; on_goal 2 => unfold x; on_goal 1 => clear_value x)
    | (fail_if_no_progress with_reducible refine Keeps.mk_same ?_)

/-! ### Machine/Background.lean -/

theorem State.breathOne_keeps {a1 : ℕ} {a2 : ℕ} {a3 : ℕ} (h : Keeps u s) : Keeps u (State.breathOne s a1 a2 a3) := by
  unfold State.breathOne
  repeat' first
    | with_reducible assumption
    | with_reducible apply State.setObj_keeps
    | with_reducible apply State.count_keeps
    | with_reducible apply Keeps.ite
    | split
    | (fail_if_no_progress with_reducible refine Keeps.mk_same ?_)

theorem State.breathPeriod_keeps {a1 : List ℕ} {a2 : List ℕ} (h : Keeps u s) : Keeps u (State.breathPeriod s a1 a2) := by
  unfold State.breathPeriod
  repeat' first
    | with_reducible assumption
    | with_reducible refine State.each_keeps ?_ (fun _ _ _ => ?_)
    | with_reducible apply State.breathOne_keeps
    | (lift_lets; intro x; refine (fun (_ : Keeps u x) => ?_) ?_; on_goal 2 => unfold x; on_goal 1 => clear_value x)
    | (fail_if_no_progress with_reducible refine Keeps.mk_same ?_)

theorem shareAct_keeps {a0 : ℕ} {a1 : ℕ} : Act.Keeps (shareAct a0 a1) := by
  refine ⟨fun {u s} h => ?_⟩
  unfold shareAct
  repeat' first
    | with_reducible assumption
    | with_reducible apply State.setObj_keeps
    | with_reducible apply Keeps.ite1

theorem State.laserAge_keeps {a1 : ℕ} {a2 : Bool} {a3 : ℕ} (h : Keeps u s) : Keeps u (State.laserAge s a1 a2 a3) := by
  unfold State.laserAge
  repeat' first
    | with_reducible assumption
    | with_reducible apply State.logEvent_keeps
    | with_reducible apply Keeps.ite
    | (fail_if_no_progress with_reducible refine Keeps.mk_same ?_)

theorem State.sectorFail_keeps {a1 : ℕ} (h : Keeps u s) : Keeps u (State.sectorFail s a1) := by
  unfold State.sectorFail
  repeat' first
    | with_reducible assumption
    | with_reducible apply State.logEvent_keeps
    | with_reducible apply Keeps.ite
    | (fail_if_no_progress with_reducible refine Keeps.mk_same ?_)

theorem State.wearLevel_keeps {a1 : ℕ} {a2 : Bool} (h : Keeps u s) : Keeps u (State.wearLevel s a1 a2) := by
  unfold State.wearLevel
  repeat' first
    | with_reducible assumption
    | with_reducible apply State.sectorFail_keeps
    | with_reducible apply Keeps.ite
    | (fail_if_no_progress with_reducible refine Keeps.mk_same ?_)

theorem State.persistWrite_keeps {a1 : Option ℕ} (h : Keeps u s) : Keeps u (State.persistWrite s a1) := by
  unfold State.persistWrite
  repeat' first
    | with_reducible assumption
    | with_reducible apply State.sectorFail_keeps
    | with_reducible apply Keeps.ite
    | split
    | (fail_if_no_progress with_reducible refine Keeps.mk_same ?_)

theorem State.teleShown_keeps (h : Keeps u s) : Keeps u (State.teleShown s) := by
  unfold State.teleShown
  repeat' first
    | with_reducible assumption
    | (intro x)
    | (lift_lets; intro x)
    | (fail_if_no_progress with_reducible refine Keeps.mk_same ?_)

theorem State.telemetry_keeps {a1 : Readings} (h : Keeps u s) : Keeps u (State.telemetry s a1) := by
  unfold State.telemetry
  repeat' first
    | with_reducible assumption
    | with_reducible refine State.each_keeps ?_ (fun _ _ _ => ?_)
    | with_reducible apply State.setObj_keeps
    | with_reducible apply State.count_keeps
    | with_reducible apply State.setFans_keeps
    | with_reducible apply State.settleLimits_keeps
    | with_reducible apply State.teleShown_keeps
    | with_reducible apply Keeps.ite
    | (fail_if_no_progress with_reducible refine Keeps.mk_same ?_)

theorem calCommitAct_keeps {a0 : Bool} : Act.Keeps (calCommitAct a0) := by
  refine ⟨fun {u s} h => ?_⟩
  unfold calCommitAct
  repeat' first
    | with_reducible assumption
    | with_reducible apply State.setObj_keeps
    | with_reducible apply State.logEvent_keeps
    | with_reducible apply Keeps.ite1

/-! ### Machine/Tests.lean -/

theorem State.testDone_keeps {a1 : ℕ} {a2 : ℕ} (h : Keeps u s) : Keeps u (State.testDone s a1 a2) := by
  unfold State.testDone
  repeat' first
    | with_reducible assumption
    | with_reducible apply State.logEvent_keeps

theorem laneTestAct_keeps {a0 : ℕ} {a1 : ℕ} : Act.Keeps (laneTestAct a0 a1) := by
  refine ⟨fun {u s} h => ?_⟩
  unfold laneTestAct
  repeat' first
    | with_reducible assumption
    | with_reducible apply State.setObj_keeps
    | with_reducible apply State.laneLeaves_keeps
    | with_reducible apply State.setService_keeps
    | with_reducible apply Keeps.ite
    | with_reducible apply Keeps.ite1

theorem State.zeroChunks_keeps {a1 : ℕ} {a2 : ℕ} {a3 : ℕ} (h : Keeps u s) : Keeps u (State.zeroChunks s a1 a2 a3) := by
  unfold State.zeroChunks
  repeat' first
    | with_reducible assumption
    | exact id
    | exact Tab.keep_wf _ _
    | (lift_lets; intro x)
    | (fail_if_no_progress with_reducible refine Keeps.mk_tabs ?_ ?_ ?_ ?_ ?_ ?_)

theorem sealedByAll_keeps {a0 : List ℕ} : Act.Keeps (sealedByAll a0) := by
  refine ⟨fun {u s} h => ?_⟩
  unfold sealedByAll
  repeat' first
    | with_reducible assumption
    | with_reducible refine State.each_keeps ?_ (fun _ _ _ => ?_)
    | with_reducible apply State.count_keeps

theorem bulkTestAct_keeps {a0 : ℕ} : Act.Keeps (bulkTestAct a0) := by
  refine ⟨fun {u s} h => ?_⟩
  unfold bulkTestAct
  repeat' first
    | with_reducible assumption
    | with_reducible refine (sealedByAll_keeps).run ?_
    | with_reducible apply State.setObj_keeps
    | with_reducible apply Keeps.ite1
    | (lift_lets; intro x; refine (fun (_ : Keeps u x) => ?_) ?_; on_goal 2 => unfold x; on_goal 1 => clear_value x)
    | (fail_if_no_progress with_reducible refine Keeps.mk_same ?_)

theorem bulkStopAct_keeps {a0 : ℕ} : Act.Keeps (bulkStopAct a0) := by
  refine ⟨fun {u s} h => ?_⟩
  unfold bulkStopAct
  refine Keeps.ite1 (sealedByAll_keeps.run h) (Keeps.ite1 h ?_)
  exact State.setObj_keeps (State.setObj_keeps (Keeps.mk_same (State.zeroChunks_keeps h)))

theorem State.bulkTestEnd_keeps {a1 : ℕ} {a2 : ℕ} {a3 : ℕ} (h : Keeps u s) : Keeps u (State.bulkTestEnd s a1 a2 a3) := by
  unfold State.bulkTestEnd
  repeat' first
    | with_reducible assumption
    | with_reducible apply State.zeroChunks_keeps
    | with_reducible apply State.count_keeps
    | with_reducible apply State.testDone_keeps
    | with_reducible apply State.setObj_keeps
    | with_reducible apply Keeps.ite

theorem selfTestAct_keeps {a0 : ℕ} : Act.Keeps (selfTestAct a0) := by
  refine ⟨fun {u s} h => ?_⟩
  unfold selfTestAct
  repeat' first
    | with_reducible assumption
    | with_reducible refine (sealedByAll_keeps).run ?_
    | with_reducible apply State.setObj_keeps
    | with_reducible apply State.wakeQuad_keeps
    | with_reducible apply Keeps.ite1

theorem State.selfTestEnd_keeps {a1 : ℕ} {a2 : TestResult} {a3 : ℕ} (h : Keeps u s) : Keeps u (State.selfTestEnd s a1 a2 a3) := by
  unfold State.selfTestEnd
  repeat' first
    | with_reducible assumption
    | with_reducible apply State.setObj_keeps
    | with_reducible apply State.zeroScratch_keeps
    | with_reducible apply State.testDone_keeps
    | with_reducible apply State.count_keeps
    | with_reducible apply Keeps.ite

end Sys2Proof.Machine
end

