-- ==== Sys2Proof/Laws/KeepsDict.lean ====
section
/-! SUPPORT. Every operation keeps the queue and the canonical tables: the job, security, the chain, PCIe, the dictionary. -/

namespace Sys2Proof.Machine

set_option linter.unusedTactic false
set_option linter.unreachableTactic false

variable {u s : State}

/-! ### Machine/Job.lean -/

theorem State.tellMembers_keeps {a1 : ℕ} {a2 : ℕ} (h : Keeps u s) : Keeps u (State.tellMembers s a1 a2) := by
  unfold State.tellMembers
  repeat' first
    | with_reducible assumption
    | with_reducible refine State.each_keeps ?_ (fun _ _ _ => ?_)
    | with_reducible apply State.emit_keeps

theorem State.setRole_keeps {a1 : ℕ} (h : Keeps u s) : Keeps u (State.setRole s a1) := by
  unfold State.setRole
  repeat' first
    | with_reducible assumption
    | with_reducible apply State.setObj_keeps
    | (lift_lets; intro x; refine (fun (_ : Keeps u x) => ?_) ?_; on_goal 2 => unfold x; on_goal 1 => clear_value x)
    | split
    | (fail_if_no_progress with_reducible refine Keeps.mk_same ?_)

theorem State.logOpen_keeps {a1 : ℕ} {a2 : ℕ} (h : Keeps u s) : Keeps u (State.logOpen s a1 a2) := by
  unfold State.logOpen
  repeat' first
    | with_reducible assumption
    | with_reducible apply State.logEvent_keeps
    | (fail_if_no_progress with_reducible refine Keeps.mk_same ?_)

theorem State.holdJob_keeps (h : Keeps u s) : Keeps u (State.holdJob s) := by
  unfold State.holdJob
  repeat' first
    | with_reducible assumption
    | with_reducible apply State.setObj_keeps
    | with_reducible apply State.enterHeld_keeps
    | with_reducible apply State.tellMembers_keeps
    | with_reducible apply Keeps.ite

theorem State.declareFailed_keeps {a1 : ℕ} (h : Keeps u s) : Keeps u (State.declareFailed s a1) := by
  unfold State.declareFailed
  repeat' first
    | with_reducible assumption
    | with_reducible apply State.holdJob_keeps
    | with_reducible apply Keeps.ite
    | (lift_lets; intro x)
    | split
    | (fail_if_no_progress with_reducible refine Keeps.mk_same ?_)

theorem State.heartbeat_keeps {a1 : ℕ} (h : Keeps u s) : Keeps u (State.heartbeat s a1) := by
  unfold State.heartbeat
  repeat' first
    | with_reducible assumption
    | with_reducible apply State.tellMembers_keeps
    | with_reducible apply State.tellLead_keeps
    | with_reducible apply Keeps.ite
    | (lift_lets; intro x)
    | (fail_if_no_progress with_reducible refine Keeps.mk_same ?_)

theorem State.heartbeatLoss_keeps {a1 : ℕ} (h : Keeps u s) : Keeps u (State.heartbeatLoss s a1) := by
  unfold State.heartbeatLoss
  repeat' first
    | with_reducible assumption
    | with_reducible apply State.declareFailed_keeps
    | with_reducible apply State.emit_keeps
    | with_reducible apply Keeps.ite
    | (intro x; refine (fun (_ : Keeps u x) => ?_) ?_; on_goal 2 => unfold x; on_goal 1 => clear_value x)
    | (lift_lets; intro x)
    | split
    | (fail_if_no_progress with_reducible refine Keeps.mk_same ?_)

theorem State.deputyTakeover_keeps {a1 : Bool} (h : Keeps u s) : Keeps u (State.deputyTakeover s a1) := by
  unfold State.deputyTakeover
  repeat' first
    | with_reducible assumption
    | with_reducible apply State.setObj_keeps
    | with_reducible apply State.setRole_keeps
    | with_reducible apply State.declareFailed_keeps
    | with_reducible apply State.tellMembers_keeps
    | with_reducible apply Keeps.ite
    | (lift_lets; intro x; refine (fun (_ : Keeps u x) => ?_) ?_; on_goal 2 => unfold x; on_goal 1 => clear_value x)
    | split

theorem State.failureReport_keeps {a1 : ℕ} {a2 : FailCause} (h : Keeps u s) : Keeps u (State.failureReport s a1 a2) := by
  unfold State.failureReport
  repeat' first
    | with_reducible assumption
    | with_reducible apply State.holdJob_keeps
    | with_reducible apply State.declareFailed_keeps
    | with_reducible apply Keeps.ite
    | split

theorem State.retireDevice_keeps (h : Keeps u s) : Keeps u (State.retireDevice s) := by
  unfold State.retireDevice
  repeat' first
    | with_reducible assumption
    | with_reducible apply State.dissolvePart_keeps
    | with_reducible refine State.each_keeps ?_ (fun _ _ _ => ?_)
    | with_reducible apply State.enterHeld_keeps
    | with_reducible apply State.logEvent_keeps
    | with_reducible apply State.setObj_keeps
    | with_reducible apply State.enterRest_keeps
    | with_reducible apply State.wipeAll_keeps
    | with_reducible apply Keeps.ite
    | (intro x; refine (fun (_ : Keeps u x) => ?_) ?_; on_goal 2 => unfold x; on_goal 1 => clear_value x)
    | (intro x)
    | (lift_lets; intro x)
    | (fail_if_no_progress with_reducible refine Keeps.mk_same ?_)

theorem State.lockstep_keeps {a1 : ℕ} {a2 : Bool} (h : Keeps u s) : Keeps u (State.lockstep s a1 a2) := by
  unfold State.lockstep
  repeat' first
    | with_reducible assumption
    | with_reducible apply State.logEvent_keeps
    | with_reducible apply State.advanceFirmware_keeps
    | with_reducible apply State.retireDevice_keeps
    | with_reducible apply Keeps.ite
    | (fail_if_no_progress with_reducible refine Keeps.mk_same ?_)

theorem State.judgeDigests_keeps (h : Keeps u s) : Keeps u (State.judgeDigests s) := by
  unfold State.judgeDigests
  repeat' first
    | with_reducible assumption
    | with_reducible apply State.holdJob_keeps
    | with_reducible refine State.each_keeps ?_ (fun _ _ _ => ?_)
    | with_reducible apply State.declareFailed_keeps
    | (intro x)
    | (lift_lets; intro x)
    | split

theorem State.keepDigest_keeps {a1 : ℕ} {a2 : Word} {a3 : BitVec 64} (h : Keeps u s) : Keeps u (State.keepDigest s a1 a2 a3) := by
  unfold State.keepDigest
  repeat' first
    | with_reducible assumption
    | with_reducible apply State.holdJob_keeps
    | with_reducible apply State.logOpen_keeps
    | with_reducible apply Keeps.ite
    | (lift_lets; intro x)
    | split
    | (fail_if_no_progress with_reducible refine Keeps.mk_same ?_)

theorem State.digestReport_keeps {a1 : ℕ} {a2 : Word} {a3 : BitVec 64} {a4 : BitVec 64} (h : Keeps u s) : Keeps u (State.digestReport s a1 a2 a3 a4) := by
  unfold State.digestReport
  repeat' first
    | with_reducible assumption
    | with_reducible apply State.keepDigest_keeps
    | with_reducible apply State.judgeDigests_keeps
    | with_reducible apply Keeps.ite
    | (lift_lets; intro x)
    | split
    | (fail_if_no_progress with_reducible refine Keeps.mk_same ?_)

theorem State.setWard_keeps {a1 : Bool} {a2 : CkSlot} (h : Keeps u s) : Keeps u (State.setWard s a1 a2) := by
  unfold State.setWard
  repeat' first
    | with_reducible assumption
    | with_reducible apply State.putBytes_keeps
    | with_reducible apply Keeps.ite
    | (lift_lets; intro x)
    | split
    | (fail_if_no_progress with_reducible refine Keeps.mk_same ?_)

theorem State.ckptBegin_keeps {a1 : Bool} {a2 : CkSlot} (h : Keeps u s) : Keeps u (State.ckptBegin s a1 a2) := by
  unfold State.ckptBegin
  repeat' first
    | with_reducible assumption
    | with_reducible apply State.emit_keeps
    | with_reducible apply State.setWard_keeps
    | with_reducible apply Keeps.ite

theorem State.ckptRecords_keeps {a1 : Bool} {a2 : ℕ} {a3 : List Byte} (h : Keeps u s) : Keeps u (State.ckptRecords s a1 a2 a3) := by
  unfold State.ckptRecords
  repeat' first
    | with_reducible assumption
    | with_reducible apply State.putBytes_keeps
    | with_reducible apply Keeps.ite
    | (intro x)
    | (lift_lets; intro x; refine (fun (_ : Keeps u x) => ?_) ?_; on_goal 2 => unfold x; on_goal 1 => clear_value x)
    | split
    | (fail_if_no_progress with_reducible refine Keeps.mk_same ?_)

theorem State.ckptEnd_keeps {a1 : Bool} {a2 : BitVec 64} (h : Keeps u s) : Keeps u (State.ckptEnd s a1 a2) := by
  unfold State.ckptEnd
  repeat' first
    | with_reducible assumption
    | with_reducible apply State.emit_keeps
    | with_reducible apply State.setWard_keeps
    | with_reducible apply Keeps.ite

theorem State.streamOut_keeps {a1 : ℕ} (h : Keeps u s) : Keeps u (State.streamOut s a1) := by
  unfold State.streamOut
  repeat' first
    | with_reducible assumption
    | with_reducible apply State.count_keeps
    | with_reducible apply State.emit_keeps
    | with_reducible apply State.countBulk_keeps
    | with_reducible apply State.setObj_keeps
    | with_reducible apply Keeps.ite
    | (lift_lets; intro x)
    | split
    | (fail_if_no_progress with_reducible refine Keeps.mk_same ?_)

theorem State.setCkptStep_keeps {a1 : Word} (h : Keeps u s) : Keeps u (State.setCkptStep s a1) := by
  unfold State.setCkptStep
  repeat' first
    | with_reducible assumption
    | with_reducible apply State.setObj_keeps
    | (lift_lets; intro x)
    | (fail_if_no_progress with_reducible refine Keeps.mk_same ?_)

theorem State.ckptComplete_keeps {a1 : ℕ} {a2 : Word} (h : Keeps u s) : Keeps u (State.ckptComplete s a1 a2) := by
  unfold State.ckptComplete
  repeat' first
    | with_reducible assumption
    | with_reducible apply State.tellLead_keeps
    | with_reducible apply State.setCkptStep_keeps
    | with_reducible apply State.tellMembers_keeps
    | with_reducible apply Keeps.ite
    | (intro x)
    | (lift_lets; intro x)
    | split
    | (fail_if_no_progress with_reducible refine Keeps.mk_same ?_)

theorem State.restoreEntry_keeps {a1 : ℕ} {a2 : ℕ} {a3 : UpdEntry} {a4 : (ℕ → ParamRec)} (h : Keeps u s) : Keeps u (State.restoreEntry s a1 a2 a3 a4) := by
  unfold State.restoreEntry
  repeat' first
    | with_reducible assumption
    | with_reducible apply State.putRec_keeps
    | with_reducible apply State.setPart_keeps
    | with_reducible apply State.beginRegion_keeps
    | with_reducible apply State.finishTile_keeps
    | exact id
    | exact Tab.foldl_set_wf _ _ _ _
    | with_reducible apply Keeps.ite
    | (intro x; refine (fun (_ : Keeps u x) => ?_) ?_; on_goal 2 => unfold x; on_goal 1 => clear_value x)
    | (intro x)
    | (lift_lets; intro x; refine (fun (_ : Keeps u x) => ?_) ?_; on_goal 2 => unfold x; on_goal 1 => clear_value x)
    | with_reducible refine Keeps.fold ?_ fun _ _ _ => ?_
    | (fail_if_no_progress with_reducible refine Keeps.mk_tabs ?_ ?_ ?_ ?_ ?_ ?_)

theorem State.restoreAll_keeps {a1 : ℕ} {a2 : List UpdEntry} {a3 : (ℕ → ℕ → ParamRec)} (h : Keeps u s) : Keeps u (State.restoreAll s a1 a2 a3) := by
  unfold State.restoreAll
  repeat' first
    | with_reducible assumption
    | with_reducible apply State.setPart_keeps
    | with_reducible apply State.setObj_keeps
    | with_reducible apply State.installPhase_keeps
    | with_reducible apply State.restoreEntry_keeps
    | (lift_lets; intro x)
    | with_reducible refine Keeps.fold ?_ fun _ _ _ => ?_

theorem State.refillHome_keeps {a1 : List UpdEntry} {a2 : (ℕ → ℕ → ParamRec)} {a3 : BitVec 64} (h : Keeps u s) : Keeps u (State.refillHome s a1 a2 a3) := by
  unfold State.refillHome
  repeat' first
    | with_reducible assumption
    | with_reducible apply State.putRec_keeps
    | with_reducible apply State.putBytes_keeps
    | with_reducible apply State.setHome_keeps
    | with_reducible refine Keeps.fold ?_ fun _ _ _ => ?_

theorem State.restoredOwn_keeps {a1 : Bool} (h : Keeps u s) : Keeps u (State.restoredOwn s a1) := by
  unfold State.restoredOwn
  repeat' first
    | with_reducible assumption
    | with_reducible apply State.tellLead_keeps
    | with_reducible apply Keeps.ite
    | (lift_lets; intro x)
    | split
    | (fail_if_no_progress with_reducible refine Keeps.mk_same ?_)

theorem State.restoreOwn_keeps {a1 : Bool} (h : Keeps u s) : Keeps u (State.restoreOwn s a1) := by
  unfold State.restoreOwn
  repeat' first
    | with_reducible assumption
    | with_reducible apply State.tellLead_keeps
    | with_reducible apply State.holdJob_keeps
    | with_reducible apply State.logOpen_keeps
    | with_reducible apply State.restoredOwn_keeps
    | with_reducible apply State.refillHome_keeps
    | with_reducible apply State.restoreAll_keeps
    | with_reducible apply Keeps.ite
    | (fail_if_no_progress with_reducible refine Keeps.mk_same ?_)

theorem State.dropFilling_keeps (h : Keeps u s) : Keeps u (State.dropFilling s) := by
  unfold State.dropFilling
  repeat' first
    | with_reducible assumption
    | with_reducible refine State.each_keeps ?_ (fun _ _ _ => ?_)
    | with_reducible apply State.setHome_keeps
    | with_reducible apply State.setWard_keeps
    | with_reducible apply Keeps.ite
    | (intro x; refine (fun (_ : Keeps u x) => ?_) ?_; on_goal 2 => unfold x; on_goal 1 => clear_value x)
    | (intro x)
    | (lift_lets; intro x; refine (fun (_ : Keeps u x) => ?_) ?_; on_goal 2 => unfold x; on_goal 1 => clear_value x)
    | (fail_if_no_progress with_reducible refine Keeps.mk_same ?_)

theorem State.beginRecovery_keeps (h : Keeps u s) : Keeps u (State.beginRecovery s) := by
  unfold State.beginRecovery
  repeat' first
    | with_reducible assumption
    | with_reducible apply State.dropFilling_keeps
    | with_reducible apply State.setObj_keeps
    | with_reducible apply State.enterHeld_keeps
    | with_reducible apply Keeps.ite
    | (intro x)
    | (lift_lets; intro x; refine (fun (_ : Keeps u x) => ?_) ?_; on_goal 2 => unfold x; on_goal 1 => clear_value x)
    | split
    | (fail_if_no_progress with_reducible refine Keeps.mk_same ?_)

theorem State.admitSpare_keeps {a1 : ℕ} (h : Keeps u s) : Keeps u (State.admitSpare s a1) := by
  unfold State.admitSpare
  repeat' first
    | with_reducible assumption
    | with_reducible apply State.tellMembers_keeps
    | with_reducible apply State.beginRecovery_keeps
    | with_reducible apply State.emit_keeps
    | with_reducible apply State.holdJob_keeps
    | with_reducible apply State.logOpen_keeps
    | with_reducible apply Keeps.ite
    | (lift_lets; intro x)
    | (fail_if_no_progress with_reducible refine Keeps.mk_same ?_)

theorem State.logTakeover_keeps {a1 : ℕ} {a2 : ℕ × ℕ} (h : Keeps u s) : Keeps u (State.logTakeover s a1 a2) := by
  unfold State.logTakeover
  repeat' first
    | with_reducible assumption
    | with_reducible apply State.logEvent_keeps

theorem State.finishTakeover_keeps (h : Keeps u s) : Keeps u (State.finishTakeover s) := by
  unfold State.finishTakeover
  repeat' first
    | with_reducible assumption
    | with_reducible refine State.each_keeps ?_ (fun _ _ _ => ?_)
    | with_reducible apply State.flip_keeps
    | with_reducible apply State.setPart_keeps
    | with_reducible apply State.setObj_keeps
    | with_reducible refine (startAct_keeps).run ?_
    | with_reducible refine (resumeAct_keeps).run ?_
    | with_reducible apply State.tellMembers_keeps
    | with_reducible apply State.logTakeover_keeps
    | with_reducible apply Keeps.ite
    | (intro x)
    | (lift_lets; intro x)
    | with_reducible refine Keeps.fold ?_ fun _ _ _ => ?_
    | (fail_if_no_progress with_reducible refine Keeps.mk_same ?_)

theorem State.spareTakeover_keeps {a1 : ℕ} (h : Keeps u s) : Keeps u (State.spareTakeover s a1) := by
  unfold State.spareTakeover
  repeat' first
    | with_reducible assumption
    | with_reducible apply State.setObj_keeps
    | with_reducible apply State.setRole_keeps
    | with_reducible apply State.finishTakeover_keeps
    | with_reducible apply State.admitSpare_keeps
    | with_reducible apply State.beginRecovery_keeps
    | with_reducible apply Keeps.ite
    | (lift_lets; intro x)
    | (fail_if_no_progress with_reducible refine Keeps.mk_same ?_)

/-! ### Machine/Security.lean -/

theorem State.spdmError_keeps {a1 : ℕ} (h : Keeps u s) : Keeps u (State.spdmError s a1) := by
  unfold State.spdmError
  repeat' first
    | with_reducible assumption
    | with_reducible apply State.emit_keeps

theorem State.spdmOk_keeps {a1 : ℕ} {a2 : List Byte} (h : Keeps u s) : Keeps u (State.spdmOk s a1 a2) := by
  unfold State.spdmOk
  repeat' first
    | with_reducible assumption
    | with_reducible apply State.emit_keeps

theorem State.bound_keeps {a1 : ℕ} {a2 : (ℕ → Option State)} (h : Keeps u s) (h2 : ∀ n, Keeps.Some (Keeps u) (a2 n)) : Keeps u (State.bound s a1 a2) := by
  unfold State.bound
  split
  · exact State.spdmError_keeps h
  · exact Keeps.getD (h2 _) (State.spdmError_keeps h)

theorem State.bindSession_keeps {a1 : ℕ} {a2 : ℕ} {a3 : BitVec 384} {a4 : Bool} (h : Keeps u s) : Keeps u (State.bindSession s a1 a2 a3 a4) := by
  unfold State.bindSession
  repeat' first
    | with_reducible assumption
    | with_reducible apply State.spdmOk_keeps
    | with_reducible apply State.setObj_keeps
    | with_reducible apply State.setPart_keeps
    | with_reducible apply State.spdmError_keeps
    | with_reducible apply Keeps.ite
    | (fail_if_no_progress with_reducible refine Keeps.mk_same ?_)

theorem State.loadSlot_keeps {a1 : ℕ} {a2 : ℕ} {a3 : ℕ} {a4 : Word} {a5 : BitVec 384} (h : Keeps u s) : Keeps u (State.loadSlot s a1 a2 a3 a4 a5) := by
  unfold State.loadSlot
  repeat' first
    | with_reducible assumption
    | with_reducible apply State.setObj_keeps
    | (fail_if_no_progress with_reducible refine Keeps.mk_same ?_)

theorem spdmAct_keeps {a0 : Master} {a1 : List Byte} : Act.Keeps (spdmAct a0 a1) := by
  refine ⟨fun {u s} h => ?_⟩
  unfold spdmAct
  repeat' first
    | with_reducible assumption
    | with_reducible apply Keeps.ite1
    | (lift_lets; intro x)
    | (fail_if_no_progress with_reducible refine Keeps.mk_same ?_)

theorem sealedAct_keeps {a0 : ℕ} {a1 : ℕ} : Act.Keeps (sealedAct a0 a1) := by
  refine ⟨fun {u s} h => ?_⟩
  unfold sealedAct
  refine Keeps.ite1 h ?_
  extract_lets key v y w z
  have hv : Keeps u v := Keeps.mk_same h
  have hw : Keeps u w := State.setPart_keeps hv
  have hz : Keeps u z := State.each_keeps hw fun _ _ g => Keeps.ite (State.zeroSpan_keeps (State.setObj_keeps g)) g
  exact State.setObj_keeps (State.setObj_keeps hz)

theorem pkgAct_keeps {a0 : ℕ} {a1 : ℕ} : Act.Keeps (pkgAct a0 a1) := by
  refine ⟨fun {u s} h => ?_⟩
  unfold pkgAct
  repeat' first
    | with_reducible assumption
    | with_reducible apply State.setObj_keeps
    | with_reducible apply State.setPart_keeps
    | with_reducible apply Keeps.ite1
    | (intro x; refine (fun (_ : Keeps u x) => ?_) ?_; on_goal 2 => unfold x; on_goal 1 => clear_value x)
    | (intro x)
    | (lift_lets; intro x)
    | split

theorem State.loadChunks_keeps {a1 : Pkg} {a2 : BitVec 256} {a3 : Tens} {a4 : ℕ} {a5 : List ℕ} (h : Keeps u s) : Keeps u (State.loadChunks s a1 a2 a3 a4 a5).1 := by
  induction a5 generalizing s with
  | nil =>
    unfold State.loadChunks
    repeat' first
      | with_reducible assumption
      | with_reducible apply State.count_keeps
      | with_reducible apply State.putBytes_keeps
      | with_reducible apply State.countBulk_keeps
      | (intro x; refine (fun (_ : Keeps u x) => ?_) ?_; on_goal 2 => unfold x; on_goal 1 => clear_value x)
      | (intro x; refine (fun (_ : Keeps u (Prod.fst x)) => ?_) ?_; on_goal 2 => unfold x; on_goal 1 => clear_value x)
      | (intro x; refine (fun (_ : Keeps u (Prod.snd x)) => ?_) ?_; on_goal 2 => unfold x; on_goal 1 => clear_value x)
      | (intro x)
      | (lift_lets; intro x; refine (fun (_ : Keeps u x) => ?_) ?_; on_goal 2 => unfold x; on_goal 1 => clear_value x)
      | (lift_lets; intro x; refine (fun (_ : Keeps u (Prod.fst x)) => ?_) ?_; on_goal 2 => unfold x; on_goal 1 => clear_value x)
      | (lift_lets; intro x; refine (fun (_ : Keeps u (Prod.snd x)) => ?_) ?_; on_goal 2 => unfold x; on_goal 1 => clear_value x)
      | (lift_lets; intro x)
      | (fail_if_no_progress with_reducible apply Keeps.pair1)
      | split
      | (fail_if_no_progress with_reducible refine Keeps.mk_same ?_)
      | (fail_if_no_progress dsimp +zetaDelta only)
  | cons b r ih =>
    unfold State.loadChunks
    repeat' first
      | with_reducible assumption
      | with_reducible apply ih
      | with_reducible apply State.count_keeps
      | with_reducible apply State.putBytes_keeps
      | with_reducible apply State.countBulk_keeps
      | (intro x; refine (fun (_ : Keeps u x) => ?_) ?_; on_goal 2 => unfold x; on_goal 1 => clear_value x)
      | (intro x; refine (fun (_ : Keeps u (Prod.fst x)) => ?_) ?_; on_goal 2 => unfold x; on_goal 1 => clear_value x)
      | (intro x; refine (fun (_ : Keeps u (Prod.snd x)) => ?_) ?_; on_goal 2 => unfold x; on_goal 1 => clear_value x)
      | (intro x)
      | (lift_lets; intro x; refine (fun (_ : Keeps u x) => ?_) ?_; on_goal 2 => unfold x; on_goal 1 => clear_value x)
      | (lift_lets; intro x; refine (fun (_ : Keeps u (Prod.fst x)) => ?_) ?_; on_goal 2 => unfold x; on_goal 1 => clear_value x)
      | (lift_lets; intro x; refine (fun (_ : Keeps u (Prod.snd x)) => ?_) ?_; on_goal 2 => unfold x; on_goal 1 => clear_value x)
      | (lift_lets; intro x)
      | (fail_if_no_progress with_reducible apply Keeps.pair1)
      | split
      | (fail_if_no_progress with_reducible refine Keeps.mk_same ?_)
      | (fail_if_no_progress dsimp +zetaDelta only)

theorem State.loadTensors_keeps {a1 : ℕ} {a2 : Pkg} {a3 : BitVec 256} {a4 : PkgRun} {a5 : List (ℕ × ℕ × Bool)} (h : Keeps u s) : Keeps u (State.loadTensors s a1 a2 a3 a4 a5).1 := by
  induction a5 generalizing s a4 with
  | nil => exact h
  | cons b r ih =>
    unfold State.loadTensors
    split
    · exact h
    split
    · exact h
    extract_lets run
    split
    · next v c q => exact Keeps.of_pair q (State.loadChunks_keeps h)
    · next v q => exact ih (Keeps.of_pair q (State.loadChunks_keeps h))

theorem pkgLoadAct_keeps : Act.Keeps (pkgLoadAct) := by
  refine ⟨fun {u s} h => ?_⟩
  unfold pkgLoadAct
  repeat' first
    | with_reducible assumption
    | with_reducible apply State.setObj_keeps
    | with_reducible apply State.loadTensors_keeps
    | with_reducible apply Keeps.ite1
    | (intro x; refine (fun (_ : Keeps u x) => ?_) ?_; on_goal 2 => unfold x; on_goal 1 => clear_value x)
    | (lift_lets; intro x; refine (fun (_ : Keeps u (Prod.fst x)) => ?_) ?_; on_goal 2 => unfold x; on_goal 1 => clear_value x)
    | split
    | (fail_if_no_progress with_reducible refine Keeps.mk_same ?_)

theorem State.exportReads_keeps {a1 : ℕ} {a2 : Pkg} (h : Keeps u s) : Keeps u (State.exportReads s a1 a2) := by
  unfold State.exportReads
  refine Keeps.fold h fun w x hw => ?_
  split
  · exact hw
  · split
    · exact hw
    · exact State.countBulk_keeps hw

theorem pkgExportAct_keeps : Act.Keeps (pkgExportAct) := by
  refine ⟨fun {u s} h => ?_⟩
  unfold pkgExportAct
  extract_lets p v run k fail wk x
  have hv : Keeps u v := State.setObj_keeps h
  have hf : ∀ w r, Keeps u w → Keeps u (fail w r).1 := fun w r g => Keeps.mk_same g
  refine Keeps.ite1 h (Keeps.ite1 (hf _ _ hv) ?_)
  split
  · exact hf _ _ hv
  · extract_lets bs n y
    have hx : Keeps u x := Keeps.mk_same hv
    split
    · exact hf _ _ hx
    · exact Keeps.ite1 (hf _ _ hx) (Keeps.mk_same (State.count_keeps (State.putBytes_keeps (State.exportReads_keeps hx))))

theorem State.pkgDone_keeps (h : Keeps u s) : Keeps u (State.pkgDone s) := by
  unfold State.pkgDone
  repeat' first
    | with_reducible assumption
    | with_reducible refine State.each_keeps ?_ (fun _ _ _ => ?_)
    | with_reducible apply State.flip_keeps
    | with_reducible apply State.logEvent_keeps
    | with_reducible apply State.putBytes_keeps
    | with_reducible apply State.setObj_keeps
    | with_reducible apply Keeps.ite
    | (lift_lets; intro x; refine (fun (_ : Keeps u x) => ?_) ?_; on_goal 2 => unfold x; on_goal 1 => clear_value x)
    | with_reducible refine Keeps.fold ?_ fun _ _ _ => ?_
    | split
    | (fail_if_no_progress with_reducible refine Keeps.mk_same ?_)

theorem slotLoadAct_keeps {a0 : ℕ} : Act.Keeps (slotLoadAct a0) := by
  refine ⟨fun {u s} h => ?_⟩
  unfold slotLoadAct
  repeat' first
    | with_reducible assumption
    | with_reducible refine (sealedBy_keeps).run ?_
    | with_reducible apply State.loadSlot_keeps
    | with_reducible apply Keeps.ite1

theorem slotRevokeAct_keeps {a0 : ℕ} : Act.Keeps (slotRevokeAct a0) := by
  refine ⟨fun {u s} h => ?_⟩
  unfold slotRevokeAct
  repeat' first
    | with_reducible assumption
    | with_reducible refine (sealedBy_keeps).run ?_
    | with_reducible apply State.clearKeySlot_keeps
    | with_reducible apply Keeps.ite1

/-! ### Machine/Chain.lean -/

theorem State.chainEvent_keeps {a1 : ℕ} {a2 : ℕ} (h : Keeps u s) : Keeps u (State.chainEvent s a1 a2) := by
  unfold State.chainEvent
  repeat' first
    | with_reducible assumption
    | with_reducible apply State.logEvent_keeps

theorem State.decidePolarity_keeps {a1 : Bool} (h : Keeps u s) : Keeps u (State.decidePolarity s a1) := by
  unfold State.decidePolarity
  repeat' first
    | with_reducible assumption
    | with_reducible apply State.chainEvent_keeps
    | with_reducible apply State.setObj_keeps
    | with_reducible apply Keeps.ite

theorem State.takeSlot_keeps {a1 : ℕ} {a2 : ℕ} (h : Keeps u s) : Keeps u (State.takeSlot s a1 a2) := by
  unfold State.takeSlot
  repeat' first
    | with_reducible assumption
    | with_reducible apply State.setObj_keeps

theorem State.assignFrame_keeps {a1 : ℕ} {a2 : ℕ} {a3 : ℕ} {a4 : Bool} {a5 : Bool} (h : Keeps u s) : Keeps u (State.assignFrame s a1 a2 a3 a4 a5) := by
  unfold State.assignFrame
  repeat' first
    | with_reducible assumption
    | with_reducible apply State.setObj_keeps
    | with_reducible apply State.decidePolarity_keeps
    | with_reducible apply State.chainHeard_keeps
    | with_reducible apply State.emit_keeps
    | with_reducible apply State.takeSlot_keeps
    | with_reducible apply Keeps.ite
    | (intro x; refine (fun (_ : Keeps u x) => ?_) ?_; on_goal 2 => unfold x; on_goal 1 => clear_value x)
    | (intro x)
    | (lift_lets; intro x)
    | (fail_if_no_progress with_reducible refine Keeps.mk_same ?_)

theorem State.rateFrame_keeps {a1 : ℕ} {a2 : Bool} {a3 : Bool} (h : Keeps u s) : Keeps u (State.rateFrame s a1 a2 a3) := by
  unfold State.rateFrame
  repeat' first
    | with_reducible assumption
    | with_reducible apply State.decidePolarity_keeps
    | with_reducible apply State.chainHeard_keeps
    | with_reducible apply Keeps.ite
    | (lift_lets; intro x)
    | (fail_if_no_progress with_reducible refine Keeps.mk_same ?_)

theorem State.breakSeen_keeps {a1 : ℕ} (h : Keeps u s) : Keeps u (State.breakSeen s a1) := by
  unfold State.breakSeen
  repeat' first
    | with_reducible assumption
    | with_reducible apply State.setObj_keeps
    | with_reducible apply State.chainEvent_keeps
    | with_reducible apply Keeps.ite
    | (lift_lets; intro x)
    | (fail_if_no_progress with_reducible refine Keeps.mk_same ?_)

theorem State.fallBack_keeps {a1 : ℕ} {a2 : ℕ} (h : Keeps u s) : Keeps u (State.fallBack s a1 a2) := by
  unfold State.fallBack
  repeat' first
    | with_reducible assumption
    | with_reducible apply State.advanceEpoch_keeps
    | with_reducible apply State.chainEvent_keeps
    | with_reducible apply State.setObj_keeps
    | (lift_lets; intro x)
    | (fail_if_no_progress with_reducible refine Keeps.mk_same ?_)

theorem State.stuckSeen_keeps {a1 : ℕ} (h : Keeps u s) : Keeps u (State.stuckSeen s a1) := by
  unfold State.stuckSeen
  repeat' first
    | with_reducible assumption
    | with_reducible apply State.fallBack_keeps
    | with_reducible apply State.chainEvent_keeps
    | with_reducible apply Keeps.ite

theorem State.shortSeen_keeps {a1 : ℕ} (h : Keeps u s) : Keeps u (State.shortSeen s a1) := by
  unfold State.shortSeen
  repeat' first
    | with_reducible assumption
    | with_reducible apply State.fallBack_keeps
    | with_reducible apply Keeps.ite
    | (intro x)
    | (lift_lets; intro x; refine (fun (_ : Keeps u x) => ?_) ?_; on_goal 2 => unfold x; on_goal 1 => clear_value x)
    | (fail_if_no_progress with_reducible refine Keeps.mk_same ?_)

theorem State.retryChain_keeps {a1 : Bool} (h : Keeps u s) : Keeps u (State.retryChain s a1) := by
  unfold State.retryChain
  repeat' first
    | with_reducible assumption
    | with_reducible apply State.chainEvent_keeps
    | with_reducible apply State.count_keeps
    | with_reducible apply Keeps.ite
    | (lift_lets; intro x)
    | (fail_if_no_progress with_reducible refine Keeps.mk_same ?_)

theorem State.restoreChain_keeps {a1 : ℕ} (h : Keeps u s) : Keeps u (State.restoreChain s a1) := by
  unfold State.restoreChain
  repeat' first
    | with_reducible assumption
    | with_reducible apply State.chainHeard_keeps
    | with_reducible apply State.chainEvent_keeps
    | with_reducible apply State.setObj_keeps
    | with_reducible apply Keeps.ite
    | (lift_lets; intro x)
    | (fail_if_no_progress with_reducible refine Keeps.mk_same ?_)

theorem State.silentChain_keeps {a1 : ℕ} (h : Keeps u s) : Keeps u (State.silentChain s a1) := by
  unfold State.silentChain
  repeat' first
    | with_reducible assumption
    | with_reducible apply State.chainEvent_keeps
    | with_reducible apply Keeps.ite
    | (lift_lets; intro x)
    | (fail_if_no_progress with_reducible refine Keeps.mk_same ?_)

theorem acquireAct_keeps {a0 : ℕ} {a1 : ℕ} : Act.Keeps (acquireAct a0 a1) := by
  refine ⟨fun {u s} h => ?_⟩
  unfold acquireAct
  repeat' first
    | with_reducible assumption
    | with_reducible apply State.setObj_keeps
    | (lift_lets; intro x)
    | split

theorem releaseAct_keeps {a0 : ℕ} {a1 : ℕ} : Act.Keeps (releaseAct a0 a1) := by
  refine ⟨fun {u s} h => ?_⟩
  unfold releaseAct
  repeat' first
    | with_reducible assumption
    | with_reducible apply State.setObj_keeps
    | with_reducible apply Keeps.ite1

theorem repairedAct_keeps {a0 : ℕ} {a1 : ℕ} : Act.Keeps (repairedAct a0 a1) := by
  refine ⟨fun {u s} h => ?_⟩
  unfold repairedAct
  repeat' first
    | with_reducible assumption
    | with_reducible apply State.setObj_keeps
    | with_reducible apply Keeps.ite1

theorem lockAct_keeps {a0 : ℕ} {a1 : ℕ} {a2 : ℕ} : Act.Keeps (lockAct a0 a1 a2) := by
  refine ⟨fun {u s} h => ?_⟩
  unfold lockAct
  repeat' first
    | with_reducible assumption
    | with_reducible refine (acquireAct_keeps).run ?_
    | with_reducible refine (releaseAct_keeps).run ?_
    | with_reducible refine (repairedAct_keeps).run ?_
    | with_reducible refine (refuse_keeps).run ?_
    | split

/-! ### Machine/Pcie.lean -/

theorem State.winCount_keeps {a1 : WinSee} {a2 : ℕ} (h : Keeps u s) : Keeps u (State.winCount s a1 a2) := by
  unfold State.winCount
  repeat' first
    | with_reducible assumption
    | with_reducible apply State.logEvent_keeps
    | with_reducible apply State.logOpen_keeps
    | with_reducible apply Keeps.ite
    | (fail_if_no_progress with_reducible refine Keeps.mk_same ?_)

theorem State.winReadOne_keeps {a1 : ℕ} {a2 : ℕ} (h : Keeps u s) : Keeps u (State.winReadOne s a1 a2).1 := by
  unfold State.winReadOne
  repeat' first
    | with_reducible assumption
    | with_reducible apply State.countBulk_keeps
    | with_reducible apply State.touch_keeps
    | with_reducible apply State.count_keeps
    | with_reducible apply State.winCount_keeps
    | (lift_lets; intro x; refine (fun (_ : Keeps u x) => ?_) ?_; on_goal 2 => unfold x; on_goal 1 => clear_value x)
    | split
    | (fail_if_no_progress with_reducible refine Keeps.mk_same ?_)

theorem State.winRead_keeps {a1 : ℕ} {a2 : ℕ} (h : Keeps u s) : Keeps u (State.winRead s a1 a2) := by
  unfold State.winRead
  repeat' first
    | with_reducible assumption
    | with_reducible apply State.winReadOne_keeps
    | with_reducible apply State.emit_keeps
    | with_reducible apply Keeps.ite
    | with_reducible refine Keeps.fold1 ?_ fun _ _ _ => ?_

theorem State.winWriteOne_keeps {a1 : ℕ} {a2 : List Byte} (h : Keeps u s) : Keeps u (State.winWriteOne s a1 a2) := by
  unfold State.winWriteOne
  repeat' first
    | with_reducible assumption
    | with_reducible apply State.winCount_keeps
    | with_reducible apply State.writeAt_keeps
    | with_reducible apply State.count_keeps
    | with_reducible apply Keeps.ite
    | split

theorem State.winWrite_keeps {a1 : ℕ} {a2 : List Byte} (h : Keeps u s) : Keeps u (State.winWrite s a1 a2) := by
  unfold State.winWrite
  repeat' first
    | with_reducible assumption
    | with_reducible apply State.winWriteOne_keeps
    | with_reducible apply Keeps.ite
    | with_reducible refine Keeps.fold ?_ fun _ _ _ => ?_

theorem State.mbGo_keeps (h : Keeps u s) : Keeps u (State.mbGo s) := by
  unfold State.mbGo
  repeat' first
    | with_reducible assumption
    | with_reducible apply Keeps.ite
    | split
    | (fail_if_no_progress with_reducible refine Keeps.mk_same ?_)

theorem State.mbFinish_keeps {a1 : MbState} {a2 : DictResp} (h : Keeps u s) : Keeps u (State.mbFinish s a1 a2) := by
  unfold State.mbFinish
  repeat' first
    | with_reducible assumption
    | with_reducible apply State.emit_keeps
    | with_reducible apply Keeps.ite
    | (fail_if_no_progress with_reducible refine Keeps.mk_same ?_)

theorem State.writeMbReq_keeps {a1 : ℕ} {a2 : List Byte} (h : Keeps u s) : Keeps u (State.writeMbReq s a1 a2) := by
  unfold State.writeMbReq
  repeat' first
    | with_reducible assumption
    | with_reducible apply Keeps.ite
    | (fail_if_no_progress with_reducible refine Keeps.mk_same ?_)

theorem State.writeMbCtrl_keeps {a1 : ℕ} {a2 : List Byte} (h : Keeps u s) : Keeps u (State.writeMbCtrl s a1 a2) := by
  unfold State.writeMbCtrl
  repeat' first
    | with_reducible assumption
    | with_reducible apply State.mbGo_keeps
    | with_reducible apply Keeps.ite
    | split
    | (fail_if_no_progress with_reducible refine Keeps.mk_same ?_)

theorem State.writeWinBase_keeps {a1 : ℕ} {a2 : List Byte} (h : Keeps u s) : Keeps u (State.writeWinBase s a1 a2) := by
  unfold State.writeWinBase
  repeat' first
    | with_reducible assumption
    | with_reducible apply Keeps.ite
    | (fail_if_no_progress with_reducible refine Keeps.mk_same ?_)

theorem State.writeBar2_keeps {a1 : ℕ} {a2 : List Byte} (h : Keeps u s) : Keeps u (State.writeBar2 s a1 a2) := by
  unfold State.writeBar2
  repeat' first
    | with_reducible assumption
    | with_reducible apply State.writeMbCtrl_keeps
    | with_reducible apply State.writeWinBase_keeps
    | with_reducible apply State.writeMbReq_keeps
    | with_reducible apply Keeps.ite

theorem State.pcieDown_keeps {a1 : PcieCause} (h : Keeps u s) : Keeps u (State.pcieDown s a1) := by
  unfold State.pcieDown
  repeat' first
    | with_reducible assumption
    | with_reducible apply State.mbFinish_keeps
    | with_reducible apply State.advanceEpoch_keeps
    | with_reducible apply State.logEvent_keeps
    | with_reducible apply Keeps.ite
    | split
    | (fail_if_no_progress with_reducible refine Keeps.mk_same ?_)

theorem State.pcieUp_keeps {a1 : ℕ} {a2 : ℕ} (h : Keeps u s) : Keeps u (State.pcieUp s a1 a2) := by
  unfold State.pcieUp
  repeat' first
    | with_reducible assumption
    | with_reducible apply State.setObj_keeps
    | with_reducible apply State.count_keeps
    | with_reducible apply Keeps.ite
    | (fail_if_no_progress with_reducible refine Keeps.mk_same ?_)

theorem State.hostAccess_keeps {a1 : ℕ} {a2 : ℕ} {a3 : Option (List Byte)} {a4 : ℕ} (h : Keeps u s) : Keeps u (State.hostAccess s a1 a2 a3 a4) := by
  unfold State.hostAccess
  repeat' first
    | with_reducible assumption
    | with_reducible apply State.count_keeps
    | with_reducible apply State.hostPut_keeps
    | with_reducible apply State.hostGet_keeps
    | with_reducible apply Keeps.ite
    | split

/-! ### Machine/Dict.lean -/

theorem State.setCursor_keeps {a1 : ℕ} {a2 : Bool} {a3 : ℕ} (h : Keeps u s) : Keeps u (State.setCursor s a1 a2 a3) := by
  unfold State.setCursor
  repeat' first
    | with_reducible assumption
    | split
    | (fail_if_no_progress with_reducible refine Keeps.mk_same ?_)

theorem State.logTaken_keeps {a1 : ℕ} {a2 : Bool} (h : Keeps u s) : Keeps u (State.logTaken s a1 a2) := by
  unfold State.logTaken
  repeat' first
    | with_reducible assumption
    | with_reducible apply State.setCursor_keeps
    | split

theorem State.readStop_keeps {a1 : ℕ} {a2 : ℕ} {a3 : Access} (h : Keeps u s) : Keeps.Some (fun p => Keeps u p.1) (State.readStop s a1 a2 a3) := by
  unfold State.readStop
  repeat' first
    | with_reducible assumption
    | with_reducible refine (sealedByAll_keeps).run ?_
    | with_reducible apply Keeps.some_ite
    | with_reducible apply Keeps.some_some
    | with_reducible apply Keeps.some_none

theorem State.readTaken_keeps {a1 : Master} {a2 : ℕ} {a3 : ℕ} {a4 : Access} (h : Keeps u s) : Keeps u (State.readTaken s a1 a2 a3 a4) := by
  unfold State.readTaken
  repeat' first
    | with_reducible assumption
    | with_reducible apply State.setObj_keeps
    | with_reducible apply State.logTaken_keeps
    | with_reducible apply Keeps.ite
    | (fail_if_no_progress with_reducible refine Keeps.mk_same ?_)

theorem State.setSnap_keeps {a1 : Master} {a2 : Option Snapshot} (h : Keeps u s) : Keeps u (State.setSnap s a1 a2) := by
  unfold State.setSnap
  repeat' first
    | with_reducible assumption
    | (fail_if_no_progress with_reducible refine Keeps.mk_same ?_)

theorem State.readHalf_keeps {a1 : Master} {a2 : ℕ} {a3 : ℕ} {a4 : Access} {a5 : Bool} (h : Keeps u s) : Keeps u (State.readHalf s a1 a2 a3 a4 a5).1 := by
  unfold State.readHalf
  extract_lets y key rest v
  split
  · split
    · exact Keeps.mk_same h
    · exact h
  · exact State.readTaken_keeps (Keeps.mk_same h)

theorem State.readShort_keeps {a1 : Master} {a2 : ℕ} {a3 : ℕ} {a4 : ObjType} {a5 : Access} {a6 : ℕ} {a7 : ℕ} (h : Keeps u s) : Keeps u (State.readShort s a1 a2 a3 a4 a5 a6 a7).1 := by
  unfold State.readShort
  repeat' first
    | with_reducible assumption
    | with_reducible apply State.readHalf_keeps
    | with_reducible apply State.readTaken_keeps
    | with_reducible apply Keeps.ite1

theorem State.readLong_keeps {a1 : Master} {a2 : ℕ} {a3 : ℕ} {a4 : ℕ} {a5 : Access} {a6 : ℕ} {a7 : ℕ} (h : Keeps u s) : Keeps u (State.readLong s a1 a2 a3 a4 a5 a6 a7).1 := by
  unfold State.readLong
  extract_lets held v
  have hv : Keeps u v := Keeps.ite (State.readTaken_keeps h) h
  clear_value held v
  split
  · exact h
  · exact Keeps.ite1 h (State.setSnap_keeps hv)

theorem State.readObj_keeps {a1 : Master} {a2 : ℕ} {a3 : ℕ} {a4 : ℕ} {a5 : ℕ} (h : Keeps u s) : Keeps u (State.readObj s a1 a2 a3 a4 a5).1 := by
  unfold State.readObj
  extract_lets v
  have hv : Keeps u v := Keeps.ite (State.setSnap_keeps h) h
  clear_value v
  split
  · exact hv
  split
  · next r q => exact (State.readStop_keeps (a1 := a2) (a2 := a3) hv).get r q
  · exact Keeps.ite1 (State.readShort_keeps hv) (State.readLong_keeps hv)

theorem putAct_keeps {a0 : ℕ} {a1 : ℕ} {a2 : ℕ} : Act.Keeps (putAct a0 a1 a2) := by
  refine ⟨fun {u s} h => ?_⟩
  unfold putAct
  repeat' first
    | with_reducible assumption
    | with_reducible apply State.setObj_keeps

theorem putWhen_keeps {a0 : (State → Bool)} {a1 : ℕ} {a2 : ℕ} {a3 : ℕ} : Act.Keeps (putWhen a0 a1 a2 a3) := by
  refine ⟨fun {u s} h => ?_⟩
  unfold putWhen
  repeat' first
    | with_reducible assumption
    | with_reducible apply State.setObj_keeps
    | with_reducible apply Keeps.ite1

theorem putIn_keeps {a0 : (State → Bool)} {a1 : Bool} {a2 : ℕ} {a3 : ℕ} {a4 : ℕ} : Act.Keeps (putIn a0 a1 a2 a3 a4) := by
  refine ⟨fun {u s} h => ?_⟩
  unfold putIn
  repeat' first
    | with_reducible assumption
    | with_reducible apply State.setObj_keeps
    | with_reducible apply Keeps.ite1

theorem withFreeBit_keeps {a0 : (Bool → Act)} (h0 : ∀ b, Act.Keeps (a0 b)) : Act.Keeps (withFreeBit a0) := ⟨fun h => (h0 _).run (Keeps.mk_same h)⟩

theorem slotWriteAct_keeps {a0 : Master} {a1 : ℕ} {a2 : ℕ} : Act.Keeps (slotWriteAct a0 a1 a2) := by
  refine ⟨fun {u s} h => ?_⟩
  unfold slotWriteAct
  repeat' first
    | with_reducible assumption
    | with_reducible apply State.setObj_keeps
    | with_reducible apply State.takeSlot_keeps
    | with_reducible apply Keeps.ite1
    | (intro x)
    | (lift_lets; intro x; refine (fun (_ : Keeps u x) => ?_) ?_; on_goal 2 => unfold x; on_goal 1 => clear_value x)
    | (fail_if_no_progress with_reducible refine Keeps.mk_same ?_)

theorem commAct_keeps {a0 : Master} {a1 : ℕ} {a2 : ℕ} {a3 : ℕ} : Act.Keeps (commAct a0 a1 a2 a3) := by
  refine ⟨fun {u s} h => ?_⟩
  unfold commAct
  repeat' first
    | with_reducible assumption
    | with_reducible refine (slotWriteAct_keeps).run ?_
    | with_reducible refine (putIn_keeps).run ?_
    | with_reducible refine (networkAct_keeps).run ?_
    | with_reducible refine (lockAct_keeps).run ?_
    | with_reducible refine (putAct_keeps).run ?_
    | split

theorem slotFieldAct_keeps {a0 : ℕ} {a1 : ℕ} {a2 : ℕ} : Act.Keeps (slotFieldAct a0 a1 a2) := by
  refine ⟨fun {u s} h => ?_⟩
  unfold slotFieldAct
  repeat' first
    | with_reducible assumption
    | with_reducible refine (sealedBy_keeps).run ?_
    | with_reducible apply State.setObj_keeps
    | with_reducible apply Keeps.ite1

theorem secAct_keeps {a0 : Master} {a1 : ℕ} {a2 : ℕ} {a3 : ℕ} {a4 : List Byte} : Act.Keeps (secAct a0 a1 a2 a3 a4) := by
  refine ⟨fun {u s} h => ?_⟩
  unfold secAct
  repeat' first
    | with_reducible assumption
    | with_reducible refine (withFreeBit_keeps ?_).run ?_
    | with_reducible apply requestAct_keeps
    | with_reducible refine (commitAct_keeps).run ?_
    | with_reducible refine (sealedAct_keeps).run ?_
    | with_reducible refine (pkgAct_keeps).run ?_
    | with_reducible refine (pkgLoadAct_keeps).run ?_
    | with_reducible refine (pkgExportAct_keeps).run ?_
    | with_reducible refine (refuse_keeps).run ?_
    | with_reducible refine (slotLoadAct_keeps).run ?_
    | with_reducible refine (slotRevokeAct_keeps).run ?_
    | with_reducible refine (slotFieldAct_keeps).run ?_
    | with_reducible refine (spdmAct_keeps).run ?_
    | with_reducible refine (putAct_keeps).run ?_
    | split

theorem powerAct_keeps {a0 : Master} {a1 : ℕ} {a2 : ℕ} {a3 : ℕ} : Act.Keeps (powerAct a0 a1 a2 a3) := by
  refine ⟨fun {u s} h => ?_⟩
  unfold powerAct
  repeat' first
    | with_reducible assumption
    | with_reducible refine (targetAct_keeps).run ?_
    | with_reducible apply State.setObj_keeps
    | with_reducible apply State.settleLimits_keeps
    | with_reducible refine (pointAct_keeps).run ?_
    | with_reducible apply State.setFans_keeps
    | with_reducible refine (shareAct_keeps).run ?_
    | with_reducible refine (withFreeBit_keeps ?_).run ?_
    | with_reducible apply calCommitAct_keeps
    | with_reducible refine (refuse_keeps).run ?_
    | with_reducible apply State.setCursor_keeps
    | with_reducible refine (putAct_keeps).run ?_
    | with_reducible apply Keeps.ite1
    | split

theorem partControl_keeps {a0 : ℕ} {a1 : ℕ} : Act.Keeps (partControl a0 a1) := by
  refine ⟨fun {u s} h => ?_⟩
  unfold partControl
  repeat' first
    | with_reducible assumption
    | with_reducible refine (loadAct_keeps).run ?_
    | with_reducible refine (startAct_keeps).run ?_
    | with_reducible refine (stopAct_keeps).run ?_
    | with_reducible refine (abortAct_keeps).run ?_
    | with_reducible refine (resumeAct_keeps).run ?_
    | with_reducible refine (dissolveAct_keeps).run ?_
    | with_reducible refine (refuse_keeps).run ?_
    | split

theorem coreAct_keeps {a0 : ℕ} {a1 : ℕ} {a2 : ℕ} : Act.Keeps (coreAct a0 a1 a2) := by
  refine ⟨fun {u s} h => ?_⟩
  unfold coreAct
  repeat' first
    | with_reducible assumption
    | with_reducible refine (returnAct_keeps).run ?_
    | with_reducible refine (putIn_keeps).run ?_
    | with_reducible refine (qmaskAct_keeps).run ?_
    | with_reducible refine (putWhen_keeps).run ?_
    | with_reducible refine (partControl_keeps).run ?_
    | with_reducible refine (putAct_keeps).run ?_
    | (lift_lets; intro x)
    | split

theorem memAct_keeps {a0 : ℕ} {a1 : ℕ} {a2 : ℕ} : Act.Keeps (memAct a0 a1 a2) := by
  refine ⟨fun {u s} h => ?_⟩
  unfold memAct
  repeat' first
    | with_reducible assumption
    | with_reducible refine (slabMapAct_keeps).run ?_
    | with_reducible refine (regionAct_keeps).run ?_
    | with_reducible apply State.setRole_keeps
    | with_reducible refine (putWhen_keeps).run ?_
    | with_reducible refine (putAct_keeps).run ?_
    | with_reducible apply Keeps.ite1
    | split

theorem portAct_keeps {a0 : ℕ} {a1 : ℕ} {a2 : ℕ} : Act.Keeps (portAct a0 a1 a2) := by
  refine ⟨fun {u s} h => ?_⟩
  unfold portAct
  repeat' first
    | with_reducible assumption
    | with_reducible refine (portEnableAct_keeps).run ?_
    | with_reducible refine (putWhen_keeps).run ?_
    | with_reducible refine (putIn_keeps).run ?_
    | with_reducible refine (configTimeAct_keeps).run ?_
    | with_reducible refine (putAct_keeps).run ?_
    | with_reducible refine (serviceAct_keeps).run ?_
    | with_reducible refine (clockStepAct_keeps).run ?_
    | with_reducible apply State.strEnable_keeps
    | with_reducible apply State.setObj_keeps
    | with_reducible apply State.closeOpen_keeps
    | with_reducible apply Keeps.ite1
    | (lift_lets; intro x)
    | split

theorem boreAct_keeps {a0 : ℕ} {a1 : ℕ} {a2 : ℕ} : Act.Keeps (boreAct a0 a1 a2) := by
  refine ⟨fun {u s} h => ?_⟩
  unfold boreAct
  repeat' first
    | with_reducible assumption
    | with_reducible refine (putIn_keeps).run ?_
    | with_reducible refine (putWhen_keeps).run ?_
    | with_reducible apply State.writeConn_keeps
    | with_reducible apply State.connControl_keeps
    | with_reducible apply State.writeKey_keeps
    | with_reducible apply State.keyControl_keeps
    | with_reducible refine (putAct_keeps).run ?_
    | with_reducible apply Keeps.ite1
    | (lift_lets; intro x)
    | split

theorem recoveryFieldAct_keeps {a0 : ℕ} {a1 : ℕ} : Act.Keeps (recoveryFieldAct a0 a1) := by
  refine ⟨fun {u s} h => ?_⟩
  unfold recoveryFieldAct
  repeat' first
    | with_reducible assumption
    | with_reducible apply State.setObj_keeps
    | with_reducible apply Keeps.ite1

theorem testAct_keeps {a0 : ℕ} {a1 : ℕ} {a2 : ℕ} {a3 : List Byte} : Act.Keeps (testAct a0 a1 a2 a3) := by
  refine ⟨fun {u s} h => ?_⟩
  unfold testAct
  repeat' first
    | with_reducible assumption
    | with_reducible refine (laneTestAct_keeps).run ?_
    | with_reducible refine (putAct_keeps).run ?_
    | with_reducible refine (bulkTestAct_keeps).run ?_
    | with_reducible refine (bulkStopAct_keeps).run ?_
    | with_reducible refine (refuse_keeps).run ?_
    | with_reducible refine (sealedByAll_keeps).run ?_
    | with_reducible apply State.setObj_keeps
    | with_reducible refine (selfTestAct_keeps).run ?_
    | with_reducible refine (withFreeBit_keeps ?_).run ?_
    | with_reducible apply recoveryDataAct_keeps
    | with_reducible apply eraseAct_keeps
    | with_reducible refine (checkAct_keeps).run ?_
    | with_reducible refine (rebootAct_keeps).run ?_
    | with_reducible refine (recoveryFieldAct_keeps).run ?_
    | with_reducible apply Keeps.ite1
    | split

theorem writeAct_keeps {a0 : Master} {a1 : ℕ} {a2 : ℕ} {a3 : ℕ} {a4 : List Byte} : Act.Keeps (writeAct a0 a1 a2 a3 a4) := by
  refine ⟨fun {u s} h => ?_⟩
  unfold writeAct
  repeat' first
    | with_reducible assumption
    | with_reducible refine (commAct_keeps).run ?_
    | with_reducible refine (secAct_keeps).run ?_
    | with_reducible refine (powerAct_keeps).run ?_
    | with_reducible refine (coreAct_keeps).run ?_
    | with_reducible refine (memAct_keeps).run ?_
    | with_reducible refine (portAct_keeps).run ?_
    | with_reducible refine (boreAct_keeps).run ?_
    | with_reducible refine (testAct_keeps).run ?_
    | split

theorem checkedAct_keeps {a0 : ObjRow} {a1 : List Byte} {a2 : Act} (h2 : Act.Keeps a2) : Act.Keeps (checkedAct a0 a1 a2) := by
  refine ⟨fun {u s} h => ?_⟩
  unfold checkedAct
  repeat' first
    | with_reducible assumption
    | with_reducible apply h2.run
    | with_reducible apply Keeps.ite1

theorem State.commitWrite_keeps {a1 : Master} {a2 : ℕ} {a3 : ℕ} {a4 : List Byte} (h : Keeps u s) : Keeps u (State.commitWrite s a1 a2 a3 a4).1 := by
  unfold State.commitWrite
  repeat' first
    | with_reducible assumption
    | with_reducible refine State.guarded_keeps ?_ ?_
    | with_reducible refine (checkedAct_keeps ?_).run ?_
    | with_reducible apply writeAct_keeps
    | with_reducible apply Keeps.ite1
    | split
    | (refine Act.Keeps.mk fun {u s} h => ?_)

theorem State.commitSlot_keeps {a1 : List Applied} {a2 : Master} {a3 : ℕ} {a4 : ℕ} {a5 : List Byte} (h : Keeps u s) : Keeps u (State.commitSlot s a1 a2 a3 a4 a5).1 := by
  unfold State.commitSlot
  repeat' first
    | with_reducible assumption
    | with_reducible apply State.commitWrite_keeps
    | with_reducible apply Keeps.ite1

theorem State.setSeg_keeps {a1 : Master} {a2 : Option SegBuf} (h : Keeps u s) : Keeps u (State.setSeg s a1 a2) := by
  unfold State.setSeg
  repeat' first
    | with_reducible assumption
    | (fail_if_no_progress with_reducible refine Keeps.mk_same ?_)

theorem State.writeObj_keeps {a1 : List Applied} {a2 : Master} {a3 : ℕ} {a4 : ℕ} {a5 : ℕ} {a6 : Bool} {a7 : List Byte} (h : Keeps u s) : Keeps u (State.writeObj s a1 a2 a3 a4 a5 a6 a7).1 := by
  unfold State.writeObj
  repeat' first
    | with_reducible assumption
    | with_reducible apply State.commitSlot_keeps
    | with_reducible apply State.commitWrite_keeps
    | with_reducible apply State.setSeg_keeps
    | with_reducible apply Keeps.ite1
    | (intro x; refine (fun (_ : Keeps u x) => ?_) ?_; on_goal 2 => unfold x; on_goal 1 => clear_value x)
    | (intro x)
    | (lift_lets; intro x; refine (fun (_ : Keeps u (Prod.fst x)) => ?_) ?_; on_goal 2 => unfold x; on_goal 1 => clear_value x)
    | split

theorem State.openFree_keeps {a1 : DictReq} (h : Keeps u s) : Keeps u (State.openFree s a1) := by
  unfold State.openFree
  repeat' first
    | with_reducible assumption
    | with_reducible apply State.emit_keeps
    | with_reducible apply State.setObj_keeps
    | split
    | (fail_if_no_progress with_reducible refine Keeps.mk_same ?_)

theorem State.endMgmt_keeps {a1 : ℕ} (h : Keeps u s) : Keeps u (State.endMgmt s a1) := by
  unfold State.endMgmt
  repeat' first
    | with_reducible assumption
    | with_reducible apply State.setObj_keeps
    | with_reducible apply State.advanceEpoch_keeps
    | with_reducible apply Keeps.ite
    | (fail_if_no_progress with_reducible refine Keeps.mk_same ?_)

theorem State.keep8_keeps {a1 : ℕ} {a2 : DictResp} (h : Keeps u s) : Keeps u (State.keep8 s a1 a2) := by
  unfold State.keep8
  repeat' first
    | with_reducible assumption
    | (fail_if_no_progress with_reducible refine Keeps.mk_same ?_)

theorem State.operate_keeps {a1 : List Applied} {a2 : DictReq} (h : Keeps u s) : Keeps u (State.operate s a1 a2).1 := by
  unfold State.operate
  repeat' first
    | with_reducible assumption
    | with_reducible apply State.readObj_keeps
    | with_reducible apply State.writeObj_keeps
    | with_reducible apply Keeps.ite1

theorem State.perform_keeps {a1 : List Applied} {a2 : DictReq} (h : Keeps u s) : Keeps u (State.perform s a1 a2).1 := by
  unfold State.perform
  repeat' first
    | with_reducible assumption
    | with_reducible apply State.operate_keeps
    | with_reducible apply Keeps.ite1

theorem State.serveChain.run_keeps {a0 : List Applied} {a1 : DictReq} (h : Keeps u s) : Keeps u (State.serveChain.run a0 a1 s).1 := by
  unfold State.serveChain.run
  extract_lets x a c
  have hx : Keeps u x.1 := State.perform_keeps h
  exact State.emit_keeps (Keeps.mk_same hx)

theorem State.serveChain_keeps {a1 : List Applied} {a2 : DictReq} (h : Keeps u s) : Keeps u (State.serveChain s a1 a2).1 := by
  unfold State.serveChain
  repeat' first
    | with_reducible assumption
    | with_reducible apply State.chainHeard_keeps
    | with_reducible apply State.decidePolarity_keeps
    | with_reducible apply State.perform_keeps
    | with_reducible apply State.emit_keeps
    | with_reducible apply State.count_keeps
    | with_reducible apply State.serveChain.run_keeps
    | with_reducible apply Keeps.ite1
    | (lift_lets; intro x; refine (fun (_ : Keeps u x) => ?_) ?_; on_goal 2 => unfold x; on_goal 1 => clear_value x)
    | split

theorem State.serveMgmt_keeps {a1 : List Applied} {a2 : DictReq} (h : Keeps u s) : Keeps u (State.serveMgmt s a1 a2).1 := by
  unfold State.serveMgmt
  repeat' first
    | with_reducible assumption
    | with_reducible apply State.openFree_keeps
    | with_reducible apply State.emit_keeps
    | with_reducible apply State.endMgmt_keeps
    | with_reducible apply State.perform_keeps
    | with_reducible apply State.keep8_keeps
    | with_reducible apply Keeps.ite1
    | (intro x)
    | (lift_lets; intro x; refine (fun (_ : Keeps u (Prod.fst x)) => ?_) ?_; on_goal 2 => unfold x; on_goal 1 => clear_value x)
    | split

theorem State.serve_keeps {a1 : List Applied} {a2 : DictReq} (h : Keeps u s) : Keeps u (State.serve s a1 a2).1 := by
  unfold State.serve
  repeat' first
    | with_reducible assumption
    | with_reducible apply State.serveChain_keeps
    | with_reducible apply State.serveMgmt_keeps
    | with_reducible apply State.perform_keeps
    | with_reducible apply State.emit_keeps
    | with_reducible apply State.mbFinish_keeps
    | with_reducible apply Keeps.ite1
    | (intro x)
    | (lift_lets; intro x; refine (fun (_ : Keeps u (Prod.fst x)) => ?_) ?_; on_goal 2 => unfold x; on_goal 1 => clear_value x)
    | split

theorem State.arbitrate_keeps {a1 : List DictReq} (h : Keeps u s) : Keeps u (State.arbitrate s a1) := by
  unfold State.arbitrate
  repeat' first
    | with_reducible assumption
    | with_reducible apply State.serve_keeps
    | with_reducible apply Keeps.ite
    | with_reducible refine Keeps.fold1 ?_ fun _ _ _ => ?_

theorem State.openFrom_keeps {a1 : DictReq} {a2 : ℕ} (h : Keeps u s) : Keeps u (State.openFrom s a1 a2) := by
  unfold State.openFrom
  repeat' first
    | with_reducible assumption
    | with_reducible apply State.count_keeps
    | with_reducible apply State.serve_keeps
    | with_reducible apply Keeps.ite

theorem State.readLog_keeps {a1 : Master} {a2 : Bool} (h : Keeps u s) : Keeps u (State.readLog s a1 a2) := by
  unfold State.readLog
  repeat' first
    | with_reducible assumption
    | with_reducible apply State.emit_keeps
    | with_reducible apply State.readObj_keeps
    | with_reducible apply State.heard_keeps
    | with_reducible apply Keeps.ite

end Sys2Proof.Machine
end

