-- ==== Sys2Proof/Laws/State.lean ====
section
/-! SUPPORT. What an update of the state leaves: one lemma for each field and each update, and what an update writes as it is read. -/

namespace Sys2Proof.Machine

variable (s : State)

/-! ### setObj -/

@[simp] theorem State.setObj_pending (i k v : Nat) : (s.setObj i k v).pending = s.pending := rfl
@[simp] theorem State.setObj_mem (i k v : Nat) : (s.setObj i k v).mem = s.mem := rfl
@[simp] theorem State.setObj_sramBad (i k v : Nat) : (s.setObj i k v).sramBad = s.sramBad := rfl
@[simp] theorem State.setObj_bulkBad (i k v : Nat) : (s.setObj i k v).bulkBad = s.bulkBad := rfl
@[simp] theorem State.setObj_cores (i k v : Nat) : (s.setObj i k v).cores = s.cores := rfl
@[simp] theorem State.setObj_redirects (i k v : Nat) : (s.setObj i k v).redirects = s.redirects := rfl
@[simp] theorem State.setObj_syncs (i k v : Nat) : (s.setObj i k v).syncs = s.syncs := rfl
@[simp] theorem State.setObj_parts (i k v : Nat) : (s.setObj i k v).parts = s.parts := rfl
@[simp] theorem State.setObj_colls (i k v : Nat) : (s.setObj i k v).colls = s.colls := rfl
@[simp] theorem State.setObj_collNext (i k v : Nat) : (s.setObj i k v).collNext = s.collNext := rfl
@[simp] theorem State.setObj_engines (i k v : Nat) : (s.setObj i k v).engines = s.engines := rfl
@[simp] theorem State.setObj_zeroJobs (i k v : Nat) : (s.setObj i k v).zeroJobs = s.zeroJobs := rfl
@[simp] theorem State.setObj_rings (i k v : Nat) : (s.setObj i k v).rings = s.rings := rfl
@[simp] theorem State.setObj_patrol (i k v : Nat) : (s.setObj i k v).patrol = s.patrol := rfl
@[simp] theorem State.setObj_debts (i k v : Nat) : (s.setObj i k v).debts = s.debts := rfl
@[simp] theorem State.setObj_shares (i k v : Nat) : (s.setObj i k v).shares = s.shares := rfl
@[simp] theorem State.setObj_masters (i k v : Nat) : (s.setObj i k v).masters = s.masters := rfl
@[simp] theorem State.setObj_sessions (i k v : Nat) : (s.setObj i k v).sessions = s.sessions := rfl
@[simp] theorem State.setObj_mbWaiting (i k v : Nat) : (s.setObj i k v).mbWaiting = s.mbWaiting := rfl
@[simp] theorem State.setObj_bar2 (i k v : Nat) : (s.setObj i k v).bar2 = s.bar2 := rfl
@[simp] theorem State.setObj_mbState (i k v : Nat) : (s.setObj i k v).mbState = s.mbState := rfl
@[simp] theorem State.setObj_mbIrq (i k v : Nat) : (s.setObj i k v).mbIrq = s.mbIrq := rfl
@[simp] theorem State.setObj_mbTag (i k v : Nat) : (s.setObj i k v).mbTag = s.mbTag := rfl
@[simp] theorem State.setObj_winBase (i k v : Nat) : (s.setObj i k v).winBase = s.winBase := rfl
@[simp] theorem State.setObj_mbDropped (i k v : Nat) : (s.setObj i k v).mbDropped = s.mbDropped := rfl
@[simp] theorem State.setObj_serverUp (i k v : Nat) : (s.setObj i k v).serverUp = s.serverUp := rfl
@[simp] theorem State.setObj_chain (i k v : Nat) : (s.setObj i k v).chain = s.chain := rfl
@[simp] theorem State.setObj_conns (i k v : Nat) : (s.setObj i k v).conns = s.conns := rfl
@[simp] theorem State.setObj_keys (i k v : Nat) : (s.setObj i k v).keys = s.keys := rfl
@[simp] theorem State.setObj_entryNext (i k v : Nat) : (s.setObj i k v).entryNext = s.entryNext := rfl
@[simp] theorem State.setObj_boreDrops (i k v : Nat) : (s.setObj i k v).boreDrops = s.boreDrops := rfl
@[simp] theorem State.setObj_job (i k v : Nat) : (s.setObj i k v).job = s.job := rfl
@[simp] theorem State.setObj_links (i k v : Nat) : (s.setObj i k v).links = s.links := rfl
@[simp] theorem State.setObj_streams (i k v : Nat) : (s.setObj i k v).streams = s.streams := rfl
@[simp] theorem State.setObj_lasers (i k v : Nat) : (s.setObj i k v).lasers = s.lasers := rfl
@[simp] theorem State.setObj_los (i k v : Nat) : (s.setObj i k v).los = s.los := rfl
@[simp] theorem State.setObj_gates (i k v : Nat) : (s.setObj i k v).gates = s.gates := rfl
@[simp] theorem State.setObj_log (i k v : Nat) : (s.setObj i k v).log = s.log := rfl
@[simp] theorem State.setObj_plog (i k v : Nat) : (s.setObj i k v).plog = s.plog := rfl
@[simp] theorem State.setObj_pwait (i k v : Nat) : (s.setObj i k v).pwait = s.pwait := rfl
@[simp] theorem State.setObj_seqNext (i k v : Nat) : (s.setObj i k v).seqNext = s.seqNext := rfl
@[simp] theorem State.setObj_seqEnd (i k v : Nat) : (s.setObj i k v).seqEnd = s.seqEnd := rfl
@[simp] theorem State.setObj_msCount (i k v : Nat) : (s.setObj i k v).msCount = s.msCount := rfl
@[simp] theorem State.setObj_msIndex (i k v : Nat) : (s.setObj i k v).msIndex = s.msIndex := rfl
@[simp] theorem State.setObj_gapDue (i k v : Nat) : (s.setObj i k v).gapDue = s.gapDue := rfl
@[simp] theorem State.setObj_winDrops (i k v : Nat) : (s.setObj i k v).winDrops = s.winDrops := rfl
@[simp] theorem State.setObj_bootSt (i k v : Nat) : (s.setObj i k v).bootSt = s.bootSt := rfl
@[simp] theorem State.setObj_pwrGood (i k v : Nat) : (s.setObj i k v).pwrGood = s.pwrGood := rfl
@[simp] theorem State.setObj_tripLow (i k v : Nat) : (s.setObj i k v).tripLow = s.tripLow := rfl
@[simp] theorem State.setObj_bootCause (i k v : Nat) : (s.setObj i k v).bootCause = s.bootCause := rfl
@[simp] theorem State.setObj_store (i k v : Nat) : (s.setObj i k v).store = s.store := rfl
@[simp] theorem State.setObj_wakeDue (i k v : Nat) : (s.setObj i k v).wakeDue = s.wakeDue := rfl
@[simp] theorem State.setObj_selfRefresh (i k v : Nat) : (s.setObj i k v).selfRefresh = s.selfRefresh := rfl
@[simp] theorem State.setObj_dutyLow (i k v : Nat) : (s.setObj i k v).dutyLow = s.dutyLow := rfl
@[simp] theorem State.setObj_granted (i k v : Nat) : (s.setObj i k v).granted = s.granted := rfl
@[simp] theorem State.setObj_dutyDue (i k v : Nat) : (s.setObj i k v).dutyDue = s.dutyDue := rfl
@[simp] theorem State.setObj_laserLogged (i k v : Nat) : (s.setObj i k v).laserLogged = s.laserLogged := rfl
@[simp] theorem State.setObj_laserBias (i k v : Nat) : (s.setObj i k v).laserBias = s.laserBias := rfl
@[simp] theorem State.setObj_erases (i k v : Nat) : (s.setObj i k v).erases = s.erases := rfl
@[simp] theorem State.setObj_tele (i k v : Nat) : (s.setObj i k v).tele = s.tele := rfl
@[simp] theorem State.setObj_tests (i k v : Nat) : (s.setObj i k v).tests = s.tests := rfl
@[simp] theorem State.setObj_flash (i k v : Nat) : (s.setObj i k v).flash = s.flash := rfl
@[simp] theorem State.setObj_accepted (i k v : Nat) : (s.setObj i k v).accepted = s.accepted := rfl
@[simp] theorem State.setObj_onChipHash (i k v : Nat) : (s.setObj i k v).onChipHash = s.onChipHash := rfl
@[simp] theorem State.setObj_member (i k v : Nat) : (s.setObj i k v).member = s.member := rfl
@[simp] theorem State.setObj_network (i k v : Nat) : (s.setObj i k v).network = s.network := rfl
@[simp] theorem State.setObj_intentRows (i k v : Nat) : (s.setObj i k v).intentRows = s.intentRows := rfl
@[simp] theorem State.setObj_stateRows (i k v : Nat) : (s.setObj i k v).stateRows = s.stateRows := rfl
@[simp] theorem State.setObj_keysGone (i k v : Nat) : (s.setObj i k v).keysGone = s.keysGone := rfl
@[simp] theorem State.setObj_jtagOpen (i k v : Nat) : (s.setObj i k v).jtagOpen = s.jtagOpen := rfl
@[simp] theorem State.setObj_spdm (i k v : Nat) : (s.setObj i k v).spdm = s.spdm := rfl
@[simp] theorem State.setObj_jobKeys (i k v : Nat) : (s.setObj i k v).jobKeys = s.jobKeys := rfl
@[simp] theorem State.setObj_pkgRun (i k v : Nat) : (s.setObj i k v).pkgRun = s.pkgRun := rfl
@[simp] theorem State.setObj_spDown0 (i k v : Nat) : (s.setObj i k v).spDown0 = s.spDown0 := rfl
@[simp] theorem State.setObj_spDown1 (i k v : Nat) : (s.setObj i k v).spDown1 = s.spDown1 := rfl
@[simp] theorem State.setObj_freeCtr (i k v : Nat) : (s.setObj i k v).freeCtr = s.freeCtr := rfl
@[simp] theorem State.setObj_out (i k v : Nat) : (s.setObj i k v).out = s.out := rfl
@[simp] theorem State.setObj_core (i k v : Nat) (m : Nat) : (s.setObj i k v).core m = s.core m := rfl
@[simp] theorem State.setObj_part (i k v : Nat) (m : Nat) : (s.setObj i k v).part m = s.part m := rfl
@[simp] theorem State.setObj_sync (i k v : Nat) (m : Nat) : (s.setObj i k v).sync m = s.sync m := rfl
@[simp] theorem State.setObj_conn (i k v : Nat) (m : Nat) : (s.setObj i k v).conn m = s.conn m := rfl
@[simp] theorem State.setObj_link (i k v : Nat) (m : Nat) : (s.setObj i k v).link m = s.link m := rfl
@[simp] theorem State.setObj_stream (i k v : Nat) (m : Nat) : (s.setObj i k v).stream m = s.stream m := rfl

/-! ### setCore -/

@[simp] theorem State.setCore_pending (n : Nat) (c : Core) : (s.setCore n c).pending = s.pending := rfl
@[simp] theorem State.setCore_objs (n : Nat) (c : Core) : (s.setCore n c).objs = s.objs := rfl
@[simp] theorem State.setCore_mem (n : Nat) (c : Core) : (s.setCore n c).mem = s.mem := rfl
@[simp] theorem State.setCore_sramBad (n : Nat) (c : Core) : (s.setCore n c).sramBad = s.sramBad := rfl
@[simp] theorem State.setCore_bulkBad (n : Nat) (c : Core) : (s.setCore n c).bulkBad = s.bulkBad := rfl
@[simp] theorem State.setCore_redirects (n : Nat) (c : Core) : (s.setCore n c).redirects = s.redirects := rfl
@[simp] theorem State.setCore_syncs (n : Nat) (c : Core) : (s.setCore n c).syncs = s.syncs := rfl
@[simp] theorem State.setCore_parts (n : Nat) (c : Core) : (s.setCore n c).parts = s.parts := rfl
@[simp] theorem State.setCore_colls (n : Nat) (c : Core) : (s.setCore n c).colls = s.colls := rfl
@[simp] theorem State.setCore_collNext (n : Nat) (c : Core) : (s.setCore n c).collNext = s.collNext := rfl
@[simp] theorem State.setCore_engines (n : Nat) (c : Core) : (s.setCore n c).engines = s.engines := rfl
@[simp] theorem State.setCore_zeroJobs (n : Nat) (c : Core) : (s.setCore n c).zeroJobs = s.zeroJobs := rfl
@[simp] theorem State.setCore_rings (n : Nat) (c : Core) : (s.setCore n c).rings = s.rings := rfl
@[simp] theorem State.setCore_patrol (n : Nat) (c : Core) : (s.setCore n c).patrol = s.patrol := rfl
@[simp] theorem State.setCore_debts (n : Nat) (c : Core) : (s.setCore n c).debts = s.debts := rfl
@[simp] theorem State.setCore_shares (n : Nat) (c : Core) : (s.setCore n c).shares = s.shares := rfl
@[simp] theorem State.setCore_masters (n : Nat) (c : Core) : (s.setCore n c).masters = s.masters := rfl
@[simp] theorem State.setCore_sessions (n : Nat) (c : Core) : (s.setCore n c).sessions = s.sessions := rfl
@[simp] theorem State.setCore_mbWaiting (n : Nat) (c : Core) : (s.setCore n c).mbWaiting = s.mbWaiting := rfl
@[simp] theorem State.setCore_bar2 (n : Nat) (c : Core) : (s.setCore n c).bar2 = s.bar2 := rfl
@[simp] theorem State.setCore_mbState (n : Nat) (c : Core) : (s.setCore n c).mbState = s.mbState := rfl
@[simp] theorem State.setCore_mbIrq (n : Nat) (c : Core) : (s.setCore n c).mbIrq = s.mbIrq := rfl
@[simp] theorem State.setCore_mbTag (n : Nat) (c : Core) : (s.setCore n c).mbTag = s.mbTag := rfl
@[simp] theorem State.setCore_winBase (n : Nat) (c : Core) : (s.setCore n c).winBase = s.winBase := rfl
@[simp] theorem State.setCore_mbDropped (n : Nat) (c : Core) : (s.setCore n c).mbDropped = s.mbDropped := rfl
@[simp] theorem State.setCore_serverUp (n : Nat) (c : Core) : (s.setCore n c).serverUp = s.serverUp := rfl
@[simp] theorem State.setCore_chain (n : Nat) (c : Core) : (s.setCore n c).chain = s.chain := rfl
@[simp] theorem State.setCore_conns (n : Nat) (c : Core) : (s.setCore n c).conns = s.conns := rfl
@[simp] theorem State.setCore_keys (n : Nat) (c : Core) : (s.setCore n c).keys = s.keys := rfl
@[simp] theorem State.setCore_entryNext (n : Nat) (c : Core) : (s.setCore n c).entryNext = s.entryNext := rfl
@[simp] theorem State.setCore_boreDrops (n : Nat) (c : Core) : (s.setCore n c).boreDrops = s.boreDrops := rfl
@[simp] theorem State.setCore_job (n : Nat) (c : Core) : (s.setCore n c).job = s.job := rfl
@[simp] theorem State.setCore_links (n : Nat) (c : Core) : (s.setCore n c).links = s.links := rfl
@[simp] theorem State.setCore_streams (n : Nat) (c : Core) : (s.setCore n c).streams = s.streams := rfl
@[simp] theorem State.setCore_lasers (n : Nat) (c : Core) : (s.setCore n c).lasers = s.lasers := rfl
@[simp] theorem State.setCore_los (n : Nat) (c : Core) : (s.setCore n c).los = s.los := rfl
@[simp] theorem State.setCore_gates (n : Nat) (c : Core) : (s.setCore n c).gates = s.gates := rfl
@[simp] theorem State.setCore_log (n : Nat) (c : Core) : (s.setCore n c).log = s.log := rfl
@[simp] theorem State.setCore_plog (n : Nat) (c : Core) : (s.setCore n c).plog = s.plog := rfl
@[simp] theorem State.setCore_pwait (n : Nat) (c : Core) : (s.setCore n c).pwait = s.pwait := rfl
@[simp] theorem State.setCore_seqNext (n : Nat) (c : Core) : (s.setCore n c).seqNext = s.seqNext := rfl
@[simp] theorem State.setCore_seqEnd (n : Nat) (c : Core) : (s.setCore n c).seqEnd = s.seqEnd := rfl
@[simp] theorem State.setCore_msCount (n : Nat) (c : Core) : (s.setCore n c).msCount = s.msCount := rfl
@[simp] theorem State.setCore_msIndex (n : Nat) (c : Core) : (s.setCore n c).msIndex = s.msIndex := rfl
@[simp] theorem State.setCore_gapDue (n : Nat) (c : Core) : (s.setCore n c).gapDue = s.gapDue := rfl
@[simp] theorem State.setCore_winDrops (n : Nat) (c : Core) : (s.setCore n c).winDrops = s.winDrops := rfl
@[simp] theorem State.setCore_bootSt (n : Nat) (c : Core) : (s.setCore n c).bootSt = s.bootSt := rfl
@[simp] theorem State.setCore_pwrGood (n : Nat) (c : Core) : (s.setCore n c).pwrGood = s.pwrGood := rfl
@[simp] theorem State.setCore_tripLow (n : Nat) (c : Core) : (s.setCore n c).tripLow = s.tripLow := rfl
@[simp] theorem State.setCore_bootCause (n : Nat) (c : Core) : (s.setCore n c).bootCause = s.bootCause := rfl
@[simp] theorem State.setCore_store (n : Nat) (c : Core) : (s.setCore n c).store = s.store := rfl
@[simp] theorem State.setCore_wakeDue (n : Nat) (c : Core) : (s.setCore n c).wakeDue = s.wakeDue := rfl
@[simp] theorem State.setCore_selfRefresh (n : Nat) (c : Core) : (s.setCore n c).selfRefresh = s.selfRefresh := rfl
@[simp] theorem State.setCore_dutyLow (n : Nat) (c : Core) : (s.setCore n c).dutyLow = s.dutyLow := rfl
@[simp] theorem State.setCore_granted (n : Nat) (c : Core) : (s.setCore n c).granted = s.granted := rfl
@[simp] theorem State.setCore_dutyDue (n : Nat) (c : Core) : (s.setCore n c).dutyDue = s.dutyDue := rfl
@[simp] theorem State.setCore_laserLogged (n : Nat) (c : Core) : (s.setCore n c).laserLogged = s.laserLogged := rfl
@[simp] theorem State.setCore_laserBias (n : Nat) (c : Core) : (s.setCore n c).laserBias = s.laserBias := rfl
@[simp] theorem State.setCore_erases (n : Nat) (c : Core) : (s.setCore n c).erases = s.erases := rfl
@[simp] theorem State.setCore_tele (n : Nat) (c : Core) : (s.setCore n c).tele = s.tele := rfl
@[simp] theorem State.setCore_tests (n : Nat) (c : Core) : (s.setCore n c).tests = s.tests := rfl
@[simp] theorem State.setCore_flash (n : Nat) (c : Core) : (s.setCore n c).flash = s.flash := rfl
@[simp] theorem State.setCore_accepted (n : Nat) (c : Core) : (s.setCore n c).accepted = s.accepted := rfl
@[simp] theorem State.setCore_onChipHash (n : Nat) (c : Core) : (s.setCore n c).onChipHash = s.onChipHash := rfl
@[simp] theorem State.setCore_member (n : Nat) (c : Core) : (s.setCore n c).member = s.member := rfl
@[simp] theorem State.setCore_network (n : Nat) (c : Core) : (s.setCore n c).network = s.network := rfl
@[simp] theorem State.setCore_intentRows (n : Nat) (c : Core) : (s.setCore n c).intentRows = s.intentRows := rfl
@[simp] theorem State.setCore_stateRows (n : Nat) (c : Core) : (s.setCore n c).stateRows = s.stateRows := rfl
@[simp] theorem State.setCore_keysGone (n : Nat) (c : Core) : (s.setCore n c).keysGone = s.keysGone := rfl
@[simp] theorem State.setCore_jtagOpen (n : Nat) (c : Core) : (s.setCore n c).jtagOpen = s.jtagOpen := rfl
@[simp] theorem State.setCore_spdm (n : Nat) (c : Core) : (s.setCore n c).spdm = s.spdm := rfl
@[simp] theorem State.setCore_jobKeys (n : Nat) (c : Core) : (s.setCore n c).jobKeys = s.jobKeys := rfl
@[simp] theorem State.setCore_pkgRun (n : Nat) (c : Core) : (s.setCore n c).pkgRun = s.pkgRun := rfl
@[simp] theorem State.setCore_spDown0 (n : Nat) (c : Core) : (s.setCore n c).spDown0 = s.spDown0 := rfl
@[simp] theorem State.setCore_spDown1 (n : Nat) (c : Core) : (s.setCore n c).spDown1 = s.spDown1 := rfl
@[simp] theorem State.setCore_freeCtr (n : Nat) (c : Core) : (s.setCore n c).freeCtr = s.freeCtr := rfl
@[simp] theorem State.setCore_out (n : Nat) (c : Core) : (s.setCore n c).out = s.out := rfl
@[simp] theorem State.setCore_obj (n : Nat) (c : Core) (i' k' : Nat) : (s.setCore n c).obj i' k' = s.obj i' k' := rfl
@[simp] theorem State.setCore_part (n : Nat) (c : Core) (m : Nat) : (s.setCore n c).part m = s.part m := rfl
@[simp] theorem State.setCore_sync (n : Nat) (c : Core) (m : Nat) : (s.setCore n c).sync m = s.sync m := rfl
@[simp] theorem State.setCore_conn (n : Nat) (c : Core) (m : Nat) : (s.setCore n c).conn m = s.conn m := rfl
@[simp] theorem State.setCore_link (n : Nat) (c : Core) (m : Nat) : (s.setCore n c).link m = s.link m := rfl
@[simp] theorem State.setCore_stream (n : Nat) (c : Core) (m : Nat) : (s.setCore n c).stream m = s.stream m := rfl

/-! ### setPart -/

@[simp] theorem State.setPart_pending (n : Nat) (x : Part) : (s.setPart n x).pending = s.pending := rfl
@[simp] theorem State.setPart_objs (n : Nat) (x : Part) : (s.setPart n x).objs = s.objs := rfl
@[simp] theorem State.setPart_mem (n : Nat) (x : Part) : (s.setPart n x).mem = s.mem := rfl
@[simp] theorem State.setPart_sramBad (n : Nat) (x : Part) : (s.setPart n x).sramBad = s.sramBad := rfl
@[simp] theorem State.setPart_bulkBad (n : Nat) (x : Part) : (s.setPart n x).bulkBad = s.bulkBad := rfl
@[simp] theorem State.setPart_cores (n : Nat) (x : Part) : (s.setPart n x).cores = s.cores := rfl
@[simp] theorem State.setPart_redirects (n : Nat) (x : Part) : (s.setPart n x).redirects = s.redirects := rfl
@[simp] theorem State.setPart_syncs (n : Nat) (x : Part) : (s.setPart n x).syncs = s.syncs := rfl
@[simp] theorem State.setPart_colls (n : Nat) (x : Part) : (s.setPart n x).colls = s.colls := rfl
@[simp] theorem State.setPart_collNext (n : Nat) (x : Part) : (s.setPart n x).collNext = s.collNext := rfl
@[simp] theorem State.setPart_engines (n : Nat) (x : Part) : (s.setPart n x).engines = s.engines := rfl
@[simp] theorem State.setPart_zeroJobs (n : Nat) (x : Part) : (s.setPart n x).zeroJobs = s.zeroJobs := rfl
@[simp] theorem State.setPart_rings (n : Nat) (x : Part) : (s.setPart n x).rings = s.rings := rfl
@[simp] theorem State.setPart_patrol (n : Nat) (x : Part) : (s.setPart n x).patrol = s.patrol := rfl
@[simp] theorem State.setPart_debts (n : Nat) (x : Part) : (s.setPart n x).debts = s.debts := rfl
@[simp] theorem State.setPart_shares (n : Nat) (x : Part) : (s.setPart n x).shares = s.shares := rfl
@[simp] theorem State.setPart_masters (n : Nat) (x : Part) : (s.setPart n x).masters = s.masters := rfl
@[simp] theorem State.setPart_sessions (n : Nat) (x : Part) : (s.setPart n x).sessions = s.sessions := rfl
@[simp] theorem State.setPart_mbWaiting (n : Nat) (x : Part) : (s.setPart n x).mbWaiting = s.mbWaiting := rfl
@[simp] theorem State.setPart_bar2 (n : Nat) (x : Part) : (s.setPart n x).bar2 = s.bar2 := rfl
@[simp] theorem State.setPart_mbState (n : Nat) (x : Part) : (s.setPart n x).mbState = s.mbState := rfl
@[simp] theorem State.setPart_mbIrq (n : Nat) (x : Part) : (s.setPart n x).mbIrq = s.mbIrq := rfl
@[simp] theorem State.setPart_mbTag (n : Nat) (x : Part) : (s.setPart n x).mbTag = s.mbTag := rfl
@[simp] theorem State.setPart_winBase (n : Nat) (x : Part) : (s.setPart n x).winBase = s.winBase := rfl
@[simp] theorem State.setPart_mbDropped (n : Nat) (x : Part) : (s.setPart n x).mbDropped = s.mbDropped := rfl
@[simp] theorem State.setPart_serverUp (n : Nat) (x : Part) : (s.setPart n x).serverUp = s.serverUp := rfl
@[simp] theorem State.setPart_chain (n : Nat) (x : Part) : (s.setPart n x).chain = s.chain := rfl
@[simp] theorem State.setPart_conns (n : Nat) (x : Part) : (s.setPart n x).conns = s.conns := rfl
@[simp] theorem State.setPart_keys (n : Nat) (x : Part) : (s.setPart n x).keys = s.keys := rfl
@[simp] theorem State.setPart_entryNext (n : Nat) (x : Part) : (s.setPart n x).entryNext = s.entryNext := rfl
@[simp] theorem State.setPart_boreDrops (n : Nat) (x : Part) : (s.setPart n x).boreDrops = s.boreDrops := rfl
@[simp] theorem State.setPart_job (n : Nat) (x : Part) : (s.setPart n x).job = s.job := rfl
@[simp] theorem State.setPart_links (n : Nat) (x : Part) : (s.setPart n x).links = s.links := rfl
@[simp] theorem State.setPart_streams (n : Nat) (x : Part) : (s.setPart n x).streams = s.streams := rfl
@[simp] theorem State.setPart_lasers (n : Nat) (x : Part) : (s.setPart n x).lasers = s.lasers := rfl
@[simp] theorem State.setPart_los (n : Nat) (x : Part) : (s.setPart n x).los = s.los := rfl
@[simp] theorem State.setPart_gates (n : Nat) (x : Part) : (s.setPart n x).gates = s.gates := rfl
@[simp] theorem State.setPart_log (n : Nat) (x : Part) : (s.setPart n x).log = s.log := rfl
@[simp] theorem State.setPart_plog (n : Nat) (x : Part) : (s.setPart n x).plog = s.plog := rfl
@[simp] theorem State.setPart_pwait (n : Nat) (x : Part) : (s.setPart n x).pwait = s.pwait := rfl
@[simp] theorem State.setPart_seqNext (n : Nat) (x : Part) : (s.setPart n x).seqNext = s.seqNext := rfl
@[simp] theorem State.setPart_seqEnd (n : Nat) (x : Part) : (s.setPart n x).seqEnd = s.seqEnd := rfl
@[simp] theorem State.setPart_msCount (n : Nat) (x : Part) : (s.setPart n x).msCount = s.msCount := rfl
@[simp] theorem State.setPart_msIndex (n : Nat) (x : Part) : (s.setPart n x).msIndex = s.msIndex := rfl
@[simp] theorem State.setPart_gapDue (n : Nat) (x : Part) : (s.setPart n x).gapDue = s.gapDue := rfl
@[simp] theorem State.setPart_winDrops (n : Nat) (x : Part) : (s.setPart n x).winDrops = s.winDrops := rfl
@[simp] theorem State.setPart_bootSt (n : Nat) (x : Part) : (s.setPart n x).bootSt = s.bootSt := rfl
@[simp] theorem State.setPart_pwrGood (n : Nat) (x : Part) : (s.setPart n x).pwrGood = s.pwrGood := rfl
@[simp] theorem State.setPart_tripLow (n : Nat) (x : Part) : (s.setPart n x).tripLow = s.tripLow := rfl
@[simp] theorem State.setPart_bootCause (n : Nat) (x : Part) : (s.setPart n x).bootCause = s.bootCause := rfl
@[simp] theorem State.setPart_store (n : Nat) (x : Part) : (s.setPart n x).store = s.store := rfl
@[simp] theorem State.setPart_wakeDue (n : Nat) (x : Part) : (s.setPart n x).wakeDue = s.wakeDue := rfl
@[simp] theorem State.setPart_selfRefresh (n : Nat) (x : Part) : (s.setPart n x).selfRefresh = s.selfRefresh := rfl
@[simp] theorem State.setPart_dutyLow (n : Nat) (x : Part) : (s.setPart n x).dutyLow = s.dutyLow := rfl
@[simp] theorem State.setPart_granted (n : Nat) (x : Part) : (s.setPart n x).granted = s.granted := rfl
@[simp] theorem State.setPart_dutyDue (n : Nat) (x : Part) : (s.setPart n x).dutyDue = s.dutyDue := rfl
@[simp] theorem State.setPart_laserLogged (n : Nat) (x : Part) : (s.setPart n x).laserLogged = s.laserLogged := rfl
@[simp] theorem State.setPart_laserBias (n : Nat) (x : Part) : (s.setPart n x).laserBias = s.laserBias := rfl
@[simp] theorem State.setPart_erases (n : Nat) (x : Part) : (s.setPart n x).erases = s.erases := rfl
@[simp] theorem State.setPart_tele (n : Nat) (x : Part) : (s.setPart n x).tele = s.tele := rfl
@[simp] theorem State.setPart_tests (n : Nat) (x : Part) : (s.setPart n x).tests = s.tests := rfl
@[simp] theorem State.setPart_flash (n : Nat) (x : Part) : (s.setPart n x).flash = s.flash := rfl
@[simp] theorem State.setPart_accepted (n : Nat) (x : Part) : (s.setPart n x).accepted = s.accepted := rfl
@[simp] theorem State.setPart_onChipHash (n : Nat) (x : Part) : (s.setPart n x).onChipHash = s.onChipHash := rfl
@[simp] theorem State.setPart_member (n : Nat) (x : Part) : (s.setPart n x).member = s.member := rfl
@[simp] theorem State.setPart_network (n : Nat) (x : Part) : (s.setPart n x).network = s.network := rfl
@[simp] theorem State.setPart_intentRows (n : Nat) (x : Part) : (s.setPart n x).intentRows = s.intentRows := rfl
@[simp] theorem State.setPart_stateRows (n : Nat) (x : Part) : (s.setPart n x).stateRows = s.stateRows := rfl
@[simp] theorem State.setPart_keysGone (n : Nat) (x : Part) : (s.setPart n x).keysGone = s.keysGone := rfl
@[simp] theorem State.setPart_jtagOpen (n : Nat) (x : Part) : (s.setPart n x).jtagOpen = s.jtagOpen := rfl
@[simp] theorem State.setPart_spdm (n : Nat) (x : Part) : (s.setPart n x).spdm = s.spdm := rfl
@[simp] theorem State.setPart_jobKeys (n : Nat) (x : Part) : (s.setPart n x).jobKeys = s.jobKeys := rfl
@[simp] theorem State.setPart_pkgRun (n : Nat) (x : Part) : (s.setPart n x).pkgRun = s.pkgRun := rfl
@[simp] theorem State.setPart_spDown0 (n : Nat) (x : Part) : (s.setPart n x).spDown0 = s.spDown0 := rfl
@[simp] theorem State.setPart_spDown1 (n : Nat) (x : Part) : (s.setPart n x).spDown1 = s.spDown1 := rfl
@[simp] theorem State.setPart_freeCtr (n : Nat) (x : Part) : (s.setPart n x).freeCtr = s.freeCtr := rfl
@[simp] theorem State.setPart_out (n : Nat) (x : Part) : (s.setPart n x).out = s.out := rfl
@[simp] theorem State.setPart_obj (n : Nat) (x : Part) (i' k' : Nat) : (s.setPart n x).obj i' k' = s.obj i' k' := rfl
@[simp] theorem State.setPart_core (n : Nat) (x : Part) (m : Nat) : (s.setPart n x).core m = s.core m := rfl
@[simp] theorem State.setPart_sync (n : Nat) (x : Part) (m : Nat) : (s.setPart n x).sync m = s.sync m := rfl
@[simp] theorem State.setPart_conn (n : Nat) (x : Part) (m : Nat) : (s.setPart n x).conn m = s.conn m := rfl
@[simp] theorem State.setPart_link (n : Nat) (x : Part) (m : Nat) : (s.setPart n x).link m = s.link m := rfl
@[simp] theorem State.setPart_stream (n : Nat) (x : Part) (m : Nat) : (s.setPart n x).stream m = s.stream m := rfl

/-! ### setSync -/

@[simp] theorem State.setSync_pending (n : Nat) (x : Sync) : (s.setSync n x).pending = s.pending := rfl
@[simp] theorem State.setSync_objs (n : Nat) (x : Sync) : (s.setSync n x).objs = s.objs := rfl
@[simp] theorem State.setSync_mem (n : Nat) (x : Sync) : (s.setSync n x).mem = s.mem := rfl
@[simp] theorem State.setSync_sramBad (n : Nat) (x : Sync) : (s.setSync n x).sramBad = s.sramBad := rfl
@[simp] theorem State.setSync_bulkBad (n : Nat) (x : Sync) : (s.setSync n x).bulkBad = s.bulkBad := rfl
@[simp] theorem State.setSync_cores (n : Nat) (x : Sync) : (s.setSync n x).cores = s.cores := rfl
@[simp] theorem State.setSync_redirects (n : Nat) (x : Sync) : (s.setSync n x).redirects = s.redirects := rfl
@[simp] theorem State.setSync_parts (n : Nat) (x : Sync) : (s.setSync n x).parts = s.parts := rfl
@[simp] theorem State.setSync_colls (n : Nat) (x : Sync) : (s.setSync n x).colls = s.colls := rfl
@[simp] theorem State.setSync_collNext (n : Nat) (x : Sync) : (s.setSync n x).collNext = s.collNext := rfl
@[simp] theorem State.setSync_engines (n : Nat) (x : Sync) : (s.setSync n x).engines = s.engines := rfl
@[simp] theorem State.setSync_zeroJobs (n : Nat) (x : Sync) : (s.setSync n x).zeroJobs = s.zeroJobs := rfl
@[simp] theorem State.setSync_rings (n : Nat) (x : Sync) : (s.setSync n x).rings = s.rings := rfl
@[simp] theorem State.setSync_patrol (n : Nat) (x : Sync) : (s.setSync n x).patrol = s.patrol := rfl
@[simp] theorem State.setSync_debts (n : Nat) (x : Sync) : (s.setSync n x).debts = s.debts := rfl
@[simp] theorem State.setSync_shares (n : Nat) (x : Sync) : (s.setSync n x).shares = s.shares := rfl
@[simp] theorem State.setSync_masters (n : Nat) (x : Sync) : (s.setSync n x).masters = s.masters := rfl
@[simp] theorem State.setSync_sessions (n : Nat) (x : Sync) : (s.setSync n x).sessions = s.sessions := rfl
@[simp] theorem State.setSync_mbWaiting (n : Nat) (x : Sync) : (s.setSync n x).mbWaiting = s.mbWaiting := rfl
@[simp] theorem State.setSync_bar2 (n : Nat) (x : Sync) : (s.setSync n x).bar2 = s.bar2 := rfl
@[simp] theorem State.setSync_mbState (n : Nat) (x : Sync) : (s.setSync n x).mbState = s.mbState := rfl
@[simp] theorem State.setSync_mbIrq (n : Nat) (x : Sync) : (s.setSync n x).mbIrq = s.mbIrq := rfl
@[simp] theorem State.setSync_mbTag (n : Nat) (x : Sync) : (s.setSync n x).mbTag = s.mbTag := rfl
@[simp] theorem State.setSync_winBase (n : Nat) (x : Sync) : (s.setSync n x).winBase = s.winBase := rfl
@[simp] theorem State.setSync_mbDropped (n : Nat) (x : Sync) : (s.setSync n x).mbDropped = s.mbDropped := rfl
@[simp] theorem State.setSync_serverUp (n : Nat) (x : Sync) : (s.setSync n x).serverUp = s.serverUp := rfl
@[simp] theorem State.setSync_chain (n : Nat) (x : Sync) : (s.setSync n x).chain = s.chain := rfl
@[simp] theorem State.setSync_conns (n : Nat) (x : Sync) : (s.setSync n x).conns = s.conns := rfl
@[simp] theorem State.setSync_keys (n : Nat) (x : Sync) : (s.setSync n x).keys = s.keys := rfl
@[simp] theorem State.setSync_entryNext (n : Nat) (x : Sync) : (s.setSync n x).entryNext = s.entryNext := rfl
@[simp] theorem State.setSync_boreDrops (n : Nat) (x : Sync) : (s.setSync n x).boreDrops = s.boreDrops := rfl
@[simp] theorem State.setSync_job (n : Nat) (x : Sync) : (s.setSync n x).job = s.job := rfl
@[simp] theorem State.setSync_links (n : Nat) (x : Sync) : (s.setSync n x).links = s.links := rfl
@[simp] theorem State.setSync_streams (n : Nat) (x : Sync) : (s.setSync n x).streams = s.streams := rfl
@[simp] theorem State.setSync_lasers (n : Nat) (x : Sync) : (s.setSync n x).lasers = s.lasers := rfl
@[simp] theorem State.setSync_los (n : Nat) (x : Sync) : (s.setSync n x).los = s.los := rfl
@[simp] theorem State.setSync_gates (n : Nat) (x : Sync) : (s.setSync n x).gates = s.gates := rfl
@[simp] theorem State.setSync_log (n : Nat) (x : Sync) : (s.setSync n x).log = s.log := rfl
@[simp] theorem State.setSync_plog (n : Nat) (x : Sync) : (s.setSync n x).plog = s.plog := rfl
@[simp] theorem State.setSync_pwait (n : Nat) (x : Sync) : (s.setSync n x).pwait = s.pwait := rfl
@[simp] theorem State.setSync_seqNext (n : Nat) (x : Sync) : (s.setSync n x).seqNext = s.seqNext := rfl
@[simp] theorem State.setSync_seqEnd (n : Nat) (x : Sync) : (s.setSync n x).seqEnd = s.seqEnd := rfl
@[simp] theorem State.setSync_msCount (n : Nat) (x : Sync) : (s.setSync n x).msCount = s.msCount := rfl
@[simp] theorem State.setSync_msIndex (n : Nat) (x : Sync) : (s.setSync n x).msIndex = s.msIndex := rfl
@[simp] theorem State.setSync_gapDue (n : Nat) (x : Sync) : (s.setSync n x).gapDue = s.gapDue := rfl
@[simp] theorem State.setSync_winDrops (n : Nat) (x : Sync) : (s.setSync n x).winDrops = s.winDrops := rfl
@[simp] theorem State.setSync_bootSt (n : Nat) (x : Sync) : (s.setSync n x).bootSt = s.bootSt := rfl
@[simp] theorem State.setSync_pwrGood (n : Nat) (x : Sync) : (s.setSync n x).pwrGood = s.pwrGood := rfl
@[simp] theorem State.setSync_tripLow (n : Nat) (x : Sync) : (s.setSync n x).tripLow = s.tripLow := rfl
@[simp] theorem State.setSync_bootCause (n : Nat) (x : Sync) : (s.setSync n x).bootCause = s.bootCause := rfl
@[simp] theorem State.setSync_store (n : Nat) (x : Sync) : (s.setSync n x).store = s.store := rfl
@[simp] theorem State.setSync_wakeDue (n : Nat) (x : Sync) : (s.setSync n x).wakeDue = s.wakeDue := rfl
@[simp] theorem State.setSync_selfRefresh (n : Nat) (x : Sync) : (s.setSync n x).selfRefresh = s.selfRefresh := rfl
@[simp] theorem State.setSync_dutyLow (n : Nat) (x : Sync) : (s.setSync n x).dutyLow = s.dutyLow := rfl
@[simp] theorem State.setSync_granted (n : Nat) (x : Sync) : (s.setSync n x).granted = s.granted := rfl
@[simp] theorem State.setSync_dutyDue (n : Nat) (x : Sync) : (s.setSync n x).dutyDue = s.dutyDue := rfl
@[simp] theorem State.setSync_laserLogged (n : Nat) (x : Sync) : (s.setSync n x).laserLogged = s.laserLogged := rfl
@[simp] theorem State.setSync_laserBias (n : Nat) (x : Sync) : (s.setSync n x).laserBias = s.laserBias := rfl
@[simp] theorem State.setSync_erases (n : Nat) (x : Sync) : (s.setSync n x).erases = s.erases := rfl
@[simp] theorem State.setSync_tele (n : Nat) (x : Sync) : (s.setSync n x).tele = s.tele := rfl
@[simp] theorem State.setSync_tests (n : Nat) (x : Sync) : (s.setSync n x).tests = s.tests := rfl
@[simp] theorem State.setSync_flash (n : Nat) (x : Sync) : (s.setSync n x).flash = s.flash := rfl
@[simp] theorem State.setSync_accepted (n : Nat) (x : Sync) : (s.setSync n x).accepted = s.accepted := rfl
@[simp] theorem State.setSync_onChipHash (n : Nat) (x : Sync) : (s.setSync n x).onChipHash = s.onChipHash := rfl
@[simp] theorem State.setSync_member (n : Nat) (x : Sync) : (s.setSync n x).member = s.member := rfl
@[simp] theorem State.setSync_network (n : Nat) (x : Sync) : (s.setSync n x).network = s.network := rfl
@[simp] theorem State.setSync_intentRows (n : Nat) (x : Sync) : (s.setSync n x).intentRows = s.intentRows := rfl
@[simp] theorem State.setSync_stateRows (n : Nat) (x : Sync) : (s.setSync n x).stateRows = s.stateRows := rfl
@[simp] theorem State.setSync_keysGone (n : Nat) (x : Sync) : (s.setSync n x).keysGone = s.keysGone := rfl
@[simp] theorem State.setSync_jtagOpen (n : Nat) (x : Sync) : (s.setSync n x).jtagOpen = s.jtagOpen := rfl
@[simp] theorem State.setSync_spdm (n : Nat) (x : Sync) : (s.setSync n x).spdm = s.spdm := rfl
@[simp] theorem State.setSync_jobKeys (n : Nat) (x : Sync) : (s.setSync n x).jobKeys = s.jobKeys := rfl
@[simp] theorem State.setSync_pkgRun (n : Nat) (x : Sync) : (s.setSync n x).pkgRun = s.pkgRun := rfl
@[simp] theorem State.setSync_spDown0 (n : Nat) (x : Sync) : (s.setSync n x).spDown0 = s.spDown0 := rfl
@[simp] theorem State.setSync_spDown1 (n : Nat) (x : Sync) : (s.setSync n x).spDown1 = s.spDown1 := rfl
@[simp] theorem State.setSync_freeCtr (n : Nat) (x : Sync) : (s.setSync n x).freeCtr = s.freeCtr := rfl
@[simp] theorem State.setSync_out (n : Nat) (x : Sync) : (s.setSync n x).out = s.out := rfl
@[simp] theorem State.setSync_obj (n : Nat) (x : Sync) (i' k' : Nat) : (s.setSync n x).obj i' k' = s.obj i' k' := rfl
@[simp] theorem State.setSync_core (n : Nat) (x : Sync) (m : Nat) : (s.setSync n x).core m = s.core m := rfl
@[simp] theorem State.setSync_part (n : Nat) (x : Sync) (m : Nat) : (s.setSync n x).part m = s.part m := rfl
@[simp] theorem State.setSync_conn (n : Nat) (x : Sync) (m : Nat) : (s.setSync n x).conn m = s.conn m := rfl
@[simp] theorem State.setSync_link (n : Nat) (x : Sync) (m : Nat) : (s.setSync n x).link m = s.link m := rfl
@[simp] theorem State.setSync_stream (n : Nat) (x : Sync) (m : Nat) : (s.setSync n x).stream m = s.stream m := rfl

/-! ### setConn -/

@[simp] theorem State.setConn_pending (n : Nat) (x : Conn) : (s.setConn n x).pending = s.pending := rfl
@[simp] theorem State.setConn_objs (n : Nat) (x : Conn) : (s.setConn n x).objs = s.objs := rfl
@[simp] theorem State.setConn_mem (n : Nat) (x : Conn) : (s.setConn n x).mem = s.mem := rfl
@[simp] theorem State.setConn_sramBad (n : Nat) (x : Conn) : (s.setConn n x).sramBad = s.sramBad := rfl
@[simp] theorem State.setConn_bulkBad (n : Nat) (x : Conn) : (s.setConn n x).bulkBad = s.bulkBad := rfl
@[simp] theorem State.setConn_cores (n : Nat) (x : Conn) : (s.setConn n x).cores = s.cores := rfl
@[simp] theorem State.setConn_redirects (n : Nat) (x : Conn) : (s.setConn n x).redirects = s.redirects := rfl
@[simp] theorem State.setConn_syncs (n : Nat) (x : Conn) : (s.setConn n x).syncs = s.syncs := rfl
@[simp] theorem State.setConn_parts (n : Nat) (x : Conn) : (s.setConn n x).parts = s.parts := rfl
@[simp] theorem State.setConn_colls (n : Nat) (x : Conn) : (s.setConn n x).colls = s.colls := rfl
@[simp] theorem State.setConn_collNext (n : Nat) (x : Conn) : (s.setConn n x).collNext = s.collNext := rfl
@[simp] theorem State.setConn_engines (n : Nat) (x : Conn) : (s.setConn n x).engines = s.engines := rfl
@[simp] theorem State.setConn_zeroJobs (n : Nat) (x : Conn) : (s.setConn n x).zeroJobs = s.zeroJobs := rfl
@[simp] theorem State.setConn_rings (n : Nat) (x : Conn) : (s.setConn n x).rings = s.rings := rfl
@[simp] theorem State.setConn_patrol (n : Nat) (x : Conn) : (s.setConn n x).patrol = s.patrol := rfl
@[simp] theorem State.setConn_debts (n : Nat) (x : Conn) : (s.setConn n x).debts = s.debts := rfl
@[simp] theorem State.setConn_shares (n : Nat) (x : Conn) : (s.setConn n x).shares = s.shares := rfl
@[simp] theorem State.setConn_masters (n : Nat) (x : Conn) : (s.setConn n x).masters = s.masters := rfl
@[simp] theorem State.setConn_sessions (n : Nat) (x : Conn) : (s.setConn n x).sessions = s.sessions := rfl
@[simp] theorem State.setConn_mbWaiting (n : Nat) (x : Conn) : (s.setConn n x).mbWaiting = s.mbWaiting := rfl
@[simp] theorem State.setConn_bar2 (n : Nat) (x : Conn) : (s.setConn n x).bar2 = s.bar2 := rfl
@[simp] theorem State.setConn_mbState (n : Nat) (x : Conn) : (s.setConn n x).mbState = s.mbState := rfl
@[simp] theorem State.setConn_mbIrq (n : Nat) (x : Conn) : (s.setConn n x).mbIrq = s.mbIrq := rfl
@[simp] theorem State.setConn_mbTag (n : Nat) (x : Conn) : (s.setConn n x).mbTag = s.mbTag := rfl
@[simp] theorem State.setConn_winBase (n : Nat) (x : Conn) : (s.setConn n x).winBase = s.winBase := rfl
@[simp] theorem State.setConn_mbDropped (n : Nat) (x : Conn) : (s.setConn n x).mbDropped = s.mbDropped := rfl
@[simp] theorem State.setConn_serverUp (n : Nat) (x : Conn) : (s.setConn n x).serverUp = s.serverUp := rfl
@[simp] theorem State.setConn_chain (n : Nat) (x : Conn) : (s.setConn n x).chain = s.chain := rfl
@[simp] theorem State.setConn_keys (n : Nat) (x : Conn) : (s.setConn n x).keys = s.keys := rfl
@[simp] theorem State.setConn_entryNext (n : Nat) (x : Conn) : (s.setConn n x).entryNext = s.entryNext := rfl
@[simp] theorem State.setConn_boreDrops (n : Nat) (x : Conn) : (s.setConn n x).boreDrops = s.boreDrops := rfl
@[simp] theorem State.setConn_job (n : Nat) (x : Conn) : (s.setConn n x).job = s.job := rfl
@[simp] theorem State.setConn_links (n : Nat) (x : Conn) : (s.setConn n x).links = s.links := rfl
@[simp] theorem State.setConn_streams (n : Nat) (x : Conn) : (s.setConn n x).streams = s.streams := rfl
@[simp] theorem State.setConn_lasers (n : Nat) (x : Conn) : (s.setConn n x).lasers = s.lasers := rfl
@[simp] theorem State.setConn_los (n : Nat) (x : Conn) : (s.setConn n x).los = s.los := rfl
@[simp] theorem State.setConn_gates (n : Nat) (x : Conn) : (s.setConn n x).gates = s.gates := rfl
@[simp] theorem State.setConn_log (n : Nat) (x : Conn) : (s.setConn n x).log = s.log := rfl
@[simp] theorem State.setConn_plog (n : Nat) (x : Conn) : (s.setConn n x).plog = s.plog := rfl
@[simp] theorem State.setConn_pwait (n : Nat) (x : Conn) : (s.setConn n x).pwait = s.pwait := rfl
@[simp] theorem State.setConn_seqNext (n : Nat) (x : Conn) : (s.setConn n x).seqNext = s.seqNext := rfl
@[simp] theorem State.setConn_seqEnd (n : Nat) (x : Conn) : (s.setConn n x).seqEnd = s.seqEnd := rfl
@[simp] theorem State.setConn_msCount (n : Nat) (x : Conn) : (s.setConn n x).msCount = s.msCount := rfl
@[simp] theorem State.setConn_msIndex (n : Nat) (x : Conn) : (s.setConn n x).msIndex = s.msIndex := rfl
@[simp] theorem State.setConn_gapDue (n : Nat) (x : Conn) : (s.setConn n x).gapDue = s.gapDue := rfl
@[simp] theorem State.setConn_winDrops (n : Nat) (x : Conn) : (s.setConn n x).winDrops = s.winDrops := rfl
@[simp] theorem State.setConn_bootSt (n : Nat) (x : Conn) : (s.setConn n x).bootSt = s.bootSt := rfl
@[simp] theorem State.setConn_pwrGood (n : Nat) (x : Conn) : (s.setConn n x).pwrGood = s.pwrGood := rfl
@[simp] theorem State.setConn_tripLow (n : Nat) (x : Conn) : (s.setConn n x).tripLow = s.tripLow := rfl
@[simp] theorem State.setConn_bootCause (n : Nat) (x : Conn) : (s.setConn n x).bootCause = s.bootCause := rfl
@[simp] theorem State.setConn_store (n : Nat) (x : Conn) : (s.setConn n x).store = s.store := rfl
@[simp] theorem State.setConn_wakeDue (n : Nat) (x : Conn) : (s.setConn n x).wakeDue = s.wakeDue := rfl
@[simp] theorem State.setConn_selfRefresh (n : Nat) (x : Conn) : (s.setConn n x).selfRefresh = s.selfRefresh := rfl
@[simp] theorem State.setConn_dutyLow (n : Nat) (x : Conn) : (s.setConn n x).dutyLow = s.dutyLow := rfl
@[simp] theorem State.setConn_granted (n : Nat) (x : Conn) : (s.setConn n x).granted = s.granted := rfl
@[simp] theorem State.setConn_dutyDue (n : Nat) (x : Conn) : (s.setConn n x).dutyDue = s.dutyDue := rfl
@[simp] theorem State.setConn_laserLogged (n : Nat) (x : Conn) : (s.setConn n x).laserLogged = s.laserLogged := rfl
@[simp] theorem State.setConn_laserBias (n : Nat) (x : Conn) : (s.setConn n x).laserBias = s.laserBias := rfl
@[simp] theorem State.setConn_erases (n : Nat) (x : Conn) : (s.setConn n x).erases = s.erases := rfl
@[simp] theorem State.setConn_tele (n : Nat) (x : Conn) : (s.setConn n x).tele = s.tele := rfl
@[simp] theorem State.setConn_tests (n : Nat) (x : Conn) : (s.setConn n x).tests = s.tests := rfl
@[simp] theorem State.setConn_flash (n : Nat) (x : Conn) : (s.setConn n x).flash = s.flash := rfl
@[simp] theorem State.setConn_accepted (n : Nat) (x : Conn) : (s.setConn n x).accepted = s.accepted := rfl
@[simp] theorem State.setConn_onChipHash (n : Nat) (x : Conn) : (s.setConn n x).onChipHash = s.onChipHash := rfl
@[simp] theorem State.setConn_member (n : Nat) (x : Conn) : (s.setConn n x).member = s.member := rfl
@[simp] theorem State.setConn_network (n : Nat) (x : Conn) : (s.setConn n x).network = s.network := rfl
@[simp] theorem State.setConn_intentRows (n : Nat) (x : Conn) : (s.setConn n x).intentRows = s.intentRows := rfl
@[simp] theorem State.setConn_stateRows (n : Nat) (x : Conn) : (s.setConn n x).stateRows = s.stateRows := rfl
@[simp] theorem State.setConn_keysGone (n : Nat) (x : Conn) : (s.setConn n x).keysGone = s.keysGone := rfl
@[simp] theorem State.setConn_jtagOpen (n : Nat) (x : Conn) : (s.setConn n x).jtagOpen = s.jtagOpen := rfl
@[simp] theorem State.setConn_spdm (n : Nat) (x : Conn) : (s.setConn n x).spdm = s.spdm := rfl
@[simp] theorem State.setConn_jobKeys (n : Nat) (x : Conn) : (s.setConn n x).jobKeys = s.jobKeys := rfl
@[simp] theorem State.setConn_pkgRun (n : Nat) (x : Conn) : (s.setConn n x).pkgRun = s.pkgRun := rfl
@[simp] theorem State.setConn_spDown0 (n : Nat) (x : Conn) : (s.setConn n x).spDown0 = s.spDown0 := rfl
@[simp] theorem State.setConn_spDown1 (n : Nat) (x : Conn) : (s.setConn n x).spDown1 = s.spDown1 := rfl
@[simp] theorem State.setConn_freeCtr (n : Nat) (x : Conn) : (s.setConn n x).freeCtr = s.freeCtr := rfl
@[simp] theorem State.setConn_out (n : Nat) (x : Conn) : (s.setConn n x).out = s.out := rfl
@[simp] theorem State.setConn_obj (n : Nat) (x : Conn) (i' k' : Nat) : (s.setConn n x).obj i' k' = s.obj i' k' := rfl
@[simp] theorem State.setConn_core (n : Nat) (x : Conn) (m : Nat) : (s.setConn n x).core m = s.core m := rfl
@[simp] theorem State.setConn_part (n : Nat) (x : Conn) (m : Nat) : (s.setConn n x).part m = s.part m := rfl
@[simp] theorem State.setConn_sync (n : Nat) (x : Conn) (m : Nat) : (s.setConn n x).sync m = s.sync m := rfl
@[simp] theorem State.setConn_link (n : Nat) (x : Conn) (m : Nat) : (s.setConn n x).link m = s.link m := rfl
@[simp] theorem State.setConn_stream (n : Nat) (x : Conn) (m : Nat) : (s.setConn n x).stream m = s.stream m := rfl

/-! ### setLink -/

@[simp] theorem State.setLink_pending (n : Nat) (x : Link) : (s.setLink n x).pending = s.pending := rfl
@[simp] theorem State.setLink_objs (n : Nat) (x : Link) : (s.setLink n x).objs = s.objs := rfl
@[simp] theorem State.setLink_mem (n : Nat) (x : Link) : (s.setLink n x).mem = s.mem := rfl
@[simp] theorem State.setLink_sramBad (n : Nat) (x : Link) : (s.setLink n x).sramBad = s.sramBad := rfl
@[simp] theorem State.setLink_bulkBad (n : Nat) (x : Link) : (s.setLink n x).bulkBad = s.bulkBad := rfl
@[simp] theorem State.setLink_cores (n : Nat) (x : Link) : (s.setLink n x).cores = s.cores := rfl
@[simp] theorem State.setLink_redirects (n : Nat) (x : Link) : (s.setLink n x).redirects = s.redirects := rfl
@[simp] theorem State.setLink_syncs (n : Nat) (x : Link) : (s.setLink n x).syncs = s.syncs := rfl
@[simp] theorem State.setLink_parts (n : Nat) (x : Link) : (s.setLink n x).parts = s.parts := rfl
@[simp] theorem State.setLink_colls (n : Nat) (x : Link) : (s.setLink n x).colls = s.colls := rfl
@[simp] theorem State.setLink_collNext (n : Nat) (x : Link) : (s.setLink n x).collNext = s.collNext := rfl
@[simp] theorem State.setLink_engines (n : Nat) (x : Link) : (s.setLink n x).engines = s.engines := rfl
@[simp] theorem State.setLink_zeroJobs (n : Nat) (x : Link) : (s.setLink n x).zeroJobs = s.zeroJobs := rfl
@[simp] theorem State.setLink_rings (n : Nat) (x : Link) : (s.setLink n x).rings = s.rings := rfl
@[simp] theorem State.setLink_patrol (n : Nat) (x : Link) : (s.setLink n x).patrol = s.patrol := rfl
@[simp] theorem State.setLink_debts (n : Nat) (x : Link) : (s.setLink n x).debts = s.debts := rfl
@[simp] theorem State.setLink_shares (n : Nat) (x : Link) : (s.setLink n x).shares = s.shares := rfl
@[simp] theorem State.setLink_masters (n : Nat) (x : Link) : (s.setLink n x).masters = s.masters := rfl
@[simp] theorem State.setLink_sessions (n : Nat) (x : Link) : (s.setLink n x).sessions = s.sessions := rfl
@[simp] theorem State.setLink_mbWaiting (n : Nat) (x : Link) : (s.setLink n x).mbWaiting = s.mbWaiting := rfl
@[simp] theorem State.setLink_bar2 (n : Nat) (x : Link) : (s.setLink n x).bar2 = s.bar2 := rfl
@[simp] theorem State.setLink_mbState (n : Nat) (x : Link) : (s.setLink n x).mbState = s.mbState := rfl
@[simp] theorem State.setLink_mbIrq (n : Nat) (x : Link) : (s.setLink n x).mbIrq = s.mbIrq := rfl
@[simp] theorem State.setLink_mbTag (n : Nat) (x : Link) : (s.setLink n x).mbTag = s.mbTag := rfl
@[simp] theorem State.setLink_winBase (n : Nat) (x : Link) : (s.setLink n x).winBase = s.winBase := rfl
@[simp] theorem State.setLink_mbDropped (n : Nat) (x : Link) : (s.setLink n x).mbDropped = s.mbDropped := rfl
@[simp] theorem State.setLink_serverUp (n : Nat) (x : Link) : (s.setLink n x).serverUp = s.serverUp := rfl
@[simp] theorem State.setLink_chain (n : Nat) (x : Link) : (s.setLink n x).chain = s.chain := rfl
@[simp] theorem State.setLink_conns (n : Nat) (x : Link) : (s.setLink n x).conns = s.conns := rfl
@[simp] theorem State.setLink_keys (n : Nat) (x : Link) : (s.setLink n x).keys = s.keys := rfl
@[simp] theorem State.setLink_entryNext (n : Nat) (x : Link) : (s.setLink n x).entryNext = s.entryNext := rfl
@[simp] theorem State.setLink_boreDrops (n : Nat) (x : Link) : (s.setLink n x).boreDrops = s.boreDrops := rfl
@[simp] theorem State.setLink_job (n : Nat) (x : Link) : (s.setLink n x).job = s.job := rfl
@[simp] theorem State.setLink_streams (n : Nat) (x : Link) : (s.setLink n x).streams = s.streams := rfl
@[simp] theorem State.setLink_lasers (n : Nat) (x : Link) : (s.setLink n x).lasers = s.lasers := rfl
@[simp] theorem State.setLink_los (n : Nat) (x : Link) : (s.setLink n x).los = s.los := rfl
@[simp] theorem State.setLink_gates (n : Nat) (x : Link) : (s.setLink n x).gates = s.gates := rfl
@[simp] theorem State.setLink_log (n : Nat) (x : Link) : (s.setLink n x).log = s.log := rfl
@[simp] theorem State.setLink_plog (n : Nat) (x : Link) : (s.setLink n x).plog = s.plog := rfl
@[simp] theorem State.setLink_pwait (n : Nat) (x : Link) : (s.setLink n x).pwait = s.pwait := rfl
@[simp] theorem State.setLink_seqNext (n : Nat) (x : Link) : (s.setLink n x).seqNext = s.seqNext := rfl
@[simp] theorem State.setLink_seqEnd (n : Nat) (x : Link) : (s.setLink n x).seqEnd = s.seqEnd := rfl
@[simp] theorem State.setLink_msCount (n : Nat) (x : Link) : (s.setLink n x).msCount = s.msCount := rfl
@[simp] theorem State.setLink_msIndex (n : Nat) (x : Link) : (s.setLink n x).msIndex = s.msIndex := rfl
@[simp] theorem State.setLink_gapDue (n : Nat) (x : Link) : (s.setLink n x).gapDue = s.gapDue := rfl
@[simp] theorem State.setLink_winDrops (n : Nat) (x : Link) : (s.setLink n x).winDrops = s.winDrops := rfl
@[simp] theorem State.setLink_bootSt (n : Nat) (x : Link) : (s.setLink n x).bootSt = s.bootSt := rfl
@[simp] theorem State.setLink_pwrGood (n : Nat) (x : Link) : (s.setLink n x).pwrGood = s.pwrGood := rfl
@[simp] theorem State.setLink_tripLow (n : Nat) (x : Link) : (s.setLink n x).tripLow = s.tripLow := rfl
@[simp] theorem State.setLink_bootCause (n : Nat) (x : Link) : (s.setLink n x).bootCause = s.bootCause := rfl
@[simp] theorem State.setLink_store (n : Nat) (x : Link) : (s.setLink n x).store = s.store := rfl
@[simp] theorem State.setLink_wakeDue (n : Nat) (x : Link) : (s.setLink n x).wakeDue = s.wakeDue := rfl
@[simp] theorem State.setLink_selfRefresh (n : Nat) (x : Link) : (s.setLink n x).selfRefresh = s.selfRefresh := rfl
@[simp] theorem State.setLink_dutyLow (n : Nat) (x : Link) : (s.setLink n x).dutyLow = s.dutyLow := rfl
@[simp] theorem State.setLink_granted (n : Nat) (x : Link) : (s.setLink n x).granted = s.granted := rfl
@[simp] theorem State.setLink_dutyDue (n : Nat) (x : Link) : (s.setLink n x).dutyDue = s.dutyDue := rfl
@[simp] theorem State.setLink_laserLogged (n : Nat) (x : Link) : (s.setLink n x).laserLogged = s.laserLogged := rfl
@[simp] theorem State.setLink_laserBias (n : Nat) (x : Link) : (s.setLink n x).laserBias = s.laserBias := rfl
@[simp] theorem State.setLink_erases (n : Nat) (x : Link) : (s.setLink n x).erases = s.erases := rfl
@[simp] theorem State.setLink_tele (n : Nat) (x : Link) : (s.setLink n x).tele = s.tele := rfl
@[simp] theorem State.setLink_tests (n : Nat) (x : Link) : (s.setLink n x).tests = s.tests := rfl
@[simp] theorem State.setLink_flash (n : Nat) (x : Link) : (s.setLink n x).flash = s.flash := rfl
@[simp] theorem State.setLink_accepted (n : Nat) (x : Link) : (s.setLink n x).accepted = s.accepted := rfl
@[simp] theorem State.setLink_onChipHash (n : Nat) (x : Link) : (s.setLink n x).onChipHash = s.onChipHash := rfl
@[simp] theorem State.setLink_member (n : Nat) (x : Link) : (s.setLink n x).member = s.member := rfl
@[simp] theorem State.setLink_network (n : Nat) (x : Link) : (s.setLink n x).network = s.network := rfl
@[simp] theorem State.setLink_intentRows (n : Nat) (x : Link) : (s.setLink n x).intentRows = s.intentRows := rfl
@[simp] theorem State.setLink_stateRows (n : Nat) (x : Link) : (s.setLink n x).stateRows = s.stateRows := rfl
@[simp] theorem State.setLink_keysGone (n : Nat) (x : Link) : (s.setLink n x).keysGone = s.keysGone := rfl
@[simp] theorem State.setLink_jtagOpen (n : Nat) (x : Link) : (s.setLink n x).jtagOpen = s.jtagOpen := rfl
@[simp] theorem State.setLink_spdm (n : Nat) (x : Link) : (s.setLink n x).spdm = s.spdm := rfl
@[simp] theorem State.setLink_jobKeys (n : Nat) (x : Link) : (s.setLink n x).jobKeys = s.jobKeys := rfl
@[simp] theorem State.setLink_pkgRun (n : Nat) (x : Link) : (s.setLink n x).pkgRun = s.pkgRun := rfl
@[simp] theorem State.setLink_spDown0 (n : Nat) (x : Link) : (s.setLink n x).spDown0 = s.spDown0 := rfl
@[simp] theorem State.setLink_spDown1 (n : Nat) (x : Link) : (s.setLink n x).spDown1 = s.spDown1 := rfl
@[simp] theorem State.setLink_freeCtr (n : Nat) (x : Link) : (s.setLink n x).freeCtr = s.freeCtr := rfl
@[simp] theorem State.setLink_out (n : Nat) (x : Link) : (s.setLink n x).out = s.out := rfl
@[simp] theorem State.setLink_obj (n : Nat) (x : Link) (i' k' : Nat) : (s.setLink n x).obj i' k' = s.obj i' k' := rfl
@[simp] theorem State.setLink_core (n : Nat) (x : Link) (m : Nat) : (s.setLink n x).core m = s.core m := rfl
@[simp] theorem State.setLink_part (n : Nat) (x : Link) (m : Nat) : (s.setLink n x).part m = s.part m := rfl
@[simp] theorem State.setLink_sync (n : Nat) (x : Link) (m : Nat) : (s.setLink n x).sync m = s.sync m := rfl
@[simp] theorem State.setLink_conn (n : Nat) (x : Link) (m : Nat) : (s.setLink n x).conn m = s.conn m := rfl
@[simp] theorem State.setLink_stream (n : Nat) (x : Link) (m : Nat) : (s.setLink n x).stream m = s.stream m := rfl

/-! ### setStream -/

@[simp] theorem State.setStream_pending (n : Nat) (x : Stream) : (s.setStream n x).pending = s.pending := rfl
@[simp] theorem State.setStream_objs (n : Nat) (x : Stream) : (s.setStream n x).objs = s.objs := rfl
@[simp] theorem State.setStream_mem (n : Nat) (x : Stream) : (s.setStream n x).mem = s.mem := rfl
@[simp] theorem State.setStream_sramBad (n : Nat) (x : Stream) : (s.setStream n x).sramBad = s.sramBad := rfl
@[simp] theorem State.setStream_bulkBad (n : Nat) (x : Stream) : (s.setStream n x).bulkBad = s.bulkBad := rfl
@[simp] theorem State.setStream_cores (n : Nat) (x : Stream) : (s.setStream n x).cores = s.cores := rfl
@[simp] theorem State.setStream_redirects (n : Nat) (x : Stream) : (s.setStream n x).redirects = s.redirects := rfl
@[simp] theorem State.setStream_syncs (n : Nat) (x : Stream) : (s.setStream n x).syncs = s.syncs := rfl
@[simp] theorem State.setStream_parts (n : Nat) (x : Stream) : (s.setStream n x).parts = s.parts := rfl
@[simp] theorem State.setStream_colls (n : Nat) (x : Stream) : (s.setStream n x).colls = s.colls := rfl
@[simp] theorem State.setStream_collNext (n : Nat) (x : Stream) : (s.setStream n x).collNext = s.collNext := rfl
@[simp] theorem State.setStream_engines (n : Nat) (x : Stream) : (s.setStream n x).engines = s.engines := rfl
@[simp] theorem State.setStream_zeroJobs (n : Nat) (x : Stream) : (s.setStream n x).zeroJobs = s.zeroJobs := rfl
@[simp] theorem State.setStream_rings (n : Nat) (x : Stream) : (s.setStream n x).rings = s.rings := rfl
@[simp] theorem State.setStream_patrol (n : Nat) (x : Stream) : (s.setStream n x).patrol = s.patrol := rfl
@[simp] theorem State.setStream_debts (n : Nat) (x : Stream) : (s.setStream n x).debts = s.debts := rfl
@[simp] theorem State.setStream_shares (n : Nat) (x : Stream) : (s.setStream n x).shares = s.shares := rfl
@[simp] theorem State.setStream_masters (n : Nat) (x : Stream) : (s.setStream n x).masters = s.masters := rfl
@[simp] theorem State.setStream_sessions (n : Nat) (x : Stream) : (s.setStream n x).sessions = s.sessions := rfl
@[simp] theorem State.setStream_mbWaiting (n : Nat) (x : Stream) : (s.setStream n x).mbWaiting = s.mbWaiting := rfl
@[simp] theorem State.setStream_bar2 (n : Nat) (x : Stream) : (s.setStream n x).bar2 = s.bar2 := rfl
@[simp] theorem State.setStream_mbState (n : Nat) (x : Stream) : (s.setStream n x).mbState = s.mbState := rfl
@[simp] theorem State.setStream_mbIrq (n : Nat) (x : Stream) : (s.setStream n x).mbIrq = s.mbIrq := rfl
@[simp] theorem State.setStream_mbTag (n : Nat) (x : Stream) : (s.setStream n x).mbTag = s.mbTag := rfl
@[simp] theorem State.setStream_winBase (n : Nat) (x : Stream) : (s.setStream n x).winBase = s.winBase := rfl
@[simp] theorem State.setStream_mbDropped (n : Nat) (x : Stream) : (s.setStream n x).mbDropped = s.mbDropped := rfl
@[simp] theorem State.setStream_serverUp (n : Nat) (x : Stream) : (s.setStream n x).serverUp = s.serverUp := rfl
@[simp] theorem State.setStream_chain (n : Nat) (x : Stream) : (s.setStream n x).chain = s.chain := rfl
@[simp] theorem State.setStream_conns (n : Nat) (x : Stream) : (s.setStream n x).conns = s.conns := rfl
@[simp] theorem State.setStream_keys (n : Nat) (x : Stream) : (s.setStream n x).keys = s.keys := rfl
@[simp] theorem State.setStream_entryNext (n : Nat) (x : Stream) : (s.setStream n x).entryNext = s.entryNext := rfl
@[simp] theorem State.setStream_boreDrops (n : Nat) (x : Stream) : (s.setStream n x).boreDrops = s.boreDrops := rfl
@[simp] theorem State.setStream_job (n : Nat) (x : Stream) : (s.setStream n x).job = s.job := rfl
@[simp] theorem State.setStream_links (n : Nat) (x : Stream) : (s.setStream n x).links = s.links := rfl
@[simp] theorem State.setStream_lasers (n : Nat) (x : Stream) : (s.setStream n x).lasers = s.lasers := rfl
@[simp] theorem State.setStream_los (n : Nat) (x : Stream) : (s.setStream n x).los = s.los := rfl
@[simp] theorem State.setStream_gates (n : Nat) (x : Stream) : (s.setStream n x).gates = s.gates := rfl
@[simp] theorem State.setStream_log (n : Nat) (x : Stream) : (s.setStream n x).log = s.log := rfl
@[simp] theorem State.setStream_plog (n : Nat) (x : Stream) : (s.setStream n x).plog = s.plog := rfl
@[simp] theorem State.setStream_pwait (n : Nat) (x : Stream) : (s.setStream n x).pwait = s.pwait := rfl
@[simp] theorem State.setStream_seqNext (n : Nat) (x : Stream) : (s.setStream n x).seqNext = s.seqNext := rfl
@[simp] theorem State.setStream_seqEnd (n : Nat) (x : Stream) : (s.setStream n x).seqEnd = s.seqEnd := rfl
@[simp] theorem State.setStream_msCount (n : Nat) (x : Stream) : (s.setStream n x).msCount = s.msCount := rfl
@[simp] theorem State.setStream_msIndex (n : Nat) (x : Stream) : (s.setStream n x).msIndex = s.msIndex := rfl
@[simp] theorem State.setStream_gapDue (n : Nat) (x : Stream) : (s.setStream n x).gapDue = s.gapDue := rfl
@[simp] theorem State.setStream_winDrops (n : Nat) (x : Stream) : (s.setStream n x).winDrops = s.winDrops := rfl
@[simp] theorem State.setStream_bootSt (n : Nat) (x : Stream) : (s.setStream n x).bootSt = s.bootSt := rfl
@[simp] theorem State.setStream_pwrGood (n : Nat) (x : Stream) : (s.setStream n x).pwrGood = s.pwrGood := rfl
@[simp] theorem State.setStream_tripLow (n : Nat) (x : Stream) : (s.setStream n x).tripLow = s.tripLow := rfl
@[simp] theorem State.setStream_bootCause (n : Nat) (x : Stream) : (s.setStream n x).bootCause = s.bootCause := rfl
@[simp] theorem State.setStream_store (n : Nat) (x : Stream) : (s.setStream n x).store = s.store := rfl
@[simp] theorem State.setStream_wakeDue (n : Nat) (x : Stream) : (s.setStream n x).wakeDue = s.wakeDue := rfl
@[simp] theorem State.setStream_selfRefresh (n : Nat) (x : Stream) : (s.setStream n x).selfRefresh = s.selfRefresh := rfl
@[simp] theorem State.setStream_dutyLow (n : Nat) (x : Stream) : (s.setStream n x).dutyLow = s.dutyLow := rfl
@[simp] theorem State.setStream_granted (n : Nat) (x : Stream) : (s.setStream n x).granted = s.granted := rfl
@[simp] theorem State.setStream_dutyDue (n : Nat) (x : Stream) : (s.setStream n x).dutyDue = s.dutyDue := rfl
@[simp] theorem State.setStream_laserLogged (n : Nat) (x : Stream) : (s.setStream n x).laserLogged = s.laserLogged := rfl
@[simp] theorem State.setStream_laserBias (n : Nat) (x : Stream) : (s.setStream n x).laserBias = s.laserBias := rfl
@[simp] theorem State.setStream_erases (n : Nat) (x : Stream) : (s.setStream n x).erases = s.erases := rfl
@[simp] theorem State.setStream_tele (n : Nat) (x : Stream) : (s.setStream n x).tele = s.tele := rfl
@[simp] theorem State.setStream_tests (n : Nat) (x : Stream) : (s.setStream n x).tests = s.tests := rfl
@[simp] theorem State.setStream_flash (n : Nat) (x : Stream) : (s.setStream n x).flash = s.flash := rfl
@[simp] theorem State.setStream_accepted (n : Nat) (x : Stream) : (s.setStream n x).accepted = s.accepted := rfl
@[simp] theorem State.setStream_onChipHash (n : Nat) (x : Stream) : (s.setStream n x).onChipHash = s.onChipHash := rfl
@[simp] theorem State.setStream_member (n : Nat) (x : Stream) : (s.setStream n x).member = s.member := rfl
@[simp] theorem State.setStream_network (n : Nat) (x : Stream) : (s.setStream n x).network = s.network := rfl
@[simp] theorem State.setStream_intentRows (n : Nat) (x : Stream) : (s.setStream n x).intentRows = s.intentRows := rfl
@[simp] theorem State.setStream_stateRows (n : Nat) (x : Stream) : (s.setStream n x).stateRows = s.stateRows := rfl
@[simp] theorem State.setStream_keysGone (n : Nat) (x : Stream) : (s.setStream n x).keysGone = s.keysGone := rfl
@[simp] theorem State.setStream_jtagOpen (n : Nat) (x : Stream) : (s.setStream n x).jtagOpen = s.jtagOpen := rfl
@[simp] theorem State.setStream_spdm (n : Nat) (x : Stream) : (s.setStream n x).spdm = s.spdm := rfl
@[simp] theorem State.setStream_jobKeys (n : Nat) (x : Stream) : (s.setStream n x).jobKeys = s.jobKeys := rfl
@[simp] theorem State.setStream_pkgRun (n : Nat) (x : Stream) : (s.setStream n x).pkgRun = s.pkgRun := rfl
@[simp] theorem State.setStream_spDown0 (n : Nat) (x : Stream) : (s.setStream n x).spDown0 = s.spDown0 := rfl
@[simp] theorem State.setStream_spDown1 (n : Nat) (x : Stream) : (s.setStream n x).spDown1 = s.spDown1 := rfl
@[simp] theorem State.setStream_freeCtr (n : Nat) (x : Stream) : (s.setStream n x).freeCtr = s.freeCtr := rfl
@[simp] theorem State.setStream_out (n : Nat) (x : Stream) : (s.setStream n x).out = s.out := rfl
@[simp] theorem State.setStream_obj (n : Nat) (x : Stream) (i' k' : Nat) : (s.setStream n x).obj i' k' = s.obj i' k' := rfl
@[simp] theorem State.setStream_core (n : Nat) (x : Stream) (m : Nat) : (s.setStream n x).core m = s.core m := rfl
@[simp] theorem State.setStream_part (n : Nat) (x : Stream) (m : Nat) : (s.setStream n x).part m = s.part m := rfl
@[simp] theorem State.setStream_sync (n : Nat) (x : Stream) (m : Nat) : (s.setStream n x).sync m = s.sync m := rfl
@[simp] theorem State.setStream_conn (n : Nat) (x : Stream) (m : Nat) : (s.setStream n x).conn m = s.conn m := rfl
@[simp] theorem State.setStream_link (n : Nat) (x : Stream) (m : Nat) : (s.setStream n x).link m = s.link m := rfl

/-! ### emit -/

@[simp] theorem State.emit_pending (o : Output) : (s.emit o).pending = s.pending := rfl
@[simp] theorem State.emit_objs (o : Output) : (s.emit o).objs = s.objs := rfl
@[simp] theorem State.emit_mem (o : Output) : (s.emit o).mem = s.mem := rfl
@[simp] theorem State.emit_sramBad (o : Output) : (s.emit o).sramBad = s.sramBad := rfl
@[simp] theorem State.emit_bulkBad (o : Output) : (s.emit o).bulkBad = s.bulkBad := rfl
@[simp] theorem State.emit_cores (o : Output) : (s.emit o).cores = s.cores := rfl
@[simp] theorem State.emit_redirects (o : Output) : (s.emit o).redirects = s.redirects := rfl
@[simp] theorem State.emit_syncs (o : Output) : (s.emit o).syncs = s.syncs := rfl
@[simp] theorem State.emit_parts (o : Output) : (s.emit o).parts = s.parts := rfl
@[simp] theorem State.emit_colls (o : Output) : (s.emit o).colls = s.colls := rfl
@[simp] theorem State.emit_collNext (o : Output) : (s.emit o).collNext = s.collNext := rfl
@[simp] theorem State.emit_engines (o : Output) : (s.emit o).engines = s.engines := rfl
@[simp] theorem State.emit_zeroJobs (o : Output) : (s.emit o).zeroJobs = s.zeroJobs := rfl
@[simp] theorem State.emit_rings (o : Output) : (s.emit o).rings = s.rings := rfl
@[simp] theorem State.emit_patrol (o : Output) : (s.emit o).patrol = s.patrol := rfl
@[simp] theorem State.emit_debts (o : Output) : (s.emit o).debts = s.debts := rfl
@[simp] theorem State.emit_shares (o : Output) : (s.emit o).shares = s.shares := rfl
@[simp] theorem State.emit_masters (o : Output) : (s.emit o).masters = s.masters := rfl
@[simp] theorem State.emit_sessions (o : Output) : (s.emit o).sessions = s.sessions := rfl
@[simp] theorem State.emit_mbWaiting (o : Output) : (s.emit o).mbWaiting = s.mbWaiting := rfl
@[simp] theorem State.emit_bar2 (o : Output) : (s.emit o).bar2 = s.bar2 := rfl
@[simp] theorem State.emit_mbState (o : Output) : (s.emit o).mbState = s.mbState := rfl
@[simp] theorem State.emit_mbIrq (o : Output) : (s.emit o).mbIrq = s.mbIrq := rfl
@[simp] theorem State.emit_mbTag (o : Output) : (s.emit o).mbTag = s.mbTag := rfl
@[simp] theorem State.emit_winBase (o : Output) : (s.emit o).winBase = s.winBase := rfl
@[simp] theorem State.emit_mbDropped (o : Output) : (s.emit o).mbDropped = s.mbDropped := rfl
@[simp] theorem State.emit_serverUp (o : Output) : (s.emit o).serverUp = s.serverUp := rfl
@[simp] theorem State.emit_chain (o : Output) : (s.emit o).chain = s.chain := rfl
@[simp] theorem State.emit_conns (o : Output) : (s.emit o).conns = s.conns := rfl
@[simp] theorem State.emit_keys (o : Output) : (s.emit o).keys = s.keys := rfl
@[simp] theorem State.emit_entryNext (o : Output) : (s.emit o).entryNext = s.entryNext := rfl
@[simp] theorem State.emit_boreDrops (o : Output) : (s.emit o).boreDrops = s.boreDrops := rfl
@[simp] theorem State.emit_job (o : Output) : (s.emit o).job = s.job := rfl
@[simp] theorem State.emit_links (o : Output) : (s.emit o).links = s.links := rfl
@[simp] theorem State.emit_streams (o : Output) : (s.emit o).streams = s.streams := rfl
@[simp] theorem State.emit_lasers (o : Output) : (s.emit o).lasers = s.lasers := rfl
@[simp] theorem State.emit_los (o : Output) : (s.emit o).los = s.los := rfl
@[simp] theorem State.emit_gates (o : Output) : (s.emit o).gates = s.gates := rfl
@[simp] theorem State.emit_log (o : Output) : (s.emit o).log = s.log := rfl
@[simp] theorem State.emit_plog (o : Output) : (s.emit o).plog = s.plog := rfl
@[simp] theorem State.emit_pwait (o : Output) : (s.emit o).pwait = s.pwait := rfl
@[simp] theorem State.emit_seqNext (o : Output) : (s.emit o).seqNext = s.seqNext := rfl
@[simp] theorem State.emit_seqEnd (o : Output) : (s.emit o).seqEnd = s.seqEnd := rfl
@[simp] theorem State.emit_msCount (o : Output) : (s.emit o).msCount = s.msCount := rfl
@[simp] theorem State.emit_msIndex (o : Output) : (s.emit o).msIndex = s.msIndex := rfl
@[simp] theorem State.emit_gapDue (o : Output) : (s.emit o).gapDue = s.gapDue := rfl
@[simp] theorem State.emit_winDrops (o : Output) : (s.emit o).winDrops = s.winDrops := rfl
@[simp] theorem State.emit_bootSt (o : Output) : (s.emit o).bootSt = s.bootSt := rfl
@[simp] theorem State.emit_pwrGood (o : Output) : (s.emit o).pwrGood = s.pwrGood := rfl
@[simp] theorem State.emit_tripLow (o : Output) : (s.emit o).tripLow = s.tripLow := rfl
@[simp] theorem State.emit_bootCause (o : Output) : (s.emit o).bootCause = s.bootCause := rfl
@[simp] theorem State.emit_store (o : Output) : (s.emit o).store = s.store := rfl
@[simp] theorem State.emit_wakeDue (o : Output) : (s.emit o).wakeDue = s.wakeDue := rfl
@[simp] theorem State.emit_selfRefresh (o : Output) : (s.emit o).selfRefresh = s.selfRefresh := rfl
@[simp] theorem State.emit_dutyLow (o : Output) : (s.emit o).dutyLow = s.dutyLow := rfl
@[simp] theorem State.emit_granted (o : Output) : (s.emit o).granted = s.granted := rfl
@[simp] theorem State.emit_dutyDue (o : Output) : (s.emit o).dutyDue = s.dutyDue := rfl
@[simp] theorem State.emit_laserLogged (o : Output) : (s.emit o).laserLogged = s.laserLogged := rfl
@[simp] theorem State.emit_laserBias (o : Output) : (s.emit o).laserBias = s.laserBias := rfl
@[simp] theorem State.emit_erases (o : Output) : (s.emit o).erases = s.erases := rfl
@[simp] theorem State.emit_tele (o : Output) : (s.emit o).tele = s.tele := rfl
@[simp] theorem State.emit_tests (o : Output) : (s.emit o).tests = s.tests := rfl
@[simp] theorem State.emit_flash (o : Output) : (s.emit o).flash = s.flash := rfl
@[simp] theorem State.emit_accepted (o : Output) : (s.emit o).accepted = s.accepted := rfl
@[simp] theorem State.emit_onChipHash (o : Output) : (s.emit o).onChipHash = s.onChipHash := rfl
@[simp] theorem State.emit_member (o : Output) : (s.emit o).member = s.member := rfl
@[simp] theorem State.emit_network (o : Output) : (s.emit o).network = s.network := rfl
@[simp] theorem State.emit_intentRows (o : Output) : (s.emit o).intentRows = s.intentRows := rfl
@[simp] theorem State.emit_stateRows (o : Output) : (s.emit o).stateRows = s.stateRows := rfl
@[simp] theorem State.emit_keysGone (o : Output) : (s.emit o).keysGone = s.keysGone := rfl
@[simp] theorem State.emit_jtagOpen (o : Output) : (s.emit o).jtagOpen = s.jtagOpen := rfl
@[simp] theorem State.emit_spdm (o : Output) : (s.emit o).spdm = s.spdm := rfl
@[simp] theorem State.emit_jobKeys (o : Output) : (s.emit o).jobKeys = s.jobKeys := rfl
@[simp] theorem State.emit_pkgRun (o : Output) : (s.emit o).pkgRun = s.pkgRun := rfl
@[simp] theorem State.emit_spDown0 (o : Output) : (s.emit o).spDown0 = s.spDown0 := rfl
@[simp] theorem State.emit_spDown1 (o : Output) : (s.emit o).spDown1 = s.spDown1 := rfl
@[simp] theorem State.emit_freeCtr (o : Output) : (s.emit o).freeCtr = s.freeCtr := rfl
@[simp] theorem State.emit_obj (o : Output) (i' k' : Nat) : (s.emit o).obj i' k' = s.obj i' k' := rfl
@[simp] theorem State.emit_core (o : Output) (m : Nat) : (s.emit o).core m = s.core m := rfl
@[simp] theorem State.emit_part (o : Output) (m : Nat) : (s.emit o).part m = s.part m := rfl
@[simp] theorem State.emit_sync (o : Output) (m : Nat) : (s.emit o).sync m = s.sync m := rfl
@[simp] theorem State.emit_conn (o : Output) (m : Nat) : (s.emit o).conn m = s.conn m := rfl
@[simp] theorem State.emit_link (o : Output) (m : Nat) : (s.emit o).link m = s.link m := rfl
@[simp] theorem State.emit_stream (o : Output) (m : Nat) : (s.emit o).stream m = s.stream m := rfl

/-! ### Reading what was written -/

@[simp] theorem State.setCore_core_self (n : Nat) (x : Core) : (s.setCore n x).core n = x := Tab.get_set_self _ _ _
theorem State.setCore_core_ne (n : Nat) (x : Core) (m : Nat) (h : m ≠ n) : (s.setCore n x).core m = s.core m := Tab.get_set_of_ne _ _ h
theorem State.setCore_core_eq (n : Nat) (x : Core) (m : Nat) : (s.setCore n x).core m = if m = n then x else s.core m := Tab.get_set _ _ _ _
@[simp] theorem State.setPart_part_self (n : Nat) (x : Part) : (s.setPart n x).part n = x := Tab.get_set_self _ _ _
theorem State.setPart_part_ne (n : Nat) (x : Part) (m : Nat) (h : m ≠ n) : (s.setPart n x).part m = s.part m := Tab.get_set_of_ne _ _ h
theorem State.setPart_part_eq (n : Nat) (x : Part) (m : Nat) : (s.setPart n x).part m = if m = n then x else s.part m := Tab.get_set _ _ _ _
@[simp] theorem State.setSync_sync_self (n : Nat) (x : Sync) : (s.setSync n x).sync n = x := Tab.get_set_self _ _ _
theorem State.setSync_sync_ne (n : Nat) (x : Sync) (m : Nat) (h : m ≠ n) : (s.setSync n x).sync m = s.sync m := Tab.get_set_of_ne _ _ h
theorem State.setSync_sync_eq (n : Nat) (x : Sync) (m : Nat) : (s.setSync n x).sync m = if m = n then x else s.sync m := Tab.get_set _ _ _ _
@[simp] theorem State.setConn_conn_self (n : Nat) (x : Conn) : (s.setConn n x).conn n = x := Tab.get_set_self _ _ _
theorem State.setConn_conn_ne (n : Nat) (x : Conn) (m : Nat) (h : m ≠ n) : (s.setConn n x).conn m = s.conn m := Tab.get_set_of_ne _ _ h
theorem State.setConn_conn_eq (n : Nat) (x : Conn) (m : Nat) : (s.setConn n x).conn m = if m = n then x else s.conn m := Tab.get_set _ _ _ _
@[simp] theorem State.setLink_link_self (n : Nat) (x : Link) : (s.setLink n x).link n = x := Tab.get_set_self _ _ _
theorem State.setLink_link_ne (n : Nat) (x : Link) (m : Nat) (h : m ≠ n) : (s.setLink n x).link m = s.link m := Tab.get_set_of_ne _ _ h
theorem State.setLink_link_eq (n : Nat) (x : Link) (m : Nat) : (s.setLink n x).link m = if m = n then x else s.link m := Tab.get_set _ _ _ _
@[simp] theorem State.setStream_stream_self (n : Nat) (x : Stream) : (s.setStream n x).stream n = x := Tab.get_set_self _ _ _
theorem State.setStream_stream_ne (n : Nat) (x : Stream) (m : Nat) (h : m ≠ n) : (s.setStream n x).stream m = s.stream m := Tab.get_set_of_ne _ _ h
theorem State.setStream_stream_eq (n : Nat) (x : Stream) (m : Nat) : (s.setStream n x).stream m = if m = n then x else s.stream m := Tab.get_set _ _ _ _

@[simp] theorem State.setObj_obj_self (i k v : Nat) : (s.setObj i k v).obj i k = v := Tab.get_set_self _ _ _

/-- Subindexes are below 256: two registers are one only when index and subindex agree. -/
theorem objKey_inj {i k j l : Nat} (hk : k < 256) (hl : l < 256) (h : objKey i k = objKey j l) : i = j ∧ k = l := by
  simp only [objKey] at h
  omega

theorem State.setObj_obj_ne (i k v j l : Nat) (hk : k < 256) (hl : l < 256) (h : (j, l) ≠ (i, k)) :
    (s.setObj i k v).obj j l = s.obj j l := by
  refine Tab.get_set_of_ne _ _ fun e => h ?_
  obtain ⟨rfl, rfl⟩ := objKey_inj hl hk e
  rfl

theorem State.setObj_obj_eq (i k v j l : Nat) (hk : k < 256) (hl : l < 256) :
    (s.setObj i k v).obj j l = if j = i ∧ l = k then v else s.obj j l := by
  split
  · next h => rw [h.1, h.2, State.setObj_obj_self]
  · next h => exact State.setObj_obj_ne s i k v j l hk hl fun e => h (by simpa using e)

@[simp] theorem State.emit_out (o : Output) : (s.emit o).out = o :: s.out := rfl

/-- A counter is a register written. -/
theorem State.count_eq (i k w n : Nat) : s.count i k w n = s.setObj i k (counterAt w (s.obj i k + n)) := rfl

theorem State.countSat_eq (i k w n : Nat) : s.countSat i k w n = s.setObj i k (saturateAt w (s.obj i k + n)) := rfl

end Sys2Proof.Machine
end

