-- ==== Sys2Proof/Laws/Memory.lean ====
section
/-! SUPPORT. How memory reads after each operation that changes it: a read after a write to the same place gives what was
written, and a write leaves every other byte. A word that the holding buffer gives up is read as before (R127). -/

namespace Sys2Proof.Machine

/-! ### The holding buffer -/

theorem bytesOf_getElem? (n v i : Nat) : (bytesOf n v)[i]? = if i < n then some (BitVec.ofNat 8 (v / 256 ^ i)) else none := by
  induction n generalizing v i with
  | zero => simp [bytesOf]
  | succ n ih =>
    cases i with
    | zero => simp [bytesOf]
    | succ i =>
      rw [bytesOf, List.getElem?_cons_succ, ih, Nat.div_div_eq_div_mul]
      simp only [Nat.add_lt_add_iff_right, Nat.pow_succ, Nat.mul_comm]

theorem heldData_cons (h : HeldWord) (l : List HeldWord) (w : Nat) :
    heldData (h :: l) w = if h.word = w then some h.data else heldData l w := by
  simp only [heldData, List.find?_cons]
  split
  · next e => simp_all
  · next e => simp_all

/-- A filter that looks at the word alone keeps every entry of a word or none. -/
theorem heldData_filter (l : List HeldWord) (P : Nat → Bool) (w : Nat) :
    heldData (l.filter fun h => P h.word) w = if P w then heldData l w else none := by
  induction l with
  | nil => simp [heldData]
  | cons h l ih =>
    rw [List.filter_cons, heldData_cons]
    split
    · next hp =>
      rw [heldData_cons, ih]
      split
      · next e => rw [← e, if_pos hp]
      · rfl
    · next hp =>
      rw [ih]
      by_cases e : h.word = w
      · rw [if_neg (e ▸ hp), if_neg (e ▸ hp)]
      · rw [if_neg e]

theorem heldData_of_ge (l : List HeldWord) (w n : Nat) (hl : ∀ h ∈ l, h.word < n) (hw : n ≤ w) : heldData l w = none := by
  simp only [heldData, Option.map_eq_none_iff, List.find?_eq_none, beq_iff_eq]
  intro h hh e
  have := hl h hh
  omega

/-- The byte of a held granule. -/
def heldByte (g : Granule) (i : Nat) : Byte := BitVec.ofNat 8 (g.toNat / 256 ^ i)

theorem putHeld_get (c a : Nat) (l : List HeldWord) (m : ByteTab) (hl : (l.map (·.word)).Nodup) :
    (putHeld c m l).get (winOf c + a)
      = match heldData l (a / 64) with
        | some g => heldByte g (a % 64)
        | none => m.get (winOf c + a) := by
  induction l generalizing m with
  | nil => rfl
  | cons h l ih =>
    rw [List.map_cons, List.nodup_cons] at hl
    rw [putHeld, ih _ hl.2, heldData_cons, Tab.get_setList]
    by_cases e : h.word = a / 64
    · have hn : heldData l (a / 64) = none := by
        simp only [heldData, Option.map_eq_none_iff, List.find?_eq_none, beq_iff_eq]
        exact fun x hx ex => hl.1 (List.mem_map.2 ⟨x, hx, ex.trans e.symm⟩)
      rw [if_pos e, hn]
      simp only [granuleBytes, bytesOf_getElem?]
      rw [if_pos (by omega), if_pos (by omega)]
      simp only [heldByte, Option.getD_some]
      rw [show winOf c + a - (winOf c + 64 * h.word) = a % 64 by omega]
    · rw [if_neg e]
      cases heldData l (a / 64) with
      | some g => rfl
      | none =>
        simp only [granuleBytes, bytesOf_getElem?]
        split
        · rw [if_neg (by omega)]; rfl
        · rfl

theorem putHeld_get_below (c x : Nat) (l : List HeldWord) (m : ByteTab) (hx : x < winOf c) : (putHeld c m l).get x = m.get x := by
  induction l generalizing m with
  | nil => rfl
  | cons h l ih => rw [putHeld, ih, Tab.get_setList_of_lt _ _ (by omega)]

/-- The byte at a physical address, by the core whose window it is in. -/
theorem State.rawByte_scratch (s : State) (c a : Nat) (hc : c < 16) (ha : a < 0x8000000) :
    s.rawByte (winOf c + a) = match heldData (s.core c).held (a / 64) with
      | some g => heldByte g (a % 64)
      | none => s.mem.get (winOf c + a) := by
  unfold State.rawByte
  have h : winOf c = c * 0x8000000 := rfl
  rw [if_pos (by omega)]
  rw [show (winOf c + a) / 0x8000000 = c by omega, show (winOf c + a) % 0x8000000 = a by omega,
    show (winOf c + a) % 64 = a % 64 by omega]
  rfl

theorem State.rawByte_other (s : State) (x : Nat) (hx : 0x80000000 ≤ x) : s.rawByte x = s.mem.get x := by
  unfold State.rawByte
  rw [if_neg (by omega)]

/-- Bytes read alike where memory and the holding buffers are alike. -/
theorem State.rawByte_congr {s t : State} (hm : t.mem = s.mem) (hh : ∀ c, (t.core c).held = (s.core c).held) (x : Nat) :
    t.rawByte x = s.rawByte x := by
  unfold State.rawByte
  rw [hm, hh]

theorem State.setHeld_held_eq (s : State) (n c : Nat) (l : List HeldWord) :
    ((s.setHeld n l).core c).held = if c = n then l else (s.core c).held := by
  unfold State.setHeld
  rw [State.setObj_core, State.setCore_core_eq]
  split <;> rfl

@[simp] theorem State.setHeld_mem (s : State) (n : Nat) (l : List HeldWord) : (s.setHeld n l).mem = s.mem := rfl

/-- Words written back from the holding buffer read as they did (R127). -/
theorem State.flushHeld_rawByte (s : State) (n w v : Nat) (hn : n < 16) (hs : HeldOk (s.core n).held) (x : Nat) :
    (s.flushHeld n w v).rawByte x = s.rawByte x := by
  unfold State.flushHeld
  dsimp only
  split
  · rfl
  rw [State.portWrites_rawByte]
  have hb : ∀ l : List HeldWord, l.filter (sameBanks w v) = l.filter fun h => decide ((h.word % 48 + 48 - w % 48) % 48 ≤ v - w) :=
    fun _ => rfl
  by_cases hx : 0x80000000 ≤ x
  · rw [State.rawByte_other _ _ hx, State.rawByte_other _ _ hx, State.setHeld_mem]
    obtain ⟨a, rfl⟩ : ∃ a, x = winOf n + a := ⟨x - winOf n, by simp only [winOf]; omega⟩
    refine (putHeld_get n a _ s.mem (hs.sublist List.filter_sublist).1).trans ?_
    rw [heldData_of_ge _ _ 0x200000 (fun h hh => hs.2 h (List.mem_of_mem_filter hh)) (by simp only [winOf] at hx; omega)]
  obtain ⟨c, a, hc, ha, rfl⟩ : ∃ c a, c < 16 ∧ a < 0x8000000 ∧ x = winOf c + a :=
    ⟨x / 0x8000000, x % 0x8000000, by omega, by omega, by simp only [winOf]; omega⟩
  rw [State.rawByte_scratch _ _ _ hc ha, State.rawByte_scratch _ _ _ hc ha, State.setHeld_held_eq, State.setHeld_mem]
  by_cases e : c = n
  · subst e
    rw [if_pos rfl]
    have h1 := heldData_filter (s.core c).held (fun k => decide ((k % 48 + 48 - w % 48) % 48 ≤ v - w)) (a / 64)
    have h2 := heldData_filter (s.core c).held (fun k => !decide ((k % 48 + 48 - w % 48) % 48 ≤ v - w)) (a / 64)
    rw [show ((s.core c).held.filter fun x => !sameBanks w v x)
      = (s.core c).held.filter fun h => !decide ((h.word % 48 + 48 - w % 48) % 48 ≤ v - w) from rfl, h2]
    change _ = _
    by_cases p : (a / 64 % 48 + 48 - w % 48) % 48 ≤ v - w
    · simp only [p, decide_true, Bool.not_true, Bool.false_eq_true, if_false]
      refine (putHeld_get c a _ s.mem (hs.sublist List.filter_sublist).1).trans ?_
      rw [hb, h1]
      simp only [p, decide_true, if_true]
    · simp only [p, decide_false, Bool.not_false, if_true]
      cases heldData (s.core c).held (a / 64) with
      | some g => rfl
      | none =>
        refine (putHeld_get c a _ s.mem (hs.sublist List.filter_sublist).1).trans ?_
        rw [hb, h1]
        simp only [p, decide_false, Bool.false_eq_true, if_false]
  · rw [if_neg e]
    change (match heldData (s.core c).held (a / 64) with
      | some g => heldByte g (a % 64)
      | none => (putHeld n s.mem ((s.core n).held.filter (sameBanks w v))).get (winOf c + a)) = _
    cases heldData (s.core c).held (a / 64) with
    | some g => rfl
    | none =>
      dsimp only
      by_cases hlt : c < n
      · rw [putHeld_get_below _ _ _ _ (by simp only [winOf]; omega)]
      · obtain ⟨b, hb'⟩ : ∃ b, winOf c + a = winOf n + b := ⟨winOf c + a - winOf n, by simp only [winOf]; omega⟩
        rw [hb', putHeld_get n b _ s.mem (hs.sublist List.filter_sublist).1,
          heldData_of_ge _ _ 0x200000 (fun h hh => hs.2 h (List.mem_of_mem_filter hh)) (by simp only [winOf] at hb'; omega)]

/-- No word of a span is held once its banks are written back. -/
theorem State.flushHeld_none (s : State) (n w v k : Nat) (h1 : w ≤ k) (h2 : k ≤ v) :
    heldData ((s.flushHeld n w v).core n).held k = none := by
  unfold State.flushHeld
  dsimp only
  split
  · next e => rw [List.isEmpty_iff.1 e]; rfl
  rw [State.portWrites_core, State.setHeld_held_eq, if_pos rfl]
  have h := heldData_filter (s.core n).held (fun k => !decide ((k % 48 + 48 - w % 48) % 48 ≤ v - w)) k
  have hk : decide ((k % 48 + 48 - w % 48) % 48 ≤ v - w) = true := by simp only [decide_eq_true_eq]; omega
  simp only [hk, Bool.not_true, Bool.false_eq_true, if_false] at h
  exact h

/-- Where no held word covers it, a byte reads as memory has it. -/
theorem State.rawByte_of_none (s : State) (x : Nat)
    (h : x < 0x80000000 → heldData (s.core (x / 0x8000000)).held (x % 0x8000000 / 64) = none) : s.rawByte x = s.mem.get x := by
  unfold State.rawByte
  split
  · next hx => rw [h hx]
  · rfl

/-- Bytes put into a memory whose held words of those banks have gone back. -/
theorem State.rawByte_filled (s : State) (a n : Nat) (f : Nat → Byte) (b1 b2 : NatTab)
    (hh : ∀ x, a ≤ x → x < a + n → x < 0x80000000 → heldData (s.core (x / 0x8000000)).held (x % 0x8000000 / 64) = none) (x : Nat) :
    ({ s with mem := s.mem.fill a n f, sramBad := b1, bulkBad := b2 } : State).rawByte x
      = if a ≤ x ∧ x < a + n then f (x - a) else s.rawByte x := by
  by_cases h : a ≤ x ∧ x < a + n
  · rw [if_pos h]
    exact (State.rawByte_of_none ({ s with mem := s.mem.fill a n f, sramBad := b1, bulkBad := b2 } : State) x
      (fun hx => hh x h.1 h.2 hx)).trans ((Tab.get_fill ..).trans (if_pos h))
  · rw [if_neg h]
    unfold State.rawByte
    rw [Tab.get_fill, if_neg h]
    rfl

theorem State.rawByte_count (s : State) (i k w n x : Nat) : (s.count i k w n).rawByte x = s.rawByte x := rfl

theorem State.rawByte_countHost (s : State) (k a n x : Nat) : (s.countHost k a n).rawByte x = s.rawByte x := by
  unfold State.countHost
  split <;> rfl

theorem State.rawByte_hostGet (s : State) (a n x : Nat) : (s.hostGet a n).rawByte x = s.rawByte x := by
  unfold State.hostGet
  dsimp only
  split
  · exact State.rawByte_countHost ..
  · rw [State.rawByte_countHost]
    exact State.rawByte_countHost ..

/-- Counting what a channel or a window moves changes no byte. -/
theorem State.rawByte_countBulk (s : State) (k a n x : Nat) : (s.countBulk k a n).rawByte x = s.rawByte x := by
  unfold State.countBulk
  split
  · have h : ∀ (l : List Nat) (s : State), (l.foldl (fun s m =>
        let c := ((List.range n).filter fun i => (bulkMap (s.obj 0x3410 1) (a + i - bulkBase)).1 == m).length
        if c = 0 then s else s.count (0x3470 + m) k 64 c) s).rawByte x = s.rawByte x := by
      intro l
      induction l with
      | nil => intro s; rfl
      | cons m l ih =>
        intro s
        rw [List.foldl_cons, ih]
        dsimp only
        split <;> rfl
    exact h _ s
  · split
    · exact State.rawByte_hostGet ..
    · rfl

/-- Waking a quadrant changes neither memory nor what is held. -/
theorem State.touch_mem (s : State) (a : Nat) : (s.touch a).mem = s.mem ∧ ∀ c, ((s.touch a).core c).held = (s.core c).held := by
  have h : ∀ (l : List Nat) (s : State), (s.each l fun s c => s.setCore c { s.core c with pllStarting := !(s.core c).pll }).mem = s.mem
      ∧ ∀ c, ((s.each l fun s c => s.setCore c { s.core c with pllStarting := !(s.core c).pll }).core c).held = (s.core c).held := by
    intro l
    induction l with
    | nil => intro s; exact ⟨rfl, fun _ => rfl⟩
    | cons m l ih =>
      intro s
      refine ⟨(ih _).1.trans rfl, fun c => ((ih _).2 c).trans ?_⟩
      rw [State.setCore_core_eq]
      split
      · next e => rw [e]
      · rfl
  unfold State.touch State.wakeQuad
  split
  · dsimp only
    split
    · exact ⟨rfl, fun _ => rfl⟩
    · refine ⟨(h _ _).1.trans ?_, fun c => ((h _ _).2 c).trans ?_⟩ <;> split <;> rfl
  · exact ⟨rfl, fun _ => rfl⟩

/-- A store: memory reads as the bytes there and as before elsewhere. A store to a scratchpad stays in one core's window. -/
theorem State.putBytes_rawByte (s : State) (hs : s.Canonical) (a : Nat) (bs : List Byte)
    (ha : a < 0x80000000 → a % 0x8000000 + bs.length ≤ 0x8000000) : RawWritten s (s.putBytes a bs) a bs := by
  intro x
  unfold State.putBytes
  dsimp only
  split
  · next e => rw [if_neg (by omega)]
  next hn =>
  by_cases h : a < 0x80000000
  · simp only [if_pos h]
    have hw := ha h
    obtain ⟨tm, tc⟩ := s.touch_mem a
    have hk : HeldOk ((s.touch a).core (a / 0x8000000)).held := by rw [tc]; exact hs.held _
    refine (State.rawByte_filled ((s.touch a).flushHeld (a / 0x8000000) (a % 0x8000000 / 64) ((a + bs.length - 1) % 0x8000000 / 64))
      a bs.length (fun i => bs.getD i 0) _ _ ?_ x).trans ?_
    · intro y h1 h2 _
      rw [show y / 0x8000000 = a / 0x8000000 by omega]
      exact State.flushHeld_none _ _ _ _ _ (by omega) (by omega)
    · rw [State.flushHeld_rawByte _ _ _ _ (by omega) hk, State.rawByte_congr tm tc]
  · simp only [if_neg h]
    refine (State.rawByte_filled (s.countBulk 2 a bs.length) a bs.length (fun i => bs.getD i 0) _ _ ?_ x).trans ?_
    · intro y h1 h2 h3
      omega
    · rw [State.rawByte_countBulk]

/-- A read after a write at one device address gives the bytes written (R208 sends both to one place). -/
theorem State.writeAt_byteAt (s : State) (hs : s.Canonical) (a : Nat) (b : Byte) (bs : List Byte)
    (ha : redirectBy s.redirects a < 0x80000000 → redirectBy s.redirects a % 0x8000000 + (b :: bs).length ≤ 0x8000000)
    (hr : (s.writeAt a (b :: bs)).redirects = s.redirects) : (s.writeAt a (b :: bs)).byteAt a = b := by
  unfold State.byteAt
  rw [hr]
  unfold State.writeAt
  rw [State.putBytes_rawByte s hs _ _ ha, if_pos (by simp)]
  simp

/-! ### Cells written by a command -/

theorem lastByte_append (l : Cells) (c : Nat × Byte) (x : Nat) :
    lastByte (l ++ [c]) x = if c.1 = x then some c.2 else lastByte l x := by
  simp only [lastByte, List.reverse_append, List.reverse_cons, List.reverse_nil, List.nil_append, List.cons_append, List.find?_cons]
  split
  · next e => simp_all
  · next e => simp_all

theorem lastByte_cons (l : Cells) (c : Nat × Byte) (x : Nat) :
    lastByte (c :: l) x = match lastByte l x with
      | some b => some b
      | none => if c.1 = x then some c.2 else none := by
  simp only [lastByte, List.reverse_cons, List.find?_append, List.find?_cons, List.find?_nil]
  cases h : List.find? (fun c => c.1 == x) l.reverse with
  | some e => simp
  | none =>
    simp only [Option.none_or, Option.map_none]
    split
    · next e => simp_all
    · next e => simp_all

theorem get_foldl_set (l : Cells) (m : ByteTab) (x : Nat) :
    (l.foldl (fun m c => m.set c.1 c.2) m).get x = (lastByte l x).getD (m.get x) := by
  induction l generalizing m with
  | nil => rfl
  | cons c l ih =>
    rw [List.foldl_cons, ih, lastByte_cons]
    cases lastByte l x with
    | some b => rfl
    | none =>
      dsimp only [Option.getD_none]
      rw [Tab.get_set]
      split
      · next e => rw [if_pos e.symm]; rfl
      · next e => rw [if_neg (fun h => e h.symm)]; rfl

/-- A held word stays away once its banks are written back, whatever goes back later. -/
theorem State.flushHeld_stays (s : State) (n w v m k : Nat) (h : heldData (s.core m).held k = none) :
    heldData ((s.flushHeld n w v).core m).held k = none := by
  unfold State.flushHeld
  dsimp only
  split
  · exact h
  rw [State.portWrites_core, State.setHeld_held_eq]
  split
  · next e =>
    subst e
    have g := heldData_filter (s.core m).held (fun k => !decide ((k % 48 + 48 - w % 48) % 48 ≤ v - w)) k
    rw [h, ite_self] at g
    exact g
  · exact h

/-- The words that cells lie in are written back before the cells are stored: bytes read as before, and no held word covers a
cell. -/
theorem storeCells_flush (l : Cells) (s : State) (hs : ∀ c, HeldOk (s.core c).held) :
    let t := l.foldl (fun s c => if c.1 < 0x80000000 then s.flushHeld (c.1 / 0x8000000) (c.1 % 0x8000000 / 64) (c.1 % 0x8000000 / 64) else s) s
    (∀ x, t.rawByte x = s.rawByte x)
      ∧ (∀ m k, heldData (s.core m).held k = none → heldData (t.core m).held k = none)
      ∧ ∀ c ∈ l, c.1 < 0x80000000 → heldData (t.core (c.1 / 0x8000000)).held (c.1 % 0x8000000 / 64) = none := by
  induction l generalizing s with
  | nil => exact ⟨fun _ => rfl, fun _ _ h => h, by simp⟩
  | cons c l ih =>
    dsimp only [List.foldl_cons]
    split
    · next hc =>
      have hs' : ∀ d, HeldOk ((s.flushHeld (c.1 / 0x8000000) (c.1 % 0x8000000 / 64) (c.1 % 0x8000000 / 64)).core d).held := by
        intro d
        unfold State.flushHeld
        dsimp only
        split
        · exact hs d
        rw [State.portWrites_core, State.setHeld_held_eq]
        split
        · exact (hs _).sublist List.filter_sublist
        · exact hs d
      obtain ⟨r1, r2, r3⟩ := ih _ hs'
      refine ⟨fun x => (r1 x).trans (State.flushHeld_rawByte _ _ _ _ (by omega) (hs _) x),
        fun m k h => r2 m k (State.flushHeld_stays _ _ _ _ _ _ h), fun d hd hd' => ?_⟩
      rcases List.mem_cons.1 hd with rfl | hd
      · exact r2 _ _ (State.flushHeld_none _ _ _ _ _ (le_refl _) (le_refl _))
      · exact r3 d hd hd'
    · next hc =>
      obtain ⟨r1, r2, r3⟩ := ih s hs
      refine ⟨r1, r2, fun d hd hd' => ?_⟩
      rcases List.mem_cons.1 hd with rfl | hd
      · exact absurd hd' hc
      · exact r3 d hd hd'

theorem lastByte_none (l : Cells) (x : Nat) : lastByte l x = none ↔ ∀ c ∈ l, c.1 ≠ x := by
  simp [lastByte]

/-- A command's store: memory reads as the last cell of each address, and as before elsewhere. -/
theorem storeCells_rawByte (s : State) (hs : s.Canonical) (l : Cells) (x : Nat) :
    (storeCells s l).rawByte x = (lastByte l x).getD (s.rawByte x) := by
  obtain ⟨r1, -, r3⟩ := storeCells_flush l s hs.held
  rw [← r1 x]
  unfold storeCells
  dsimp only
  generalize l.foldl (fun s c => if c.1 < 0x80000000 then s.flushHeld (c.1 / 0x8000000) (c.1 % 0x8000000 / 64) (c.1 % 0x8000000 / 64) else s) s = t at r3 ⊢
  cases h : lastByte l x with
  | some b =>
    have hx : x < 0x80000000 → heldData (t.core (x / 0x8000000)).held (x % 0x8000000 / 64) = none := by
      intro hlt
      have : ∃ c ∈ l, c.1 = x := by
        by_contra hn
        rw [(lastByte_none l x).2 (fun c hc e => hn ⟨c, hc, e⟩)] at h
        cases h
      obtain ⟨c, hc, rfl⟩ := this
      exact r3 c hc hlt
    refine (State.rawByte_of_none ({ t with
      mem := l.foldl (fun m c => m.set c.1 c.2) t.mem
      sramBad := t.sramBad.keep fun h => !(l.any fun c => c.1 / 32 == h) } : State) x hx).trans ?_
    refine (get_foldl_set l t.mem x).trans ?_
    rw [h]
    rfl
  | none =>
    unfold State.rawByte
    rw [get_foldl_set, h]
    rfl

/-- A write checked and made: memory holds the cells at their places (R208). -/
theorem commitCells_written (s t : State) (hs : s.Canonical) (l : Cells) (h : commitCells s l = .ok t)
    (hr : t.redirects = s.redirects) : MemWritten s t l := by
  unfold commitCells at h
  dsimp only at h
  split at h
  · cases h
  · cases h
    intro x
    unfold State.byteAt
    rw [hr]
    exact storeCells_rawByte s hs _ _

/-! ### Clearing -/

/-- Words cleared read zero, and every other byte reads as before. -/
theorem State.clearScratch_rawByte (s : State) (n lo hi : Nat) (h1 : lo % 64 = 0) (h2 : hi % 64 = 0) (h3 : hi ≤ 0x8000000)
    (hn : n < 16) (x : Nat) :
    (s.clearScratch n lo hi).rawByte x = if winOf n + lo ≤ x ∧ x < winOf n + hi then 0 else s.rawByte x := by
  unfold State.clearScratch
  dsimp only
  by_cases hx : 0x80000000 ≤ x
  · rw [State.rawByte_other _ _ hx, State.rawByte_other _ _ hx, if_neg (by simp only [winOf]; omega)]
    exact (Tab.get_clear ..).trans (if_neg (by simp only [winOf]; omega))
  obtain ⟨c, a, hc, ha, rfl⟩ : ∃ c a, c < 16 ∧ a < 0x8000000 ∧ x = winOf c + a :=
    ⟨x / 0x8000000, x % 0x8000000, by omega, by omega, by simp only [winOf]; omega⟩
  rw [State.rawByte_scratch _ _ _ hc ha, State.rawByte_scratch _ _ _ hc ha]
  change (match heldData (((s.setHeld n _).core c).held) (a / 64) with
    | some g => heldByte g (a % 64)
    | none => (s.mem.clear (winOf n + lo) (winOf n + hi)).get (winOf c + a)) = _
  rw [State.setHeld_held_eq, Tab.get_clear]
  have hf := heldData_filter (s.core n).held (fun k => decide (k * 64 + 64 ≤ lo) || decide (hi ≤ k * 64)) (a / 64)
  by_cases e : c = n
  · subst e
    rw [if_pos rfl, hf]
    by_cases p : lo ≤ a ∧ a < hi
    · have hp : (decide (a / 64 * 64 + 64 ≤ lo) || decide (hi ≤ a / 64 * 64)) = false := by
        simp only [Bool.or_eq_false_iff, decide_eq_false_iff_not]
        omega
      rw [hp, if_neg (by simp), if_pos (by omega), if_pos (by omega)]
      rfl
    · have hp : (decide (a / 64 * 64 + 64 ≤ lo) || decide (hi ≤ a / 64 * 64)) = true := by
        simp only [Bool.or_eq_true, decide_eq_true_eq]
        omega
      rw [hp, if_pos rfl, if_neg (by omega), if_neg (by omega)]
  · rw [if_neg e, if_neg (by simp only [winOf]; omega), if_neg (by simp only [winOf]; omega)]

/-! ### The canonical form of memory -/

theorem State.reset_memory_wf : Memory.wf State.reset.mem := Tab.empty_wf

theorem State.putBytes_memory_wf (s : State) (hs : s.Canonical) (a : Nat) (bs : List Byte) : Memory.wf (s.putBytes a bs).mem :=
  ((State.putBytes_keeps (Keeps.refl s)).canon hs).mem

theorem State.writeAt_memory_wf (s : State) (hs : s.Canonical) (a : Nat) (bs : List Byte) : Memory.wf (s.writeAt a bs).mem :=
  State.putBytes_memory_wf s hs _ bs

theorem storeCells_memory_wf (s : State) (hs : s.Canonical) (l : Cells) : Memory.wf (storeCells s l).mem :=
  ((storeCells_keeps (Keeps.refl s)).canon hs).mem

theorem State.flushHeld_memory_wf (s : State) (hs : s.Canonical) (n w v : Nat) : Memory.wf (s.flushHeld n w v).mem :=
  ((State.flushHeld_keeps (Keeps.refl s)).canon hs).mem

theorem State.clearScratch_memory_wf (s : State) (hs : s.Canonical) (n lo hi : Nat) : Memory.wf (s.clearScratch n lo hi).mem :=
  ((State.clearScratch_keeps (Keeps.refl s)).canon hs).mem

end Sys2Proof.Machine
end

