-- ==== Sys2Proof/Tests/Slice0.lean ====
section
/-! SUPPORT. Small tests: for each statement, states and operands that meet its premises, at the ends of their ranges; words of the
spec's formats; and, for each check of `WellFormed`, a term that it refuses. -/

namespace Sys2Proof.Tests

open Sys2Proof Sys2Proof.Machine

set_option Elab.async false

/-! ### States to test on -/

/-- The device in IDLE: booted, every path of the dictionary up. -/
def idle : State :=
  { (State.reset.setObj 0x2000 1 2).setObj 0x1100 3 5 with bootSt := .up, serverUp := true
                                                           sessions := Tab.empty.set 0 { isOpen := true } }

/-- Core `c` is LIVE in partition 0. -/
def giveCore (s : State) (c : Nat) : State := (s.setObj (0x3010 + c) 1 0).setObj (0x3010 + c) 2 0

/-- Partition 0 has quadrant 0 and is in state `st`. -/
def inState (st : Nat) : State := [0, 1, 2, 3].foldl giveCore ((idle.setObj 0x3100 1 1).setObj 0x3100 2 st)

/-- Core 0 changed. -/
def onCore (s : State) (f : Core → Core) : State := s.setCore 0 (f (s.core 0))

/-- Bytes of memory from an address. -/
def withMem (s : State) (a n v : Nat) : State := { s with mem := s.mem.setList a (bytesOf n v) }

/-- Partition 0 runs a step with sync objects 0 and 1 as its logical 0 and 1; core 0 has its clock; the command `w` is at the head
of context `k`, at offset 0 of the scratchpad. -/
def atHead (k w : Nat) : State :=
  let s := (inState 3).setPart 0 { inStep := true, syncMap := [0, 1] }
  withMem (onCore s fun c => { c with clock := true, ctxs := Tab.empty.set k { live := true, len := 4 } }) 0 32 w

/-- What the head of that context is. -/
def env (k w : Nat) : Env := ⟨0, k, 0, 0, 0, w⟩

/-- A READY slot of core 0. -/
def withSlot (s : State) (sl kind content : Nat) : State :=
  onCore s fun c => { c with slots := c.slots.set sl { content := BitVec.ofNat 256 content, kind := BitVec.ofNat 3 kind, st := .ready } }

theorem find_held (c : Nat) : ∀ l : List (Nat × Core), (∀ e ∈ l, e.2.held = []) → (Tab.find coreReset c l).held = []
  | [], _ => rfl
  | (k, x) :: r, h => by
    unfold Tab.find
    split
    · exact h (k, x) (by simp)
    · exact find_held c r fun e he => h e (by simp [he])

/-- A state whose cores hold no word is in canonical form when its tables are. -/
theorem canonical_of {s : State} (h : s.mem.wf ∧ s.sramBad.wf ∧ s.bulkBad.wf ∧ s.objs.wf ∧ s.cores.wf ∧ s.parts.wf)
    (hc : ∀ e ∈ s.cores.entries, e.2.held = []) : s.Canonical :=
  ⟨h.1, h.2.1, h.2.2.1, h.2.2.2.1, h.2.2.2.2.1, h.2.2.2.2.2, fun c => by
    rw [show (s.core c).held = [] from find_held c _ hc]; simp⟩

/-- A tensor descriptor of a plain or MXFP8 format without super-tiles (R106). -/
def tensor (word layout rows cols base : Nat) : Nat :=
  word + layout * 2 ^ 16 + rows * 2 ^ 32 + cols * 2 ^ 56 + base * 2 ^ 80

/-- A slot of kinds 2 to 6 (R172). -/
def list (base len : Nat) : Nat := base + len * 2 ^ 64

def isOk : Res → Bool
  | .ok _ => true
  | _ => false

theorem ok_of {r : Res} (h : isOk r = true) : ∃ u, r = .ok u := by
  cases r with
  | ok u => exact ⟨u, rfl⟩
  | stop s w => cases h

theorem chk_of {α : Type} {r : Chk α} (h : r.isOk = true) : ∃ u, r = .ok u := by
  cases r with
  | ok u => exact ⟨u, rfl⟩
  | error w => cases h

/-! ### The whole machine -/

theorem premises_idleStep : State.reset.pending = [] := rfl

theorem reset_canonical : State.reset.Canonical :=
  ⟨by decide, by decide, by decide, by decide, by decide, by decide, fun c => by
    rw [show State.reset.core c = {} from rfl]; exact ⟨List.nodup_nil, by simp⟩⟩

theorem premises_canonical : ∃ t, State.reset.Canonical ∧ step State.reset = .next t := ⟨_, reset_canonical, rfl⟩

/-! ### Queue commands -/

theorem premises_fence : AtHead (atHead 0 0x330) 0 0 0x30 (env 0 0x330) ∧ onlyFields 0x330 [(0, 8), (8, 2)] = true
    ∧ (atHead 0 0x330).ctxBusy 0 0 = false ∧ (fieldAt 0x330 8 2 = 3 → (atHead 0 0x330).fabricBusy 0 0 = false) := by
  unfold AtHead; decide +kernel

/-- SIGNAL of 65,535 at CORE to a logical object whose count then is 2^32 − 1. -/
theorem premises_signalCount :
    let w := 0xFFFF000000001131
    let s := { atHead 3 w with syncs := Tab.empty.set 1 { count := 0xFFFF0000 } }
    AtHead s 0 3 0x31 (env 3 w)
      ∧ onlyFields w [(0, 8), (8, 2), (12, 12), (24, 1), (32, 8), (48, 16), (96, 64)] = true ∧ (env 3 w).b 24 = false
      ∧ (env 3 w).f 48 16 ≠ 0 ∧ (s.part 0).syncMap[(env 3 w).f 12 12]? = some 1 ∧ (s.sync 1).kind = 0
      ∧ unfencedAt s (env 3 w) ((env 3 w).f 8 2) = false ∧ (s.sync 1).scope.toNat ≤ (env 3 w).f 8 2 ∧ s.recorded (env 3 w) = false
      ∧ (s.sync 1).count.toNat + (env 3 w).f 48 16 < 2 ^ 32 := by
  unfold AtHead; decide +kernel

theorem premises_wait :
    let w := 0xFFFFFFFF0000000000001032
    let s := { atHead 7 w with syncs := Tab.empty.set 1 { count := 0xFFFFFFFE } }
    let s := onCore s fun c => { c with carries := some 0 }
    AtHead s 0 7 0x32 (env 7 w) ∧ onlyFields w [(0, 8), (12, 12), (64, 32)] = true
      ∧ (s.part 0).syncMap[(env 7 w).f 12 12]? = some 1 ∧ (s.sync 1).kind = 0 := by
  unfold AtHead; decide +kernel

theorem premises_signalFlag :
    let w := 0x1122334455667788 * 2 ^ 96 + 0x0001000501000231
    let s := withSlot (atHead 0 w) 5 6 0x5BFFFC0
    s.Canonical ∧ AtHead s 0 0 0x31 (env 0 w)
      ∧ onlyFields w [(0, 8), (8, 2), (12, 12), (24, 1), (32, 8), (48, 16), (96, 64)] = true ∧ (env 0 w).b 24 = true
      ∧ (env 0 w).f 48 16 ≠ 0 ∧ (s.slotOf (env 0 w) ((env 0 w).f 32 8)).st = .ready
      ∧ (s.slotOf (env 0 w) ((env 0 w).f 32 8)).readers < 255 ∧ (s.slotOf (env 0 w) ((env 0 w).f 32 8)).kind.toNat = kFlag
      ∧ (∃ n, listSlot (s.content (env 0 w) ((env 0 w).f 32 8)) = .ok (0x5BFFFC0, n)) ∧ 0x5BFFFC0 < bulkBase
      ∧ spanCheck s (env 0 w) true 0x5BFFFC0 8 = .ok 0x5BFFFC0 ∧ unfencedAt s (env 0 w) ((env 0 w).f 8 2) = false
      ∧ s.recorded (env 0 w) = false ∧ partialHalf s (s.placed (cellsAt 0x5BFFFC0 (bytesOf 8 ((env 0 w).f 96 64)))) = none := by
  unfold AtHead
  exact ⟨canonical_of (by decide +kernel) (by decide +kernel), by decide +kernel, by decide +kernel, by decide +kernel, by decide +kernel,
    by decide +kernel, by decide +kernel, by decide +kernel, ⟨0, by decide +kernel⟩, by decide +kernel⟩

theorem premises_barrier :
    let w := 0x1033
    let s := { atHead 1 w with syncs := Tab.empty.set 1 { kind := 1, need := 2, arrivals := 1, gen := 0xFFFF } }
    AtHead s 0 1 0x33 (env 1 w) ∧ onlyFields w [(0, 8), (12, 12)] = true ∧ (s.part 0).syncMap[(env 1 w).f 12 12]? = some 1
      ∧ (s.sync 1).kind = 1 ∧ s.recorded (env 1 w) = false := by
  unfold AtHead; decide +kernel

theorem premises_phase :
    let w := 0x234
    let s := onCore (atHead 3 w) fun c => { c with ctxs := c.ctxs.modify 3 fun q => { q with phase := 3 } }
    AtHead s 0 3 0x34 (env 3 w) ∧ onlyFields w [(0, 8), (8, 2)] = true ∧ (env 3 w).f 8 2 ≠ 3
      ∧ ((s.core 0).ctxs.get 3).phase < 2 ^ (env 3 w).f 8 2 ∧ (s.part 0).phased.testBit ((env 3 w).f 8 2) = false
      ∧ s.recorded (env 3 w) = false ∧ ((s.liveXq 0).all (fun x => (((s.core x.1).ctxs.get x.2).phase).testBit 2)) = false := by
  unfold AtHead; decide +kernel

theorem premises_slotState :
    let w := 0x6FF38
    let s := withSlot (atHead 2 w) 255 2 0
    AtHead s 0 2 0x38 (env 2 w)
      ∧ onlyFields w [(0, 8), (8, 8), (16, 2), (18, 1), (19, 3), (32, 32), (64, 27)] = true ∧ (env 2 w).f 16 2 = 2
      ∧ (s.slotOf (env 2 w) ((env 2 w).f 8 8)).st ≠ .writing ∧ (s.slotOf (env 2 w) ((env 2 w).f 8 8)).readers = 0 := by
  unfold AtHead; decide +kernel

/-- A LIST slot at offset 0 moved back by 64 bytes and forth by 64. -/
theorem premises_slotContent :
    let w := 0x0000000100040438
    let w1 := 0x0000000100050438
    let s := withSlot (atHead 2 w) 4 2 0x40
    let s1 := withSlot (atHead 2 w1) 4 2 0x40
    AtHead s1 0 2 0x38 (env 2 w1)
      ∧ onlyFields w1 [(0, 8), (8, 8), (16, 2), (18, 1), (19, 3), (32, 32), (64, 27)] = true ∧ (env 2 w1).f 16 2 < 2
      ∧ (s1.slotOf (env 2 w1) ((env 2 w1).f 8 8)).st ≠ .writing ∧ (s1.slotOf (env 2 w1) ((env 2 w1).f 8 8)).readers = 0
      ∧ slotContent s1 (env 2 w1) (s1.slotOf (env 2 w1) ((env 2 w1).f 8 8)) ((env 2 w1).f 16 2) = .ok (0x80, 2)
      ∧ contentCheck s1 (env 2 w1) 2 0x80 = .ok s1
      ∧ slotContent s (env 2 w) (s.slotOf (env 2 w) 4) ((env 2 w).f 16 2) = .ok (w, 0) := by
  unfold AtHead; decide +kernel

theorem premises_end : AtHead (atHead 3 0x3F) 0 3 0x3F (env 3 0x3F) ∧ onlyFields 0x3F [(0, 8)] = true
    ∧ (atHead 3 0x3F).ctxBusy 0 3 = false := by
  unfold AtHead; decide +kernel

theorem premises_reservedBit :
    (atHead 0 0).logRoom ∧ ∀ x ∈ [(0x30, 0x400 + 0x30, [(0, 8), (8, 2)]), (0x32, 2 ^ 96 + 0x32, [(0, 8), (12, 12), (64, 32)]),
      (0x33, 2 ^ 24 + 0x33, [(0, 8), (12, 12)]), (0x3F, 2 ^ 255 + 0x3F, [(0, 8)])],
      AtHead (atHead 0 x.2.1) 0 0 x.1 (env 0 x.2.1) ∧ onlyFields x.2.1 x.2.2 = false := by
  unfold AtHead State.logRoom; decide +kernel

theorem premises_destinationReady :
    let s := onCore State.reset fun c => { c with outst := [⟨5, 9, 511, none, true⟩, ⟨5, 9, 510, none, true⟩] }
    (s.core 0).writer 5 (slotKey 5 255) = some ⟨5, 9, 511, none, true⟩ := by
  decide +kernel

theorem premises_bellRelease :
    let s := onCore (inState 3) fun c => { c with gated := true, ctxs := Tab.empty.set 2 { live := true, blocked := .wait 7 3 } }
    let s := s.setSync 7 { count := 3 }
    s.partOf 0 = some 0 ∧ s.released 0 ((s.core 0).ctxs.get 2).blocked = true := by
  decide +kernel

theorem premises_clockGate :
    let s := onCore (inState 3) fun c => { c with clock := true, ctxs := Tab.empty.set 2 { live := true, blocked := .wait 7 3 } }
    s.partOf 0 = some 0 ∧ s.cstate 0 = 0 ∧ (s.core 0).clock = true ∧ (s.core 0).idle = true := by
  decide +kernel


/-! ### Matrix array and vector row -/

/-- A pass of 512 × 64 over K = 32, FP8 by FP8, into ACC1. -/
def matWord : Nat := 0x01 + 1 * 2 ^ 8 + 2 * 2 ^ 16 + 2 ^ 33 + 511 * 2 ^ 48 + 63 * 2 ^ 57 + 32 * 2 ^ 64

def matState : State := withSlot (withSlot (atHead 0 matWord) 1 0 (tensor 2 3 512 32 0x10000)) 2 0 (tensor 2 4 32 64 0x40000)

theorem premises_matmul : AtHead matState 0 0 0x01 (env 0 matWord)
    ∧ (∃ a, matCheck matState (env 0 matWord) (matOps (env 0 matWord)) = .ok a) ∧ arrayFree matState (env 0 matWord) = true := by
  unfold AtHead; exact ⟨by decide +kernel, chk_of (by decide +kernel), by decide +kernel⟩

/-- The same with JP-4 weights: a pass in panel mode. -/
def panelState : State :=
  withSlot (withSlot (atHead 0 matWord) 1 0 (tensor 2 3 512 32 0x10000)) 2 0 (tensor (8 + 3 * 16 + 3 * 128) 4 32 64 0x40000)

theorem premises_matmulPanel :
    (matCheck panelState (env 0 matWord) (matOps (env 0 matWord))).toOption.map (·.panel) = some true
      ∧ arrayFree panelState (env 0 matWord) = true := by
  decide +kernel

/-- A DRAIN of 512 × 64 of ACC0 to a BLOCKED FP32 tensor. -/
def drainWord : Nat := 0x02 + 3 * 2 ^ 8 + 511 * 2 ^ 18 + 63 * 2 ^ 27

def drainState : State := withSlot (atHead 4 drainWord |> fun s => onCore s fun c => { c with carries := some 0 }) 259 0 (tensor 0 0 512 64 0x10000)

theorem premises_drain : drainState.Canonical ∧ AtHead drainState 0 4 0x02 (env 4 drainWord)
    ∧ (∃ d, drainCheck drainState (env 4 drainWord) (drainOps (env 4 drainWord)) = .ok d ∧ drawsOf d = false
        ∧ ∀ w : Drained, partialHalf drainState (drainState.placed w.cells) = none)
    ∧ arrayFree drainState (env 4 drainWord) = true := by
  unfold AtHead
  refine ⟨canonical_of (by decide +kernel) (by decide +kernel), by decide +kernel,
    ⟨tensorOf (tensor 0 0 512 64 0x10000), by decide +kernel, by decide +kernel, fun w => ?_⟩, by decide +kernel⟩
  rw [partialHalf, show drainState.sramBad.entries = [] from by decide +kernel]; rfl

/-- A VEC whose program of one instruction adds V1 to V0; binding 0 is a destination. -/
def vecWord : Nat := 0x03 + 7 * 2 ^ 8 + 8 * 2 ^ 16 + 2 ^ 80 + 2 ^ 88 + 2 ^ 128

def vecState : State :=
  withSlot (withSlot (withMem (atHead 1 vecWord) 0x1000 8 (0x01 + 2 ^ 22)) 7 4 (list 0x1000 1)) 8 0 (tensor 0 0 512 64 0x10000)

theorem premises_vec : AtHead vecState 0 1 0x03 (env 1 vecWord) ∧ vecCheck vecState (env 1 vecWord) = .ok (0x1000, 1)
    ∧ ∃ u, runProgram (env 1 vecWord) 0x1000 1 0 (vecStart vecState (env 1 vecWord)) = .ok u := by
  unfold AtHead; exact ⟨by decide +kernel, by decide +kernel, ok_of (by decide +kernel)⟩

/-- An instruction whose destination is V1. -/
def vop : VecOps := ⟨1, false, 0, 0, 0, 0, 1, 0, 0, false⟩

theorem premises_convert : (∀ f ∈ [1, 2, 3], (fmtWord f).ok false = true ∧ (fmtWord f).rnd ≠ 2 ∧ (fmtWord (f + 2 ^ 13)).ok false = true)
    ∧ (fmtWord (BitVec.toNat ({ vop with imm := 0 } : VecOps).imm)).ok false = true ∧ (fmtWord 0).fmt = 0 := by
  decide +kernel

theorem premises_reduce : (∀ n ∈ [(0 : BitVec 7), 4], ({ vop with src3 := n } : VecOps).src3.toNat ≤ 4) := by decide

theorem premises_random :
    let s := onCore ((inState 3).setObj 0x3050 1 1) fun c => { c with vec := { draws := true, rkey := 5 } }
    (s.core 0).vec.draws = true ∧ s.counted (vecEnv s 0).p = true ∧ (s.core 0).vec.seeded = false := by
  decide +kernel

/-- Binding 0 is slot 8: a tensor that a vector command reads and writes. -/
def rowState (word layout rows cols : Nat) : State :=
  onCore (withSlot (inState 3) 8 0 (tensor word layout rows cols 0x10000)) fun c =>
    { c with vec := { binds := [8], used := 1, wmask := 1 } }

theorem premises_lds :
    let s := rowState 0 0 512 64
    let u := s.count 0x3060 1 64 1
    let d := tensorOf (tensor 0 0 512 64 0x10000)
    let o := { vop with src3 := 63, imm := 2047 - 3 }
    bound u (vecEnv s 0) o false 0x50 = .ok d ∧ d.f.fmt = 0 ∧ o.src3.toNat < 64
      ∧ o.imm.toNat * 64 + 4 * (o.src3.toNat + 1) ≤ d.extent
      ∧ readSpans u [(d.base + o.imm.toNat * 64, 4 * (o.src3.toNat + 1))] = .ok () := by
  decide +kernel

theorem premises_ldc :
    let s := rowState 1 3 512 64
    let u := s.count 0x3060 1 64 1
    let d := tensorOf (tensor 1 3 512 64 0x10000)
    let o := { vop with imm := 63 }
    bound u (vecEnv s 0) o false 0x51 = .ok d ∧ d.layout = 3
      ∧ readSpans u (if o.imm.toNat < d.cols then [(d.codeAddr 0 o.imm.toNat, 512 * elemSize d.f.fmt)] else []) = .ok () := by
  decide +kernel

theorem premises_ldt :
    let s := rowState 2 0 512 64
    let u := s.count 0x3060 1 64 1
    let d := tensorOf (tensor 2 0 512 64 0x10000)
    let o := { vop with imm := 1 }
    bound u (vecEnv s 0) o false 0x52 = .ok d ∧ d.layout = 0
      ∧ readSpans u (if o.imm.toNat < 2 * d.tc then columnSpans d o.imm.toNat else []) = .ok () := by
  decide +kernel

theorem premises_stc :
    let s := rowState 1 3 512 64
    let u := s.count 0x3060 1 64 1
    let d := tensorOf (tensor 1 3 512 64 0x10000)
    let o := { vop with imm := 63 }
    s.Canonical ∧ drawsOf d = false ∧ hasAreas d.f.fmt = false ∧ bound u (vecEnv s 0) o true 0x53 = .ok d ∧ d.layout = 3
      ∧ d.stored 0 o.imm.toNat = true ∧ ∀ w, partialHalf u w = none := by
  refine ⟨canonical_of (by decide +kernel) (by decide +kernel), by decide +kernel, by decide +kernel, by decide +kernel, by decide +kernel,
    by decide +kernel, fun w => ?_⟩
  rw [partialHalf, show (State.count (rowState 1 3 512 64) 0x3060 1 64 1).sramBad.entries = [] from by decide +kernel]; rfl

theorem premises_stt :
    let s := rowState 2 0 512 64
    let u := s.count 0x3060 1 64 1
    let d := tensorOf (tensor 2 0 512 64 0x10000)
    let o := { vop with imm := 1 }
    s.Canonical ∧ drawsOf d = false ∧ hasAreas d.f.fmt = false ∧ bound u (vecEnv s 0) o true 0x54 = .ok d ∧ d.layout = 0
      ∧ o.imm.toNat < 2 * d.tc ∧ ∀ w, partialHalf u w = none := by
  refine ⟨canonical_of (by decide +kernel) (by decide +kernel), by decide +kernel, by decide +kernel, by decide +kernel, by decide +kernel,
    by decide +kernel, fun w => ?_⟩
  rw [partialHalf, show (State.count (rowState 2 0 512 64) 0x3060 1 64 1).sramBad.entries = [] from by decide +kernel]; rfl

/-! ### Numbers -/

theorem premises_rounding : (val32 (rn32 (.fin true (2 ^ 25 + 1) (-1)))).isFin = true ∧ (val32 0x7F7FFFFF).isFin = true := by decide +kernel

theorem premises_elements : (e4m3.decode 0x7E).isFin = true ∧ e4m3.decode 0x7F = .nan ∧ (Fp.fin false 1 0).isFin = true
    ∧ hasAreas (tensorOf (tensor 4 3 512 32 0x10000)).f.fmt = true := by decide +kernel

/-- The largest E4M3 value is 448, the largest E5M2 value 57,344 (R45). -/
theorem test_largest : e4m3.decode 0x7E = .fin false 14 5 ∧ e5m2.decode 0x7B = .fin false 7 13 := by decide +kernel



/-! ### Tile mover, spill engine and collectives -/

theorem no_half {s : State} (h : s.sramBad.entries = []) : ∀ w, partialHalf s w = none := fun w => by rw [partialHalf, h]; rfl

/-- A MOVE of one FP8 tile of a tensor to another. -/
def moveWord : Nat := 0x10 + 1 * 2 ^ 8 + 2 * 2 ^ 16 + 2 ^ 40 + 1 * 2 ^ 96

def moveState : State := withSlot (withSlot (atHead 2 moveWord) 1 0 (tensor 2 0 512 64 0x10000)) 2 0 (tensor 2 0 512 128 0x40000)

theorem premises_move :
    let s := moveState
    let e := env 2 moveWord
    let a := tensorOf (tensor 2 0 512 64 0x10000)
    let b := tensorOf (tensor 2 0 512 128 0x40000)
    s.Canonical ∧ s.recorded e = false ∧ AtHead s 0 2 0x10 e ∧ onlyFields e.word ((0, 8) :: moveFields) = true ∧ e.b 32 = false
      ∧ 1 ≤ e.f 40 24 ∧ board s e [(e.f 8 8, kTensor)] [(e.f 16 8, kTensor)] = .ok ()
      ∧ inCompressed s (tensorOf (s.content e (e.f 8 8))).base = false ∧ slotTensor s e true false (e.f 8 8) = .ok a
      ∧ moverDst s e (e.f 16 8) = .ok b ∧ copyOk a b = true ∧ hasAreas a.f.fmt = false ∧ e.f 64 32 + e.f 40 24 ≤ a.tiles
      ∧ e.f 96 32 + e.f 40 24 = b.tiles ∧ e.f 40 24 = 1
      ∧ readSpans s (a.tileReads (e.f 64 32) (if a.f.fmt = 8 then min a.held b.held else 0)) = .ok ()
      ∧ ∀ w, partialHalf s w = none := by
  unfold AtHead
  exact ⟨canonical_of (by decide +kernel) (by decide +kernel), by decide +kernel, by decide +kernel, by decide +kernel, by decide +kernel,
    by decide +kernel, by decide +kernel, by decide +kernel, by decide +kernel, by decide +kernel, by decide +kernel, by decide +kernel,
    by decide +kernel, by decide +kernel, by decide +kernel, by decide +kernel, no_half (by decide +kernel)⟩

/-- A list command of three entries: block (0, 1), a null one, and one beyond the grid. -/
def listWord (op : Nat) : Nat := op + 1 * 2 ^ 8 + 2 * 2 ^ 16 + 3 * 2 ^ 24 + 3 * 2 ^ 32

def listState (op src : Nat) (dst : Nat) : State :=
  withSlot (withSlot (withSlot (withMem (atHead 2 (listWord op)) 0x1000 12 (0x00010000 + 0xFFFF0000 * 2 ^ 32 + 0x00000010 * 2 ^ 64)) 1 0
    (tensor src 0 512 64 0x10000)) 2 0 (tensor dst 0 512 64 0x40000)) 3 2 (list 0x1000 3)

def listArgsOf (src dst : Nat) : ListArgs :=
  ⟨tensorOf (tensor src 0 512 64 0x10000), tensorOf (tensor dst 0 512 64 0x40000), [(0, 1), (0, 0xFFFF), (16, 0)], none, false⟩

theorem premises_gather :
    let s := listState 0x11 2 2
    let e := env 2 (listWord 0x11)
    let g := listArgsOf 2 2
    s.Canonical ∧ s.recorded e = false ∧ AtHead s 0 2 0x11 e ∧ listArgs s e true = .ok (g, s) ∧ g.table = none ∧ g.packed = false
      ∧ g.src.f.fmt = g.dst.f.fmt ∧ g.src.f.kst = g.dst.f.kst ∧ g.entries.length ≤ g.dst.tiles * 32
      ∧ (∀ x ∈ g.entries, nullEntry x = false → g.src.inGrid x.1 x.2 = true →
          readSpans s (blockSpans g.src (g.src.block x.1 x.2)) = .ok ())
      ∧ ∀ w, partialHalf s w = none := by
  unfold AtHead
  exact ⟨canonical_of (by decide +kernel) (by decide +kernel), by decide +kernel, by decide +kernel, by decide +kernel, by decide +kernel,
    by decide +kernel, by decide +kernel, by decide +kernel, by decide +kernel, by decide +kernel, no_half (by decide +kernel)⟩

theorem premises_scatter :
    let s := listState 0x12 2 2
    let e := env 2 (listWord 0x12)
    let g := listArgsOf 2 2
    s.Canonical ∧ s.recorded e = false ∧ AtHead s 0 2 0x12 e ∧ listArgs s e false = .ok (g, s)
      ∧ g.src.f.fmt = g.dst.f.fmt ∧ g.src.f.kst = g.dst.f.kst ∧ g.entries.length ≤ g.src.tiles * 32
      ∧ readSpans s ((scatterEntries g).flatMap fun y => blockSpans g.src y.1) = .ok () ∧ ∀ w, partialHalf s w = none := by
  unfold AtHead
  exact ⟨canonical_of (by decide +kernel) (by decide +kernel), by decide +kernel, by decide +kernel, by decide +kernel, by decide +kernel,
    by decide +kernel, by decide +kernel, by decide +kernel, no_half (by decide +kernel)⟩

theorem premises_scatterAdd :
    let s := listState 0x13 1 0
    let e := env 2 (listWord 0x13)
    let g := listArgsOf 1 0
    s.Canonical ∧ s.recorded e = false ∧ AtHead s 0 2 0x13 e ∧ listArgs s e false = .ok (g, s) ∧ g.dst.f.fmt = 0 ∧ g.src.f.fmt ≤ 3
      ∧ g.entries.length ≤ g.src.tiles * 32 ∧ scatterEntries g = [(0, 0, 1)] ∧ readSpans s (blockSpans g.src 0) = .ok ()
      ∧ readSpans s (blockSpans g.dst (g.dst.block 0 1)) = .ok () ∧ (∀ w, partialHalf s w = none)
      ∧ ∃ u, scatterAdds s e g (scatterEntries g) = .ok u := by
  unfold AtHead
  exact ⟨canonical_of (by decide +kernel) (by decide +kernel), by decide +kernel, by decide +kernel, by decide +kernel, by decide +kernel,
    by decide +kernel, by decide +kernel, by decide +kernel, by decide +kernel, by decide +kernel, no_half (by decide +kernel),
    chk_of (by decide +kernel)⟩

/-- A walk of two taps over an input of 4 × 1 pixels of 32 channels: an output of 3 × 1. -/
def walkWord : Nat := 4 + 1 * 2 ^ 16 + 3 * 2 ^ 32 + 1 * 2 ^ 48 + 32 * 2 ^ 64 + 2 ^ 80 + 2 ^ 96 + 2 ^ 128 + 2 * 2 ^ 192

def windowWord : Nat := 0x14 + 1 * 2 ^ 8 + 2 * 2 ^ 16 + 3 * 2 ^ 24 + 2 * 2 ^ 48

def windowState : State :=
  withSlot (withSlot (withSlot (atHead 2 windowWord) 1 0 (tensor 2 2 4 32 0x10000 + 2 * 2 ^ 160)) 2 0 (tensor 2 0 512 128 0x40000)) 3 1 walkWord

theorem premises_window :
    let s := windowState
    let e := env 2 windowWord
    let a := tensorOf (tensor 2 2 4 32 0x10000 + 2 * 2 ^ 160)
    let b := tensorOf (tensor 2 0 512 128 0x40000)
    let w := walkOf (s.content e (e.f 24 8))
    s.Canonical ∧ s.recorded e = false ∧ AtHead s 0 2 0x14 e
      ∧ onlyFields e.word [(0, 8), (8, 8), (16, 8), (24, 8), (32, 16), (48, 2), (64, 32)] = true ∧ e.f 48 2 ≠ 3
      ∧ board s e [(e.f 8 8, kTensor), (e.f 24 8, kWalk)] [(e.f 16 8, kTensor)] = .ok () ∧ slotTensor s e false false (e.f 8 8) = .ok a
      ∧ moverDst s e (e.f 16 8) = .ok b ∧ a.f.fmt = b.f.fmt ∧ a.layout = 2 ∧ b.layout = 0 ∧ w.kh * w.kw = 2 ∧ w.kh * w.kw ≤ b.tiles
      ∧ w.ok a.f.fmt = true ∧ w.groups = 1 ∧ e.f 32 16 % 32 = 0 ∧ e.f 32 16 < w.cg
      ∧ spanCheck s e false a.base w.inputBytes = .ok 0x10000 ∧ readSpans s [(0x10000, w.inputBytes)] = .ok ()
      ∧ ∀ w, partialHalf s w = none := by
  unfold AtHead
  exact ⟨canonical_of (by decide +kernel) (by decide +kernel), by decide +kernel, by decide +kernel, by decide +kernel, by decide +kernel,
    by decide +kernel, by decide +kernel, by decide +kernel, by decide +kernel, by decide +kernel, by decide +kernel, by decide +kernel,
    by decide +kernel, by decide +kernel, by decide +kernel, by decide +kernel, by decide +kernel, by decide +kernel, by decide +kernel,
    no_half (by decide +kernel)⟩

/-- SPILL or PREFETCH of tile 0 of an FP8 tensor, TENSOR 5, to or from region 63. -/
def spillWord (op : Nat) : Nat := op + 1 * 2 ^ 8 + 63 * 2 ^ 16 + 5 * 2 ^ 32

/-- Region 63 is a SPILL region of partition 0, at the start of a bulk memory that has been zeroed. -/
def spillState (op : Nat) (ring : SpillRing) : State :=
  let s := withSlot (atHead 2 (spillWord op)) 1 0 (tensor 2 0 512 64 0x10000)
  let s := ((s.setObj (0x3420 + 63) 2 1).setObj (0x3420 + 63) 3 24).setObj (0x3420 + 63) 4 0
  let s := (List.range 16).foldl (fun s m => s.setObj 0x3460 (m + 1) 4096) s
  { s with rings := s.rings.set 63 ring }

theorem premises_spill :
    let s := spillState 0x15 {}
    let e := env 2 (spillWord 0x15)
    let d := tensorOf (tensor 2 0 512 64 0x10000)
    s.Canonical ∧ AtHead s 0 2 0x15 e ∧ spillArgs s e false = .ok (63, s.region 63, d) ∧ readSpans s (d.tileSpans (e.f 48 32)) = .ok ()
      ∧ spillPlace (s.rings.get 63) (bulkBase + (s.region 63).start) (s.region 63).bytes (64 + ceilDiv d.tileSize 64 * 64) = some (0, [])
      ∧ s.bulkReady (s.region 63).start (64 + ceilDiv d.tileSize 64 * 64) = true := by
  unfold AtHead
  exact ⟨canonical_of (by decide +kernel) (by decide +kernel), by decide +kernel, by decide +kernel, by decide +kernel, by decide +kernel,
    by decide +kernel⟩

theorem premises_prefetch :
    let en : SpillEntry := ⟨bulkBase, 0, 5, 0, 513, true, false, false⟩
    let s := spillState 0x16 ⟨0x8040, [en]⟩
    let e := env 2 (spillWord 0x16)
    let d := tensorOf (tensor 2 0 512 64 0x10000)
    s.Canonical ∧ AtHead s 0 2 0x16 e ∧ s.recorded e = false ∧ spillArgs s e true = .ok (63, s.region 63, d)
      ∧ spillFind (s.rings.get 63).entries (BitVec.ofNat 32 (s.obj (0x3100 + e.p) 6)) (e.f 32 16) (e.f 48 32) = some en
      ∧ en.size * 64 = 64 + ceilDiv d.tileSize 64 * 64 ∧ readSpans s [(en.addr, en.size * 64)] = .ok () ∧ bulkBase ≤ en.addr
      ∧ ∀ w, partialHalf s w = none := by
  unfold AtHead
  exact ⟨canonical_of (by decide +kernel) (by decide +kernel), by decide +kernel, by decide +kernel, by decide +kernel, by decide +kernel,
    by decide +kernel, by decide +kernel, by decide +kernel, no_half (by decide +kernel)⟩

/-- A COLL of the last kind over two FP8 tiles. -/
def collWord : Nat := 0x20 + 1 * 2 ^ 8 + 2 * 2 ^ 16 + 3 * 2 ^ 24 + 7 * 2 ^ 32 + 2 * 2 ^ 80

/-- Group 7: nodes 0 and 1; member list in bulk memory. -/
def ring2 : Group := ⟨7, 0, false, 2, bulkBase, 0, 0⟩

def collState : State :=
  let s := withSlot (withSlot (atHead 3 collWord) 1 0 (tensor 2 0 512 128 0x10000)) 2 0 (tensor 2 0 512 128 0x40000)
  withMem (s.setPart 0 { s.part 0 with groups := [ring2] }) (bulkBase + 2) 2 1

theorem premises_coll :
    let s := collState
    let e := env 3 collWord
    let a := tensorOf (tensor 2 0 512 128 0x10000)
    let b := tensorOf (tensor 2 0 512 128 0x40000)
    AtHead s 0 3 0x20 e ∧ onlyFields e.word [(0, 8), (8, 8), (16, 8), (24, 4), (32, 16), (48, 32), (80, 24)] = true ∧ e.f 24 4 ≤ 3
      ∧ board s e [(e.f 8 8, kTensor)] [(e.f 16 8, kTensor)] = .ok ()
      ∧ (s.part e.p).groups.find? (fun g => g.group == e.f 32 16) = some ring2 ∧ collTensor s e false (e.f 8 8) = .ok a
      ∧ collTensor s e true (e.f 16 8) = .ok b ∧ ring2.alg < 2 ∧ (s.memberIndex ring2).isSome = true ∧ a.tileSize = b.tileSize
      ∧ overQueue s e b.base b.extent = false ∧ e.f 8 8 ≠ e.f 16 8 := by
  unfold AtHead
  exact ⟨by decide +kernel, by decide +kernel, by decide +kernel, by decide +kernel, by decide +kernel, by decide +kernel, by decide +kernel,
    by decide +kernel, by decide +kernel, by decide +kernel, by decide +kernel, by decide +kernel⟩

/-- A collective of each kind over the same tiles. -/
def coll2 (kind : Nat) (done : Bool) : Coll := ⟨9, 0, 0, 3, 4, kind, ring2, 1, 2, 0, 2, done, false⟩

theorem premises_collKinds :
    let x := coll2
    let s (k : Nat) := { collState with colls := [x k false] }
    (∀ k ∈ [0, 1, 2, 3], (s k).collOf 9 k = some (x k false, 0) ∧ (s k).tilesBad ((s k).collSrc (x k false)) (x k false).allTiles = none
      ∧ (s k).tilesBad ((s k).collDst (x k false)) (x k false).allTiles = none)
    ∧ (s 0).Canonical
    ∧ (∀ k ∈ [0, 2], (s k).peersFit (x k false) 0 [List.replicate 8192 0] = true)
    ∧ (∀ k ∈ [1, 2], (s k).gatherFit (x k false) 0 [List.replicate 32768 0] = true)
    ∧ (List.replicate 65536 (0 : Byte)).length = (x 3 false).nt * ((s 3).collSrc (x 3 false)).tileSize := by
  exact ⟨by decide +kernel, canonical_of (by decide +kernel) (by decide +kernel), by decide +kernel, by decide +kernel, by
    rw [List.length_replicate]; decide +kernel⟩

theorem premises_collComplete :
    let x := coll2 3 true
    let s := { collState with colls := [coll2 3 true] }
    let s := onCore s fun c => { c with outst := [⟨3, 4, 2, some 9, true⟩] }
    s.colls.find? (fun y => y.id == x.id && y.done) = some x ∧ ((s.core x.core).outst.any fun o => o.entry == some x.id) = true := by
  decide +kernel

/-! ### Bore -/

/-- Firmware's task 1. -/
def fw : Master := ⟨.firmware, 1⟩

/-- Firmware's task 1 holds the four locks. -/
def locked (s : State) : State := [0, 1, 2, 3].foldl (fun s n => (s.setObj (0x1180 + n) 2 1).setObj (0x1180 + n) 3 1) s

/-- Connection 5 to connection 9 of node 3, for partition 0. -/
def peer (st : ConnSt) : Conn := { st := st, rnode := 3, rconn := 9, cqbase := 0x2000, cqlen := 16, cwnd := 16384 }

def onConn (x : Conn) : State := (inState 3).setConn 5 x

/-- A packet of the peer. -/
def pkt (k : PktKind) : Packet := { blankPacket State.reset 5 k 0 with snode := 3, dconn := 5, sconn := 9, first := true, last := true }

theorem premises_connOpen :
    let s := (locked (onConn (peer .free))).setObj 0x4000 3 4352
    Accepts s fw 0x4211 2
      ∧ (let u := s.heard fw.path
         let x := u.conn 5
         x.st = .free ∧ u.isSealed x.part = false ∧ u.obj 0x1100 3 ≠ 0xFFFF ∧ u.frameOk x.link = true ∧ 16 ≤ x.cqlen) := by
  unfold Accepts; decide +kernel

theorem premises_connect :
    let s := onConn (peer .opening)
    (s.conn (pkt .connect).dconn.toNat).st = .opening ∧ (s.received (pkt .connect)).matchesConn (pkt .connect) = true
      ∧ (s.received (pkt .connect)).connectOpens (pkt .connect) = true ∧ (s.received (pkt .accept)).matchesConn (pkt .accept) = true
      ∧ (s.received (pkt .accept)).connectOpens (pkt .accept) = true := by
  decide +kernel

theorem premises_connClose :
    let s (st : ConnSt) := locked (onConn (peer st))
    Accepts (s .isOpen) fw 0x4211 2 ∧ ((s .isOpen).heard fw.path).conn 5 = peer .isOpen
      ∧ Accepts (s .error) fw 0x4211 2 ∧ ((s .error).heard fw.path).conn 5 = peer .error
      ∧ ((s .closing).conn 5).st = .closing := by
  unfold Accepts; decide +kernel

/-- The packet as an OPEN connection admits it. -/
theorem premises_rxClose : ((onConn (peer .isOpen)).admitPacket (pkt .close)).2 = some (pkt .close) := by decide +kernel

/-- A key over 64 bytes of core 0's scratchpad, up to its vault, for partition 0. -/
def key0 : Key := { base := vaultOff - 64, len := 64, rd := true, wr := true, at_ := true }

theorem premises_keys :
    let s := { locked (inState 3) with keys := Tab.empty.set 16383 key0 }
    Accepts s fw 0x4221 2
      ∧ (let u := s.heard fw.path
         u.keySealed (u.keys.get 16383) = none ∧ u.keyOk (u.keys.get 16383) = true ∧ 64 ≤ (u.keys.get 16383).len) := by
  unfold Accepts; decide +kernel

/-- A key over the scratchpad of a sealed partition, bound to that partition's connection. -/
theorem premises_keysSealed :
    let s := { locked (onConn (peer .isOpen)) with keys := Tab.empty.set 0 { key0 with bind := 5 } }
    let u := (s.setObj 0x1230 1 1).heard fw.path
    u.keySealed (u.keys.get 0) = some 0 ∧ u.keyBound (u.keys.get 0) 0 = true ∧ u.keyOk (u.keys.get 0) = true := by
  decide +kernel

/-- A work entry of an operation, 8 bytes long. -/
def work (op len : Nat) : Nat := op + 0x10000 * 2 ^ 64 + len * 2 ^ 128 + 0x20000 * 2 ^ 192

/-- BORE of slot 1 on connection 5, with slot 2 as its RDY. -/
def boreWord : Nat := 0x21 + 1 * 2 ^ 8 + 5 * 2 ^ 16 + 2 * 2 ^ 32 + 2 ^ 40

def boreState (op len : Nat) (x : Conn) : State :=
  (withMem (withSlot (withSlot (atHead 3 boreWord) 1 5 (list 0x3000 0)) 2 0 (tensor 2 0 512 64 0x40000)) 0x3000 64 (work op len)).setConn 5 x

/-- A RECV on a receive queue that holds 63, and a SEND on a send queue that holds 31. -/
theorem premises_bore : ∀ y ∈ [(2, 64), (1, 8)],
    let s := boreState y.1 y.2 { peer .isOpen with sendQ := List.replicate 31 (barrierEntry 0 1 0 0), recvQ := List.replicate 63 (barrierEntry 0 2 0 0) }
    let e := env 3 boreWord
    AtHead s 0 3 0x21 e ∧ onlyFields e.word [(0, 8), (8, 8), (16, 12), (32, 8), (40, 1)] = true ∧ e.b 40 = true
      ∧ board s e [(e.f 8 8, kWork)] [(e.f 32 8, (s.slotOf e (e.f 32 8)).kind.toNat)] = .ok ()
      ∧ (s.conn (e.f 16 12)).st = .isOpen ∧ (s.conn (e.f 16 12)).part = e.p ∧ listSlot (s.content e (e.f 8 8)) = .ok (0x3000, 0)
      ∧ spanCheck s e false 0x3000 64 = .ok 0x3000 ∧ inScratch 0x3000 = true ∧ readSpans s [(0x3000, 64)] = .ok ()
      ∧ entryCheck s e (s.conn (e.f 16 12)) (s.natAt 0x3000 64) = .ok () ∧ s.recorded e = false
      ∧ (if fieldAt (s.natAt 0x3000 64) 0 8 = 2 then (s.conn (e.f 16 12)).recvQ.length < 64
          else ((s.conn (e.f 16 12)).sendQ.filter fun y => !y.isBarrier).length < 32) := by
  unfold AtHead; decide +kernel

/-- An entry on the send queue of connection 5, `n` packets of which have gone. -/
def posted (op len n : Nat) : WorkEntry := { barrierEntry 7 op 0 0 with laddr := 0x10000, len := len, core := 0, sent := n }

theorem premises_workData : ∀ op ∈ [1, 3, 4],
    let s := onConn { peer .isOpen with sendQ := [posted op 8192 1], inflight := 8192 }
    (s.conn 5).mayWork op = some (posted op 8192 1) ∧ (∀ y ∈ (s.conn 5).sendQ, y.isBarrier = false)
      ∧ (s.conn 5).packetsNow (posted op 8192 1) = 1
      ∧ s.sramError (0x10000 + 4096) ((posted op 8192 1).payNext 1) = false ∧ s.sourceReady 0 (0x10000 + 4096) ((posted op 8192 1).payNext 1) = true := by
  decide +kernel

theorem premises_workRequest : ∀ x ∈ [(5, 8192), (6, 8), (7, 8)],
    let s := onConn { peer .isOpen with sendQ := List.replicate 15 { posted x.1 8 1 with id := 6 } ++ [posted x.1 x.2 0] }
    (s.conn 5).mayWork x.1 = some (posted x.1 x.2 0) ∧ (∀ y ∈ (s.conn 5).sendQ, y.isBarrier = false)
      ∧ (if x.1 = 5 then (s.conn 5).outstanding (·.op == 5) else (s.conn 5).outstanding WorkEntry.isAtomic) = 15
      ∧ (posted x.1 x.2 0).psns ≤ (s.conn 5).psnRoom := by
  decide +kernel

theorem premises_recvChainAck :
    let r := posted 2 64 0
    let c := { posted 1 64 0 with chain := true, cconn := 6, ctgt := 0xFFFFFFFF }
    let s := onConn { peer .isOpen with recvQ := [{ r with id := 6, armed := true }, r], sendQ := [c], unacked := 7 }
    (s.conn 5).recvQ.find? (fun e => !e.armed) = some r ∧ (s.conn 5).toSend = some c ∧ c.chain = true ∧ c.sent = 0
      ∧ (s.conn c.cconn).st ≠ .error ∧ ((s.conn c.cconn).ccount - c.ctgt).toNat < 2 ^ 31
      ∧ 0 < (s.conn 5).unacked ∧ (s.conn 5).st = .isOpen := by
  decide +kernel

theorem premises_retransmit :
    let s := onConn { peer .isOpen with sendQ := [posted 1 64 0, posted 1 4096 1], timeouts := 6 }
    let s' (k : Nat) := onConn { peer .isOpen with stall := k }
    (s.conn 5).st = .isOpen ∧ (s.conn 5).stall = 0 ∧ (s.conn 5).sendQ.find? (fun e => decide (0 < e.sent)) = some (posted 1 4096 1)
      ∧ (s.conn 5).timeouts + 1 < 8 ∧ (∀ k ∈ [1, 2], ((s' k).conn 5).stall = k ∧ ((s' k).conn 5).st = .isOpen) := by
  decide +kernel

theorem premises_nak :
    let s := onConn { peer .isOpen with sendQ := [posted 1 8192 2], tcut := 0 }
    let q (n : Nat) := { pkt .nak with offset := BitVec.ofNat 31 n, psn := 1 }
    (∀ n ∈ [2, 3], (s.admitPacket (q n)).2 = some (q n) ∧ (q n).offset.toNat % 256 = n)
      ∧ ((s.admitPacket (q 2)).1.conn 5).entryAt 1 = some (posted 1 8192 2) ∧ (posted 1 8192 2).rnr + 1 < (s.admitPacket (q 2)).1.obj 0x4200 9 := by
  decide +kernel

theorem premises_ack :
    let p := { pkt .ack with psn := 1 }
    let s := onConn { peer .isOpen with sendQ := [posted 1 8192 2, { posted 5 4096 1 with id := 8, psn := 2 }], spsn := 3 }
    let x := (s.admitPacket p).1.conn 5
    (s.admitPacket p).2 = some p ∧ x.closePsn = none ∧ (x.sendQ.map (·.id)).Nodup ∧ (p.psn - x.upsn).toNat < (x.spsn - x.upsn).toNat := by
  decide +kernel

/-- Connection 5 with key 0 registered for it. -/
def served (x : Conn) : State := { onConn x with keys := Tab.empty.set 0 { key0 with valid := true, base := 0x10000, len := 8192 } }

/-- The state as the body of a data packet meets it. -/
def metBy (s : State) (p : Packet) : State :=
  let u := (s.admitPacket p).1
  u.setConn p.dconn.toNat { u.conn p.dconn.toNat with ceSeen := (u.conn p.dconn.toNat).ceSeen || p.ce }

theorem expected_of {s : State} {p : Packet} {k : PktKind} (h : p.kind = k ∧ (s.admitPacket p).2 = some p
    ∧ p.psn = ((metBy s p).conn p.dconn.toNat).epsn) : Expected s p k p (metBy s p) := ⟨h.1, _, Prod.ext rfl h.2.1, rfl, h.2.2⟩

/-- The last 64 bytes that key 0 reaches. -/
def placed (k : PktKind) : Packet := { pkt k with raddr := 0x10000 + 8128, len := 64, payload := bytesOf 64 0x3F800000 }

theorem premises_rxWrite :
    let p := placed .write
    let s := served (peer .isOpen)
    let v := metBy s p
    Expected s p .write p v ∧ v.keyFail 5 .write p = none ∧ p.first = true
      ∧ v.rxWaits (p.raddr.toNat + p.offset.toNat) p.payload.length = false
      ∧ v.sramPartial (p.raddr.toNat + p.offset.toNat) p.payload.length = false ∧ p.immv = false :=
  ⟨expected_of (by decide +kernel), by decide +kernel⟩

theorem premises_rxWriteAcc :
    let p := placed .writeAcc
    let s := served (peer .isOpen)
    let v := metBy s p
    Expected s p .writeAcc p v ∧ v.keyFail 5 .write p = none ∧ p.first = true
      ∧ v.rxWaits (p.raddr.toNat + p.offset.toNat) p.payload.length = false
      ∧ v.sramError (p.raddr.toNat + p.offset.toNat) p.payload.length = false
      ∧ (v.conn 5).added p.origin ≤ p.offset.toNat ∧ p.payload ≠ [] :=
  ⟨expected_of (by decide +kernel), by decide +kernel⟩

theorem premises_rxSend :
    let p := placed .send
    let e := { posted 2 64 0 with armed := true }
    let s := onConn { peer .isOpen with recvQ := [e] }
    let v := metBy s p
    Expected s p .send p v ∧ p.first = true ∧ (v.conn 5).recvQ.find? (·.armed) = some e ∧ e.isBarrier = false ∧ e.cqe = false
      ∧ p.abrt = false ∧ p.offset.toNat + p.payload.length = e.len ∧ v.rxWaits (e.laddr + p.offset.toNat) p.payload.length = false
      ∧ v.sramPartial (e.laddr + p.offset.toNat) p.payload.length = false ∧ p.last = true :=
  ⟨expected_of (by decide +kernel), by decide +kernel⟩

theorem premises_rxAtomic : ∀ k ∈ [PktKind.fetchAdd, .cmpSwap],
    let p := { placed k with len := 8, payload := [] }
    let s := served { peer .isOpen with atomicAgreed := true }
    let v := metBy s p
    Expected s p k p v ∧ v.keyFail 5 .atomic p = none ∧ (v.conn 5).atomicStep.find? (fun r => r.origin == p.origin) = none
      ∧ v.rxWaits p.raddr.toNat 8 = false ∧ v.sramError p.raddr.toNat 8 = false ∧ v.bulkError p.raddr.toNat 8 = false := by
  intro k hk
  refine ⟨expected_of ?_, ?_⟩ <;> (revert k; decide +kernel)

theorem premises_rxReadReq :
    let p := { placed .readReq with raddr := 0x10000, len := 8192, payload := [] }
    let s := served (peer .isOpen)
    let v := metBy s p
    Expected s p .readReq p v ∧ v.keyFail 5 .read p = none ∧ v.rxWaits p.raddr.toNat p.len.toNat = false ∧ v.readState p = .serve 0
      ∧ v.sramError (p.raddr.toNat + 0) p.len.toNat = false ∧ v.bulkError (p.raddr.toNat + 0) p.len.toNat = false :=
  ⟨expected_of (by decide +kernel), by decide +kernel⟩

theorem premises_rxAtomicResp :
    let p := { pkt .atomicResp with opnd1 := 5 }
    let s := onConn { peer .isOpen with sendQ := [posted 6 8 1], spsn := 1 }
    let u := (s.admitPacket p).1
    (s.admitPacket p).2 = some p
      ∧ (u.conn 5).sendQ.find? (fun e => e.isAtomic && decide (0 < e.sent) && e.psn == p.psn) = some (posted 6 8 1)
      ∧ u.rxWaits 0x10000 8 = false := by
  decide +kernel

/-- The second packet of the answer to a READ. -/
theorem premises_rxReadResp :
    let p := { pkt .readResp with psn := 1, payload := List.replicate 64 7 }
    let e := { posted 5 4160 1 with got := 4096 }
    let s := onConn { peer .isOpen with sendQ := [e], spsn := 2 }
    let u := (s.admitPacket p).1
    (s.admitPacket p).2 = some p
      ∧ (u.conn 5).sendQ.find? (fun e => e.op == 5 && decide (0 < e.sent) && decide ((p.psn - e.psn).toNat < packetsOf e.len)) = some e
      ∧ 4096 * (p.psn - e.psn).toNat = e.got ∧ u.rxWaits (e.laddr + e.got) (p.payload.take (e.len - e.got)).length = false := by
  decide +kernel

/-- Sync object 2 is a fabric barrier of group 0: nodes 0 and 3, connections from 4. -/
def barrierState (x : Sync) : State :=
  let s := (((onConn (peer .isOpen)).setObj 0x4200 0x0B bulkBase).setObj 0x4200 0x0C 1)
  (withMem (withMem s bulkBase 16 (2 + 4 * 2 ^ 16 + (bulkBase + 64) * 2 ^ 32)) (bulkBase + 64) 4 (3 * 2 ^ 16)).setSync 2 x

theorem premises_barrierArrive :
    let p := { pkt .barrierArrive with gen := 0xFFFF }
    let s := barrierState { part := some 0, kind := 2, need := 2, arrivals := 1, gen := 0xFFFF }
    let v := metBy s p
    Expected s p .barrierArrive p v ∧ v.barriersOf (v.conn 5).part p.group.toNat = [2] ∧ p.gen.toNat = (v.sync 2).gen
      ∧ v.barrierGroup (v.sync 2).grp = some ⟨2, 4, bulkBase + 64⟩ ∧ (v.sync 2).arrivals < (v.sync 2).need :=
  ⟨expected_of (by decide +kernel), by decide +kernel⟩

theorem premises_barrierRelease :
    let p := { pkt .barrierRelease with gen := 0xFFFF }
    let s := barrierState { part := some 0, kind := 2, need := 2, arrivals := 3, gen := 0xFFFF, sentUp := true }
    let v := metBy s p
    Expected s p .barrierRelease p v ∧ v.barriersOf (v.conn 5).part p.group.toNat = [2] ∧ p.gen.toNat = (v.sync 2).gen
      ∧ (v.sync 2).sentUp = true ∧ v.barrierGroup (v.sync 2).grp = some ⟨2, 4, bulkBase + 64⟩
      ∧ v.barrierIndex ⟨2, 4, bulkBase + 64⟩ = some 0 ∧ (v.sync 2).arrivals - (v.sync 2).need < (v.sync 2).need :=
  ⟨expected_of (by decide +kernel), by decide +kernel⟩

theorem premises_latePlacement :
    let p := placed .write
    let s := served (peer .isOpen)
    dataKind p.kind = true ∧ answerKind p.kind = false ∧ (s.admitPacket p).2 = some p ∧ p.psn = ((s.admitPacket p).1.conn 5).epsn := by
  decide +kernel

theorem premises_staleFetch :
    let p := { placed .readReq with raddr := 0x10000, len := 4097, payload := [] }
    let s := onConn { peer .isOpen with fetches := [p] }
    (s.conn 5).fetches = [p] ∧ s.readState p = .serve 0 ∧ s.sramError (p.raddr.toNat + 0) p.len.toNat = false
      ∧ s.bulkError (p.raddr.toNat + 0) p.len.toNat = false := by
  decide +kernel

/-! ### Update engines -/

def withRegion (s : State) (r base size attr owner live : Nat) : State :=
  (((s.setObj (0x3420 + r) 1 base).setObj (0x3420 + r) 2 size).setObj (0x3420 + r) 3 attr).setObj (0x3420 + r) 4 owner
    |>.setObj (0x3420 + r) 5 live

/-- Regions 0, 1 and 2 of partition 0: BOOT, WPAIR and MASTER of quadrant 0. Every front has passed. -/
def withRegions (s : State) : State :=
  let s := withRegion (withRegion (withRegion s 0 0 1 0 0 0) 1 2 2 8 0 1) 2 512 1 17 0 0
  (List.range 16).foldl (fun s m => s.setObj 0x3460 (m + 1) 4096) s

def mBase : Nat := bulkBase + 512 * 0x200000

/-- An update list entry: a 32 × 32 FP8 working copy in the WPAIR region, one block, gradients at 0x8000, optimiser set 15. -/
def updWord : Nat :=
  tensor 2 0 32 32 (bulkBase + 2 * 0x200000) + 3 * 2 ^ 256 + 15 * 2 ^ 272 + 2 ^ 320 + mBase * 2 ^ 352 + 0x8000 * 2 ^ 400 + 9 * 2 ^ 448

/-- Partition 0 has a step in progress; its job's update list is the one entry `w`, or `n` of them. -/
def updState (w n : Nat) : State :=
  let s := withRegions ((inState 3).setPart 0 { inStep := true, phased := 4, updList := [] })
  withMem (((s.setObj 0x3500 0x0A bulkBase).setObj 0x3500 0x0B n).setObj 0x3500 0x10 0) bulkBase 64 w

theorem premises_microcode :
    let o : UpdOps := ⟨15, 31, 1, 0⟩
    let s := (inState 3).setPart 0 { upd := .running }
    1 ≤ o.d.toNat ∧ o.d.toNat ≤ 15 ∧ (16 ≤ ({ o with d := 16 } : UpdOps).d.toNat) ∧ (s.part (s.engines.get 3).part).upd = .running := by
  decide +kernel

theorem premises_updateStart :
    let s := updState updWord 1
    s.updateDue 0 = true ∧ s.jobPart 0 = true ∧ 0 < s.obj 0x3500 0x0B ∧ s.inBoot 0 (s.obj 0x3500 0x0A) (64 * s.obj 0x3500 0x0B) = true
      ∧ s.bulkReady (s.obj 0x3500 0x0A - bulkBase) (64 * s.obj 0x3500 0x0B) = true
      ∧ s.bulkError (s.obj 0x3500 0x0A) (64 * s.obj 0x3500 0x0B) = false ∧ (∀ w ∈ s.updWords 0, s.updEntryOk 0 w = true) := by
  decide +kernel

/-- A second entry, of zeros, is refused. -/
theorem premises_updateRefused :
    let s := updState updWord 2
    s.updateDue 0 = true ∧ s.jobPart 0 = true ∧ 0 < s.obj 0x3500 0x0B ∧ s.inBoot 0 (s.obj 0x3500 0x0A) (64 * s.obj 0x3500 0x0B) = true
      ∧ s.bulkReady (s.obj 0x3500 0x0A - bulkBase) (64 * s.obj 0x3500 0x0B) = true
      ∧ s.bulkError (s.obj 0x3500 0x0A) (64 * s.obj 0x3500 0x0B) = false ∧ 0 ∈ s.updWords 0 ∧ s.updEntryOk 0 0 = false := by
  decide +kernel

/-- Partition 0 runs an update of one entry. -/
def runningState : State :=
  (updState updWord 1).setPart 0 { inStep := true, upd := .running, updList := [updEntryOf updWord], groups := [{ ring2 with group := 9 }] }

theorem premises_updateComplete :
    let s := (updState updWord 1).setPart 0 { inStep := true, upd := .running }
    s.pstate 0 = 3 ∧ (s.part 0).upd = .running ∧ s.updateAll 0 = true := by
  decide +kernel

/-- The cells of an element of a plain format lie at its address. -/
theorem mem_codeCells {t : Tensor} {r c code : Nat} {x : Nat × Byte} (h : x ∈ t.codeCells r c code) :
    t.codeAddr r c ≤ x.1 ∧ x.1 < t.codeAddr r c + elemSize t.f.fmt := by
  have hn : ∀ n v, (bytesOf n v).length = n := by
    intro n
    induction n with
    | zero => intro _; rfl
    | succ n ih => intro v; simp [bytesOf, ih]
  simp only [Tensor.codeCells, cellsAt, List.mem_mapIdx] at h
  obtain ⟨i, hi, rfl⟩ := h
  rw [hn] at hi
  exact ⟨Nat.le_add_right _ _, Nat.add_lt_add_left hi _⟩

/-- The last element of the entry's block. -/
theorem premises_updateElement :
    let s := runningState
    let u := updEntryOf updWord
    let i := 1023
    (s.part 0).updList[0]? = some u ∧ (s.part 0).upd = .running ∧ i < 1024 * u.nblk ∧ (s.part 0).updDone.get (updKey 0 i) ≠ 1
      ∧ s.sramError (u.gbase + 4 * i) 4 = false
      ∧ (∀ a, a < 3 → s.bulkError (recAddr u.mbase i a) 4 = false ∧ s.bulkReady (recAddr u.mbase i a - bulkBase) 4 = true)
      ∧ s.redirectBusy (u.gbase + 4 * i) 4 = none ∧ s.redirects = [] ∧ s.job.capture = none ∧ bulkBase ≤ u.mbase
      ∧ u.mbase + 12288 * u.nblk ≤ hostBase ∧ u.gbase < 0x80000000 ∧ s.obj (0x3510 + u.opt) 1 < 3
      ∧ inCompressed s u.tensor.base = false
      ∧ (s.setPart 0 { s.part 0 with updDone := (s.part 0).updDone.set (updKey 0 i) 1 }).tileDone 0 0 u ((u.first + i / 1024) / 32) = false
      ∧ (let q := (s.wcBack u.tensor).elemPos (u.first + i / 1024) (i % 1024)
         ∀ v : State, ∀ x ∈ v.emitCells 0 u (s.wcBack u.tensor) q.1 q.2, x.1 < u.mbase ∨ u.mbase + 12288 * u.nblk ≤ x.1) := by
  refine ⟨by decide +kernel, by decide +kernel, by decide +kernel, by decide +kernel, by decide +kernel, by decide +kernel, by decide +kernel,
    by decide +kernel, by decide +kernel, by decide +kernel, by decide +kernel, by decide +kernel, by decide +kernel, by decide +kernel,
    by decide +kernel, fun v x hx => ?_⟩
  rw [State.emitCells, if_neg (by decide +kernel)] at hx
  have h := (mem_codeCells hx).2
  rw [show Tensor.codeAddr _ _ _ = bulkBase + 2 * 0x200000 + 1023 from by decide +kernel,
    show elemSize _ = 1 from by decide +kernel] at h
  exact .inl (Nat.lt_of_lt_of_le h (by decide +kernel))

/-- A peer's tile of a working copy of 1024 rows, of which the shard holds the first block. -/
theorem premises_peerTile :
    let u := updEntryOf (updWord + (1024 - 32) * 2 ^ 32)
    let s := runningState.setPart 0 { runningState.part 0 with updList := [u] }
    (s.part 0).updList[0]? = some u ∧ (s.part 0).upd = .running ∧ 1 < (s.wcBack u.tensor).tiles
      ∧ (List.replicate 32768 (0 : Byte)).length = (s.wcBack u.tensor).tileSize ∧ (s.gatherGroup 0 u).isSome = true ∧ u.blocksOf 1 = []
      ∧ inCompressed s u.tensor.base = false ∧ u.tensor.f.fmt < 4 ∧ bulkBase ≤ (s.wcBack u.tensor).base := by
  exact ⟨by decide +kernel, by decide +kernel, by decide +kernel, by rw [List.length_replicate]; decide +kernel, by decide +kernel⟩

/-! ### Partitions, steps and cores -/

theorem premises_qmask :
    let s := (inState 1).setObj 0x3101 1 8
    Accepts s fw 0x3100 1 ∧ (s.heard fw.path).pstate 0 ≤ 1
      ∧ ∀ q, q < 4 → q ≠ 0 → ∀ b, b < 4 → ¬ (bitAt 7 b = true ∧ bitAt ((s.heard fw.path).obj (0x3100 + q) 1) b = true) := by
  unfold Accepts; decide +kernel

theorem premises_quiet : Quiet (inState 1) := fun c => by
  rw [show (inState 1).conn c = {} from rfl]; exact ⟨rfl, rfl⟩

/-- CONTROL is accepted, and the partition is in each of its states. -/
theorem premises_control : ∀ st ∈ [1, 2, 3, 4], Accepts (inState st) fw 0x3100 4 ∧ ((inState st).heard fw.path).pstate 0 = st
    ∧ ((inState st).heard fw.path).isSealed 0 = false ∧ (((inState st).setObj 0x3500 0x10 1).heard fw.path).jobPart 0 = false
    ∧ ((inState st).heard fw.path).imageResult 0 = 1 := by
  unfold Accepts; decide +kernel

theorem premises_stepStart :
    let s := onCore ((inState 3).setPart 0 { syncMap := [4095] }) fun c => { c with ctxs := Tab.empty.set 1 { unfenced := 8 } }
    s.pstate 0 = 3 ∧ (s.part 0).inStep = false ∧ s.liveCores 0 = [0, 1, 2, 3] ∧ s.carried 0 = none := by
  decide +kernel

theorem premises_stepBoundary :
    let s := withRegions ((inState 3).setPart 0 { inStep := true, upd := .complete, updated := [1, 63], stopReq := true })
    s.pstate 0 = 3 ∧ (s.part 0).inStep = true ∧ (s.part 0).upd = .complete ∧ s.stepEnded 0 = true ∧ (∀ c ∈ s.coresOf 0, s.cstate c ≠ 2)
      ∧ 0 ∉ s.dutyDue ∧ (s.part 0).lowered = false ∧ (s.part 0).updated.Nodup ∧ (∀ r ∈ (s.part 0).updated, r < 64)
      ∧ (s.part 0).stopReq = true ∧ (s.region 1).cls = 1 ∧ s.obj 0x3100 9 = 0 := by
  decide +kernel

theorem premises_stepTimeout :
    let s := ((inState 3).setPart 0 { inStep := true }).setObj 0x3100 0x0A 1
    s.pstate 0 = 3 ∧ (s.part 0).inStep = true ∧ s.obj 0x3100 0x0A ≠ 0 ∧ (s.liveCores 0).head? = some 0 ∧ s.logRoom := by
  unfold State.logRoom; decide +kernel

theorem premises_cores :
    let s := onCore (inState 3) fun c => { c with outst := [⟨2, 0, 1, none, true⟩] }
    s.cstate 0 = 0 ∧ s.ctxBusy 0 2 = true
      ∧ (let s := (s.setCore 1 { s.core 1 with carries := some 0 })
         (s.core 1).carries = some 0 ∧ s.partOf 1 = some 0 ∧ s.cstate 1 = 0 ∧ s.redirects.any (fun r => r.failed == 0) = false)
      ∧ (let s := locked (s.setObj 0x3010 1 1)
         Accepts s fw 0x3010 9 ∧ (s.heard fw.path).cstate 0 = 1) := by
  unfold Accepts; decide +kernel

/-! ### Memory at rest -/

/-- A word held for the bank of another. -/
theorem premises_hold :
    let s := onCore (inState 3) fun c => { c with held := [⟨48, 5⟩] }
    s.Canonical ∧ (s.core 0).held.length < 2048 ∧ (s.core 0).held = [⟨48, 5⟩] := by
  refine ⟨⟨by decide +kernel, by decide +kernel, by decide +kernel, by decide +kernel, by decide +kernel, by decide +kernel, fun c => ?_⟩,
    by decide +kernel⟩
  by_cases h : c = 0
  · subst h; decide +kernel
  · have : ((onCore (inState 3) fun c => { c with held := [⟨48, 5⟩] }).core c).held = ((inState 3).core c).held := by
      unfold onCore State.setCore State.core; simp only; rw [Tab.get_set_of_ne _ _ h]
    rw [this, show ((inState 3).core c).held = [] from find_held c _ (by decide +kernel)]; simp

theorem premises_scrub :
    let s := onCore (inState 3) fun c => { c with scrub := scratchWords - 1 }
    s.obj 0x3490 3 = 0 ∧ s.obj 0x2101 3 ≠ 0 ∧ s.logRoom := by
  unfold State.logRoom; decide +kernel

theorem premises_retention :
    let s := (inState 1).setObj 0x3490 1 1
    s.mayRetain 0 = true ∧ (s.setObj 0x3490 3 1).obj (0x3490) 3 ≠ 0 := by
  decide +kernel

theorem premises_pll :
    let s := onCore (inState 3) fun c => { c with pllStarting := true }
    let s' := onCore (inState 1) fun c => { c with pll := true }
    (s.core 0).pllStarting = true ∧ (s'.core 0).pll = true ∧ (s'.core 0).clock = false ∧ (∀ p, s'.partOf 0 = some p → s'.pstate p ≠ 3) := by
  refine ⟨by decide +kernel, by decide +kernel, by decide +kernel, fun p h => ?_⟩
  rw [show State.partOf _ 0 = some 0 from by decide +kernel] at h
  cases h; decide +kernel

theorem premises_zeroing :
    let s := inState 1
    let s' := { inState 1 with zeroJobs := [⟨63, 0, 0x200000⟩, ⟨63, 0x400000, 0x800001⟩] }
    s.bulkActive = true ∧ s.obj 0x3460 16 < 4096 ∧ s'.bulkActive = true ∧ (∃ j ∈ s'.zeroJobs, j.region = 63) := by
  exact ⟨by decide +kernel, by decide +kernel, by decide +kernel, ⟨63, 0, 0x200000⟩, by decide +kernel⟩

theorem premises_patrol :
    let s := (inState 1).setObj 0x3460 16 1
    s.bulkActive = true ∧ s.obj 0x3460 16 ≠ 0 ∧ s.obj 0x2102 3 ≠ 0 ∧ s.logRoom := by
  unfold State.logRoom; decide +kernel

theorem premises_slabMap : Accepts (locked idle) fw 0x3410 1 ∧ ((locked idle).heard fw.path).obj 0x2000 1 = 2
    ∧ (∀ p, p < 4 → ((locked idle).heard fw.path).pstate p = 0) := by
  unfold Accepts; decide +kernel

theorem premises_regionWrite :
    let s := locked (withRegions (inState 1))
    let u := s.heard fw.path
    let h := u.regionAsk (u.region 0) .owner 3
    Accepts s fw 0x3420 (regionSub .owner) ∧ u.regionClosed (u.region 0) h .owner = false ∧ (u.region 0).owner = 0 ∧ u.pstate 0 ≠ 3
      ∧ h.owner = 3 ∧ u.pstate 3 ≠ 3 ∧ h.recordOk = true ∧ h.slabsOk (u.obj 0x3410 1) = true ∧ u.regionClash 0 h = false ∧ h.xts = false := by
  unfold Accepts; decide +kernel

/-! ### An image that LOAD accepts

Its measurement is a SHA-384 value, which the model leaves open: the witness stores it where the trailer has it. -/

theorem natOf_append (a b : List Byte) : natOf (a ++ b) = natOf a + 256 ^ a.length * natOf b := by
  induction a with
  | nil => simp [natOf]
  | cons x a ih => simp only [List.cons_append, natOf, ih, List.length_cons, pow_succ]; ring

theorem natOf_lt (a : List Byte) : natOf a < 256 ^ a.length := by
  induction a with
  | nil => simp [natOf]
  | cons x a ih =>
    have hx : x.toNat < 256 := x.isLt
    simp only [natOf, List.length_cons, pow_succ]; omega

theorem natOf_digits (n v : Nat) : natOf ((List.range n).map fun j => BitVec.ofNat 8 (v / 256 ^ j)) = v % 256 ^ n := by
  induction n with
  | zero => simp [natOf, Nat.mod_one]
  | succ n ih =>
    rw [List.range_succ, List.map_append, natOf_append, ih, List.length_map, List.length_range]
    simp only [List.map_cons, List.map_nil, natOf, BitVec.toNat_ofNat, Nat.mul_zero, Nat.add_zero]
    rw [show (2 : Nat) ^ 8 = 256 from rfl, ← Nat.mod_pow_succ]

theorem natAt_add (s : State) (a m n : Nat) : s.natAt a (m + n) = s.natAt a m + 256 ^ m * s.natAt (a + m) n := by
  rw [State.natAt, State.bytesAt, List.range_add, List.map_append, natOf_append, List.length_map, List.length_range, List.map_map, State.natAt, State.natAt,
    State.bytesAt, State.bytesAt]
  simp only [Function.comp_def, Nat.add_assoc]

theorem natAt_lt (s : State) (a n : Nat) : s.natAt a n < 256 ^ n := by
  have h := natOf_lt (s.bytesAt a n)
  rwa [State.bytesAt, List.length_map, List.length_range] at h

theorem find_map_range {α : Type} (d : Nat → α) (k : Nat) (f : Nat → α) (n j : Nat) (h : j < n) :
    Tab.find d (k + j) ((List.range n).map fun i => (k + i, f i)) = f j := by
  induction n with
  | zero => exact absurd h (Nat.not_lt_zero _)
  | succ n ih =>
    rw [List.range_succ, List.map_append]
    by_cases hj : j = n
    · subst hj
      rw [Tab.find_append_right]
      · simp [Tab.find]
      · intro e he; simp only [List.mem_map, List.mem_range] at he; obtain ⟨i, hi, rfl⟩ := he; simp only; omega
    · rw [Tab.find_append_left, ih (by omega)]
      intro e he; simp only [List.map_cons, List.map_nil, List.mem_singleton] at he; subst he; simp only; omega

/-- The image: one core, working range 64 KiB, four queues of one command, slots of zeros, and the head of its trailer. -/
def imgBase : State :=
  let s := withRegions ((giveCore ((idle.setObj 0x3100 1 1).setObj 0x3100 2 1) 0).setObj 0x3100 3 bulkBase)
  let s := withMem s bulkBase 64 (0x4F52454D + 2 ^ 40 + 64 * 2 ^ 192 + 64 * 2 ^ 224 + 10368 * 2 ^ 256)
  let s := withMem s (bulkBase + 64) 64 (65536 * 2 ^ 32 + 128 * 2 ^ 64 + (1 + 2 ^ 32 + 2 ^ 64 + 2 ^ 96) * 2 ^ 256
    + (64 * 2 ^ 32 + 128 * 2 ^ 64 + 192 * 2 ^ 96) * 2 ^ 384)
  withMem s (bulkBase + 10368) 4 0x4749534D

/-- Where the trailer has the measurement. -/
def imgHashAt : Nat := bulkBase + 10368 + 8

/-- The image with its measurement. -/
def imgState : State :=
  { imgBase with mem := ⟨imgBase.mem.entries ++ (List.range 48).map fun j =>
      (imgHashAt + j, BitVec.ofNat 8 ((Config.sha384 (imgBase.bytesAt bulkBase 10368)).toNat / 256 ^ j))⟩ }

theorem byteAt_bulk (s : State) (hr : s.redirects = []) (x : Nat) (hx : 0x80000000 ≤ x) : s.byteAt x = Tab.find zeroByte x s.mem.entries := by
  rw [State.byteAt, hr]; exact State.rawByte_other s x hx

theorem imgState_byteAt (x : Nat) (hx : x < imgHashAt) (hb : 0x80000000 ≤ x) : imgState.byteAt x = imgBase.byteAt x := by
  rw [byteAt_bulk _ rfl x hb, byteAt_bulk _ rfl x hb]
  refine Tab.find_append_left _ _ _ fun e he => ?_
  simp only [List.mem_map, List.mem_range] at he
  obtain ⟨i, hi, rfl⟩ := he
  simp only; omega

theorem imgState_hashByte (j : Nat) (hj : j < 48) :
    imgState.byteAt (imgHashAt + j) = BitVec.ofNat 8 ((Config.sha384 (imgBase.bytesAt bulkBase 10368)).toNat / 256 ^ j) := by
  rw [byteAt_bulk _ rfl _ (Nat.le_trans (by decide) (Nat.le_add_right imgHashAt j))]
  refine (Tab.find_append_right imgBase.mem.entries _ _ ?_).trans
    (find_map_range _ _ (fun j => BitVec.ofNat 8 ((Config.sha384 (imgBase.bytesAt bulkBase 10368)).toNat / 256 ^ j)) _ _ hj)
  have h : ∀ e ∈ imgBase.mem.entries, e.1 < imgHashAt := by decide +kernel
  intro e he; have := h e he; omega

theorem imgState_hash : imgState.natAt imgHashAt 48 = (Config.sha384 (imgBase.bytesAt bulkBase 10368)).toNat := by
  have h : imgState.bytesAt imgHashAt 48 = (List.range 48).map fun j =>
      BitVec.ofNat 8 ((Config.sha384 (imgBase.bytesAt bulkBase 10368)).toNat / 256 ^ j) :=
    List.map_congr_left fun j hj => imgState_hashByte j (List.mem_range.mp hj)
  rw [State.natAt, h, natOf_digits]
  exact Nat.mod_eq_of_lt (Config.sha384 (imgBase.bytesAt bulkBase 10368)).isLt

theorem imgState_bytes : imgState.bytesAt bulkBase 10368 = imgBase.bytesAt bulkBase 10368 :=
  List.map_congr_left fun i hi => imgState_byteAt _ (by
    have := List.mem_range.mp hi; rw [show imgHashAt = bulkBase + 10376 from rfl]; omega) (Nat.le_trans (by decide) (Nat.le_add_right bulkBase i))

theorem imgState_image : (imgState.imageOf (imgState.obj (0x3100 + 0) 3)).at_ = bulkBase ∧ (imgState.imageOf (imgState.obj (0x3100 + 0) 3)).len = 10368 := by
  decide +kernel

theorem field_mid (m x y : Nat) (hm : m < 256 ^ 8) (hx : x < 256 ^ 48) : fieldAt (m + 256 ^ 8 * (x + 256 ^ 48 * y)) 64 384 = x := by
  have h8 : (2 : Nat) ^ 64 = 256 ^ 8 := by rw [show (256 : Nat) = 2 ^ 8 from rfl, ← pow_mul]
  have h48 : (2 : Nat) ^ 384 = 256 ^ 48 := by rw [show (256 : Nat) = 2 ^ 8 from rfl, ← pow_mul]
  rw [fieldAt, h8, h48, Nat.add_mul_div_left _ _ (Nat.pow_pos (by decide)), Nat.div_eq_of_lt hm, Nat.zero_add, Nat.add_mul_mod_self_left,
    Nat.mod_eq_of_lt hx]

theorem imgState_trailer : imgState.trailerOk 0 (imgState.imageOf (imgState.obj (0x3100 + 0) 3)) = true := by
  have h1 := natAt_add imgState (bulkBase + 10368) 8 248
  have h2 := natAt_add imgState imgHashAt 48 200
  have h3 := natAt_lt imgState (bulkBase + 10368) 8
  have h4 : imgState.natAt (bulkBase + 10368) 8 = 0x4749534D := by decide +kernel
  have h5 := natAt_lt imgState imgHashAt 48
  rw [show bulkBase + 10368 + 8 = imgHashAt from rfl, show 8 + 248 = 256 from rfl] at h1
  rw [show 48 + 200 = 248 from rfl] at h2
  rw [h4, h2] at h1
  have hm : fieldAt (imgState.natAt (bulkBase + 10368) 256) 0 32 = 0x4749534D := by
    rw [h1, fieldAt]; omega
  have hd : BitVec.ofNat 384 (fieldAt (imgState.natAt (bulkBase + 10368) 256) 64 384) = Config.sha384 (imgState.bytesAt bulkBase 10368) := by
    have : fieldAt (imgState.natAt (bulkBase + 10368) 256) 64 384 = imgState.natAt imgHashAt 48 := by
      rw [h1]; exact field_mid _ _ _ (by decide) h5
    rw [this, imgState_hash, imgState_bytes, BitVec.ofNat_toNat, BitVec.setWidth_eq]
  unfold State.trailerOk
  rw [imgState_image.1, imgState_image.2]
  simp only [hm, hd]
  rw [show imgState.inBoot 0 bulkBase (10368 + 256) = true from by decide +kernel, show imgState.isSealed 0 = false from by decide +kernel]
  simp

/-- The image as LOAD reads it, and its core section. -/
def img : Image := imgState.imageOf (imgState.obj (0x3100 + 0) 3)

def imgSec : CoreSec := ⟨0, 65536, 128, 0, [0, 0, 0, 0], [1, 1, 1, 1], [0, 64, 128, 192]⟩

theorem img_at : img.at_ = bulkBase ∧ img.len = 10368 ∧ img.coreTab = 64 ∧ img.syncTab = 64 ∧ img.syncs = 0 ∧ img.ncore = 1
    ∧ imgState.coreSecs img = [imgSec] := by decide +kernel

theorem imgState_zero (x : Nat) (h1 : bulkBase + 128 ≤ x) (h2 : x < bulkBase + 10368) : imgState.byteAt x = 0 := by
  rw [byteAt_bulk _ rfl x (Nat.le_trans (by decide) h1)]
  refine Tab.find_of_absent _ _ fun e he => ?_
  have h : ∀ e ∈ imgBase.mem.entries, e.1 < bulkBase + 128 ∨ bulkBase + 10368 ≤ e.1 := by decide +kernel
  rw [show imgState.mem.entries = imgBase.mem.entries ++ _ from rfl, List.mem_append] at he
  rcases he with he | he
  · have := h e he; omega
  · simp only [List.mem_map, List.mem_range] at he
    obtain ⟨i, hi, rfl⟩ := he
    have : imgHashAt = bulkBase + 10376 := rfl
    simp only; omega

theorem natOf_zeros (n : Nat) (f : Nat → Byte) (h : ∀ i, i < n → f i = 0) : natOf ((List.range n).map f) = 0 := by
  induction n with
  | zero => rfl
  | succ n ih =>
    rw [List.range_succ, List.map_append, natOf_append, ih fun i hi => h i (by omega)]
    simp [natOf, h n (by omega)]

theorem img_slot (n : Nat) (h : n < 256) : imgState.slotEntry img imgSec n = 0 := by
  rw [State.slotEntry, img_at.1, State.natAt, State.bytesAt]
  exact natOf_zeros _ _ fun i hi => imgState_zero _ (by simp only [imgSec]; omega) (by simp only [imgSec]; omega)

theorem img_tables : imgState.tablesOk img = true := by
  obtain ⟨h1, h2, h3, h4, h5, h6, h7⟩ := img_at
  have hs : ((List.range 256).all fun n => slotEntryOk (imgState.slotEntry img imgSec n)) = true :=
    List.all_eq_true.mpr fun n hn => by rw [img_slot n (List.mem_range.mp hn)]; rfl
  unfold State.tablesOk
  rw [h7, h2, h3, h4, h5, h6]
  simp only [List.all_cons, List.all_nil, hs]
  decide

theorem img_slots : ((imgState.coreSecs img).any fun c => (List.range 256).any fun n => imgState.slotForeign 0 (imgState.slotEntry img c n)) = false := by
  rw [img_at.2.2.2.2.2.2]
  simp only [List.any_cons, List.any_nil, Bool.or_false, List.any_eq_false]
  intro n hn
  rw [img_slot n (List.mem_range.mp hn), State.slotForeign]
  simp [fieldAt]

theorem img_head : imgState.inBoot 0 img.at_ 64 = true ∧ imgState.bulkError img.at_ 64 = false ∧ img.headOk = true
    ∧ imgState.inBoot 0 img.at_ img.len = true ∧ imgState.bulkError img.at_ img.len = false := by decide +kernel

theorem img_fits : ¬ imgState.obj 0x1000 3 < img.level ∧ img.capReq / 256 = 0 ∧ img.ncore = (imgState.coresOf 0).length
    ∧ [imgSec].all CoreSec.qlenOk = true ∧ [imgSec].all CoreSec.rangesOk = true ∧ img.reserveOk [imgSec] = true := by decide +kernel

theorem img_result : imgState.imageResult 0 = 0 := by
  obtain ⟨h1, h2, h3, h4, h5⟩ := img_head
  obtain ⟨g1, g2, g3, g4, g5, g6⟩ := img_fits
  have hl : ¬ img.len < 64 := by rw [img_at.2.1]; decide
  have hs := img_slots
  have ht : imgState.trailerOk 0 img = true := imgState_trailer
  have h : ∀ i, i = img → imgState.tablesOk i = true → imgState.imageOf (imgState.obj (0x3100 + 0) 3) = i := fun i hi _ => hi ▸ rfl
  rw [img_at.2.2.2.2.2.2] at hs
  unfold State.imageResult
  rw [h img rfl img_tables]
  simp only [h1, h2, h3, h4, h5, g1, g2, g3, g4, g5, g6, hl, img_tables, ht, hs, img_at.2.2.2.2.2.2, img_at.2.2.2.2.1]
  simp

theorem premises_load : Accepts imgState fw (0x3100 + 0) 4 ∧ (imgState.heard fw.path).pstate 0 = 1 ∧ (imgState.heard fw.path).imageResult 0 = 0 :=
  ⟨by unfold Accepts; decide +kernel, by decide +kernel, img_result⟩

/-! ### The dictionary -/

/-- A request for object `i` subindex `k`, of session 16 on the management MAC. -/
def req (p : Path) (i k n : Nat) (data : List Byte) : DictReq :=
  { master := ⟨p, 0⟩, seq := 0, bcast := false, inverted := false, op := 0, last := true, rsv := 0, tag := 7, index := BitVec.ofNat 16 i
    subindex := BitVec.ofNat 8 k, session := 16, len := BitVec.ofNat 16 n, offset := 0, data := data }

/-- The sessions from 1 to `n` are open. -/
def sessions (n : Nat) : State := { idle with sessions := Tab.empty.setList 1 (List.replicate n { isOpen := true }) }

/-- A read on each path of a register, and of one that the read clears. -/
theorem premises_dictRead : ∀ p ∈ [Path.firmware, .chain, .mgmt, .pcie], ∀ x ∈ [(0x2000, 1, ObjType.u8, Access.ro), (0x4001, 0x10, .u32, .rc)],
    let r := { req p x.1 x.2.1 x.2.2.1.size [] with op := 1 }
    let s := sessions 16
    PathOpen s r ∧ specOf r.index.toNat r.subindex.toNat = .ok (x.2.2.1, x.2.2.2) ∧ x.2.2.1.size ≤ 8
      ∧ ((s.heard r.master.path).readStop r.index.toNat r.subindex.toNat x.2.2.2).isNone = true
      ∧ r.len.toNat = x.2.2.1.size ∧ r.offset = 0 ∧ r.rsv = 0 := by
  unfold PathOpen; decide +kernel

/-- SILENT of the chain record, written with its largest value. -/
def silentRow : ObjRow := ⟨0x1100, 1, 8, 1, .u16, .rw, .num 30, false, 0, 65535⟩

theorem premises_dictWrite : ∀ p ∈ [Path.firmware, .chain, .mgmt, .pcie],
    let r := { req p 0x1100 8 2 [0xFF, 0xFF] with op := 2 }
    let i := r.index.toNat
    let k := r.subindex.toNat
    let s := sessions 16
    let u := s.heard r.master.path
    PathOpen s r ∧ objDefined i = true ∧ objRow i k = some silentRow ∧ silentRow.ty.size ≤ 8 ∧ silentRow.acc ≠ .ro ∧ silentRow.acc ≠ .const
      ∧ silentRow.acc ≠ .rc ∧ u.lockStatus (ownerId (reqMaster r)) i = none ∧ r.data.length = silentRow.ty.size
      ∧ r.data.length ≤ lenMax r.master.path ∧ valueOk silentRow (natOf r.data) = true
      ∧ writeAct (reqMaster r) i k (natOf r.data) r.data u = (u.setObj i k (natOf r.data), stOk) ∧ r.offset = 0 ∧ r.rsv = 0 := by
  unfold PathOpen; decide +kernel

/-- DESCRIBE of a record's subindex 0, and of a domain of 256 bytes. -/
theorem premises_describe : ∀ p ∈ [Path.firmware, .chain, .mgmt, .pcie], ∀ x ∈ [(0x2000, 0, ObjType.u8, Access.const), (0x1200, 2, .domain 256, .wo)],
    let r := { req p x.1 x.2.1 8 [] with op := 3 }
    PathOpen (sessions 16) r ∧ specOf r.index.toNat r.subindex.toNat = .ok x.2.2 ∧ r.len.toNat ≤ lenMax r.master.path ∧ r.rsv = 0 := by
  unfold PathOpen; decide +kernel

theorem premises_session :
    let q := req .mgmt 0 0 0 []
    let s := sessions 15
    let s' := (sessions 16).setObj 0x1110 9 128
    q.master.path = .mgmt ∧ s.dictUp .mgmt = true ∧ s.allowed 0 = true ∧ (s.sessions.get 16).isOpen = false
      ∧ (∀ k, k < 16 → 1 ≤ k → (s.sessions.get k).isOpen = true)
      ∧ s'.dictUp .mgmt = true ∧ s'.allowed 1 = false ∧ (s'.sessions.get q.session.toNat).isOpen = true
      ∧ (s'.sessions.get q.session.toNat).kept.find? (fun a => a.req.tag == q.tag) = none
      ∧ (s'.sessions.get ((15 : SessionId).val + 1)).isOpen = true := by
  decide +kernel

/-- Locks 0 and 15, free, abandoned, held and held with repair due. -/
theorem premises_locks : ∀ n ∈ [0, 15], ∀ m ∈ [fw, ⟨.chain, 0⟩, ⟨.mgmt, 0⟩, ⟨.pcie, 0⟩],
    let s (st : Nat) := ((idle).setObj (0x1180 + n) 2 st).setObj (0x1180 + n) 3 (ownerId m)
    Accepts (s 0) m (0x1180 + n) 1 ∧ ((s 0).heard m.path).obj (0x1180 + n) 2 = 0
      ∧ Accepts (s 2) m (0x1180 + n) 1 ∧ ((s 2).heard m.path).obj (0x1180 + n) 2 = 2
      ∧ Accepts (s 1) m (0x1180 + n) 1 ∧ ((s 1).heard m.path).holdsLock (ownerId m) n = true
      ∧ Accepts (s 3) m (0x1180 + n) 1 ∧ ((s 3).heard m.path).holdsLock (ownerId m) n = true ∧ ((s 3).heard m.path).obj (0x1180 + n) 2 = 3 := by
  unfold Accepts; decide +kernel

/-- Firmware and the PCIe master write SILENT in one slot. -/
theorem premises_arbitration :
    let a := { req .firmware 0x1100 8 2 [1, 0] with op := 2 }
    let b := { req .pcie 0x1100 8 2 [2, 0] with op := 2 }
    let i := a.index.toNat
    let k := a.subindex.toNat
    let s := idle
    (s.dictUp .firmware = true ∧ s.dictUp .pcie = true ∧ s.recovering = false ∧ s.mbWaiting = none)
      ∧ (objDefined i = true ∧ objRow i k = some silentRow ∧ lockOf i = none ∧ silentRow.ty.size ≤ 8 ∧ silentRow.acc = .rw)
      ∧ (∀ r ∈ [a, b], r.data.length = silentRow.ty.size ∧ valueOk silentRow (natOf r.data) = true ∧ r.offset = 0 ∧ r.rsv = 0
        ∧ ∀ u, writeAct r.master i k (natOf r.data) r.data u = (u.setObj i k (natOf r.data), stOk)) := by
  refine ⟨by decide +kernel, by decide +kernel, fun r hr => ?_⟩
  simp only [List.mem_cons, List.not_mem_nil, or_false] at hr
  rcases hr with rfl | rfl <;> exact ⟨by decide +kernel, by decide +kernel, rfl, rfl, fun _ => rfl⟩

/-! ### The chain and the PCIe link -/

theorem premises_chain :
    let s := idle.setObj 0x1100 3 0xFFFF
    let s' := { idle with chain := { idle.chain with outDue := true, rateNext := some 3, retryIdle := true } }
    let f := s'.setObj 0x1100 6 2
    s.chainUp = true ∧ s.hasSlot = false ∧ (63 : Byte).toNat ≤ 63 ∧ (191 : Byte).toNat ≤ 191 ∧ s'.chain.outDue = true ∧ s'.chain.rateNext = some 3
      ∧ s'.chainUp = true ∧ s'.hasSlot = true ∧ f.obj 0x1100 6 = 2 ∧ f.dictUp .chain = true ∧ f.chain.retryIdle = true
      ∧ s'.dictUp .chain = true ∧ s'.obj 0x1100 8 ≠ 0 ∧ s'.chain.silentLogged = false := by
  decide +kernel

theorem premises_mailbox : idle.serverUp = true ∧ idle.mbState ≠ .busy ∧ idle.dictUp .pcie = true := by decide +kernel

/-- The last base that WIN_BASE takes. -/
theorem premises_winBase :
    let d := bytesOf 8 (0x3FFFF * 2 ^ 26)
    d.length = 8 ∧ fieldAt (natOf d) 0 26 = 0 ∧ fieldAt (natOf d) 44 20 = 0 := by
  decide +kernel

/-- A granule below core 0's vault, and the last granule of a POSTED region. -/
theorem premises_serverWindow :
    let s := { withRegions (inState 1) with winBase := 1 }
    let b := { withRegion (withRegions (inState 1)) 3 0x400 1 48 0xFF 0 with winBase := BitVec.ofNat 18 ((bulkBase + 0x80000000) / 2 ^ 26) }
    let x := vaultOff - 64 - 0x4000000
    s.Canonical ∧ s.serverUp = true ∧ s.winSee false (s.winAddr x) 64 = .open ∧ s.sramError (s.winAddr x) 64 = false
      ∧ s.winSee true (s.winAddr x) 64 = .open ∧ s.sramPartial (s.winAddr x) 64 = false
      ∧ redirectBy s.redirects (s.winAddr x) % 0x8000000 + 64 ≤ 0x8000000
      ∧ b.winSee true (b.winAddr 0x1FFFC0) 64 = .open ∧ redirectBy b.redirects (b.winAddr 0x1FFFC0) % 0x8000000 + 64 ≤ 0x8000000 :=
  ⟨canonical_of (by decide +kernel) (by decide +kernel), by decide +kernel⟩

/-- The last byte of window 15. -/
theorem premises_host :
    let s := ((inState 1).setObj 0x114F 2 1).setObj 0x114F 1 0x1000
    let a := hostBase + 16 * hostSize - 1
    s.isSealed 0 = false ∧ s.hostReach 0 a 1 = true ∧ 1 ≤ hostSize - (a - hostBase) % hostSize := by
  decide +kernel

theorem premises_pcie : idle.serverUp = true ∧ ({ idle with serverUp := false } : State).clockRuns = true := by decide +kernel

/-! ### The training job -/

/-- This device, node 5, has rank `r` and role `role` of a job of nodes 3, 5, 9 and 12287, led from `lead`; HOME slots are regions 4
and 5, the WARD region is region 6. -/
def jobState (role r lead : Nat) (j : Job) : State :=
  let s := withRegion (withRegion (withRegion (withRegions (inState 4)) 4 1024 512 56 0 0) 5 1536 512 56 0 0) 6 2048 512 32 0 0
  let s := ((((s.setObj 0x3500 2 role).setObj 0x3500 3 lead).setObj 0x3500 4 r).setObj 0x3500 5 4).setObj 0x3500 6 bulkBase
  { withMem ((s.setObj 0x3500 0x11 (4 + 5 * 256)).setObj 0x3500 0x12 6) bulkBase 8 (3 + 5 * 2 ^ 16 + 9 * 2 ^ 32 + 12287 * 2 ^ 48) with job := j }

/-- The job is recovering. -/
def recovering (s : State) : State := s.setObj 0x3500 0x13 2

theorem premises_heartbeat :
    let s := jobState 1 1 5 {}
    let m := jobState 2 1 3 {}
    s.spDown0 = false ∧ s.inJob = true ∧ (3 : NodeId).toNat ≠ s.ownNode ∧ m.spDown0 = false ∧ m.obj 0x3500 2 = 2 ∧ (5 : NodeId).toNat = m.ownNode
      ∧ s.isLead = true ∧ s.rankOfNode (12287 : NodeId).toNat = some 3 ∧ 3 ≠ s.ownRank ∧ s.recoveringJob = false ∧ (∀ f ∈ s.job.failed, f.1 ≠ 3)
      ∧ m.rankOfNode (m.obj 0x3500 3) = some 0 ∧ m.deputyRank 0 = m.ownRank ∧ 0 ≠ m.ownRank ∧ m.recoveringJob = false
      ∧ (∀ f ∈ m.job.failed, f.1 ≠ 0) := by
  decide +kernel

theorem premises_failure :
    let s := jobState 1 1 5 { failed := [(0, 3)] }
    s.isLead = true ∧ 3 < s.jobReps ∧ 3 ≠ s.ownRank ∧ s.recoveringJob = false ∧ (∀ f ∈ s.job.failed, f.1 ≠ 3) ∧ s.clockRuns = true ∧ s.jobP < 4
      ∧ s.obj 0x2000 1 ≠ 1 ∧ (jobState 3 1 5 {}).obj 0x3500 2 = 3 ∧ (recovering s).isLead = true ∧ (recovering s).recoveringJob = true := by
  decide +kernel

/-- A complete checkpoint of step `step` in a home slot. -/
def kept (s : State) (k : Bool) (step : Nat) : CkSlot :=
  { st := .complete, step := BitVec.ofNat 32 step, len := 12288, digest := s.slotDigest (s.homeAddr k) }

/-- The recovering job with an update list of one entry; its latest checkpoint is that of step 7. -/
def ckState : State :=
  let s := ((recovering (jobState 2 1 3 {})).setObj 0x3500 0x14 7).setObj 0x3500 0x0A (bulkBase + 64)
  withMem (s.setObj 0x3500 0x0B 1) (bulkBase + 64) 64 updWord

/-- Home slot 0 or 1 holds it. -/
def keptState (k : Bool) : State :=
  { ckState with job := { home0 := kept ckState false (if k then 6 else 7), home1 := kept ckState true (if k then 7 else 6) } }

theorem premises_restore : ∀ k ∈ [false, true],
    let s := keptState k
    s.inJob = true ∧ s.recoveringJob = true ∧ s.pstate s.jobP ≠ 3 ∧ s.updWords s.jobP = [updWord] ∧ s.updEntryOk s.jobP updWord = true
      ∧ (k = true ↔ s.job.home1.st = .complete ∧ s.job.home1.step.toNat = s.obj 0x3500 0x14) ∧ s.obj 0x3500 0x14 < 2 ^ 32
      ∧ (s.job.home k).st = .complete ∧ (s.job.home k).step.toNat = s.obj 0x3500 0x14 ∧ s.homeOk k = true := by
  decide +kernel

theorem slotDigest_job (s : State) (j : Job) (k : Bool) : State.slotDigest { s with job := j } (State.homeAddr { s with job := j } k)
    = s.slotDigest (s.homeAddr k) := rfl

theorem premises_restoreDigest (k : Bool) : (keptState k).slotDigest ((keptState k).homeAddr k) = ((keptState k).job.home k).digest := by
  rw [keptState, slotDigest_job]
  cases k <;> simp [Job.home, kept]

/-- One entry of the list is sharded. -/
theorem premises_digest :
    let s := (jobState 1 1 5 {}).setPart 0 { updList := [{ updEntryOf 0 with sharded := true }] }
    s.isLead = true ∧ 3 < s.jobReps ∧ s.replicated = false ∧ s.obj (0x3050 + s.jobP) 1 ≠ 1 := by
  decide +kernel

/-! ### Checkpoints on the buddy -/

/-- The longest checkpoint that a WARD region of 1 GiB takes. -/
def wardLen : Nat := 0x20000000 - 64

theorem premises_ckptBegin :
    let s := jobState 2 1 3 { ward0 := { st := .complete, step := 4 }, ward1 := { st := .complete, step := 5 } }
    s.wardKept false = false ∧ s.wardOk (BitVec.ofNat 64 wardLen).toNat = true ∧ s.wardKept true = true ∧ s.wardOk (wardLen + 1) = false := by
  decide +kernel

theorem premises_ckptRecords :
    let x : CkSlot := { st := .filling, len := wardLen, got := wardLen - 1 }
    let s := jobState 2 1 3 { ward1 := x }
    (s.job.ward true).st = .filling ∧ (s.job.ward true).got + 1 ≤ (s.job.ward true).len ∧ s.wardOk (s.job.ward true).len = true
      ∧ s.bulkReady (s.wardAddr true + (64 + (wardLen - 1)) - bulkBase) 1 = true := by
  decide +kernel

theorem premises_ckptStream :
    let s := jobState 2 1 3 { stream := some (true, 64 + 12288), home1 := { st := .complete, len := 12288 } }
    s.job.stream = some (true, 64 + 12288) ∧ 0 < 1 ∧ 0 < 64 + 12288 ∧ 64 + 12288 ≤ 64 + (s.job.home true).len ∧ s.suspended 3 = false
      ∧ s.homeOk true = true := by
  decide +kernel

theorem premises_ckptComplete :
    let s := jobState 1 1 5 { capStep := 9, reported := [0, 1, 2] }
    let m := jobState 2 1 3 {}
    s.isLead = true ∧ 3 < s.jobReps ∧ 3 ≠ s.ownRank ∧ 9 = s.job.capStep ∧ (∀ k, k < s.jobReps → k = 3 ∨ k ∈ s.job.reported)
      ∧ m.obj 0x3500 2 = 2 ∧ 3 < m.jobReps ∧ 3 ≠ m.ownRank := by
  decide +kernel

/-! ### Ports -/

/-- Port `p` is enabled in a mode, its lanes in these states and in service. -/
def portState (p mode st : Nat) : State :=
  let s := (((idle.setObj (0x4000 + p) 1 mode).setObj (0x4000 + p) 2 1)).setObj (0x4000 + p) 3 1518
  (portFour p).foldl (fun s k => (s.setObj (0x4020 + k) 1 st).setObj (0x4020 + k) 2 1) s

/-- Port 7. -/
theorem premises_portEnable :
    let s := idle.setObj 0x4007 1 3
    Accepts s fw 0x4007 2 ∧ (s.heard fw.path).mode 7 ≠ 0 ∧ 2 ≤ (s.heard fw.path).obj 0x2000 1 ∧ (s.heard fw.path).obj 0x2000 5 = 0 := by
  unfold Accepts; decide +kernel

/-- Lane 31, in training; in order and reversed. -/
theorem premises_laneReady :
    let s := portState 7 1 2
    s.laneSt 31 = 2 ∧ (portState 7 1 1).laneSt 31 = 1 ∧ s.los.get 31 ≠ 1 ∧ s.orderOk 31 false 0 = true
      ∧ (portState 7 3 2).orderOk 31 true 0 = true ∧ (portState 7 3 2).orderOk 31 false 3 = true := by
  decide +kernel

theorem premises_link :
    let s := portState 7 2 3
    s.linkDefined 30 = true ∧ s.linkSt 30 = 0 ∧ s.portLit (30 / 4) = true ∧ (portState 7 3 3).linkDefined 31 = true := by
  decide +kernel

/-- Lane 31 in service on link 31, and out of LOS. -/
theorem premises_laneOut :
    let s := (portState 7 3 4).setObj 0x405F 8 1
    let l := { s with los := Tab.empty.set 31 1 }
    s.laneSt 31 = 4 ∧ s.obj (0x4040 + s.linkOfLane 31) 9 ≠ 2 ∧ l.los.get 31 ≠ 0 ∧ (∀ k ∈ portFour 7, k ≠ 31 → l.los.get k ≠ 1) := by
  decide +kernel

theorem premises_service :
    let s := portState 7 3 0
    Accepts s fw 0x403F 2 ∧ (s.heard fw.path).laneSt 31 = 0 ∧ (s.heard fw.path).obj 0x501F 1 = 0 ∧ (s.heard fw.path).portLit 7 = true := by
  unfold Accepts; decide +kernel

theorem premises_laneStatus :
    let s := ((portState 7 3 4).setObj 0x405F 8 1).setObj 0x405F 9 2
    s.obj 0x405F 9 = 2 ∧ s.linkSt 31 ≠ 0 ∧ (∀ l, l < 32 → (portState 7 3 4).linkSt l = 0) := by
  decide +kernel

/-! ### Frames and streams -/

/-- An untagged frame of 64 bytes. -/
def frame : Frame :=
  { len := 64, fcsError := false, symError := false, control := false, sTag := none, cTag := none, pcp := 0, service := false, fragment := false
    badSum := false, udpPort := none, dstMac := 0, ssrc := none, bytes := [] }

/-- Link 31 is up, alone on its lane. -/
def linkUp : State := (portState 7 3 4).setObj 0x405F 8 1

theorem premises_frame :
    let s := linkUp.setObj 0x4200 6 4791
    s.linkSt 31 ≠ 0 ∧ badFrame (s.obj 0x4007 3) { frame with len := 1519 } = true ∧ badFrame (s.obj 0x4007 3) { frame with len := 63 } = true
      ∧ s.obj 0x4007 4 ≠ 1 ∧ (∀ f ∈ [frame, { frame with len := 1518, cTag := some 5 }, { frame with service := true },
        { frame with udpPort := some 4791 }], badFrame (s.obj 0x4007 3) f = false ∧ f.control = false)
      ∧ s.tagCheck 31 { frame with cTag := some 5 } = none ∧ s.tagCheck 31 frame = some 0 := by
  decide +kernel

theorem premises_pause :
    let s := linkUp.setObj 0x405F 5 2
    let p := linkUp.setLink 31 { linkUp.link 31 with pause := Tab.empty.set 7 65535 }
    s.linkSt 31 ≠ 0 ∧ s.obj 0x405F 5 = 2 ∧ (linkUp.setObj 0x405F 5 1).obj 0x405F 5 = 1 ∧ (p.link 31).pause.get 7 ≠ 0 ∧ (p.link 31).storm.get 7 ≠ 1
      ∧ bitAt (s.obj 0x405F 6) 7 = true := by
  decide +kernel

/-- Above XOFF, below XON after it, and between. -/
theorem premises_pfcLevels :
    let s := (linkUp.setObj 0x4007 0x0F (2 * 2 ^ 56 + 2 ^ 120)).setLink 31 { linkUp.link 31 with xoffSent := Tab.empty.set 7 1 }
    s.xoff 31 7 < 16385 ∧ 8191 ≤ s.xoff 31 7 ∧ 8191 < s.xon 31 7 ∧ (s.link 31).xoffSent.get 7 = 1 ∧ 16384 ≤ s.xoff 31 7 ∧ s.xon 31 7 ≤ 8192 := by
  decide +kernel

theorem premises_gates :
    let s := { linkUp.setLink 31 { linkUp.link 31 with openAll := false, gate := 254 } with gates := (Tab.empty.set 28 1).set 29 256 }
    let e := { s.setLink 31 { s.link 31 with gate := 255 } with gates := s.gates }
    (s.link 31).openAll = false ∧ (s.link 31).gate + 1 < s.gate 7 1 ∧ e.gate 7 1 ≤ (e.link 31).gate + 1 ∧ e.gate 7 0 = 1
      ∧ e.obj 0x4007 0x0D ≤ e.now := by
  decide +kernel

theorem premises_configTime :
    let s := (idle.setObj 0x4007 0x0B 1).setObj 0x4007 0x0C (255 + 2 ^ 8)
    Accepts s fw 0x4007 0x0D ∧ Accepts s fw 0x40A0 3 ∧ (∀ i, i < (s.heard fw.path).obj 0x4007 0x0B →
      (gateEntry ((s.heard fw.path).obj 0x4007 0x0C) i).2.1 ≠ 0 ∧ (gateEntry ((s.heard fw.path).obj 0x4007 0x0C) i).2.2 = 0) := by
  unfold Accepts; decide +kernel

theorem premises_stream :
    let s := (idle.setObj 0x412F 1 1).setStream 47 { filling := some 65534, slots := Tab.empty.set 65534 { st := .filling, ts := 5 } }
    let pk : RtpPacket := { ts := 5, marker := false, ssrc := 0, fbit := false, sampling := 0, overRate := false, gap := 2, segs := [] }
    s.strReg 47 1 = 1 ∧ s.strReg 47 2 = 0 ∧ s.strReg 47 7 % 2 ≠ 1 ∧ pk.overRate = false ∧ pk.fbit = false ∧ pk.sampling.toNat = s.strReg 47 9
      ∧ (s.stream 47).filling = some 65534 ∧ pk.ts = (s.capSlot 47 65534).ts ∧ pk.marker = false := by
  decide +kernel

/-! ### Power -/

theorem premises_target :
    let s := idle.setObj 0x2000 1 1
    Accepts s fw 0x2000 2 ∧ (s.heard fw.path).obj 0x2000 5 = 0 ∧ (s.heard fw.path).bootSt ≠ .restBooting ∧ (s.heard fw.path).obj 0x2000 1 = 1
      ∧ (∀ p, p < 4 → (s.heard fw.path).pstate p = 0) ∧ (s.heard fw.path).bootSt = .up
      ∧ Accepts (inState 2) fw 0x2000 2 ∧ ((inState 2).heard fw.path).obj 0x2000 5 = 0 ∧ ((inState 2).heard fw.path).bootSt ≠ .restBooting
      ∧ ((inState 2).heard fw.path).obj 0x2000 1 ≠ 1 ∧ (∀ p, p < 4 → ((inState 2).heard fw.path).pstate p ≠ 3) := by
  unfold Accepts; decide +kernel

theorem premises_transition : (idle.setObj 0x2000 5 1).obj 0x2000 5 = 1 ∧ (idle.setObj 0x2000 5 2).obj 0x2000 5 = 2 := by decide +kernel

/-- Core 15 waits for a grant after core 14; a fan group above its least duty, and one that has failed. -/
theorem premises_governor :
    let s := { ((inState 3).setCore 15 { clock := true, ramp := 15 }) with granted := 14 }
    let f := (idle.setObj 0x2020 4 21).setObj 0x2020 6 1
    s.waitsGrant 15 = true ∧ f.clockRuns = true ∧ 20 < f.obj 0x2020 (3 + 1) ∧ bitAt (f.obj 0x2020 6) 1 = false ∧ bitAt (f.obj 0x2020 6) 0 = true := by
  decide +kernel

theorem premises_wakeTimer :
    let s : State := { idle with bootSt := .hush, store := some (0xFE, 191, 1, 1), pwrGood := false }
    s.bootSt = .hush ∧ s.store = some (0xFE, 191, 1, 1) ∧ 1 ≠ 0 ∧ s.pwrGood = false ∧ 0xFE ≠ 0xFF := by
  decide +kernel

/-! ### Resets and boot -/

theorem premises_resets :
    let s : State := { idle with pwrGood := true }
    let d : State := { idle with bootSt := .down, pwrGood := true, bootCause := 2
                                 accepted := (((Tab.empty.set 2 1).set 5 1).set 6 1).set 8 1 }
    s.pwrGood = true ∧ s.bootSt ≠ .hush ∧ s.bootSt ≠ .down ∧ s.bootSt ≠ .tripped ∧ (∀ p, p < 4 → s.isSealed p = false) ∧ (11500 : Int) ≤ 11500
      ∧ s.clockRuns = true ∧ (8 : Fin 9).val = 8 ∧ (7 : Fin 9).val ≠ 8 ∧ ({ s with pwrGood := false } : State).pwrGood = false
      ∧ d.bootSt = .down ∧ d.pwrGood = true ∧ d.obj 0x1200 1 ≠ 4 ∧ d.bootCause = 2 ∧ (∀ k ∈ [1, 2, 3, 4], d.bootClassOk k = true)
      ∧ (d.setObj 0x1200 1 4).obj 0x1200 1 = 4 ∧ ({ d with bootSt := .restBooting } : State).bootSt = .restBooting
      ∧ s.obj 0x1200 1 ≠ 0 := by
  decide +kernel

theorem no_conns (c : Nat) : (idle.conn c).st = .free := rfl

/-! ### Background work -/

theorem premises_background :
    let s := { idle with lasers := Tab.empty.set 7 1 }
    let e : Event := ⟨0, 0, 0, 0, 0, true, false, false, false, false⟩
    s.suspended 4 = false ∧ 2 ≤ s.obj 0x2000 1 ∧ 90 < 91 ∧ s.suspended 5 = false ∧ s.clockRuns = true ∧ s.laserLogged.get 3 = 0
      ∧ s.suspended 6 = false ∧ s.suspended 7 = false ∧ sectors - 1 < sectors ∧ s.erases.get (16384 + (sectors - 1)) ≠ 1
      ∧ s.erases.get (sectors - 1) = 0 ∧ ({ s with pwait := [e] } : State).pwait = [e] := by
  decide +kernel

/-- The last sector, not yet erased, may be. -/
theorem premises_wear : idle.erases.get (sectors - 1) < idle.leastErased + 64 := by
  rw [show idle.erases.get (sectors - 1) = 0 from rfl]; omega

theorem premises_logRead : ∀ m ∈ [fw, ⟨.chain, 0⟩, ⟨.mgmt, 0⟩, ⟨.pcie, 0⟩],
    idle.reaches m.path = true ∧ idle.sessionOk m = true ∧ idle.recovering = false := by
  decide +kernel

/-- Object `i` subindex `k` reads as `v`, whatever its reset value. -/
def fused (s : State) (i k v : Nat) : State := { s with objs := ⟨(objKey i k, v) :: s.objs.entries⟩ }

/-- A record measured on the device of serial number 0, all of it zero but its head and its HASH, a SHA-384 value that the
model leaves open. -/
def calHead : Nat := 0x4C414342 + 2 ^ 32 + 2 * 2 ^ 40 + 528 * 2 ^ 192

def calHash : BitVec 384 := Config.sha384 (bytesOf 384 calHead)

def calWord : Nat := calHead + 256 ^ 384 * calHash.toNat

theorem bytesOf_low (n : Nat) : ∀ x y, bytesOf n (x + 256 ^ n * y) = bytesOf n x := by
  induction n with
  | zero => intro _ _; rfl
  | succ n ih =>
    intro x y
    have h : x + 256 ^ (n + 1) * y = x + 256 * (256 ^ n * y) := by rw [Nat.pow_succ]; ring
    have hd : (x + 256 * (256 ^ n * y)) / 256 = x / 256 + 256 ^ n * y := Nat.add_mul_div_left _ _ (by decide)
    rw [bytesOf, bytesOf, h, hd, ih]
    congr 1
    apply BitVec.eq_of_toNat_eq
    simp only [BitVec.toNat_ofNat]
    omega

theorem field_low (x y a n k : Nat) (h : a + n + k = 3072) : fieldAt (x + 256 ^ 384 * y) a n = fieldAt x a n := by
  have e : (256 : Nat) ^ 384 = 2 ^ a * (2 ^ n * 2 ^ k) := by
    rw [show (256 : Nat) = 2 ^ 8 from rfl, ← pow_mul, ← pow_add, ← pow_add]; congr 1; omega
  rw [fieldAt, fieldAt, e, Nat.mul_assoc, Nat.add_mul_div_left _ _ (Nat.two_pow_pos a), Nat.mul_assoc, Nat.add_mul_mod_self_left]

theorem calWord_hash : fieldAt calWord 3072 384 = calHash.toNat := by
  rw [fieldAt, calWord, show (2 : Nat) ^ 3072 = 256 ^ 384 by rw [show (256 : Nat) = 2 ^ 8 from rfl, ← pow_mul],
    Nat.add_mul_div_left _ _ (Nat.pow_pos (by decide)), Nat.div_eq_of_lt (by decide +kernel), Nat.zero_add, Nat.mod_eq_of_lt calHash.isLt]

theorem calWord_sig : fieldAt calWord 3456 768 = 0 := by
  have h : calWord < 2 ^ 3456 := by
    have h1 := calHash.isLt
    have h2 : calHead < 256 ^ 384 := by decide +kernel
    have h3 : (2 : Nat) ^ 3456 = 256 ^ 384 * 2 ^ 384 := by
      rw [show (256 : Nat) = 2 ^ 8 from rfl, ← pow_mul, ← pow_add]
    rw [calWord, h3]
    calc calHead + 256 ^ 384 * calHash.toNat < 256 ^ 384 + 256 ^ 384 * calHash.toNat := Nat.add_lt_add_right h2 _
      _ = 256 ^ 384 * (calHash.toNat + 1) := by ring
      _ ≤ 256 ^ 384 * 2 ^ 384 := Nat.mul_le_mul_left _ h1
  rw [fieldAt, Nat.div_eq_of_lt h, Nat.zero_mod]

theorem calWord_format : calFormatOk calWord = true := by
  have hb : bytesOf 384 calWord = bytesOf 384 calHead := bytesOf_low _ _ _
  have hh : calHash = Config.sha384 (bytesOf 384 calHead) := rfl
  unfold calFormatOk
  rw [calWord_hash, calWord_sig, hb, BitVec.ofNat_toNat, BitVec.setWidth_eq, hh]
  simp only [calWord]
  rw [field_low _ _ 0 32 3040 rfl, field_low _ _ 32 8 3032 rfl, field_low _ _ 40 8 3024 rfl, field_low _ _ 48 16 3008 rfl,
    field_low _ _ 192 32 2848 rfl, field_low _ _ 224 288 2560 rfl, field_low _ _ 1376 32 1664 rfl, field_low _ _ 2880 192 0 rfl]
  rw [show fieldAt calHead 0 32 = 0x4C414342 by decide +kernel, show fieldAt calHead 32 8 = 1 by decide +kernel,
    show fieldAt calHead 40 8 = 2 by decide +kernel, show fieldAt calHead 48 16 = 0 by decide +kernel, show fieldAt calHead 192 32 = 528 by decide +kernel,
    show fieldAt calHead 224 288 = 0 by decide +kernel, show fieldAt calHead 1376 32 = 0 by decide +kernel,
    show fieldAt calHead 2880 192 = 0 by decide +kernel]
  simp

/-- The ports are disabled and the record is staged. -/
def calState : State :=
  fused (fused ([0, 1, 2, 3, 4, 5, 6, 7].foldl (fun s p => s.setObj (0x4000 + p) 2 0) (locked idle)) 0x1000 1 0) 0x2200 2 calWord

theorem premises_calCommit :
    Accepts calState fw 0x2200 3 ∧ (∀ p, p < 8 → (calState.heard fw.path).obj (0x4000 + p) 2 ≠ 1)
      ∧ (∀ p, p < 4 → (calState.heard fw.path).pstate p ≠ 3) := by
  unfold Accepts; decide +kernel

theorem premises_calResult : (calState.heard fw.path).calResult ((calState.heard fw.path).obj 0x2200 2) true = 0 := by
  rw [show (calState.heard fw.path).obj 0x2200 2 = calWord from rfl]
  have h1 : fieldAt calWord 64 128 = 0 := by rw [calWord, field_low _ _ 64 128 2880 rfl]; decide +kernel
  have h2 : fieldAt calWord 40 8 = 2 := by rw [calWord, field_low _ _ 40 8 3024 rfl]; decide +kernel
  unfold State.calResult
  rw [calWord_format, h1, h2, show (calState.heard fw.path).obj 0x1000 1 = 0 from rfl]
  simp

/-! ### Sealed partitions and the life cycle -/

/-- To SCRAPPED, which takes no token, and to RETURNED without one: the serial number is another's. -/
theorem premises_request :
    let s := fused idle 0x1000 1 5
    Accepts idle fw 0x1200 3 ∧ (∀ p, p < 4 → (idle.heard fw.path).pstate p = 0) ∧ lifeStep ((idle.heard fw.path).obj 0x1200 1) 4 = true
      ∧ (idle.heard fw.path).tokenOk ((idle.heard fw.path).obj 0x1200 1) 4 = true
      ∧ Accepts s fw 0x1200 3 ∧ (∀ p, p < 4 → (s.heard fw.path).pstate p = 0) ∧ lifeStep ((s.heard fw.path).obj 0x1200 1) 3 = true
      ∧ (s.heard fw.path).tokenOk ((s.heard fw.path).obj 0x1200 1) 3 = false
      ∧ Accepts idle fw 0x1210 0x0A ∧ Accepts idle fw 0x1111 0 ∧ Accepts idle fw 0x1270 1 := by
  unfold Accepts; decide +kernel

/-- Partition 3 is sealed and has a package, in state `st`; session 7 is `x`. -/
def sealedState (st : Nat) (x : SpdmSession) : State :=
  { (((idle.setObj 0x1233 1 1).setObj 0x3103 2 st).setObj 0x1240 1 3).setPart 3 { wk := some 0 } with spdm := Tab.empty.set 7 x }

theorem premises_bind :
    let s := sealedState 1 {}
    (s.spdm.get 7).part = none ∧ s.isSealed 3 = true ∧ (s.part 3).wk.isSome = true ∧ (s.part 3).bound = none ∧ s.isSealed 2 = false := by
  decide +kernel

/-- Requests of a bound session: job key slot 15 empty, and owned. -/
theorem premises_bound :
    let s := sealedState 2 { isOpen := true, part := some 3, slots := [14] }
    let o := (s.setObj 0x125F 5 2).setObj 0x125F 1 3
    (s.spdm.get 7).part = some 3 ∧ s.obj (0x1251 + ((15 : Byte).toNat - 1)) 5 = 0 ∧ (o.spdm.get 7).part = some 3
      ∧ o.obj (0x1251 + ((15 : Byte).toNat - 1)) 5 ≠ 0 ∧ o.obj (0x1251 + ((15 : Byte).toNat - 1)) 1 = 3 := by
  decide +kernel

theorem premises_quietVault : Quiet (sealedState 2 { isOpen := true, part := some 3, slots := [14] }) := fun _ => ⟨rfl, rfl⟩

theorem premises_sealing :
    let s := withRegions (inState 1)
    let q := sealedState 1 {}
    Accepts s fw 0x1230 1 ∧ (s.heard fw.path).obj 0x1200 1 = 2 ∧ (s.heard fw.path).pstate 0 = 1 ∧ (s.heard fw.path).isSealed 0 = false
      ∧ Accepts q fw 0x1233 2 ∧ (q.heard fw.path).isSealed 3 = true ∧ (q.heard fw.path).pstate 3 = 1 := by
  unfold Accepts; decide +kernel

theorem premises_package :
    let s := sealedState 2 {}
    Accepts s fw 0x1240 4 ∧ (s.heard fw.path).pkgBusy ((s.heard fw.path).obj 0x1240 1) = false
      ∧ (s.heard fw.path).pstate ((s.heard fw.path).obj 0x1240 1) = 2 ∧ (s.heard fw.path).contentKey ((s.heard fw.path).obj 0x1240 1) = none := by
  unfold Accepts; decide +kernel

theorem premises_packageDone :
    let r : PkgRun := ⟨3, false, [], [(bulkBase, 64)], 6, 1⟩
    ({ sealedState 2 {} with pkgRun := some r } : State).pkgRun = some r ∧ r.export_ = false ∧ r.result ≠ 0 ∧ (∀ x ∈ r.written, bulkBase ≤ x.1)
      ∧ ({ r with result := 0 } : PkgRun).regions = [] := by
  decide +kernel

theorem premises_slotKey :
    let s := idle.setObj 0x125F 1 3
    Accepts s fw 0x125F 4 ∧ (s.heard fw.path).slotSealed 14 = false ∧ (s.heard fw.path).obj 0x125F 5 = 0 ∧ (s.heard fw.path).obj 0x125F 1 < 4 := by
  unfold Accepts; decide +kernel

/-! ### Tests and recovery -/

/-- The last KiB of copy B of class 2. -/
def recAt : Nat := 0x1000000 + 0x7FFC00

/-- `n` erased bytes from there. -/
def erased (n : Nat) : FlashTab := ⟨(List.range n).map fun i => (recAt + i, 0xFF)⟩

theorem erased_get (n i : Nat) (h : i < n) : (erased n).get (recAt + i) = 0xFF := find_map_range _ recAt (fun _ => 0xFF) n i h

/-- The recovery service may rewrite copy B of class 2; DATA goes to its last KiB, which is erased. -/
def recState : State :=
  { (((idle.setObj 0x5060 1 2).setObj 0x5060 2 1).setObj 0x5060 3 0x7FFC00) with
    bootSt := .recoveryImage, flash := erased 1024 }

theorem premises_recovery :
    Accepts recState fw 0x5060 5 ∧ Accepts recState fw 0x5060 4 ∧ (recState.heard fw.path).copyOpen = true
      ∧ (List.replicate 1024 (7 : Byte)).length = 1024 ∧ (recState.heard fw.path).bootSt = .recoveryImage
      ∧ (recState.heard fw.path).obj 0x5060 3 + 1024 ≤ (copyArea ((recState.heard fw.path).obj 0x5060 1) ((recState.heard fw.path).obj 0x5060 2)).2
      ∧ (copyArea ((recState.heard fw.path).obj 0x5060 1) ((recState.heard fw.path).obj 0x5060 2)).1 + (recState.heard fw.path).obj 0x5060 3
        = recAt := by
  unfold Accepts; decide +kernel

theorem premises_erased (i : Nat) (h : i < 1024) : (recState.heard fw.path).flash.get (recAt + i) = 0xFF := by
  rw [show (recState.heard fw.path).flash = erased 1024 from rfl]
  exact erased_get 1024 i h

theorem premises_laneTest :
    let s := portState 7 3 0
    let t := s.setObj 0x501F 1 3
    Accepts s fw 0x501F 1 ∧ (s.heard fw.path).obj 0x403F 2 = 1 ∧ (s.heard fw.path).laneSt 31 = 0 ∧ (s.heard fw.path).portLit 7 = true
      ∧ t.obj 0x501F 1 ≠ 0 ∧ t.obj 0x501F 5 ≠ 1 ∧ (t.setObj 0x501F 5 1).obj 0x501F 5 ≠ 0 := by
  unfold Accepts; decide +kernel

/-- The last chunk of channel 15. -/
theorem premises_bulkTest :
    let s := (idle.setObj 0x502F 2 4095).setObj 0x502F 3 1
    let r := s.setObj 0x502F 5 1
    Accepts s fw 0x502F 4 ∧ (let u := s.heard fw.path
        u.bulkTestClosed = [] ∧ u.obj 0x2000 1 = 2 ∧ (∀ p, p < 4 → u.pstate p = 0) ∧ u.obj 0x502F 5 ≠ 1
          ∧ (∀ k, k < u.obj 0x502F 3 → u.chunkUsed 15 (u.obj 0x502F 2 + k) = false) ∧ u.obj 0x502F 2 + u.obj 0x502F 3 ≤ 4096)
      ∧ Accepts r fw 0x502F 4 ∧ (r.heard fw.path).bulkTestClosed = [] ∧ (r.heard fw.path).obj 0x502F 5 = 1 := by
  unfold Accepts; decide +kernel

theorem premises_selfTest :
    let s := idle.setObj 0x501F 1 0
    Accepts s fw 0x505F 1 ∧ (s.heard fw.path).selfTestClosed 15 = [] ∧ (s.heard fw.path).cstate 15 = 3 ∧ (s.heard fw.path).obj 0x505F 2 ≠ 1
      ∧ (s.setObj 0x505F 2 1).obj 0x505F 2 = 1 ∧ s.clockRuns = true := by
  unfold Accepts; decide +kernel

/-! ### Worked values of the spec -/

/-- The value 0.3 of the worked encodings. -/
def threeTenths : Fp := val32 0x3E99999A

/-- "Worked encodings" after R64: 0.3 and 500 in both FP8 formats. -/
theorem test_worked_fp8 :
    (e4m3.write .rne false threeTenths).code = 0x2A ∧ (e4m3.write .rtz false threeTenths).code = 0x29
      ∧ (e5m2.write .rne false threeTenths).code = 0x35 ∧ (e5m2.write .rtz false threeTenths).code = 0x34
      ∧ (e4m3.write .rne false (val32 0x43FA0000)).code = 0x7F ∧ (e4m3.write .rne true (val32 0x43FA0000)).code = 0x7E
      ∧ (e4m3.write .rtz false (val32 0x43FA0000)).code = 0x7E
      ∧ (e5m2.write .rne false (val32 0x43FA0000)).code = 0x60 ∧ (e5m2.write .rtz false (val32 0x43FA0000)).code = 0x5F := by
  decide +kernel

/-- The same example's draws: 26,215 is the least that rounds up. -/
theorem test_worked_stochastic : ∀ x ∈ [(0x4000, 0x29), (0xA000, 0x2A), (26214, 0x29), (26215, 0x2A)],
    (e4m3.write (.sr x.1) false threeTenths).code = x.2 := by decide +kernel

/-- The JP-6 block of the second worked encoding: 0.3, −0.75, 0.05 and 0.01, written and read with 4 planes. -/
theorem test_worked_jp6 :
    let q := quantJp 6 (fun _ => .rne) false ([0x3E99999A, 0xBF400000, 0x3D4CCCCD, 0x3C23D70A].map val32 ++ List.replicate 28 (val32 0))
    q.1 = 0x7C ∧ q.2.take 4 = [(false, 0b010011), (true, 0b110000), (false, 0b000011), (false, 0b000001)]
      ∧ (q.2.take 4).map (fun x => readMagnitude 6 4 true x.2) = [0b0101, 0b1100, 0b0001, 0b0000]
      ∧ (q.2.take 4).map (fun x => readMagnitude 6 4 false x.2) = [0b0100, 0b1100, 0b0000, 0b0000] := by decide +kernel

/-- The example after R29: core 11's vault, the first byte above it, and the control page of the Bore transport. -/
theorem test_worked_addresses :
    placeOf 0x5DC00000 = .vault 11 0x5C00000 ∧ placeOf 0x5DFFFFFF = .vault 11 0x5FFFFFF ∧ placeOf 0x5E000000 = .nowhere
      ∧ placeOf 0x100079000 = .control 0x79 := by decide +kernel

/-! ### Terms that are no commands -/

def onMgmt (n : Nat) : Master := ⟨.mgmt, BitVec.ofNat 14 n⟩

/-- TAGNO outside its path's range (R354). -/
theorem test_wf_master : ∀ m ∈ [⟨.chain, 1⟩, ⟨.pcie, 1⟩, onMgmt 0, onMgmt 17],
    [Instr.qmask m 0 0, .load m 0, .start m 0, .stop m 0, .abortPart m 0, .resume m 0, .dissolve m 0, .coreReturn m 0 0, .slabMapWrite m 0,
      .regionWrite m 0 .base 0, .snapshotTimeout m, .segmentTimeout m, .acquire m 0, .release m 0, .repaired m 0, .connOpen m 0,
      .connClose m 0, .registerKey m 0, .invalidateKey m 0, .portEnable m 0 0, .service m 0 0, .configTime m 0 0, .clockStep m 0,
      .targetHush m, .targetRest m, .targetIdle m, .logRead m true, .request m 0 true, .commit m 0, .calCommit m true,
      .networkRecordStore m 0, .spdmMessage m [], .sealed m 0 0, .pkg m 0 0, .pkgLoad m, .pkgExport m, .slotKeyLoad m 0, .slotKeyRevoke m 0,
      .erase m true, .recoveryData m (List.replicate 1024 0) true, .recoveryCheck m, .reboot m, .laneTestMode m 0 0, .bulkTestStart m 0,
      .bulkTestStop m 0, .selfTestStart m 0].all (fun i => !i.wf) = true := by decide +kernel

/-- The same commands of session 16 are. -/
theorem test_wf_master_ok : (Instr.qmask (onMgmt 16) 0 0).wf = true ∧ (Instr.reboot fw).wf = true := by decide +kernel

/-- A request of the mailbox with nothing wrong. -/
def plainReq (op : Nat) : DictReq := { req .pcie 0x2000 1 1 [] with session := 0, op := BitVec.ofNat 8 op }

/-- A request PDU (R348, R362): data that LEN does not give, chain fields off the chain, another master's session. -/
theorem test_wf_request :
    [{ plainReq 2 with data := [1, 2] }, { plainReq 1 with data := [1] }, { plainReq 1 with bcast := true }, { plainReq 1 with inverted := true },
      { plainReq 1 with seq := 1 }, { plainReq 1 with session := 1 }, { plainReq 1 with master := onMgmt 5, session := 6 },
      { plainReq 1 with master := onMgmt 0 }, { plainReq 1 with master := ⟨.chain, 1⟩ }].all (fun r => !r.wf) = true
      ∧ (plainReq 1).wf = true := by decide +kernel

theorem test_wf_request_ops :
    [Instr.dictRead (plainReq 2), .dictWrite (plainReq 1), .describe (plainReq 1), .openSession (plainReq 1) 0, .closeSession (plainReq 1),
      .arbitrationSlot [plainReq 1, { plainReq 1 with session := 1 }]].all (fun i => !i.wf) = true := by decide +kernel

/-- A packet of another kind (R279), and one with 4,097 bytes. -/
theorem test_wf_packet (p : Packet) (hp : p ∈ [pkt .barrierRelease, { pkt .send with payload := List.replicate 4097 0 }]) :
    [Instr.rxSend p, .rxWrite p, .rxWriteAcc p, .rxReadReq p, .rxReadResp p, .rxFetchAdd p, .rxCmpSwap p, .rxAtomicResp p, .rxAck p 0,
      .rxNak p, .rxConnect p, .rxAccept p, .rxClose p, .barrierArrive p].all (fun i => !i.wf) = true := by
  revert p; decide +kernel

theorem test_wf_packet_ends : (Instr.barrierRelease (pkt .send)).wf = false
    ∧ (Instr.placementTimeout { pkt .send with payload := List.replicate 4097 0 }).wf = false
    ∧ (Instr.rxSend { pkt .send with payload := List.replicate 4096 0 }).wf = true := by decide +kernel

/-- Numbers outside their fields. -/
theorem test_wf_ranges :
    [Instr.updateElement 0 0 (2 ^ 48), .bulkReread 0 (2 ^ 27) true 0, .regionWrite fw 0 .owner 256, .chainBreak 1, .oboeTask 0 101,
      .laserAgeing 0 false 101, .wearLevelling 7680 false, .persistWrite (some 7680), .windowRead (2 ^ 26) 1, .windowRead 0 0,
      .windowRead 0 4097, .windowRead (2 ^ 26 - 1) 2, .windowWrite (2 ^ 26) [0], .windowWrite 0 [], .windowWrite 0 (List.replicate 513 0),
      .windowWrite (2 ^ 26 - 1) [0, 0], .hostWindowAccess 0 (2 ^ 44) none 1, .hostWindowAccess 0 0 (some [0]) 2, .bar2Write 0 [],
      .bar2Write 0x3FFF [0, 0]].all (fun i => !i.wf) = true := by decide +kernel

/-- Lists and bytes of another length. -/
theorem test_wf_lengths :
    [Instr.breathPeriod [] (List.replicate 8 0), .breathPeriod (List.replicate 8 0) [], .bootDone [] 0 0, .spdmMessage fw (List.replicate 4097 0),
      .recoveryData fw (List.replicate 1023 0) true, .frameReceive 0 { frame with bytes := List.replicate 65 0 },
      .pauseFrame 0 true 0 [], .pauseFrame 0 true 0 (65536 :: List.replicate 7 0), .pauseFrame 0 false 1 (List.replicate 8 0),
      .rtpPacket 0 { ts := 0, marker := false, ssrc := 0, fbit := false, sampling := 0, overRate := false, gap := 0, segs := [(16384, 0, [])] }].all
        (fun i => !i.wf) = true := by decide +kernel

/-- One sample's readings. -/
def sampleOf : Readings := ⟨List.replicate 24 0, List.replicate 15 0, 0, List.replicate 4 0, List.replicate 6 0, List.replicate 2 0⟩

theorem test_wf_readings :
    [{ sampleOf with temps := [] }, { sampleOf with temps := 32768 :: List.replicate 23 0 }, { sampleOf with temps := -32769 :: List.replicate 23 0 },
      { sampleOf with mons := [] }, { sampleOf with mons := 65536 :: List.replicate 14 0 }, { sampleOf with package := 65536 },
      { sampleOf with quads := [] }, { sampleOf with quads := [65536, 0, 0, 0] }, { sampleOf with rails := [] },
      { sampleOf with rails := [65536, 0, 0, 0, 0, 0] }, { sampleOf with fans := [] }, { sampleOf with fans := [65536, 0] }].all
        (fun r => !(Instr.telemetrySample r).wf) = true ∧ (Instr.telemetrySample sampleOf).wf = true := by decide +kernel

end Sys2Proof.Tests
end

section
/-! What every command answers: a next state, which keeps the queue of commands that wait and the canonical form of the tables.
From it: every step keeps the canonical form. And how the device after reset reads, whose tables list nothing (R11, R14, R23). -/

namespace Sys2Proof.Machine

/-- The outcome is a next state, neither a fault nor a refusal, that keeps from `u` the queue and the canonical tables. -/
def Answers (u : State) (o : Host.Outcome State Fault Refusal) : Prop := ∃ t, o = .next t ∧ Keeps u t

variable {u s t : State}

theorem Answers.next (h : Keeps u t) : Answers u (.next t) := ⟨t, rfl, h⟩

theorem Answers.keeps (h : Answers u (.next t)) : Keeps u t := by
  obtain ⟨_, ⟨⟩, hk⟩ := h
  exact hk

/-! ### The operations that many arms share -/

/-- A queue command (R170, R175). -/
theorem Answers.issue {op core ctx : Nat} {run : Env → State → Res} (h : Keeps u s)
    (hr : ∀ {u s e}, Keeps u s → Res.Keeps u (run e s)) : Answers u (.next (issue op core ctx s run)) :=
  .next (issue_keeps h fun _ _ g => hr g)

/-- A queue command that stops, if it does, in the state it was given. -/
theorem Answers.command {op core ctx : Nat} {run : Env → State → Chk State} (h : Keeps u s)
    (hr : ∀ {u s e}, Keeps u s → Keeps.Ok (Keeps u) (run e s)) :
    Answers u (.next (Machine.issue op core ctx s fun e s => Res.of s (run e s))) :=
  .issue h fun g => Res.keeps_of g (hr g)

/-- An instruction of the vector row (R180). -/
theorem Answers.vecRow {core : CoreId} {f : VecStep} (h : Keeps u s)
    (hf : ∀ {u s e}, Keeps u s → Keeps.Ok (Keeps u) (f e s)) : Answers u (.next (vecRow core f s)) :=
  .next (vecRow_keeps (fun _ _ g => hf g) h)

/-- A command that is one dictionary write (R371). -/
theorem Answers.act {m : Master} {i k : Nat} {f : Act} (h : Keeps u s) (hf : f.Keeps) : Answers u (.next (s.act m i k f)) :=
  .next (State.act_keeps h hf)

/-- A data packet: the one with the expected PSN is taken, a duplicate answered again (R209, R298). -/
theorem Answers.rxData {pkt : Packet} {kind : PktKind} {take : State → Packet → Option State} {again : State → Packet → State}
    (h : Keeps u s) (ht : ∀ {u s p}, Keeps u s → Keeps.Some (Keeps u) (take s p))
    (ha : ∀ {u s p}, Keeps u s → Keeps u (again s p)) : Answers u (.next (s.rxData pkt kind take again)) :=
  .next (State.rxData_keeps h (fun _ _ g => ht g) fun _ _ g => ha g)

/-! ### Collectives (R228, R233) -/

theorem execReduceScatter_answers {coll : Nat} {peers : List (List Word)} (h : Keeps u s) :
    Answers u (execReduceScatter coll peers s) := by
  refine .next ?_
  split
  · exact h
  · exact .ite (State.collRun_keeps h fun _ g => State.reduceShard_keeps (State.sendContributions_keeps g)) h

theorem execAllGather_answers {coll : Nat} {peers : List (List Byte)} (h : Keeps u s) :
    Answers u (execAllGather coll peers s) := by
  refine .next ?_
  split
  · exact h
  · exact .ite (State.collRun_keeps h fun _ g => State.storeShards_keeps (State.putTiles_keeps (State.sendAll_keeps g))) h

theorem execAllReduce_answers {coll : Nat} {peers : List (List Word)} {sums : List (List Byte)} (h : Keeps u s) :
    Answers u (execAllReduce coll peers sums s) := by
  refine .next ?_
  split
  · exact h
  · exact .ite (State.collRun_keeps h fun _ g => State.storeShards_keeps
      (State.sendAll_keeps (State.reduceShard_keeps (State.sendContributions_keeps g)))) h

theorem execRingPass_answers {coll : Nat} {incoming : List Byte} (h : Keeps u s) : Answers u (execRingPass coll incoming s) := by
  refine .next ?_
  split
  · exact h
  · exact .ite (State.collRun_keeps h fun _ g => State.putTiles_keeps (State.sendTiles_keeps g)) h

/-! ### Vendor requests in an SPDM session (R322) -/

theorem execReleaseSecret_answers {sess : SpdmId} {rs : BitVec 256} (h : Keeps u s) : Answers u (execReleaseSecret sess rs s) :=
  .next (State.bound_keeps h fun _ => Keeps.some_some (State.spdmOk_keeps (State.setObj_keeps (State.setPart_keeps h))))

theorem execJobkey_answers {sess : SpdmId} {slot : Byte} {jobId : Word} {secret : BitVec 384} (h : Keeps u s) :
    Answers u (execJobkey sess slot jobId secret s) :=
  .next (State.bound_keeps h fun _ => Keeps.some_ite
    (Keeps.some_some (State.spdmOk_keeps (State.loadSlot_keeps h).mk_same)) Keeps.some_none)

theorem execRevoke_answers {sess : SpdmId} {slot : Byte} (h : Keeps u s) : Answers u (execRevoke sess slot s) :=
  .next (State.bound_keeps h fun _ => Keeps.some_ite (Keeps.some_some (State.spdmOk_keeps (State.clearKeySlot_keeps
    (State.each_keeps h fun _ _ g => State.wipeVault_keeps g)))) Keeps.some_none)

theorem execGrant_answers {sess : SpdmId} {v : Byte} (h : Keeps u s) : Answers u (execGrant sess v s) :=
  .next (State.bound_keeps h fun _ => Keeps.some_ite (Keeps.some_some (State.spdmOk_keeps (State.setObj_keeps h))) Keeps.some_none)

theorem execLogRequest_answers {sess : SpdmId} {seq : BitVec 24} (h : Keeps u s) : Answers u (execLogRequest sess seq s) :=
  .next (State.bound_keeps h fun _ => Keeps.some_some (State.spdmOk_keeps h))

/-! ### Events that a condition on the state decides -/

theorem execCloseTimeout_answers {c : ConnId} (h : Keeps u s) : Answers u (execCloseTimeout c s) :=
  have hf := State.flushConn_keeps h
  .next (.ite (State.setConn_keeps (.ite (State.sendClose_keeps hf) hf)) h)

theorem execRestore_answers {rank : Nat} {fromBuddy : Bool} (h : Keeps u s) : Answers u (execRestore rank fromBuddy s) :=
  .next (.ite (State.restoreOwn_keeps h) (.ite h.mk_same h))

theorem execRateApply_answers (h : Keeps u s) : Answers u (execRateApply s) := by
  refine .next ?_
  split
  · exact State.setObj_keeps h.mk_same
  · exact h

theorem execWakeTimer_answers (h : Keeps u s) : Answers u (execWakeTimer s) := by
  refine .next ?_
  split
  · exact .ite h h.mk_same
  · exact h

/-! ### Every command, and every step -/

/-- Each arm of the dispatch is settled by the lemma of the operation it calls. -/
theorem exec_answers (c : Instr) (s : State) : Answers s (exec c s) := by
  have h := Keeps.refl s
  cases c with
  | matmul => exact .issue h runMatmul_keeps
  | drain => exact .issue h runDrain_keeps
  | vec => exact .issue h runVec_keeps
  | move => exact .command h moveCommand_keeps
  | gather => exact .command h gatherCommand_keeps
  | scatter => exact .command h scatterCommand_keeps
  | scatterAdd => exact .command h scatterAddCommand_keeps
  | window => exact .command h windowCommand_keeps
  | spill => exact .command h spillCommand_keeps
  | prefetch => exact .command h prefetchCommand_keeps
  | coll => exact .command h collCommand_keeps
  | reduceScatter => exact execReduceScatter_answers h
  | allGather => exact execAllGather_answers h
  | allReduce => exact execAllReduce_answers h
  | ringPass => exact execRingPass_answers h
  | bore => exact .command h boreCommand_keeps
  | fence => exact .command h fenceCommand_keeps
  | signal => exact .command h signalCommand_keeps
  | wait => exact .command h waitCommand_keeps
  | barrier => exact .command h barrierCommand_keeps
  | phase => exact .issue h phaseCommand_keeps
  | slot => exact .command h slotCommand_keeps
  | endQueue => exact .command h endCommand_keeps
  | destinationReady => exact .next (State.destinationReady_keeps h)
  | bellRelease => exact .next (State.bellRelease_keeps h)
  | clockGate => exact .next (State.clockGate_keeps h)
  | vAdd => exact .vecRow h stepAdd_keeps
  | vSub => exact .vecRow h stepSub_keeps
  | vMul => exact .vecRow h stepMul_keeps
  | vFma => exact .vecRow h stepFma_keeps
  | vMin => exact .vecRow h stepMin_keeps
  | vMax => exact .vecRow h stepMax_keeps
  | vAbs => exact .vecRow h stepAbs_keeps
  | vNeg => exact .vecRow h stepNeg_keeps
  | vCmpEq => exact .vecRow h stepCmpEq_keeps
  | vCmpNe => exact .vecRow h stepCmpNe_keeps
  | vCmpLt => exact .vecRow h stepCmpLt_keeps
  | vCmpLe => exact .vecRow h stepCmpLe_keeps
  | vCmpUnord => exact .vecRow h stepCmpUnord_keeps
  | vSel => exact .vecRow h stepSel_keeps
  | vIadd => exact .vecRow h stepIadd_keeps
  | vIsub => exact .vecRow h stepIsub_keeps
  | vAnd => exact .vecRow h stepAnd_keeps
  | vOr => exact .vecRow h stepOr_keeps
  | vXor => exact .vecRow h stepXor_keeps
  | vNot => exact .vecRow h stepNot_keeps
  | vShl => exact .vecRow h stepShl_keeps
  | vShr => exact .vecRow h stepShr_keeps
  | vSar => exact .vecRow h stepSar_keeps
  | vImul => exact .vecRow h stepImul_keeps
  | vCvt => exact .vecRow h stepCvt_keeps
  | vExp2 => exact .vecRow h stepExp2_keeps
  | vLog2 => exact .vecRow h stepLog2_keeps
  | vRcp => exact .vecRow h stepRcp_keeps
  | vRsq => exact .vecRow h stepRsq_keeps
  | vRsum => exact .vecRow h stepRsum_keeps
  | vRmax => exact .vecRow h stepRmax_keeps
  | vRmin => exact .vecRow h stepRmin_keeps
  | vRand16 => exact .vecRow h stepRand16_keeps
  | vRand32 => exact .vecRow h stepRand32_keeps
  | vLds => exact .vecRow h stepLds_keeps
  | vLdc => exact .vecRow h stepLdc_keeps
  | vLdt => exact .vecRow h stepLdt_keeps
  | vStc => exact .vecRow h stepStc_keeps
  | vStt => exact .vecRow h stepStt_keeps
  | updAdd | updSub | updMul | updDiv | updMin | updMax | updFma | updSqrt | updAbs | updNeg | updLt | updSel | updNf =>
    exact .next (State.updInstr_keeps h)
  | qmask => exact .act h qmaskAct_keeps
  | load => exact .act h loadAct_keeps
  | start => exact .act h startAct_keeps
  | stop => exact .act h stopAct_keeps
  | abortPart => exact .act h abortAct_keeps
  | resume => exact .act h resumeAct_keeps
  | dissolve => exact .act h dissolveAct_keeps
  | stepStart => exact .next (State.beginStep_keeps h)
  | stepBoundary => exact .next (State.boundary_keeps h)
  | stepTimeout => exact .next (State.stepTimeout_keeps h)
  | hung => exact .next (State.hungCore_keeps h)
  | coreFence => exact .next (.ite (State.fenceCore_keeps h) h)
  | rerunStart => exact .next (State.rerunStart_keeps h)
  | coreReturn => exact .act h returnAct_keeps
  | updatePhaseStart => exact .next (State.updateStart_keeps h)
  | updateElement => exact .next (State.updateElement_keeps h)
  | workingCopyTile => exact .next (State.peerTile_keeps h)
  | updatePhaseComplete => exact .next (State.updateComplete_keeps h)
  | digestReport => exact .next (State.digestReport_keeps h)
  | collectiveComplete => exact .next (State.collComplete_keeps h)
  | staleFetchServe => exact .next (State.serveFetches_keeps h)
  | hold _ word => exact .next (State.holdWord_keeps h (word.isLt.trans (by decide)))
  | holdWriteback => exact .next (State.holdWriteback_keeps h)
  | vaultWipe => exact .next (State.wipeVault_keeps (State.wakeQuad_keeps h))
  | scratchpadZeroing => exact .next (State.zeroScratch_keeps (State.wakeQuad_keeps h))
  | sramScrub => exact .next (State.scrubStep_keeps h)
  | retentionEntry => exact .next (.ite (State.setObj_keeps h) h)
  | retentionWake => exact .next (State.wakeQuad_keeps h)
  | pllLock => exact .next (State.pllLock_keeps h)
  | pllStop => exact .next (State.pllStop_keeps h)
  | bulkReread => exact .next (State.bulkReread_keeps h)
  | zeroing => exact .next (State.zeroChunk_keeps h)
  | regionZeroing => exact .next (State.zeroRegionStep_keeps h)
  | patrolScrub => exact .next (State.patrolStep_keeps h)
  | slabMapWrite => exact .act h slabMapAct_keeps
  | regionWrite => exact .act h regionAct_keeps
  | breathPeriod => exact .next (State.breathPeriod_keeps h)
  | arbitrationSlot => exact .next (State.arbitrate_keeps h)
  | dictRead | dictWrite | describe | closeSession => exact .next (State.serve_keeps h)
  | openSession => exact .next (State.openFrom_keeps h)
  | sessionTimeout => exact .next (State.endMgmt_keeps h)
  | snapshotTimeout => exact .next (State.setSnap_keeps h)
  | segmentTimeout => exact .next (State.setSeg_keeps h)
  | acquire => exact .act h acquireAct_keeps
  | release => exact .act h releaseAct_keeps
  | repaired => exact .act h repairedAct_keeps
  | assign => exact .next (State.assignFrame_keeps h)
  | daisyOutRise => exact .next (.ite h.mk_same h)
  | rate => exact .next (State.rateFrame_keeps h)
  | rateApply => exact execRateApply_answers h
  | chainBreak => exact .next (State.breakSeen_keeps h)
  | stuck => exact .next (State.stuckSeen_keeps h)
  | shortFault => exact .next (.ite (State.shortSeen_keeps (State.chainEvent_keeps h)) h)
  | retry => exact .next (State.retryChain_keeps h)
  | restored => exact .next (State.restoreChain_keeps h)
  | silent => exact .next (State.silentChain_keeps h)
  | go => exact .next (State.mbGo_keeps h)
  | windowRead => exact .next (State.winRead_keeps h)
  | windowWrite => exact .next (State.winWrite_keeps h)
  | pcieReset => exact .next (State.pcieDown_keeps h)
  | hostWindowAccess => exact .next (State.hostAccess_keeps h)
  | connOpen => exact .act h ⟨fun g => State.openConn_keeps (State.setObj_keeps g)⟩
  | connClose => exact .act h ⟨fun g => State.closeConn_keeps (State.setObj_keeps g)⟩
  | connectResend => exact .next (.ite (State.sendConnect_keeps h) h)
  | connectTimeout => exact .next (.ite (State.connError_keeps h) h)
  | closeTimeout => exact execCloseTimeout_answers h
  | registerKey => exact .act h ⟨fun g => State.register_keeps (State.setObj_keeps g)⟩
  | invalidateKey => exact .act h ⟨fun g => State.invalidate_keeps (State.setObj_keeps g)⟩
  | weSend | weWrite | weWriteAcc => exact .next (State.workData_keeps h)
  | weRecv => exact .next (State.workRecv_keeps h)
  | weRead | weFetchAdd | weCmpSwap => exact .next (State.workRequest_keeps h)
  | chainRelease => exact .next (State.chainRelease_keeps h)
  | rxSend => exact .rxData h State.takeSend_keeps State.ackAgain_keeps
  | rxWrite => exact .rxData h State.takeWrite_keeps State.ackAgain_keeps
  | rxWriteAcc => exact .rxData h State.takeWriteAcc_keeps State.ackAgain_keeps
  | rxReadReq => exact .rxData h State.takeRead_keeps State.readAgain_keeps
  | rxReadResp => exact .next (State.rxReadResp_keeps h)
  | rxFetchAdd | rxCmpSwap => exact .rxData h State.takeAtomic_keeps State.atomicAgain_keeps
  | rxAtomicResp => exact .next (State.rxAtomicResp_keeps h)
  | rxAck => exact .next (State.rxAck_keeps h)
  | rxNak => exact .next (State.rxNak_keeps h)
  | rxConnect => exact .next (State.rxConnect_keeps h)
  | rxAccept => exact .next (State.rxAccept_keeps h)
  | rxClose => exact .next (State.rxClose_keeps h)
  | barrierArrive => exact .rxData h State.takeArrive_keeps State.ackAgain_keeps
  | barrierRelease => exact .rxData h State.takeRelease_keeps State.ackAgain_keeps
  | ackTimer => exact .next (.ite (State.sendAck_keeps h) h)
  | retransmitTimeout => exact .next (State.retransmitTimeout_keeps h)
  | rnrResend | busyResend => exact .next (State.resume_keeps h)
  | placementTimeout => exact .next (State.placementTimeout_keeps h)
  | heartbeat => exact .next (State.heartbeat_keeps h)
  | heartbeatLoss => exact .next (State.heartbeatLoss_keeps h)
  | deputyTakeover => exact .next (State.deputyTakeover_keeps h)
  | failureReport => exact .next (State.failureReport_keeps h)
  | spareTakeover => exact .next (State.spareTakeover_keeps h)
  | retire => exact .next (.ite (State.retireDevice_keeps h) h)
  | restore => exact execRestore_answers h
  | ckptBegin => exact .next (State.ckptBegin_keeps h)
  | ckptRecords => exact .next (State.ckptRecords_keeps h)
  | ckptEnd => exact .next (State.ckptEnd_keeps h)
  | ckptComplete => exact .next (State.ckptComplete_keeps h)
  | checkpointStream => exact .next (State.streamOut_keeps h)
  | portEnable => exact .act h portEnableAct_keeps
  | laneReady => exact .next (State.laneReady_keeps h)
  | amBoundary => exact .next (State.amBoundary_keeps h)
  | linkStartTimeout => exact .next (State.linkRestart_keeps h)
  | laneOut => exact .next (State.laneOut_keeps h)
  | losClear => exact .next (State.losClear_keeps h)
  | service => exact .act h serviceAct_keeps
  | laneStatus => exact .next (State.laneStatus_keeps h)
  | allPortsDown => exact .next (.ite (State.reportFailure_keeps h) h)
  | frameReceive => exact .next (State.frameReceive_keeps h)
  | pauseFrame => exact .next (State.pauseFrame_keeps h)
  | pauseExpiry => exact .next (State.pauseExpiry_keeps h)
  | pfcStorm => exact .next (State.pfcStorm_keeps h)
  | pfcSend => exact .next (State.pfcSend_keeps h)
  | gateEntry => exact .next (State.gateStep_keeps h)
  | configTime => exact .act h configTimeAct_keeps
  | clockStep => exact .act h clockStepAct_keeps
  | rtpPacket => exact .next (State.rtpPacket_keeps h)
  | frameTimeout => exact .next (State.closeOpen_keeps h)
  | targetHush | targetRest | targetIdle => exact .act h targetAct_keeps
  | wakeTimer => exact execWakeTimer_answers h
  | pwrGood => exact .next (State.pwrGoodPin_keeps h)
  | porstN => exact .next (State.porstPin_keeps h)
  | warmRstN => exact .next (.ite h (State.warmReset_keeps h))
  | railUndervoltage => exact .next (.ite h (State.pwrFell_keeps h))
  | boot => exact .next (State.bootRom_keeps h)
  | bootDone => exact .next (State.bootFinish_keeps h)
  | dutyAdjust => exact .next (State.dutyAdjust_keeps h)
  | governorGrant => exact .next (State.grantRamp_keeps h)
  | thermtrip => exact .next (State.trip_keeps h)
  | fanFail | fanClear => exact .next (.ite (State.fanSet_keeps h) h)
  | tamper => exact .next (State.tamperAlarm_keeps h)
  | oboeTask => exact .next (.ite h (State.logEvent_keeps h))
  | laserAgeing => exact .next (State.laserAge_keeps h)
  | wearLevelling => exact .next (State.wearLevel_keeps h)
  | persistWrite => exact .next (State.persistWrite_keeps h)
  | telemetrySample => exact .next (State.telemetry_keeps h)
  | logRead => exact .next (State.readLog_keeps h)
  | request => exact .act h requestAct_keeps
  | commit => exact .act h commitAct_keeps
  | calCommit => exact .act h calCommitAct_keeps
  | networkRecordStore => exact .act h networkAct_keeps
  | spdmMessage => exact .act h spdmAct_keeps
  | bind => exact .next (State.bindSession_keeps h)
  | releaseSecret => exact execReleaseSecret_answers h
  | jobkey => exact execJobkey_answers h
  | revoke => exact execRevoke_answers h
  | grant => exact execGrant_answers h
  | logRequest => exact execLogRequest_answers h
  | sessionEnd => exact .next (State.endSession_keeps h)
  | sealed => exact .act h sealedAct_keeps
  | pkg => exact .act h pkgAct_keeps
  | pkgLoad => exact .act h pkgLoadAct_keeps
  | pkgExport => exact .act h pkgExportAct_keeps
  | slotKeyLoad => exact .act h slotLoadAct_keeps
  | slotKeyRevoke => exact .act h slotRevokeAct_keeps
  | erase => exact .act h eraseAct_keeps
  | recoveryData => exact .act h recoveryDataAct_keeps
  | recoveryCheck => exact .act h checkAct_keeps
  | reboot => exact .act h rebootAct_keeps
  | laneTestMode => exact .act h laneTestAct_keeps
  | bulkTestStart => exact .act h bulkTestAct_keeps
  | bulkTestStop => exact .act h bulkStopAct_keeps
  | selfTestStart => exact .act h selfTestAct_keeps
  | transitionComplete => exact .next (State.transitionDone_keeps h)
  | packageLoadCompleted => exact .next (State.pkgDone_keeps h)
  | bulkTestEnd => exact .next (State.bulkTestEnd_keeps h)
  | selfTestEnd => exact .next (State.selfTestEnd_keeps h)
  | checkerLock => exact .next (.ite h (State.setObj_keeps (State.setObj_keeps (State.setObj_keeps h))))
  | checkerLockLoss => exact .next (.ite h (State.count_keeps (State.setObj_keeps (State.setObj_keeps (State.setObj_keeps h)))))
  | pcieLinkUp => exact .next (State.pcieUp_keeps h)
  | lockstepMismatch => exact .next (State.lockstep_keeps h)
  | spRestart => exact .next h.mk_same
  | bar2Write => exact .next (State.writeBar2_keeps h)
  | idleGap => exact .next (.ite (State.count_keeps h) h)

/-- A command taken from the queue starts from a state that differs in the queue alone. -/
theorem State.Canonical.withPending (h : s.Canonical) (l : List Instr) : State.Canonical { s with pending := l } :=
  ⟨h.mem, h.sramBad, h.bulkBad, h.objs, h.cores, h.parts, h.held⟩

theorem step_canonical (hs : s.Canonical) (h : step s = .next t) : t.Canonical := by
  unfold step at h
  split at h
  case h_1 =>
    cases h
    exact (State.idleTick_keeps (Keeps.refl s)).canon hs
  case h_2 c rest _ =>
    have hc := exec_answers c { s with pending := rest }
    rw [h] at hc
    exact hc.keeps.canon (hs.withPending rest)

/-! ### The device after reset (R14) -/

/-- Every table of the device after reset lists nothing. -/
theorem State.reset_canonical : State.reset.Canonical :=
  ⟨Tab.empty_wf, Tab.empty_wf, Tab.empty_wf, Tab.empty_wf, Tab.empty_wf, Tab.empty_wf, fun _ => HeldOk.nil⟩

theorem State.obj_reset (i k : Nat) (hk : k < 256) : State.reset.obj i k = objReset i k := by
  have hi : (i * 256 + k) / 256 = i := by omega
  have hm : (i * 256 + k) % 256 = k := by omega
  simp only [State.obj, objKey, State.reset, Tab.get_empty, objResetKey, hi, hm]

theorem State.rawByte_reset (a : Nat) : State.reset.rawByte a = 0 := by
  have hheld : (State.reset.core (a / 0x8000000)).held = [] := rfl
  have hmem : State.reset.mem.get a = 0 := rfl
  rw [State.rawByte, hheld, hmem]
  exact ite_self _

theorem pstate_reset (p : PartId) : State.reset.pstate p = 0 ∧ State.reset.obj (0x3100 + p) 0x0A = 10000 := by
  revert p; decide

theorem cstate_reset (c : CoreId) : State.reset.cstate c = 3 ∧ State.reset.partOf c = none := by
  revert c; decide

theorem conn_reset (c : Nat) : (State.reset.conn c).st = .free := rfl

end Sys2Proof.Machine

open Sys2Proof.Machine

/-- Settles O4: every command answers a state that keeps the canonical tables, and so does an idle tick. -/
theorem tablesStayCanonical : Obligations.TablesStayCanonical := fun _ _ => step_canonical

/-- Settles O5: the device after reset lists nothing in any table. -/
theorem resetTablesCanonical : Obligations.ResetTablesCanonical := State.reset_canonical

/-- Settles O13: tables that list nothing read as their reset values. -/
theorem resetLeavesRegisters : Obligations.ResetLeavesRegisters :=
  ⟨State.obj_reset, pstate_reset, cstate_reset, State.rawByte_reset, conn_reset, rfl, rfl, rfl⟩

end

section
/-! The device address map: where an address of each range lies (R23, R24, R27, R28, R30). -/

namespace Sys2Proof.Machine

/-- The unit ID table (R30). -/
theorem unitUsed_iff (u : Nat) : unitUsed u = true ↔ u ≤ 0x13 ∨ (0x20 ≤ u ∧ u ≤ 0x37) ∨ (0x40 ≤ u ∧ u ≤ 0x42)
    ∨ (0x50 ≤ u ∧ u ≤ 0x53) ∨ u = 0x60 ∨ (0x70 ≤ u ∧ u ≤ 0x72) ∨ u = 0x78 ∨ u = 0x79 := by
  simp only [unitUsed, Bool.or_eq_true, Bool.and_eq_true, decide_eq_true_eq, beq_iff_eq, or_assoc]

theorem placeOf_coreWindow {n o : Nat} (hn : n < 16) (ho : o < 0x8000000) :
    placeOf (n * 0x8000000 + o) = if o < vaultOff then .scratch n o else if o < scratchSize then .vault n o else .nowhere := by
  have hc : (n * 0x8000000 + o) / 0x8000000 = n := by omega
  have hm : (n * 0x8000000 + o) % 0x8000000 = o := by omega
  unfold placeOf
  rw [if_pos (by omega), hc, hm]

theorem placeOf_controlPage {u o : Nat} (hu : u < 0x10000) (ho : o < 0x1000) :
    placeOf (0x100000000 + u * 0x1000 + o) = if unitUsed u then .control u else .nowhere := by
  have hp : (0x100000000 + u * 0x1000 + o - 0x100000000) / 0x1000 = u := by omega
  unfold placeOf
  rw [if_neg (by omega), if_pos (by omega), hp]

theorem bulkBase_eq : bulkBase = 0x10000000000 := rfl
theorem bulkSize_eq : bulkSize = 0x2000000000 := rfl
theorem hostBase_eq : hostBase = 0x80000000000 := rfl
theorem hostSize_eq : hostSize = 0x8000000000 := rfl

theorem placeOf_bulk {o : Nat} (ho : o < bulkSize) : placeOf (bulkBase + o) = .bulk o := by
  have hb := bulkBase_eq
  unfold placeOf
  rw [if_neg (by omega), if_neg (by omega), if_pos (by omega), Nat.add_sub_cancel_left]

theorem placeOf_hostWindow {w o : Nat} (hw : w < 16) (ho : o < hostSize) : placeOf (hostBase + w * hostSize + o) = .host w o := by
  have hb := bulkBase_eq
  have hs := bulkSize_eq
  have hh := hostBase_eq
  rw [hostSize_eq] at ho ⊢
  have hd : (hostBase + w * 0x8000000000 + o - hostBase) / hostSize = w := by rw [hostSize_eq]; omega
  have hm : (hostBase + w * 0x8000000000 + o - hostBase) % hostSize = o := by rw [hostSize_eq]; omega
  unfold placeOf
  rw [if_neg (by omega), if_neg (by omega), if_neg (by omega), if_pos (by omega), hd, hm]

/-- What no range of R23 holds is unpopulated. -/
theorem placeOf_unlisted {a : Nat} (h1 : 0x80000000 ≤ a) (h2 : ¬ (0x100000000 ≤ a ∧ a < 0x110000000))
    (h3 : ¬ (bulkBase ≤ a ∧ a < bulkBase + bulkSize)) (h4 : ¬ (hostBase ≤ a ∧ a < 2 ^ 44)) : placeOf a = .nowhere := by
  unfold placeOf
  rw [if_neg (Nat.not_lt.2 h1), if_neg h2, if_neg h3, if_neg h4]

end Sys2Proof.Machine

open Sys2Proof.Machine

/-- Settles O12: the ranges of the map do not meet, and each is a quotient and a remainder of the address. -/
theorem addressMapPlaces : Obligations.AddressMapPlaces := by
  refine ⟨fun n o ho => placeOf_coreWindow n.isLt ho, fun u o hu ho => ?_, fun o ho => placeOf_bulk ho,
    fun w o hw ho => placeOf_hostWindow hw ho, fun a h1 h2 => ?_⟩
  · simp only [placeOf_controlPage hu ho, unitUsed_iff]
  · refine placeOf_unlisted h1 ?_ ?_ ?_
    · omega
    · rw [bulkBase_eq, bulkSize_eq]; omega
    · rw [hostBase_eq]; omega

end

section
/-! What shared operations leave alone: registers written, events logged, owner epochs advanced, bytes that pass through memory
and the host windows (R131, R160, R343, R354, R357, R377, R423). -/

namespace Sys2Proof.Machine

variable {s t u : State} {l m : List (Nat × Nat)}

/-! ### Registers -/

theorem SameObjs.append (h : SameObjs s t l) (g : SameObjs t u m) : SameObjs s u (l ++ m) := by
  intro i k hk hn
  rw [List.mem_append, not_or] at hn
  rw [g i k hk hn.2, h i k hk hn.1]

theorem State.setObj_sameObjs {i k v : Nat} (hk : k < 256) : SameObjs s (s.setObj i k v) [(i, k)] := fun j q hq hn =>
  s.setObj_obj_ne i k v j q hk hq fun e => hn (e ▸ List.mem_singleton_self _)

theorem State.count_obj_self (i k w n : Nat) : (s.count i k w n).obj i k = counterAt w (s.obj i k + n) := State.setObj_obj_self ..

/-! ### Registers, logs and outputs: `State.noting` -/

theorem State.noting_trans (h : t = s.noting t) (g : u = t.noting u) : u = s.noting u :=
  calc u = t.noting u := g
    _ = (s.noting t).noting u := congrArg (fun x => State.noting x u) h
    _ = s.noting u := rfl

theorem State.logEvent_noting (s : State) (unit code detail : Nat) :
    s.logEvent unit code detail = s.noting (s.logEvent unit code detail) := by
  unfold State.logEvent
  dsimp only
  generalize (if s.now / 1000000 = s.msIndex then s.msCount else 0) = n
  split <;> rfl

theorem State.each_noting {f : State → Nat → State} (hf : ∀ s n, f s n = s.noting (f s n)) (l : List Nat) (s : State) :
    s.each l f = s.noting (s.each l f) :=
  List.foldlRecOn l f (motive := fun t => t = s.noting t) rfl fun t h n _ => State.noting_trans h (hf t n)

theorem State.abandon_noting (s : State) (id : Nat) : s.abandon id = s.noting (s.abandon id) := by
  refine State.each_noting (fun s n => ?_) _ s
  split
  · exact State.noting_trans rfl (State.logEvent_noting ..)
  · rfl

/-- The epoch of one owner is one higher; its locks stand. -/
def State.bumpEpoch (s : State) (id : Nat) : State :=
  { s with masters := s.masters.modify id fun x => { x with epoch := x.epoch + 1 } }

theorem State.advanceEpoch_eq (s : State) (id : Nat) : s.advanceEpoch id = (s.bumpEpoch id).abandon id := rfl

theorem State.bumpEpoch_epochOf (s : State) {id : Nat} (h : id ≠ allOwners) : (s.bumpEpoch id).epochOf id = s.epochOf id + 1 := by
  simp only [State.epochOf, State.bumpEpoch, Tab.get_modify_self, Tab.get_modify_of_ne _ _ h.symm]
  exact add_right_comm _ 1 _

/-- An epoch that advances after registers, logs and outputs have changed. -/
theorem State.advanceEpoch_noting (h : t = s.noting t) (id : Nat) : t.advanceEpoch id = (s.bumpEpoch id).noting (t.advanceEpoch id) :=
  have hb : t.bumpEpoch id = (s.bumpEpoch id).noting (t.bumpEpoch id) := congrArg (fun x => State.bumpEpoch x id) h
  State.noting_trans hb (State.abandon_noting _ id)

/-! ### Events (R423, R424) -/

/-- The first event that a step from `s` logs is this one, and it is among the newest `k` records. -/
def LoggedWithin (k : Nat) (s t : State) (unit code detail : Nat) : Prop :=
  ∃ e ∈ t.log.take k, e.seq = s.seqNext % 2 ^ 24 ∧ e.unit = unit ∧ e.code = code ∧ e.detail = BitVec.ofNat 128 detail

variable {k unit code detail : Nat}

theorem LoggedWithin.logged (h : LoggedWithin k s t unit code detail) : Logged s t unit code detail := by
  obtain ⟨e, he, h⟩ := h
  exact ⟨e, List.mem_of_mem_take he, h⟩

theorem LoggedWithin.mono {j : Nat} (h : LoggedWithin k s t unit code detail) (hj : k ≤ j) : LoggedWithin j s t unit code detail := by
  obtain ⟨e, he, h⟩ := h
  exact ⟨e, List.take_subset_take_left _ hj he, h⟩

theorem State.logRoom_iff (s : State) : s.logRoom ↔ ¬ (if s.now / 1000000 = s.msIndex then s.msCount else 0) ≥ 1024 := by
  unfold State.logRoom
  split <;> omega

theorem State.logEvent_log_of_room (h : s.logRoom) :
    (s.logEvent unit code detail).log = (s.newEvent unit code detail :: s.log).take 4096 := by
  unfold State.logEvent
  dsimp only
  rw [if_neg (s.logRoom_iff.1 h)]

theorem State.logEvent_log_of_full (h : ¬ s.logRoom) : (s.logEvent unit code detail).log = s.log := by
  unfold State.logEvent
  dsimp only
  rw [if_pos (not_not.1 (mt s.logRoom_iff.2 h))]
  rfl

/-- Where the log has room, a new event is its newest record. -/
theorem State.logEvent_within (h : s.logRoom) : LoggedWithin 1 s (s.logEvent unit code detail) unit code detail := by
  refine ⟨s.newEvent unit code detail, ?_, rfl, rfl, rfl, rfl⟩
  rw [State.logEvent_log_of_room h]
  exact List.mem_singleton_self _

/-- A later event pushes a record one place down; the log keeps 4,096. -/
theorem LoggedWithin.logEvent (h : LoggedWithin k s t unit code detail) (hk : k < 4096) (v c d : Nat) :
    LoggedWithin (k + 1) s (t.logEvent v c d) unit code detail := by
  obtain ⟨e, he, h⟩ := h
  refine ⟨e, ?_, h⟩
  by_cases hr : t.logRoom
  · rw [State.logEvent_log_of_room hr, List.take_take, Nat.min_eq_left hk, List.take_succ_cons]
    exact List.mem_cons_of_mem _ he
  · rw [State.logEvent_log_of_full hr]
    exact List.take_subset_take_left _ (Nat.le_succ k) he

theorem LoggedWithin.each {f : State → Nat → State}
    (hf : ∀ t n k, k < 4096 → LoggedWithin k s t unit code detail → LoggedWithin (k + 1) s (f t n) unit code detail) (l : List Nat)
    (h : LoggedWithin k s t unit code detail) (hk : k + l.length ≤ 4096) :
    LoggedWithin (k + l.length) s (t.each l f) unit code detail := by
  induction l generalizing t k with
  | nil => exact h
  | cons n l ih =>
    rw [List.length_cons] at hk ⊢
    rw [Nat.add_comm l.length, ← Nat.add_assoc]
    exact ih (hf t n k (by omega) h) (by omega)

/-- Abandoning an owner's locks logs one event for each of the 16 locks at most. -/
theorem LoggedWithin.abandon (h : LoggedWithin k s t unit code detail) (hk : k + 16 ≤ 4096) (id : Nat) :
    LoggedWithin (k + 16) s (t.abandon id) unit code detail := by
  have hl : (List.range 16).length = 16 := List.length_range
  unfold State.abandon
  rw [← hl] at hk ⊢
  refine LoggedWithin.each (fun u n j hj g => ?_) _ h hk
  split
  · have g' : LoggedWithin j s ((u.setObj (0x1180 + n) 2 2).count (0x1180 + n) 5 32 1) unit code detail := g
    exact g'.logEvent hj _ _ _
  · exact g.mono (Nat.le_succ j)

theorem LoggedWithin.advanceEpoch (h : LoggedWithin k s t unit code detail) (hk : k + 16 ≤ 4096) (id : Nat) :
    LoggedWithin (k + 16) s (t.advanceEpoch id) unit code detail := by
  have hb : LoggedWithin k s (t.bumpEpoch id) unit code detail := h
  rw [State.advanceEpoch_eq]
  exact hb.abandon hk id

/-! ### Bytes that pass (R131, R160, R377) -/

theorem State.countHost_frame (s : State) (k a n : Nat) : s.countHost k a n = { s with objs := (s.countHost k a n).objs } := by
  unfold State.countHost
  split <;> rfl

theorem State.hostGet_frame (s : State) (a n : Nat) :
    s.hostGet a n = { s with objs := (s.hostGet a n).objs, freeCtr := (s.hostGet a n).freeCtr, out := (s.hostGet a n).out } := by
  unfold State.hostGet
  dsimp only
  split <;> rw [State.countHost_frame]
  · rfl
  · rw [State.countHost_frame]
    rfl

theorem State.countBulk_frame (s : State) (k a n : Nat) :
    s.countBulk k a n = { s with
      objs := (s.countBulk k a n).objs, freeCtr := (s.countBulk k a n).freeCtr, out := (s.countBulk k a n).out } := by
  unfold State.countBulk
  split
  · refine List.foldlRecOn _ _ (motive := fun t : State => t = { s with objs := t.objs, freeCtr := t.freeCtr, out := t.out }) rfl
      fun t h m _ => ?_
    dsimp only
    split
    · exact h
    · exact congrArg (fun x => State.count x (0x3470 + m) k 64 _) h
  · split
    · exact State.hostGet_frame ..
    · rfl

@[simp] theorem State.countBulk_mem (s : State) (k a n : Nat) : (s.countBulk k a n).mem = s.mem := by rw [State.countBulk_frame]
@[simp] theorem State.countBulk_parts (s : State) (k a n : Nat) : (s.countBulk k a n).parts = s.parts := by rw [State.countBulk_frame]

/-- An access to a scratchpad changes registers and cores at most. -/
theorem State.touch_frame (s : State) (a : Nat) : s.touch a = { s with objs := (s.touch a).objs, cores := (s.touch a).cores } := by
  unfold State.touch State.wakeQuad
  split
  · dsimp only
    split
    · rfl
    · refine List.foldlRecOn _ _ (motive := fun t : State => t = { s with objs := t.objs, cores := t.cores }) ?_ fun t h m _ => ?_
      · split <;> rfl
      · exact congrArg (fun x => State.setCore x m _) h
  · rfl

@[simp] theorem State.touch_parts (s : State) (a : Nat) : (s.touch a).parts = s.parts := by rw [State.touch_frame]

theorem State.flushHeld_frame (s : State) (c w v : Nat) :
    s.flushHeld c w v = { s with
      objs := (s.flushHeld c w v).objs, mem := (s.flushHeld c w v).mem, cores := (s.flushHeld c w v).cores } := by
  unfold State.flushHeld State.portWrites
  dsimp only
  split
  · rfl
  · split <;> rfl

/-- A store changes memory, its error marks, the cores, the registers, the model's counter of free values and the outputs. -/
theorem State.putBytes_frame (s : State) (a : Nat) (bs : List Byte) :
    s.putBytes a bs = { s with
      objs := (s.putBytes a bs).objs, mem := (s.putBytes a bs).mem, sramBad := (s.putBytes a bs).sramBad
      bulkBad := (s.putBytes a bs).bulkBad, cores := (s.putBytes a bs).cores, freeCtr := (s.putBytes a bs).freeCtr
      out := (s.putBytes a bs).out } := by
  unfold State.putBytes
  dsimp only
  split
  · rfl
  · split
    · rw [State.flushHeld_frame, State.touch_frame]
    · rw [State.countBulk_frame]

@[simp] theorem State.putBytes_parts (s : State) (a : Nat) (bs : List Byte) : (s.putBytes a bs).parts = s.parts := by
  rw [State.putBytes_frame]
@[simp] theorem State.putBytes_syncs (s : State) (a : Nat) (bs : List Byte) : (s.putBytes a bs).syncs = s.syncs := by
  rw [State.putBytes_frame]

end Sys2Proof.Machine
end

section
/-! What the server does over PCIe: the mailbox, the movable window, the outbound windows, a link reset and a link up
(R28, R374–R377). -/

namespace Sys2Proof.Machine

variable {s : State}

/-! ### BAR2 (R374) -/

theorem natOf_lt_two_pow (l : List Byte) : natOf l < 2 ^ (8 * l.length) := by
  induction l with
  | nil => exact Nat.one_pos
  | cons b l ih =>
    have hb := b.isLt
    rw [List.length_cons, Nat.mul_succ, Nat.pow_add, natOf]
    omega

theorem touches_of_before {at_ n off len : Nat} (h : off + len ≤ at_) : touches at_ n off len = false := by
  simp only [touches, Bool.and_eq_false_iff, decide_eq_false_iff_not]
  omega

theorem touches_of_after {at_ n off len : Nat} (h : at_ + n ≤ off) : touches at_ n off len = false := by
  simp only [touches, Bool.and_eq_false_iff, decide_eq_false_iff_not]
  omega

theorem State.writeMbReq_of_untouched {off : Nat} {data : List Byte} (h : touches 0 0x1000 off data.length = false) :
    s.writeMbReq off data = s := by
  unfold State.writeMbReq
  rw [if_pos (by rw [h]; rfl)]

theorem State.writeWinBase_of_untouched {off : Nat} {data : List Byte} (h : touches 0x2008 8 off data.length = false) :
    s.writeWinBase off data = s := by
  unfold State.writeWinBase
  rw [if_pos (by rw [h]; rfl)]

theorem State.writeMbCtrl_of_untouched {off : Nat} {data : List Byte} (h : touches 0x2000 4 off data.length = false) :
    s.writeMbCtrl off data = s := by
  unfold State.writeMbCtrl
  rw [if_pos (by rw [h]; rfl)]

/-- A write inside MB_REQ while the mailbox is not BUSY places its bytes. -/
theorem State.writeMbReq_inside {off : Nat} {data : List Byte} (hb : s.mbState ≠ .busy) (hn : 0 < data.length)
    (ho : off + data.length ≤ 0x1000) :
    s.writeMbReq off data = { s with bar2 := s.bar2.fill off data.length fun i => data.getD i 0 } := by
  have ht : touches 0 0x1000 off data.length = true := by
    simp only [touches, Bool.and_eq_true, decide_eq_true_eq]
    omega
  unfold State.writeMbReq
  rw [if_neg (by rw [ht]; decide), if_neg hb, Nat.min_eq_left (by omega)]

/-- The bytes of a register written whole are all its bytes. -/
theorem mergeBytes_whole (old at_ : Nat) (data : List Byte) : mergeBytes old at_ data.length at_ data = natOf data := by
  unfold mergeBytes
  congr 1
  refine List.ext_getElem (by simp) fun i h _ => ?_
  have hi : i < data.length := by simpa using h
  simp [hi]

/-- WIN_BASE written whole, with no reserved bit set, holds bits 43:26 of what is written. -/
theorem State.writeWinBase_whole {data : List Byte} (hl : data.length = 8) (h1 : fieldAt (natOf data) 0 26 = 0)
    (h2 : fieldAt (natOf data) 44 20 = 0) :
    s.writeWinBase 0x2008 data = { s with winBase := BitVec.ofNat 18 (natOf data / 2 ^ 26) } := by
  have hm : mergeBytes (s.winBase.toNat * 2 ^ 26) 0x2008 8 0x2008 data = natOf data := hl ▸ mergeBytes_whole _ _ data
  unfold State.writeWinBase
  rw [hl, if_neg (by decide)]
  dsimp only
  rw [hm, if_neg (by simp [h1, h2])]

/-- Bits 43:26 of a number without reserved bits are the number. -/
theorem winBase_of_noReserved {w : Nat} (hw : w < 2 ^ 64) (h1 : fieldAt w 0 26 = 0) (h2 : fieldAt w 44 20 = 0) :
    (BitVec.ofNat 18 (w / 2 ^ 26)).toNat * 2 ^ 26 = w := by
  simp only [fieldAt] at h1 h2
  rw [BitVec.toNat_ofNat]
  omega

/-- GO on a mailbox that is not BUSY, while the dictionary answers it. -/
theorem State.mbGo_submits (hu : s.serverUp = true) (hb : s.mbState ≠ .busy) (hd : s.dictUp .pcie = true) :
    s.mbGo = { s with mbState := .busy, mbWaiting := some s.mbReq } := by
  unfold State.mbGo
  rw [if_neg (by simp [hu]), if_neg hb, if_pos hd]

/-- A write inside MB_REQ touches no other register. -/
theorem State.writeBar2_mbReq {off : Nat} {data : List Byte} (hu : s.serverUp = true) (hb : s.mbState ≠ .busy) (hn : 0 < data.length)
    (ho : off + data.length ≤ 0x1000) :
    s.writeBar2 off data = { s with bar2 := s.bar2.fill off data.length fun i => data.getD i 0 } := by
  unfold State.writeBar2
  rw [if_neg (by simp [hu]), State.writeMbReq_inside hb hn ho, State.writeWinBase_of_untouched (touches_of_before (by omega)),
    State.writeMbCtrl_of_untouched (touches_of_before (by omega))]

/-- A write of the whole of WIN_BASE touches no other register. -/
theorem State.writeBar2_winBase {data : List Byte} (hu : s.serverUp = true) (hl : data.length = 8)
    (h1 : fieldAt (natOf data) 0 26 = 0) (h2 : fieldAt (natOf data) 44 20 = 0) :
    s.writeBar2 0x2008 data = { s with winBase := BitVec.ofNat 18 (natOf data / 2 ^ 26) } := by
  unfold State.writeBar2
  rw [if_neg (by simp [hu]), State.writeMbReq_of_untouched (touches_of_after (by omega)), State.writeWinBase_whole hl h1 h2,
    State.writeMbCtrl_of_untouched (touches_of_after (by omega))]

/-! ### The movable window (R375) -/

/-- A span inside one granule is cut into itself. -/
theorem granulesOf_single {x n : Nat} (hn : 0 < n) (hx : n ≤ 64 - x % 64) : granulesOf (n / 64 + 2) x n = [(x, n)] := by
  rw [granulesOf, if_neg (Nat.ne_of_gt hn), Nat.min_eq_left hx, Nat.sub_self, granulesOf, if_pos rfl]

theorem State.winSpans_single {x n : Nat} (hn : 0 < n) (hx : n ≤ 64 - x % 64) : s.winSpans x n = [(s.winAddr x, n)] := by
  rw [State.winSpans, granulesOf_single hn hx]
  rfl

theorem State.winWaits_single {wr : Bool} {a n : Nat} (h : s.winSee wr a n = .open) : s.winWaits wr [(a, n)] = false := by
  simp [State.winWaits, h]

theorem State.withFreeCtr_mem (s : State) (k : Nat) : ({ s with freeCtr := k } : State).mem = s.mem := rfl
theorem State.withFreeCtr_parts (s : State) (k : Nat) : ({ s with freeCtr := k } : State).parts = s.parts := rfl

/-- What a read of one granule's bytes counts and wakes is neither memory nor a partition. -/
theorem State.winReadOne_open {a n : Nat} (ho : s.winSee false a n = .open) (he : s.sramError a n = false) :
    ∃ t, s.winReadOne a n = (t, s.bytesAt a n) ∧ t.mem = s.mem ∧ t.parts = s.parts := by
  have hb : s.winBytes a n = s.bytesAt a n := by rw [State.winBytes, if_neg (by simp [he])]
  have hm : ((s.touch a).countBulk 1 a n).mem = s.mem := by rw [State.countBulk_mem, (s.touch_mem a).1]
  have hp : ((s.touch a).countBulk 1 a n).parts = s.parts := by rw [State.countBulk_parts, State.touch_parts]
  rw [State.winReadOne, ho, hb]
  exact ⟨_, rfl, (State.withFreeCtr_mem ..).trans hm, (State.withFreeCtr_parts ..).trans hp⟩

/-- A read of one granule's bytes where the window is open and no error lies: the bytes go out. -/
theorem State.winRead_open {x n : Nat} (hu : s.serverUp = true) (hn : 0 < n) (hx : n ≤ 64 - x % 64)
    (ho : s.winSee false (s.winAddr x) n = .open) (he : s.sramError (s.winAddr x) n = false) :
    ∃ t : State, s.winRead x n = t.emit (.windowData x (s.bytesAt (s.winAddr x) n)) ∧ t.mem = s.mem ∧ t.parts = s.parts := by
  obtain ⟨t, ht, hm, hp⟩ := State.winReadOne_open ho he
  refine ⟨t, ?_, hm, hp⟩
  unfold State.winRead
  dsimp only
  rw [State.winSpans_single hn hx, State.winWaits_single ho, hu, decide_eq_false (show ¬ 4096 < n by omega), if_neg (by decide),
    List.foldl_cons, List.foldl_nil, ht]
  rfl

/-- A write of one granule's bytes where the window is open and no uncorrectable half is written in part: the store. -/
theorem State.winWrite_open {x : Nat} {data : List Byte} (hu : s.serverUp = true) (hn : 0 < data.length)
    (hx : data.length ≤ 64 - x % 64) (ho : s.winSee true (s.winAddr x) data.length = .open)
    (he : s.sramPartial (s.winAddr x) data.length = false) : s.winWrite x data = s.writeAt (s.winAddr x) data := by
  unfold State.winWrite
  dsimp only
  rw [State.winSpans_single hn hx, State.winWaits_single ho, hu, decide_eq_false (show ¬ 512 < data.length by omega),
    if_neg (by decide), granulesOf_single hn hx, List.foldl_cons, List.foldl_nil, Nat.sub_self, List.drop_zero, List.take_length,
    State.winWriteOne, ho]
  exact if_neg (by simp [he])

/-! ### Outbound host windows (R28, R377) -/

/-- A write that one window holds goes out whole and is counted there. -/
theorem State.hostPut_oneWindow {a : Nat} {bs : List Byte} (hn : 0 < bs.length) (hw : bs.length ≤ hostSize - (a - hostBase) % hostSize) :
    s.hostPut a bs = (s.emit (.hostWrite (s.hostAddr a) bs)).count (0x1140 + (a - hostBase) / hostSize) 4 64 bs.length := by
  unfold State.hostPut State.countHost
  dsimp only
  rw [Nat.min_eq_left hw, if_pos rfl, if_neg (Nat.ne_of_gt hn), List.take_length]

/-- A read that one window holds is requested whole and is counted there. -/
theorem State.hostGet_oneWindow {a n : Nat} (hn : 0 < n) (hw : n ≤ hostSize - (a - hostBase) % hostSize) :
    s.hostGet a n = (State.emit { s with freeCtr := s.freeCtr + 1 } (.hostRead (s.hostAddr a) n)).count
      (0x1140 + (a - hostBase) / hostSize) 3 64 n := by
  unfold State.hostGet State.countHost
  dsimp only
  rw [Nat.min_eq_left hw, if_pos rfl, if_neg (Nat.ne_of_gt hn)]
  rfl

theorem State.hostAccess_write {p a len : Nat} {bs : List Byte} (hs : s.isSealed p = false) (hn : 0 < bs.length)
    (hr : s.hostReach p a bs.length = true) : s.hostAccess p a (some bs) len = s.hostPut a bs := by
  unfold State.hostAccess
  dsimp only
  rw [if_neg (by simp [hs]), hr, if_neg (by simpa using List.length_pos_iff.1 hn)]

theorem State.hostAccess_read {p a len : Nat} (hs : s.isSealed p = false) (hn : 0 < len) (hr : s.hostReach p a len = true) :
    s.hostAccess p a none len = s.hostGet a len := by
  unfold State.hostAccess
  dsimp only
  rw [if_neg (by simp [hs]), hr, if_neg (by simpa using Nat.ne_of_gt hn)]

/-! ### Link resets and link up (R376) -/

/-- The mailbox finishes: its registers, its buffer and the outputs change. -/
theorem State.mbFinish_frame (s : State) (st : MbState) (r : DictResp) :
    s.mbFinish st r = { s with
      bar2 := (s.mbFinish st r).bar2, mbState := st, mbTag := (s.mbFinish st r).mbTag, mbWaiting := (s.mbFinish st r).mbWaiting
      out := (s.mbFinish st r).out } := by
  unfold State.mbFinish
  dsimp only
  split <;> rfl

/-- A link reset before it is logged: a request in progress is aborted, the window and IRQ return to their reset values, and only
a function-level reset leaves the link up. -/
def State.linkCleared (s : State) (c : PcieCause) : State :=
  { (if s.mbState = .busy then s.mbFinish .aborted ⟨s.mbReq, stWrongState, []⟩ else s) with
    winBase := 0x4000, mbIrq := false, serverUp := decide (c = PcieCause.flr) }

theorem State.linkCleared_frame (s : State) (c : PcieCause) :
    s.linkCleared c = { s with
      bar2 := (s.linkCleared c).bar2, mbState := if s.mbState = .busy then .aborted else s.mbState
      mbTag := (s.linkCleared c).mbTag, mbWaiting := (s.linkCleared c).mbWaiting, out := (s.linkCleared c).out
      winBase := 0x4000, mbIrq := false, serverUp := decide (c = PcieCause.flr) } := by
  unfold State.linkCleared
  split
  · rw [State.mbFinish_frame]
  · rfl

/-- The events of a link reset, and the epoch of the PCIe master, which advances. -/
theorem State.pcieDown_eq {c : PcieCause} (hu : s.serverUp = true) :
    s.pcieDown c =
      if s.mbState = .busy then
        (((s.linkCleared c).logEvent 0x71 0x0B10 (pcieCauseNum c)).advanceEpoch pcieOwner).logEvent 0x71 0x0B11
          (s.mbReq.tag.toNat + s.mbReq.index.toNat * 2 ^ 16 + s.mbReq.subindex.toNat * 2 ^ 32)
      else ((s.linkCleared c).logEvent 0x71 0x0B10 (pcieCauseNum c)).advanceEpoch pcieOwner := by
  unfold State.pcieDown State.linkCleared
  simp only [hu, Bool.not_true, Bool.false_eq_true, if_false, beq_iff_eq]

/-- Beside registers, logs and outputs, a link reset changes what `linkCleared` does and the PCIe master's epoch. -/
theorem State.pcieDown_noting {c : PcieCause} (hu : s.serverUp = true) :
    s.pcieDown c = ((s.linkCleared c).bumpEpoch pcieOwner).noting (s.pcieDown c) := by
  have h := State.advanceEpoch_noting (State.logEvent_noting (s.linkCleared c) 0x71 0x0B10 (pcieCauseNum c)) pcieOwner
  rw [State.pcieDown_eq hu]
  split
  · exact State.noting_trans h (State.logEvent_noting ..)
  · exact h

theorem State.pcieDown_fields {c : PcieCause} (hu : s.serverUp = true) :
    (s.pcieDown c).winBase = 0x4000 ∧ (s.pcieDown c).mbIrq = false ∧ (s.pcieDown c).serverUp = decide (c = PcieCause.flr)
      ∧ (s.pcieDown c).epochOf pcieOwner = s.epochOf pcieOwner + 1
      ∧ (s.pcieDown c).mbState = (if s.mbState = .busy then .aborted else s.mbState)
      ∧ (s.pcieDown c).mem = s.mem ∧ (s.pcieDown c).cores = s.cores ∧ (s.pcieDown c).parts = s.parts := by
  have he : ((s.linkCleared c).bumpEpoch pcieOwner).epochOf pcieOwner = s.epochOf pcieOwner + 1 := by
    rw [State.bumpEpoch_epochOf _ (by decide), State.linkCleared_frame]
    rfl
  rw [State.pcieDown_noting hu]
  refine ⟨rfl, rfl, rfl, he, ?_, ?_, ?_, ?_⟩
  all_goals
    rw [State.linkCleared_frame]
    rfl

/-- The reset's own event is logged first; the abandoned locks and the aborted request follow. -/
theorem State.pcieDown_logged {c : PcieCause} (hu : s.serverUp = true) (hr : s.logRoom) :
    Logged s (s.pcieDown c) 0x71 0x0B10 (pcieCauseNum c) := by
  have hc : (s.linkCleared c).logRoom := by
    rw [State.linkCleared_frame]
    exact hr
  have hseq : (s.linkCleared c).seqNext = s.seqNext := by rw [State.linkCleared_frame]
  have h : LoggedWithin 17 s (((s.linkCleared c).logEvent 0x71 0x0B10 (pcieCauseNum c)).advanceEpoch pcieOwner) 0x71 0x0B10
      (pcieCauseNum c) := by
    unfold LoggedWithin
    rw [← hseq]
    exact (State.logEvent_within hc).advanceEpoch (by decide) pcieOwner
  rw [State.pcieDown_eq hu]
  split
  · exact (h.logEvent (by decide) _ _ _).logged
  · exact h.logged

theorem State.pcieUp_links {w g : Nat} (hc : s.clockRuns = true) (hu : s.serverUp = false) :
    s.pcieUp w g = { (s.setObj 0x5030 1 w).setObj 0x5030 2 g with serverUp := true } := by
  unfold State.pcieUp
  rw [if_neg (by simp [hc])]
  exact if_neg (by simp [hu])

end Sys2Proof.Machine

open Sys2Proof.Machine

/-- Settles O51: each clause follows from what its operation is on such a state (one lemma above for each), the store's bytes from
`State.putBytes_rawByte`. -/
theorem serverReachesDevice : Obligations.ServerReachesDevice := by
  refine ⟨?go, ?mbReq, ?winBase, ?windowRead, ?windowWrite, ?hostWrite, ?hostRead, ?reset, ?linkUp⟩
  case go => exact fun s hu hb hd => ⟨_, rfl, State.mbGo_submits hu hb hd⟩
  case mbReq =>
    intro off data s hu hb hn ho
    refine ⟨_, rfl, ?_⟩
    rw [State.writeBar2_mbReq hu hb hn ho]
    exact ⟨fun i => Tab.get_fill .., rfl⟩
  case winBase =>
    intro data s hu hl h1 h2
    refine ⟨_, rfl, ?_⟩
    rw [State.writeBar2_winBase hu hl h1 h2]
    exact ⟨winBase_of_noReserved (by simpa only [hl] using natOf_lt_two_pow data) h1 h2, rfl⟩
  case windowRead =>
    intro x n s hu hn hx ho he
    obtain ⟨t, ht, hm, hp⟩ := State.winRead_open hu hn hx ho he
    refine ⟨_, rfl, ?_⟩
    rw [ht]
    exact ⟨rfl, hm, hp⟩
  case windowWrite =>
    intro x data s hs hu hn hx ho he hw
    refine ⟨_, rfl, ?_⟩
    rw [State.winWrite_open hu hn hx ho he]
    exact ⟨State.putBytes_rawByte s hs _ _ fun _ => hw, State.putBytes_parts .., State.putBytes_syncs ..⟩
  case hostWrite =>
    intro p a bs len s hs hn hr hw
    refine ⟨_, rfl, ?_⟩
    rw [State.hostAccess_write hs hn hr, State.hostPut_oneWindow hn hw]
    exact ⟨rfl, State.count_obj_self .., State.setObj_sameObjs (by decide), rfl⟩
  case hostRead =>
    intro p a len s hs hn hr hw
    refine ⟨_, rfl, ?_⟩
    rw [State.hostAccess_read hs hn hr, State.hostGet_oneWindow hn hw]
    exact ⟨rfl, State.count_obj_self .., State.setObj_sameObjs (by decide), rfl⟩
  case reset =>
    intro c s hu
    obtain ⟨hw, hi, hup, he, hm, hmem, hc, hp⟩ := State.pcieDown_fields (c := c) hu
    refine ⟨s.pcieDown c, rfl, hw, hi, ?_, he, hm, State.pcieDown_logged hu, hmem, hc, hp⟩
    rw [hup, decide_eq_true_iff]
  case linkUp =>
    intro w g s hc hu
    refine ⟨_, rfl, ?_⟩
    rw [State.pcieUp_links hc hu]
    refine ⟨rfl, ?_, State.setObj_obj_self .., ?_, rfl⟩
    · exact (State.setObj_obj_ne _ _ _ _ _ _ (by decide) (by decide) (by decide)).trans (State.setObj_obj_self ..)
    · exact SameObjs.append (State.setObj_sameObjs (by decide)) (State.setObj_sameObjs (by decide))

end

section
/-! That every command completes (R40): what `exec_answers` says of the answer and of the queue. -/

open Sys2Proof.Machine

/-- Settles O3: each arm's lemma in `exec_answers` gives a next state that keeps the queue. -/
theorem commandsCompleteAndKeepQueue : Obligations.CommandsCompleteAndKeepQueue := fun c s => by
  obtain ⟨t, ht, hk⟩ := exec_answers c s
  exact ⟨t, ht, hk.pending⟩

end

section
/-! Floating-point codes (R45, R46, R60): the magnitude that a code without sign stands for, how a signed code decodes, and
rounding to a format: exact on the magnitude of a code, else to a nearest code, at a tie to an even one. -/

namespace Sys2Proof.Machine

variable {f : FpFmt}

/-! ### Codes and their signs -/

theorem FpFmt.bitAt_signed (neg : Bool) {c : Nat} (hc : c < 2 ^ (f.mbits + f.ebits)) :
    bitAt (f.signed neg c) (f.mbits + f.ebits) = neg := by
  cases neg
  · simp [bitAt, FpFmt.signed, Nat.div_eq_of_lt hc]
  · simp [bitAt, FpFmt.signed, Nat.add_div_left _ (Nat.two_pow_pos _), Nat.div_eq_of_lt hc]

theorem FpFmt.signed_mod (neg : Bool) {c : Nat} (hc : c < 2 ^ (f.mbits + f.ebits)) :
    f.signed neg c % 2 ^ (f.mbits + f.ebits) = c := by
  cases neg <;> simp [FpFmt.signed, Nat.mod_eq_of_lt hc]

/-- A code of the format is its sign and its code without sign. -/
theorem FpFmt.signed_bitAt_mod {x : Nat} (hx : x < 2 ^ f.bits) :
    f.signed (bitAt x (f.mbits + f.ebits)) (x % 2 ^ (f.mbits + f.ebits)) = x := by
  have hq : x / 2 ^ (f.mbits + f.ebits) < 2 := Nat.div_lt_of_lt_mul (by rwa [← Nat.pow_succ])
  have hd := Nat.div_add_mod x (2 ^ (f.mbits + f.ebits))
  rcases Nat.lt_succ_iff_lt_or_eq.1 hq with h | h
  · rw [Nat.lt_one_iff.1 h] at hd
    simpa [FpFmt.signed, bitAt, Nat.lt_one_iff.1 h] using hd
  · rw [h] at hd
    simpa [FpFmt.signed, bitAt, h] using hd

/-! ### Magnitudes -/

/-- Significand, as an integer, and exponent of its last place, of a code without sign. -/
def FpFmt.sig (f : FpFmt) (c : Nat) : Nat := if c / 2 ^ f.mbits = 0 then c % 2 ^ f.mbits else 2 ^ f.mbits + c % 2 ^ f.mbits
def FpFmt.expo (f : FpFmt) (c : Nat) : Int :=
  if c / 2 ^ f.mbits = 0 then f.emin - f.mbits else ((c / 2 ^ f.mbits : Nat) : Int) - f.bias - f.mbits

/-- The magnitude of a code without sign. -/
def FpFmt.mag (f : FpFmt) (c : Nat) : ℚ := f.sig c * (2 : ℚ) ^ f.expo c

theorem FpFmt.decode_of_le {x : Nat} (h : x % 2 ^ (f.mbits + f.ebits) ≤ f.maxFin) :
    f.decode x = .fin (bitAt x (f.mbits + f.ebits)) (f.sig (x % 2 ^ (f.mbits + f.ebits)))
      (f.expo (x % 2 ^ (f.mbits + f.ebits))) := by
  unfold FpFmt.decode FpFmt.sig FpFmt.expo
  dsimp only
  rw [if_pos h]
  split <;> rfl

theorem FpFmt.le_maxFin_of_isFin {x : Nat} (h : (f.decode x).isFin = true) : x % 2 ^ (f.mbits + f.ebits) ≤ f.maxFin := by
  by_contra hc
  unfold FpFmt.decode at h
  dsimp only at h
  rw [if_neg hc] at h
  split at h <;> cases h

theorem FpFmt.sig_lt (c : Nat) : f.sig c < 2 ^ (f.mbits + 1) := by
  have := Nat.mod_lt c (Nat.two_pow_pos f.mbits)
  unfold FpFmt.sig
  rw [Nat.pow_succ]
  split <;> omega

theorem FpFmt.emin_le_expo (c : Nat) : f.emin - f.mbits ≤ f.expo c := by
  unfold FpFmt.expo FpFmt.emin
  split
  · exact le_refl _
  · generalize c / 2 ^ f.mbits = q at *
    omega

/-- A code whose exponent field is not zero. -/
theorem FpFmt.mag_normal (k : Nat) {r : Nat} (hr : r < 2 ^ f.mbits) :
    f.mag ((k + 1) * 2 ^ f.mbits + r) = ((2 ^ f.mbits + r : Nat) : ℚ) * (2 : ℚ) ^ (f.emin + k - f.mbits) := by
  have hd : ((k + 1) * 2 ^ f.mbits + r) / 2 ^ f.mbits = k + 1 := by
    rw [Nat.mul_comm, Nat.mul_add_div (Nat.two_pow_pos _), Nat.div_eq_of_lt hr, Nat.add_zero]
  have hm : ((k + 1) * 2 ^ f.mbits + r) % 2 ^ f.mbits = r := by rw [Nat.mul_comm, Nat.mul_add_mod, Nat.mod_eq_of_lt hr]
  unfold FpFmt.mag FpFmt.sig FpFmt.expo FpFmt.emin
  rw [hd, hm, if_neg (Nat.succ_ne_zero k), if_neg (Nat.succ_ne_zero k)]
  congr 2
  push_cast
  ring

/-- The code that `k` binades and `q` last places make: a `q` that reaches the next binade is its first code. -/
theorem FpFmt.mag_binade {k q : Nat} (hk : k = 0 ∨ 2 ^ f.mbits ≤ q) (hq : q ≤ 2 ^ (f.mbits + 1)) :
    f.mag (k * 2 ^ f.mbits + q) = q * (2 : ℚ) ^ (f.emin + k - f.mbits) := by
  rw [Nat.pow_succ] at hq
  by_cases hlo : q < 2 ^ f.mbits
  · obtain rfl : k = 0 := hk.resolve_right (Nat.not_le.2 hlo)
    simp [FpFmt.mag, FpFmt.sig, FpFmt.expo, Nat.div_eq_of_lt hlo, Nat.mod_eq_of_lt hlo]
  obtain ⟨r, rfl⟩ := Nat.exists_eq_add_of_le (Nat.not_lt.1 hlo)
  by_cases hr : r < 2 ^ f.mbits
  · rw [← f.mag_normal k hr]
    congr 1
    ring
  · obtain rfl : r = 2 ^ f.mbits := by omega
    have h := f.mag_normal (k + 1) (Nat.two_pow_pos f.mbits)
    rw [show (k + 1 + 1) * 2 ^ f.mbits + 0 = k * 2 ^ f.mbits + (2 ^ f.mbits + 2 ^ f.mbits) by ring] at h
    rw [h, show f.emin + ((k + 1 : Nat) : Int) - f.mbits = (f.emin + k - f.mbits) + 1 by push_cast; ring,
      zpow_add_one₀ (by norm_num)]
    push_cast
    ring

/-! ### Rounding that meets a code's magnitude exactly -/

theorem roundShift_rtz_zero (m : Nat) : roundShift .rtz m 0 = m := by simp [roundShift]
theorem roundShift_rne_zero (m : Nat) : roundShift .rne m 0 = m := by simp [roundShift, Nat.mod_one]

/-- Whole binades above the smallest normal, of a value (R60). -/
def FpFmt.binade (f : FpFmt) (m : Nat) (e : Int) : Nat := (max (e + (Nat.log2 m : Int)) f.emin - f.emin).toNat

/-- Exponent of the last place that a value is rounded to (R60). -/
def FpFmt.ulp (f : FpFmt) (m : Nat) (e : Int) : Int := max (e + (Nat.log2 m : Int)) f.emin - f.mbits

theorem FpFmt.ulp_eq (m : Nat) (e : Int) : f.ulp m e = f.emin + f.binade m e - f.mbits := by
  unfold FpFmt.ulp FpFmt.binade
  omega

/-- What is counted in last places. -/
def FpFmt.lastPlaces (f : FpFmt) (r : Rnd) (m : Nat) (e : Int) : Nat :=
  if e ≥ f.ulp m e then roundShift r (m * 2 ^ (e - f.ulp m e).toNat) 0 else roundShift r m (f.ulp m e - e).toNat

theorem FpFmt.roundCode_of_ne {m : Nat} (r : Rnd) (e : Int) (hm : m ≠ 0) :
    f.roundCode r m e = f.binade m e * 2 ^ f.mbits + f.lastPlaces r m e := by
  unfold FpFmt.roundCode
  rw [if_neg hm]
  rfl

theorem FpFmt.roundCode_rne_zero (e : Int) : f.roundCode .rne 0 e = 0 := rfl
theorem FpFmt.roundCode_rtz_zero (e : Int) : f.roundCode .rtz 0 e = 0 := rfl

/-- The significand of a code other than zero fixes the binade, and its last place is the code's. -/
theorem FpFmt.ulp_sig {c : Nat} (hc : f.sig c ≠ 0) :
    f.ulp (f.sig c) (f.expo c) = f.expo c ∧ f.binade (f.sig c) (f.expo c) * 2 ^ f.mbits + f.sig c = c := by
  have hd := Nat.div_add_mod c (2 ^ f.mbits)
  have hlt := Nat.mod_lt c (Nat.two_pow_pos f.mbits)
  unfold FpFmt.ulp FpFmt.binade
  unfold FpFmt.sig FpFmt.expo at *
  by_cases h : c / 2 ^ f.mbits = 0
  · simp only [if_pos h] at hc ⊢
    have hl : Nat.log2 (c % 2 ^ f.mbits) < f.mbits := (Nat.log2_lt hc).2 hlt
    rw [max_eq_right (by omega), sub_self, Int.toNat_zero, Nat.zero_mul, Nat.zero_add]
    rw [h] at hd
    exact ⟨rfl, by omega⟩
  · simp only [if_neg h] at hc ⊢
    have hl : Nat.log2 (2 ^ f.mbits + c % 2 ^ f.mbits) = f.mbits :=
      (Nat.log2_eq_iff hc).2 ⟨Nat.le_add_right _ _, by rw [Nat.pow_succ]; omega⟩
    obtain ⟨k, hk⟩ := Nat.exists_eq_succ_of_ne_zero h
    unfold FpFmt.emin
    rw [hl, hk, max_eq_left (by push_cast; omega),
      show (((k + 1 : Nat) : Int) - f.bias - f.mbits + f.mbits - (1 - f.bias)).toNat = k by push_cast; omega]
    refine ⟨by ring, ?_⟩
    rw [Nat.mul_comm, ← Nat.add_assoc, ← Nat.mul_succ, ← hk]
    exact hd

theorem FpFmt.roundCode_sig {r : Rnd} (hr : ∀ m, roundShift r m 0 = m) (h0 : ∀ e, f.roundCode r 0 e = 0) (c : Nat) :
    f.roundCode r (f.sig c) (f.expo c) = c := by
  by_cases hc : f.sig c = 0
  · have hd := Nat.div_add_mod c (2 ^ f.mbits)
    rw [hc, h0]
    unfold FpFmt.sig at hc
    split at hc
    case isTrue h => rw [h, hc] at hd; exact hd
    case isFalse => exact absurd hc (by have := Nat.two_pow_pos f.mbits; omega)
  · obtain ⟨hu, hb⟩ := f.ulp_sig hc
    rw [f.roundCode_of_ne r _ hc, FpFmt.lastPlaces, hu, if_pos (le_refl _), sub_self, Int.toNat_zero, pow_zero, Nat.mul_one, hr, hb]

/-! ### Writing -/

theorem FpFmt.write_fin_of_le {r : Rnd} {neg sat : Bool} {m : Nat} {e : Int} (h : f.roundCode r m e ≤ f.maxFin) :
    f.write r sat (.fin neg m e) = ⟨f.signed neg (f.roundCode r m e), false⟩ := by
  unfold FpFmt.write
  exact if_pos h

theorem FpFmt.write_nan (r : Rnd) (sat : Bool) : f.write r sat .nan = ⟨f.nanC, false⟩ := rfl

/-- An element written back under a rounding that meets its magnitude exactly. -/
theorem FpFmt.write_decode {r : Rnd} (hr : ∀ m, roundShift r m 0 = m) (h0 : ∀ e, f.roundCode r 0 e = 0) {x : Nat} (sat : Bool)
    (hx : x < 2 ^ f.bits) (h : (f.decode x).isFin = true) : f.write r sat (f.decode x) = ⟨x, false⟩ := by
  have hc := FpFmt.le_maxFin_of_isFin h
  have hw := f.roundCode_sig hr h0 (x % 2 ^ (f.mbits + f.ebits))
  rw [FpFmt.decode_of_le hc, FpFmt.write_fin_of_le (by rw [hw]; exact hc), hw, FpFmt.signed_bitAt_mod hx]

end Sys2Proof.Machine

end

section
/-! Elements and scales (R45–R48): a finite element survives a write back, and an E8M0 byte scales its block or makes it NaN. -/

namespace Sys2Proof.Machine

/-! ### Scales (R47) -/

theorem Fp.scale_isFin (v : Fp) (k : Int) : (v.scale k).isFin = v.isFin := by cases v <;> rfl

theorem Fp.scale_rat (v : Fp) (k : Int) : (v.scale k).rat = v.rat * (2 : ℚ) ^ k := by
  cases v with
  | nan => exact (zero_mul _).symm
  | inf => exact (zero_mul _).symm
  | fin neg m e => simp only [Fp.scale, Fp.rat, zpow_add₀ (two_ne_zero (α := ℚ)), mul_assoc]

variable {d : Tensor} {r c : Nat} {s : State}

/-- An element of a format with a scale area, inside its tensor, whose scale byte is NaN (R47). -/
theorem Tensor.value_of_nanScale (ha : hasAreas d.f.fmt = true) (hr : r < d.rows) (hc : c < d.cols)
    (hx : (s.fetchByte (d.scaleAddr r c)).toNat = 255) : d.value s r c = .nan := by
  unfold Tensor.value
  dsimp only
  rw [if_neg (by omega), if_neg (by simp [ha]), if_pos hx]

/-- An MXFP8 element: its FP8 code under its block's scale (R47, R48). -/
theorem Tensor.value_mxfp8 (ha : hasAreas d.f.fmt = true) (hf : d.f.fmt < 6) (hr : r < d.rows) (hc : c < d.cols)
    (hx : (s.fetchByte (d.scaleAddr r c)).toNat ≠ 255) :
    d.value s r c
      = ((elemFmt d.f.fmt).decode (s.fetchNat (d.codeAddr r c) 1)).scale (scaleExp (s.fetchByte (d.scaleAddr r c)).toNat) := by
  unfold Tensor.value
  dsimp only
  rw [if_neg (by omega), if_neg (by simp [ha]), if_neg hx]
  split
  case h_1 h | h_2 h | h_3 h => omega
  case h_4 => rfl

end Sys2Proof.Machine

open Sys2Proof.Machine

/-- Settles O24: rounding is exact on the magnitude of a code (`FpFmt.write_decode`), and a scale multiplies by a power of two. -/
theorem elementsAndScales : Obligations.ElementsAndScales := by
  refine ⟨fun f _ x sat hx => ⟨fun hfin => ⟨?rne, ?rtz⟩, fun hnan => ?nan⟩, fun x v _ hv => ⟨?fin, ?rat⟩,
    fun d r c s ha hr hc => ⟨Tensor.value_of_nanScale ha hr hc, fun hx hf => Tensor.value_mxfp8 ha hf hr hc hx⟩⟩
  case rne => exact FpFmt.write_decode roundShift_rne_zero FpFmt.roundCode_rne_zero sat hx hfin
  case rtz => exact FpFmt.write_decode roundShift_rtz_zero FpFmt.roundCode_rtz_zero sat hx hfin
  case nan => rw [hnan, FpFmt.write_nan]
  case fin => rw [Fp.scale_isFin, hv]
  case rat => exact Fp.scale_rat v _

end

section
/-! Rounding to nearest, ties to even (R60): of an integer quotient, of a magnitude to a format's codes, of a signed value to FP32. -/

namespace Sys2Proof.Machine

/-! ### Integers -/

/-- As an approximation of `y`, the value `a` of code `n` is better than `w`; or it is as good, and `n` is even. -/
def Nearer (y a : ℚ) (n : Nat) (w : ℚ) : Prop := |a - y| < |w - y| ∨ (|a - y| = |w - y| ∧ n % 2 = 0)

/-- `q` is an integer nearest to `y`, at a tie the even one. -/
def IsRne (y : ℚ) (q : Nat) : Prop := ∀ j : ℤ, j ≠ q → Nearer y q q j

theorem IsRne.of_nat (q : Nat) : IsRne q q := fun j hj => by
  left
  rw [sub_self, abs_zero, abs_pos, sub_ne_zero]
  exact_mod_cast hj

/-- An integer with what is left: below a half it is the nearest, and at a half if it is even. -/
theorem IsRne.floor {q : Nat} {t : ℚ} (h0 : 0 ≤ t) (h : 2 * t < 1 ∨ (2 * t = 1 ∧ q % 2 = 0)) : IsRne (q + t) q := fun j hj => by
  have ha : |(q : ℚ) - (q + t)| = t := by rw [sub_add_cancel_left, abs_neg, abs_of_nonneg h0]
  unfold Nearer
  rw [ha]
  rcases lt_or_gt_of_ne hj with hlt | hgt
  · have hj' : (j : ℚ) ≤ q - 1 := by exact_mod_cast Int.le_sub_one_of_lt hlt
    left
    rw [abs_of_nonpos (by linarith)]
    linarith
  · have hj' : (q : ℚ) + 1 ≤ j := by exact_mod_cast hgt
    rw [abs_of_nonneg (by rcases h with h | ⟨h, -⟩ <;> linarith)]
    rcases h with h | ⟨h, he⟩
    · exact .inl (by linarith)
    · rcases eq_or_lt_of_le hj' with hj' | hj'
      · exact .inr ⟨by linarith, he⟩
      · exact .inl (by linarith)

/-- The next integer: above a half it is the nearest, and at a half if it is even. -/
theorem IsRne.ceil {q : Nat} {t : ℚ} (h1 : t ≤ 1) (h : 1 < 2 * t ∨ (2 * t = 1 ∧ (q + 1) % 2 = 0)) :
    IsRne (q + t) (q + 1) := fun j hj => by
  have ha : |((q + 1 : Nat) : ℚ) - (q + t)| = 1 - t := by
    rw [Nat.cast_add_one, add_sub_add_left_eq_sub, abs_of_nonneg (by linarith)]
  unfold Nearer
  rw [ha]
  rcases lt_or_gt_of_ne hj with hlt | hgt
  · have hj' : (j : ℚ) ≤ q := by exact_mod_cast Int.lt_add_one_iff.1 hlt
    rw [abs_of_nonpos (by rcases h with h | ⟨h, -⟩ <;> linarith)]
    rcases h with h | ⟨h, he⟩
    · exact .inl (by linarith)
    · rcases eq_or_lt_of_le hj' with hj' | hj'
      · exact .inr ⟨by linarith, he⟩
      · exact .inl (by linarith)
  · have hj' : (q : ℚ) + 1 + 1 ≤ j := by exact_mod_cast hgt
    left
    rw [abs_of_nonneg (by linarith)]
    linarith

theorem roundShift_rne_isRne (m sh : Nat) : IsRne ((m : ℚ) / 2 ^ sh) (roundShift .rne m sh) := by
  have hd : (0 : ℚ) < 2 ^ sh := by positivity
  have hy : (m : ℚ) / 2 ^ sh = ((m / 2 ^ sh : Nat) : ℚ) + ((m % 2 ^ sh : Nat) : ℚ) / 2 ^ sh := by
    rw [eq_comm, add_div' _ _ _ hd.ne', div_left_inj' hd.ne', mul_comm]
    exact_mod_cast Nat.div_add_mod m (2 ^ sh)
  have hlt : ((m % 2 ^ sh : Nat) : ℚ) < 2 ^ sh := by exact_mod_cast Nat.mod_lt m (Nat.two_pow_pos sh)
  have hhalf : ∀ n : Nat, 2 * ((n : ℚ) / 2 ^ sh) = ((n * 2 : Nat) : ℚ) / ((2 ^ sh : Nat) : ℚ) := fun n => by push_cast; ring
  have hd' : (0 : ℚ) < ((2 ^ sh : Nat) : ℚ) := by exact_mod_cast Nat.two_pow_pos sh
  rw [hy]
  unfold roundShift
  dsimp only
  split
  case isTrue h =>
    refine IsRne.ceil ((div_le_one hd).2 hlt.le) ?_
    rw [hhalf, one_lt_div hd', div_eq_one_iff_eq hd'.ne', Nat.cast_lt, Nat.cast_inj]
    omega
  case isFalse h =>
    refine IsRne.floor (by positivity) ?_
    rw [hhalf, div_lt_one hd', div_eq_one_iff_eq hd'.ne', Nat.cast_lt, Nat.cast_inj]
    omega

/-- Beside the integers, a number beyond some integer that does not pass `y` is worse. -/
theorem IsRne.nearer_below {y w : ℚ} {q : Nat} (h : IsRne y q) {j : ℤ} (hw : w < j) (hj : (j : ℚ) ≤ y) : Nearer y q q w := by
  left
  have hlt : |(j : ℚ) - y| < |w - y| := by
    rw [abs_of_nonpos (by linarith), abs_of_nonpos (by linarith)]
    linarith
  by_cases hq : j = q
  · rw [hq, Int.cast_natCast] at hlt
    exact hlt
  · rcases h j hq with h | ⟨h, -⟩
    · exact h.trans hlt
    · exact h ▸ hlt

/-- A nearest integer lies on the same side of every integer as `y`. -/
theorem IsRne.le_of_le {y : ℚ} {q n : Nat} (h : IsRne y q) (hn : y ≤ n) : q ≤ n := by
  by_contra hq
  have hq' : (n : ℚ) < q := by exact_mod_cast Nat.not_le.1 hq
  rcases h n (by exact_mod_cast (Nat.not_le.1 hq).ne) with h | ⟨h, -⟩ <;>
    rw [Int.cast_natCast, abs_of_nonneg (by linarith), abs_of_nonneg (by linarith)] at h <;> linarith

theorem IsRne.ge_of_ge {y : ℚ} {q n : Nat} (h : IsRne y q) (hn : (n : ℚ) ≤ y) : n ≤ q := by
  by_contra hq
  have hq' : (q : ℚ) < n := by exact_mod_cast Nat.not_le.1 hq
  rcases h n (by exact_mod_cast (Nat.not_le.1 hq).ne') with h | ⟨h, -⟩ <;>
    rw [Int.cast_natCast, abs_of_nonpos (by linarith), abs_of_nonpos (by linarith)] at h <;> linarith

/-- The scale of all three does not matter. -/
theorem Nearer.scale {y a w u : ℚ} {n k : Nat} (h : Nearer y a n w) (hu : 0 < u) (hk : n % 2 = 0 → k % 2 = 0) :
    Nearer (y * u) (a * u) k (w * u) := by
  unfold Nearer
  rw [← sub_mul, ← sub_mul, abs_mul, abs_mul]
  exact h.imp (fun h => mul_lt_mul_of_pos_right h (abs_pos.2 hu.ne')) fun ⟨h, he⟩ => ⟨by rw [h], hk he⟩

/-! ### Signs -/

/-- The factor that a sign stands for. -/
def ratSign (neg : Bool) : ℚ := if neg then -1 else 1

theorem ratSign_mul_self (neg : Bool) : ratSign neg * ratSign neg = 1 := by cases neg <;> norm_num [ratSign]
theorem abs_ratSign (neg : Bool) : |ratSign neg| = 1 := by cases neg <;> norm_num [ratSign]

theorem abs_ratSign_mul_sub (neg : Bool) (a y : ℚ) : |ratSign neg * a - y| = |a - ratSign neg * y| := by
  rw [← one_mul |a - ratSign neg * y|, ← abs_ratSign neg, ← abs_mul, mul_sub, ← mul_assoc, ratSign_mul_self, one_mul]

theorem ratSign_mul (s t : Bool) : ratSign s * ratSign t = ratSign (s != t) := by cases s <;> cases t <;> norm_num [ratSign]

/-- A common sign goes over to what is compared. -/
theorem Nearer.signed {neg : Bool} {y a w : ℚ} {n : Nat} (h : Nearer y a n (ratSign neg * w)) :
    Nearer (ratSign neg * y) (ratSign neg * a) n w := by
  unfold Nearer at *
  rwa [← abs_ratSign_mul_sub, ← abs_ratSign_mul_sub, ← mul_assoc, ratSign_mul_self, one_mul]

theorem Fp.rat_fin (neg : Bool) (m : Nat) (e : Int) : (Fp.fin neg m e).rat = ratSign neg * (m * (2 : ℚ) ^ e) := by
  cases neg <;> simp [Fp.rat, ratSign]

/-! ### Codes -/

variable {f : FpFmt} {m : Nat} {e : Int}

theorem two_zpow_toNat {z : Int} (h : 0 ≤ z) : (2 : ℚ) ^ z = ((2 ^ z.toNat : Nat) : ℚ) := by
  conv_lhs => rw [← Int.toNat_of_nonneg h]
  rw [zpow_natCast]
  push_cast
  rfl

/-- The last places are counted to the nearest. -/
theorem FpFmt.lastPlaces_isRne (f : FpFmt) (m : Nat) (e : Int) : IsRne (m * (2 : ℚ) ^ (e - f.ulp m e)) (f.lastPlaces .rne m e) := by
  unfold FpFmt.lastPlaces
  split
  case isTrue h =>
    rw [roundShift_rne_zero, two_zpow_toNat (sub_nonneg.2 h), ← Nat.cast_mul]
    exact .of_nat _
  case isFalse h =>
    have hr := roundShift_rne_isRne m (f.ulp m e - e).toNat
    rwa [div_eq_mul_inv, ← Nat.cast_ofNat (n := 2), ← Nat.cast_pow, ← two_zpow_toNat (by omega), ← zpow_neg, neg_sub] at hr

/-- A value is below the end of its binade, and above the smallest normal not below its start. -/
theorem FpFmt.lastPlaces_bounds (f : FpFmt) (e : Int) (hm : m ≠ 0) :
    (m : ℚ) * (2 : ℚ) ^ (e - f.ulp m e) ≤ ((2 ^ (f.mbits + 1) : Nat) : ℚ)
      ∧ (f.binade m e ≠ 0 → ((2 ^ f.mbits : Nat) : ℚ) ≤ m * (2 : ℚ) ^ (e - f.ulp m e)) := by
  obtain ⟨hlo, hhi⟩ := (Nat.log2_eq_iff hm).1 rfl
  have hlo' : (2 : ℚ) ^ ((Nat.log2 m : Int)) ≤ m := by exact_mod_cast hlo
  have hhi' : (m : ℚ) ≤ (2 : ℚ) ^ ((Nat.log2 m : Int) + 1) := by exact_mod_cast hhi.le
  unfold FpFmt.ulp FpFmt.binade
  constructor
  · calc (m : ℚ) * (2 : ℚ) ^ (e - (max (e + (Nat.log2 m : Int)) f.emin - f.mbits))
        ≤ (2 : ℚ) ^ ((Nat.log2 m : Int) + 1) * (2 : ℚ) ^ (f.mbits - (Nat.log2 m : Int)) :=
          mul_le_mul hhi' (zpow_le_zpow_right₀ one_le_two (by omega)) (by positivity) (by positivity)
      _ = ((2 ^ (f.mbits + 1) : Nat) : ℚ) := by
          rw [← zpow_add₀ two_ne_zero, two_zpow_toNat (by omega)]
          congr 2
          omega
  · intro hk
    have htop : f.emin < e + (Nat.log2 m : Int) := by omega
    calc ((2 ^ f.mbits : Nat) : ℚ) = (2 : ℚ) ^ (Nat.log2 m : Int) * (2 : ℚ) ^ (f.mbits - (Nat.log2 m : Int)) := by
          rw [← zpow_add₀ two_ne_zero, two_zpow_toNat (by omega)]
          congr 2
          omega
      _ ≤ m * (2 : ℚ) ^ (e - (max (e + (Nat.log2 m : Int)) f.emin - f.mbits)) := by
          rw [max_eq_left htop.le]
          exact mul_le_mul hlo' (zpow_le_zpow_right₀ one_le_two (by omega)) (by positivity) (by positivity)

/-- The code that rounding to nearest gives has as its magnitude the last places counted. -/
theorem FpFmt.mag_roundCode (f : FpFmt) (e : Int) (hm : m ≠ 0) :
    f.mag (f.roundCode .rne m e) = f.lastPlaces .rne m e * (2 : ℚ) ^ f.ulp m e := by
  obtain ⟨hhi, hlo⟩ := f.lastPlaces_bounds e hm
  have hq := f.lastPlaces_isRne m e
  rw [FpFmt.roundCode_of_ne _ _ hm, FpFmt.ulp_eq]
  exact FpFmt.mag_binade ((em _).imp_right fun hk => hq.ge_of_ge (hlo hk)) (hq.le_of_le hhi)

/-- In last places of a value, a code's magnitude of either sign is an integer, or lies below the start of the value's binade. -/
theorem FpFmt.mag_grid (f : FpFmt) (m : Nat) (e : Int) (neg : Bool) (c : Nat) :
    (∃ j : ℤ, ratSign neg * f.mag c = j * (2 : ℚ) ^ f.ulp m e)
      ∨ (f.binade m e ≠ 0 ∧ ratSign neg * f.mag c < ((2 ^ f.mbits : Nat) : ℤ) * (2 : ℚ) ^ f.ulp m e) := by
  by_cases hu : f.ulp m e ≤ f.expo c
  · have hmag : f.mag c = ((f.sig c * 2 ^ (f.expo c - f.ulp m e).toNat : Nat) : ℤ) * (2 : ℚ) ^ f.ulp m e := by
      unfold FpFmt.mag
      rw [Int.cast_natCast, Nat.cast_mul, ← two_zpow_toNat (by omega), mul_assoc, ← zpow_add₀ two_ne_zero, sub_add_cancel]
    left
    cases neg
    · exact ⟨_, by rw [ratSign, if_neg Bool.false_ne_true, one_mul, hmag]⟩
    · exact ⟨-_, by rw [ratSign, if_pos rfl, neg_one_mul, Int.cast_neg, neg_mul, ← hmag]⟩
  · have hk : f.binade m e ≠ 0 := fun h0 => by
      have := f.emin_le_expo c
      rw [FpFmt.ulp_eq, h0] at hu
      omega
    have hsig : (f.sig c : ℚ) < ((2 ^ (f.mbits + 1) : Nat) : ℚ) := by exact_mod_cast f.sig_lt c
    have hpos : 0 ≤ f.mag c := by unfold FpFmt.mag; positivity
    refine .inr ⟨hk, ?_⟩
    calc ratSign neg * f.mag c ≤ f.mag c := by
          refine (le_abs_self _).trans_eq ?_
          rw [abs_mul, abs_ratSign, one_mul, abs_of_nonneg hpos]
      _ < ((2 ^ (f.mbits + 1) : Nat) : ℚ) * (2 : ℚ) ^ f.expo c := by
          unfold FpFmt.mag
          gcongr
      _ ≤ ((2 ^ (f.mbits + 1) : Nat) : ℚ) * (2 : ℚ) ^ (f.ulp m e - 1) := by
          gcongr
          · norm_num
          · omega
      _ = ((2 ^ f.mbits : Nat) : ℤ) * (2 : ℚ) ^ f.ulp m e := by
          rw [zpow_sub_one₀ two_ne_zero]
          push_cast
          ring

theorem FpFmt.mag_zero (f : FpFmt) : f.mag 0 = 0 := by simp [FpFmt.mag, FpFmt.sig]

/-- Of the codes of either sign, the one that rounding to nearest gives is the nearest, at a tie the even one. -/
theorem FpFmt.roundCode_nearer (hf : 0 < f.mbits) (m : Nat) (e : Int) (neg : Bool) (c : Nat)
    (hne : ratSign neg * f.mag c ≠ f.mag (f.roundCode .rne m e)) :
    Nearer (m * (2 : ℚ) ^ e) (f.mag (f.roundCode .rne m e)) (f.roundCode .rne m e) (ratSign neg * f.mag c) := by
  by_cases hm : m = 0
  · rw [hm, FpFmt.roundCode_rne_zero, FpFmt.mag_zero] at hne ⊢
    rw [Nat.cast_zero, zero_mul]
    exact .inl (by rwa [sub_zero, sub_zero, abs_zero, abs_pos])
  have hu : (0 : ℚ) < (2 : ℚ) ^ f.ulp m e := by positivity
  have hq := f.lastPlaces_isRne m e
  have hy : (m : ℚ) * (2 : ℚ) ^ e = m * (2 : ℚ) ^ (e - f.ulp m e) * (2 : ℚ) ^ f.ulp m e := by
    rw [mul_assoc, ← zpow_add₀ two_ne_zero, sub_add_cancel]
  have heven : f.lastPlaces .rne m e % 2 = 0 → f.roundCode .rne m e % 2 = 0 := fun h => by
    obtain ⟨k, hk⟩ := Nat.exists_eq_succ_of_ne_zero hf.ne'
    rw [FpFmt.roundCode_of_ne _ _ hm, hk, Nat.pow_succ, ← Nat.mul_assoc]
    omega
  have hw : ratSign neg * f.mag c = ratSign neg * f.mag c / (2 : ℚ) ^ f.ulp m e * (2 : ℚ) ^ f.ulp m e :=
    (div_mul_cancel₀ _ hu.ne').symm
  rw [f.mag_roundCode e hm] at hne ⊢
  rw [hy, hw]
  refine Nearer.scale ?_ hu heven
  rcases f.mag_grid m e neg c with ⟨j, hj⟩ | ⟨hk, hlt⟩
  · rw [hj, mul_div_cancel_right₀ _ hu.ne']
    refine hq j fun h => hne ?_
    rw [hj, h, Int.cast_natCast]
  · exact hq.nearer_below ((div_lt_iff₀ hu).2 hlt) ((f.lastPlaces_bounds e hm).2 hk)

/-! ### FP32 -/

theorem fp32_signed_false (c : Nat) : fp32.signed false c = c := rfl
theorem fp32_signed_true (c : Nat) : fp32.signed true c = 2 ^ 31 + c := rfl

theorem fp32_signed_mod_two (neg : Bool) (c : Nat) : fp32.signed neg c % 2 = c % 2 := by
  cases neg
  · rw [fp32_signed_false]
  · rw [fp32_signed_true]
    omega

theorem fp32_signed_lt (neg : Bool) {c : Nat} (hc : c < 2 ^ 31) : fp32.signed neg c < 2 ^ 32 := by
  cases neg
  · rw [fp32_signed_false]
    omega
  · rw [fp32_signed_true]
    omega

theorem fp32_signed_msb (neg : Bool) {c : Nat} (hc : c < 2 ^ 31) : decide (2 ^ 31 ≤ fp32.signed neg c) = neg := by
  cases neg
  · exact decide_eq_false (Nat.not_le.2 hc)
  · exact decide_eq_true (Nat.le_add_right _ _)

/-- A value whose rounding to FP32 is finite: the pattern is the sign and the rounded code. -/
theorem rn32_toNat {neg : Bool} (h : (val32 (rn32 (.fin neg m e))).isFin = true) :
    fp32.roundCode .rne m e ≤ fp32.maxFin ∧ (rn32 (.fin neg m e)).toNat = fp32.signed neg (fp32.roundCode .rne m e) := by
  by_cases hc : fp32.roundCode .rne m e ≤ fp32.maxFin
  · refine ⟨hc, ?_⟩
    rw [rn32, FpFmt.write_fin_of_le hc, BitVec.toNat_ofNat, Nat.mod_eq_of_lt (fp32_signed_lt neg (hc.trans_lt (by decide)))]
  · exfalso
    have hw : rn32 (.fin neg m e) = BitVec.ofNat 32 (fp32.signed neg fp32.infC) := by
      rw [rn32, FpFmt.write]
      dsimp only
      rw [if_neg hc]
      rfl
    rw [hw] at h
    revert h
    cases neg <;> decide

theorem val32_rat_of_isFin {x : Word} (h : (val32 x).isFin = true) :
    (val32 x).rat = ratSign (bitAt x.toNat 31) * fp32.mag (x.toNat % 2 ^ 31) := by
  rw [val32, FpFmt.decode_of_le (FpFmt.le_maxFin_of_isFin h), Fp.rat_fin]
  rfl

theorem rn32_rat {neg : Bool} (h : (val32 (rn32 (.fin neg m e))).isFin = true) :
    (val32 (rn32 (.fin neg m e))).rat = ratSign neg * fp32.mag (fp32.roundCode .rne m e) := by
  obtain ⟨hc, hn⟩ := rn32_toNat h
  have hlt : fp32.roundCode .rne m e < 2 ^ (fp32.mbits + fp32.ebits) := hc.trans_lt (by decide)
  rw [val32_rat_of_isFin h, hn]
  exact congrArg₂ (fun s c => ratSign s * fp32.mag c) (FpFmt.bitAt_signed neg hlt) (FpFmt.signed_mod neg hlt)

theorem rn32_msb {neg : Bool} (h : (val32 (rn32 (.fin neg m e))).isFin = true) : (rn32 (.fin neg m e)).msb = neg := by
  obtain ⟨hc, hn⟩ := rn32_toNat h
  rw [BitVec.msb_eq_decide, hn]
  exact fp32_signed_msb neg (hc.trans_lt (by decide))

/-- A value's rounding to FP32, where finite, against another finite pattern. -/
theorem rn32_nearer {neg : Bool} {x : Word} (h : (val32 (rn32 (.fin neg m e))).isFin = true) (hx : (val32 x).isFin = true)
    (hne : (val32 x).rat ≠ (val32 (rn32 (.fin neg m e))).rat) :
    Nearer (Fp.fin neg m e).rat (val32 (rn32 (.fin neg m e))).rat (rn32 (.fin neg m e)).toNat (val32 x).rat := by
  obtain ⟨-, hn⟩ := rn32_toNat h
  rw [rn32_rat h, val32_rat_of_isFin hx] at hne ⊢
  rw [Fp.rat_fin]
  have hne' : ratSign neg * (ratSign (bitAt x.toNat 31) * fp32.mag (x.toNat % 2 ^ 31)) ≠ fp32.mag (fp32.roundCode .rne m e) :=
    fun h => hne (by rw [← h, ← mul_assoc, ratSign_mul_self, one_mul])
  rw [← mul_assoc, ratSign_mul] at hne'
  refine Nearer.signed ?_
  rw [← mul_assoc, ratSign_mul]
  exact (FpFmt.roundCode_nearer (by decide) m e _ _ hne').imp_right fun ⟨heq, heven⟩ =>
    ⟨heq, by rw [hn, fp32_signed_mod_two, heven]⟩

end Sys2Proof.Machine

open Sys2Proof.Machine

/-- Settles O23: on the grid of the value's last place rounding is to the nearest integer, and no code off the grid is nearer
(`FpFmt.roundCode_nearer`). -/
theorem roundsToNearestEven : Obligations.RoundsToNearestEven := by
  intro neg m e x h hx
  by_cases hne : (val32 x).rat = (val32 (rn32 (.fin neg m e))).rat
  · rw [hne]
    exact ⟨le_refl _, fun _ hne => absurd rfl hne, rn32_msb h⟩
  · rcases rn32_nearer h hx hne with hlt | ⟨heq, heven⟩
    · exact ⟨hlt.le, fun heq => absurd heq hlt.ne, rn32_msb h⟩
    · exact ⟨heq.le, fun _ _ => heven, rn32_msb h⟩

end

section
/-! The vector row (R90–R93, R98, R180): what writing a destination leaves, and one instruction that writes its destination. -/

namespace Sys2Proof.Machine

variable {s : State} {core : CoreId} {o : VecOps}

/-! ### Destinations (R91, R180) -/

theorem Core.setDst_frame (c : Core) (o : VecOps) (mask : Nat → Bool) (f : Nat → Word) :
    c.setDst o mask f = { c with vreg := (c.setDst o mask f).vreg, sreg := (c.setDst o mask f).sreg } := by
  unfold Core.setDst
  dsimp only
  split_ifs <;> rfl

/-- A V destination: the lanes of the mask, and no other. -/
theorem Core.setDst_vector (c : Core) (mask : Nat → Bool) (f : Nat → Word) (hd : o.ds = false) :
    (c.setDst o mask f).sreg = c.sreg ∧ ∀ r l, l < 512 → (c.setDst o mask f).vreg.get (r * 512 + l)
      = if r = o.dst.toNat ∧ mask l then f l else c.vreg.get (r * 512 + l) := by
  unfold Core.setDst
  rw [if_neg (by simp [hd])]
  refine ⟨rfl, fun r l hl => ?_⟩
  dsimp only
  rw [Tab.get_fill]
  by_cases hr : r = o.dst.toNat
  · rw [hr, if_pos (by omega), Nat.add_sub_cancel_left]
    simp only [true_and]
  · rw [if_neg (by omega), if_neg (fun h => hr h.1)]

/-- An S destination: the value of all 512 lanes; with no lane to take, what it held. -/
theorem Core.setDst_scalar (c : Core) (mask : Nat → Bool) (f : Nat → Word) (hd : o.ds = true) :
    (c.setDst o mask f).vreg = c.vreg ∧ (∀ r, r ≠ o.dst.toNat → (c.setDst o mask f).sreg.get r = c.sreg.get r)
      ∧ ((∀ l, l < 512 → mask l = true ∧ f l = f 0) → (c.setDst o mask f).sreg.get o.dst.toNat = f 0)
      ∧ ((∀ l, l < 512 → mask l = false) → (c.setDst o mask f).sreg.get o.dst.toNat = c.sreg.get o.dst.toNat) := by
  have hnone : (∀ l, l < 512 → mask l = false) → ((List.range 512).filter mask).isEmpty = true := fun h => by
    rw [List.isEmpty_iff, List.filter_eq_nil_iff]
    exact fun l hl => by simp [h l (List.mem_range.1 hl)]
  have hall : (∀ l, l < 512 → mask l = true ∧ f l = f 0) → (List.range 512).filter mask = List.range 512 := fun h =>
    List.filter_eq_self.2 fun l hl => (h l (List.mem_range.1 hl)).1
  unfold Core.setDst
  rw [if_pos hd]
  dsimp only
  refine ⟨by split_ifs <;> rfl, fun r hr => ?_, fun h => ?_, fun h => by rw [if_pos (hnone h)]⟩
  · split_ifs
    · rfl
    · exact Tab.get_set_of_ne _ _ hr
    · exact Tab.get_set_of_ne _ _ hr
  · have hne : ¬ (List.range 512).isEmpty = true := by rw [List.isEmpty_iff, List.range_eq_nil]; decide
    have heq : ((List.range 512).all fun l => f l == f 0) = true :=
      List.all_eq_true.2 fun l hl => by simp [(h l (List.mem_range.1 hl)).2]
    rw [hall h, if_neg hne, if_pos ⟨List.length_range, heq⟩]
    exact Tab.get_set_self ..

/-! ### One instruction (R98, R180) -/

theorem vecRow_of_ok {step : VecStep} {t : State} (h : step (vecEnv s core) (s.count (0x3060 + core) 1 64 1) = .ok t) :
    vecRow core step s = t := by
  have hi : vecIssue step (vecEnv s core) s = .ok t := h
  unfold vecRow
  rw [hi]

/-- The state after an instruction that writes `f` to the lanes of `mask` of its destination. -/
def State.vecWrote (s : State) (core : Nat) (o : VecOps) (mask : Nat → Bool) (f : Nat → Word) : State :=
  (s.count (0x3060 + core) 1 64 1).setCore core ((s.core core).setDst o mask f)

variable (s core o) (mask : Nat → Bool) (f : Nat → Word)

theorem State.vecWrote_obj (i k : Nat) : (s.vecWrote core o mask f).obj i k = (s.count (0x3060 + core) 1 64 1).obj i k :=
  State.setCore_obj ..

theorem State.vecWrote_counted : VecCounted s (s.vecWrote core o mask f) core :=
  ⟨(State.vecWrote_obj ..).trans (State.count_obj_self ..), fun _ hd => State.setCore_core_ne _ _ _ _ hd, rfl, rfl, rfl⟩

theorem State.vecWrote_onlyVregs : OnlyVregs s (s.vecWrote core o mask f) core := by
  unfold OnlyVregs State.vecWrote
  rw [State.setCore_core_self]
  exact Core.setDst_frame ..

theorem State.vecWrote_dstWritten : DstWritten s (s.vecWrote core o mask f) core o mask f := by
  unfold DstWritten State.vecWrote
  rw [State.setCore_core_self]
  exact ⟨Core.setDst_vector _ mask f, Core.setDst_scalar _ mask f⟩

end Sys2Proof.Machine

end

section
/-! CVT (R92, R93): rounding to a format, and conversion between FP32 and I32. -/

namespace Sys2Proof.Machine

variable {s : State} {core : CoreId} {o : VecOps}

/-- What a lane of CVT holds after rounding to the format of its word. -/
def roundedTo (w : FmtWord) (a : Word) : Word := rn32 ((elemFmt w.fmt).decode ((elemFmt w.fmt).write (rndOf w.rnd 0) w.sat (val32 a)).code)

theorem need_of_true {c : Bool} {e : Stop} (h : c = true) : need c e = .ok () := if_pos h

theorem execCvt_round (hok : (fmtWord o.imm.toNat).ok false = true) (h0 : (fmtWord o.imm.toNat).fmt ≠ 0)
    (h3 : (fmtWord o.imm.toNat).fmt ≤ 3) (hr : (fmtWord o.imm.toNat).rnd ≠ 2) :
    exec (.vCvt core o) s = .next (s.vecWrote core o ((s.core core).active o.flg)
      fun l => roundedTo (fmtWord o.imm.toNat) ((s.core core).src o.src1 l)) := by
  refine congrArg Host.Outcome.next (vecRow_of_ok ?_)
  unfold stepCvt
  dsimp only
  rw [need_of_true (by rw [hok, decide_eq_true h3]; rfl), if_neg h0, if_neg hr]
  rfl

/-- FMT FP32: one way for all lanes, which the spec does not give (log 17). -/
theorem execCvt_int (hok : (fmtWord o.imm.toNat).ok false = true) (h0 : (fmtWord o.imm.toNat).fmt = 0) :
    ∃ g, (g = cvtI32 ∨ g = cvtFromI32) ∧ exec (.vCvt core o) s
      = .next (s.vecWrote core o ((s.core core).active o.flg) fun l => g ((s.core core).src o.src1 l)) := by
  refine ⟨if Config.cvtToInt (vecBits o) then cvtI32 else cvtFromI32, ite_eq_or_eq .., congrArg Host.Outcome.next (vecRow_of_ok ?_)⟩
  unfold stepCvt
  dsimp only
  rw [need_of_true (by rw [hok, h0]; rfl), if_pos h0]
  rfl

end Sys2Proof.Machine

open Sys2Proof.Machine

/-- Settles O19: CVT writes its destination once, with the rounded values or with one of the two conversions. -/
theorem vectorConvertRounds : Obligations.VectorConvertRounds := by
  refine fun core o s hok => ⟨fun h1 h3 hr => ?_, fun h0 => ?_⟩
  · exact ⟨_, execCvt_round hok (by omega) h3 hr, State.vecWrote_counted .., State.vecWrote_onlyVregs ..,
      State.vecWrote_dstWritten ..⟩
  · obtain ⟨g, hg, he⟩ := execCvt_int (core := core) (s := s) hok h0
    refine ⟨_, he, State.vecWrote_counted .., State.vecWrote_onlyVregs .., ?_⟩
    rcases hg with rfl | rfl
    · exact .inl (State.vecWrote_dstWritten ..)
    · exact .inr (State.vecWrote_dstWritten ..)

end

section
/-! A command that issues (R170, R212): who issues it, and what counting and passing it changes. -/

namespace Sys2Proof.Machine

variable {s u : State} {core : CoreId} {ctx : CtxId} {op : Nat} {e : Env}

/-! ### Registers and cores -/

/-- Of the state only registers and cores have changed. -/
def OnlyRegsCores (s u : State) : Prop := u = { s with objs := u.objs, cores := u.cores }

theorem OnlyRegsCores.trans {t : State} (h : OnlyRegsCores s t) (g : OnlyRegsCores t u) : OnlyRegsCores s u :=
  Eq.trans g (congrArg (fun x : State => { x with objs := u.objs, cores := u.cores }) h)

theorem OnlyRegsCores.mem (h : OnlyRegsCores s u) : u.mem = s.mem := Eq.trans (congrArg State.mem h) rfl
theorem OnlyRegsCores.redirects (h : OnlyRegsCores s u) : u.redirects = s.redirects := Eq.trans (congrArg State.redirects h) rfl
theorem OnlyRegsCores.freeCtr (h : OnlyRegsCores s u) : u.freeCtr = s.freeCtr := Eq.trans (congrArg State.freeCtr h) rfl

theorem State.setObj_onlyRegsCores (s : State) (i k v : Nat) : OnlyRegsCores s (s.setObj i k v) := rfl
theorem State.setCore_onlyRegsCores (s : State) (n : Nat) (c : Core) : OnlyRegsCores s (s.setCore n c) := rfl

theorem SameObjs.of_obj {t : State} (h : ∀ i k, t.obj i k = s.obj i k) : SameObjs s t [] := fun i k _ _ => h i k

theorem SameObjs.mono {t : State} {l m : List (Nat × Nat)} (h : SameObjs s t l) (hl : ∀ x ∈ l, x ∈ m) : SameObjs s t m :=
  fun i k hk hn => h i k hk fun hx => hn (hl _ hx)

/-! ### Issuing -/

/-- The command at the head of a context is issued by that context of that core, at the context's pointer. -/
theorem AtHead.env (h : AtHead s core ctx op e) : e.core = core ∧ e.ctx = ctx ∧ e.idx = ((s.core core).ctxs.get ctx).ptr := by
  obtain ⟨h, -⟩ := h
  unfold State.headEnv at h
  dsimp only at h
  split at h
  · split at h
    · cases h
      exact ⟨rfl, rfl, rfl⟩
    · cases h
  · cases h

theorem State.issued_core_self (u : State) (e : Env) :
    (u.issued e).core e.core = { u.core e.core with
      ctxs := (u.core e.core).ctxs.modify e.ctx fun q => { q with ptr := e.idx + 1 }
      rerunLeft := (u.core e.core).rerunLeft.filter (· != e.ctx * 2 ^ 18 + e.idx) } := State.setCore_core_self ..

theorem State.issued_core_ne (u : State) (e : Env) {d : Nat} (h : d ≠ e.core) : (u.issued e).core d = u.core d :=
  State.setCore_core_ne _ _ _ _ h

theorem State.issued_held (u : State) (e : Env) (d : Nat) : ((u.issued e).core d).held = (u.core d).held := by
  by_cases h : d = e.core
  · rw [h, State.issued_core_self]
  · rw [State.issued_core_ne u e h]

theorem State.issued_obj (u : State) (e : Env) (i k : Nat) : (u.issued e).obj i k = (u.count (0x3010 + e.core) 7 64 1).obj i k := rfl

theorem State.issued_onlyRegsCores (u : State) (e : Env) : OnlyRegsCores u (u.issued e) :=
  (State.setObj_onlyRegsCores u _ _ _).trans (State.setCore_onlyRegsCores ..)

theorem State.issued_sameObjs (u : State) (e : Env) : SameObjs u (u.issued e) [(0x3010 + e.core, 7)] :=
  State.setObj_sameObjs (s := u) (by decide)

/-- Noting a write marks the context; starting writes marks the destinations and lists the command (R173, R191). -/
theorem State.noteWrite_core_self (u : State) (e : Env) :
    (u.noteWrite e).core e.core = { u.core e.core with
      ctxs := (u.core e.core).ctxs.modify e.ctx fun q => { q with unfenced := 0b1111 } } := State.setCore_core_self ..

theorem State.startWrites_core_self (u : State) (e : Env) (l : List Nat) (b : Bool) :
    (u.startWrites e l b).core e.core = { u.core e.core with
      slots := l.foldl (fun t d => t.modify (slotKey e.ctx d) fun x => { x with st := .writing }) (u.core e.core).slots
      outst := (u.core e.core).outst ++ l.map fun d => ⟨e.ctx, e.idx, slotKey e.ctx d, none, b⟩ } := State.setCore_core_self ..

theorem State.noteWrite_core_ne (u : State) (e : Env) {d : Nat} (h : d ≠ e.core) : (u.noteWrite e).core d = u.core d :=
  State.setCore_core_ne _ _ _ _ h
theorem State.startWrites_core_ne (u : State) (e : Env) (l : List Nat) (b : Bool) {d : Nat} (h : d ≠ e.core) :
    (u.startWrites e l b).core d = u.core d := State.setCore_core_ne _ _ _ _ h

@[simp] theorem State.noteWrite_obj (u : State) (e : Env) (i k : Nat) : (u.noteWrite e).obj i k = u.obj i k := State.setCore_obj ..
@[simp] theorem State.startWrites_obj (u : State) (e : Env) (l : List Nat) (b : Bool) (i k : Nat) :
    (u.startWrites e l b).obj i k = u.obj i k := State.setCore_obj ..

/-- A command whose effect leaves the count of commands alone is counted once. -/
theorem AtHead.issued (h : AtHead s core ctx op e) (ho : u.obj (0x3010 + core) 7 = s.obj (0x3010 + core) 7) :
    Issued s (u.issued e) core ctx := by
  obtain ⟨hc, hx, hi⟩ := h.env
  refine ⟨?_, ?_⟩
  · rw [← hc, State.issued_core_self, ← hx, Tab.get_modify_self, hi, hc, hx]
  · rw [State.issued_obj, hc, State.count_obj_self, ho]

end Sys2Proof.Machine

end

section
/-! MATMUL (R55–R58, R69, R77, R176, R177): what a pass that issues changes, and what its accumulator set holds. -/

namespace Sys2Proof.Machine

variable {s t : State} {e : Env} {o : MatOps} {a : MatArgs}

/-! ### Operands read alike where the bytes do -/

theorem State.fetchNat_congr (h : t.fetchByte = s.fetchByte) : t.fetchNat = s.fetchNat := by
  funext x n
  rw [State.fetchNat, State.fetchNat, h]

theorem Tensor.value_congr (h : t.fetchByte = s.fetchByte) (d : Tensor) : d.value t = d.value s := by
  funext r c
  unfold Tensor.value Tensor.planesAt Tensor.mxCode
  rw [State.fetchNat_congr h, h]

theorem Walk.input_congr (h : t.fetchByte = s.fetchByte) (w : Walk) : w.input t = w.input s := by
  funext d m ky kx ch
  unfold Walk.input
  rw [State.fetchNat_congr h]

theorem actValue_congr (h : t.fetchByte = s.fetchByte) (o : MatOps) (a : MatArgs) : actValue t o a = actValue s o a := by
  funext r k
  simp only [actValue, Walk.input_congr h, Tensor.value_congr h]

/-! ### Loading the panel (R69) -/

theorem loadPanel_core_ne (s : State) (e : Env) (o : MatOps) (a : MatArgs) {d : Nat} (h : d ≠ e.core) :
    (loadPanel s e o a).core d = s.core d := by
  unfold loadPanel
  dsimp only
  split
  · rfl
  · exact State.setCore_core_ne _ _ _ _ h

theorem loadPanel_core (s : State) (e : Env) (o : MatOps) (a : MatArgs) :
    (loadPanel s e o a).core e.core = { s.core e.core with
      panel0 := ((loadPanel s e o a).core e.core).panel0, pdata0 := ((loadPanel s e o a).core e.core).pdata0
      panel1 := ((loadPanel s e o a).core e.core).panel1, pdata1 := ((loadPanel s e o a).core e.core).pdata1 } := by
  unfold loadPanel
  dsimp only
  split
  · rfl
  · rw [State.setCore_core_self]
    split <;> rfl

theorem loadPanel_onlyRegsCores (s : State) (e : Env) (o : MatOps) (a : MatArgs) : OnlyRegsCores s (loadPanel s e o a) := by
  unfold loadPanel
  dsimp only
  split
  · rfl
  · exact State.setCore_onlyRegsCores ..

theorem loadPanel_obj (s : State) (e : Env) (o : MatOps) (a : MatArgs) (i k : Nat) : (loadPanel s e o a).obj i k = s.obj i k := by
  unfold loadPanel
  dsimp only
  split
  · rfl
  · exact State.setCore_obj ..

theorem loadPanel_held (s : State) (e : Env) (o : MatOps) (a : MatArgs) (d : Nat) :
    ((loadPanel s e o a).core d).held = (s.core d).held := by
  by_cases h : d = e.core
  · rw [h, loadPanel_core]
  · rw [loadPanel_core_ne s e o a h]

/-- The panel store is no memory. -/
theorem loadPanel_fetchByte (s : State) (e : Env) (o : MatOps) (a : MatArgs) : (loadPanel s e o a).fetchByte = s.fetchByte := by
  have h := loadPanel_onlyRegsCores s e o a
  have hr : ∀ x, (loadPanel s e o a).rawByte x = s.rawByte x := fun x =>
    State.rawByte_congr h.mem (loadPanel_held s e o a) x
  funext x
  simp only [State.fetchByte, State.byteAt, hr, loadPanel_obj, h.redirects, h.freeCtr]

/-! ### The pass -/

/-- The accumulator set that a pass adds to. -/
def Core.accOf (c : Core) (acc : Bool) : WordTab := if acc then c.acc1 else c.acc0

/-- What an element of the accumulator set holds before the first K block (R88, R176). -/
def passStart (s : State) (o : MatOps) (a : MatArgs) (old : WordTab) (r c : Nat) : Word :=
  match o.init with
  | 0 => 0
  | 1 => old.get (r * 64 + c)
  | _ => match a.load with
    | some l => if r < l.rows ∧ c < l.cols then BitVec.ofNat 32 (s.fetchNat (l.codeAddr r c) 4) else 0
    | none => 0

theorem passStart_eq (s : State) (o : MatOps) (a : MatArgs) (old : WordTab) (r c : Nat) :
    passStart s o a old r c = if o.init = 0 then 0 else if o.init = 1 then old.get (r * 64 + c)
      else match a.load with
        | some l => if r < l.rows ∧ c < l.cols then BitVec.ofNat 32 (s.fetchNat (l.codeAddr r c) 4) else 0
        | none => 0 := by
  unfold passStart
  split
  case h_1 h0 => rw [if_pos h0]
  case h_2 h1 => rw [h1, if_neg (by decide), if_pos rfl]
  case h_3 h0 h1 => exact ((if_neg h0).trans (if_neg h1)).symm

/-- A pass whose operands are as in `s`: the panel store is read where the pass finds it, everything else from memory. -/
theorem passResult_at (h : t.fetchByte = s.fetchByte) (old : WordTab) {r c : Nat} (hc : c < 64) :
    passResult t e o a old (r * 64 + c) =
      if rowActive o a r ∧ c < o.n then
        cellSum (passStart s o a old r c) o.k fun k =>
          (if a.panel then panelValue t e o a r k else actValue s o a r k).map fun x =>
            x.mul ((a.wgts.getD (if o.split ∧ !o.shw then r / 64 else 0) (tensorOf 0)).value s k c)
      else passStart s o a old r c := by
  have hr : (r * 64 + c) / 64 = r := by omega
  have hm : (r * 64 + c) % 64 = c := by omega
  simp only [passResult, hr, hm, Bool.and_eq_true, decide_eq_true_eq, actValue_congr h, Tensor.value_congr h, State.fetchNat_congr h]
  rfl

/-- The accumulator set of a pass, beside the rest of its core. -/
theorem matEffect_core (s : State) (e : Env) (o : MatOps) (a : MatArgs) :
    (matEffect s e o a).core e.core =
      (let c := (loadPanel s e o a).core e.core
       let new : WordTab := Tab.empty.fill 0 32768 (passResult (loadPanel s e o a) e o a ((s.core e.core).accOf o.acc))
       if o.acc then { c with acc1 := new, undrained1 := some e.ctx, mqCtx := some e.ctx }
       else { c with acc0 := new, undrained0 := some e.ctx, mqCtx := some e.ctx }) := by
  have hold : (s.core e.core).accOf o.acc = if o.acc then ((loadPanel s e o a).core e.core).acc1
      else ((loadPanel s e o a).core e.core).acc0 := by
    rw [loadPanel_core]
    rfl
  rw [hold]
  exact State.setCore_core_self ..

theorem matEffect_core_ne (s : State) (e : Env) (o : MatOps) (a : MatArgs) {d : Nat} (h : d ≠ e.core) :
    (matEffect s e o a).core d = s.core d :=
  (State.setCore_core_ne _ _ _ _ h).trans (loadPanel_core_ne s e o a h)

theorem matEffect_onlyRegsCores (s : State) (e : Env) (o : MatOps) (a : MatArgs) : OnlyRegsCores s (matEffect s e o a) :=
  ((((loadPanel_onlyRegsCores s e o a).trans (State.setCore_onlyRegsCores ..)).trans (State.setObj_onlyRegsCores ..)).trans
    (State.setObj_onlyRegsCores ..)).trans (State.setObj_onlyRegsCores ..)

/-- A pass counts its K groups, its products and its feed conflicts (R89). -/
theorem matEffect_objs (s : State) (e : Env) (o : MatOps) (a : MatArgs) :
    SameObjs s (matEffect s e o a) [(0x3040 + e.core, 1), (0x3040 + e.core, 2), (0x3040 + e.core, 3)]
      ∧ (matEffect s e o a).obj (0x3040 + e.core) 1 = counterAt 64 (s.obj (0x3040 + e.core) 1 + kGroups o a) := by
  unfold matEffect
  dsimp only
  generalize hu : (loadPanel s e o a).setCore e.core _ = u
  have huo : ∀ i k, u.obj i k = s.obj i k := fun i k => by rw [← hu, State.setCore_obj, loadPanel_obj]
  simp only [State.count_eq, State.countSat_eq]
  refine ⟨((SameObjs.of_obj huo).append (State.setObj_sameObjs (by decide))).append (State.setObj_sameObjs (by decide)) |>.append
    (State.setObj_sameObjs (by decide)), ?_⟩
  rw [State.setObj_obj_ne _ _ _ _ _ _ (by decide) (by decide) (by simp), State.setObj_obj_ne _ _ _ _ _ _ (by decide) (by decide) (by simp),
    State.setObj_obj_self, huo]

/-- A set of the core other than the pass's, what marks it undrained, and the vector row. -/
theorem matEffect_core_fields (s : State) (e : Env) (o : MatOps) (a : MatArgs) :
    ((matEffect s e o a).core e.core).accOf o.acc
        = Tab.empty.fill 0 32768 (passResult (loadPanel s e o a) e o a ((s.core e.core).accOf o.acc))
      ∧ (if o.acc then ((matEffect s e o a).core e.core).acc0 = (s.core e.core).acc0
            ∧ ((matEffect s e o a).core e.core).undrained1 = some e.ctx
          else ((matEffect s e o a).core e.core).acc1 = (s.core e.core).acc1
            ∧ ((matEffect s e o a).core e.core).undrained0 = some e.ctx)
      ∧ ((matEffect s e o a).core e.core).mqCtx = some e.ctx
      ∧ ((matEffect s e o a).core e.core).vreg = (s.core e.core).vreg := by
  rw [matEffect_core, loadPanel_core]
  dsimp only
  generalize (Tab.empty.fill 0 32768 (passResult _ _ _ _ _) : WordTab) = new
  cases o.acc <;> exact ⟨rfl, ⟨rfl, rfl⟩, rfl, rfl⟩

theorem runMatmul_of_check {a : MatArgs} (hc : matCheck s e (matOps e) = .ok a) (hf : arrayFree s e = true) :
    runMatmul e s = .ok (matEffect s e (matOps e) a) := by
  unfold runMatmul
  rw [hc]
  exact if_pos hf

end Sys2Proof.Machine

open Sys2Proof.Machine

/-- Settles O14: the state after the pass is `matEffect` and one command counted; its accumulator set is filled with `passResult`,
which reads the operands as they were before the panel was loaded. -/
theorem matmulAccumulatesBlocks : Obligations.MatmulAccumulatesBlocks := by
  intro core ctx e a s hat hchk hfree
  obtain ⟨hc, hx, -⟩ := hat.env
  obtain ⟨hacc, hother, hmq, hvreg⟩ := matEffect_core_fields s e (matOps e) a
  obtain ⟨hobjs, hgroups⟩ := matEffect_objs s e (matOps e) a
  have hframe := (matEffect_onlyRegsCores s e (matOps e) a).trans (State.issued_onlyRegsCores _ e)
  have hcore := State.issued_core_self (matEffect s e (matOps e) a) e
  rw [hc] at hacc hother hmq hvreg hobjs hgroups hcore
  rw [hx] at hother hmq
  refine ⟨(matEffect s e (matOps e) a).issued e, congrArg Host.Outcome.next (issue_of_ok hat (runMatmul_of_check hchk hfree)),
    hat.issued (hobjs _ _ (by decide) (by simp)), fun r c hr hcc => ?cell, ?other, ?mq, hframe.mem, ?vreg, fun d hd => ?cores, hframe,
    ?objs, ?groups⟩
  case cell =>
    have hcell := congrArg (fun x : WordTab => x.get (r * 64 + c)) hacc
    rw [Tab.get_fill_of_mem _ _ _ _ _ (Nat.zero_le _) (by omega), Nat.sub_zero,
      passResult_at (loadPanel_fetchByte s e (matOps e) a) _ hcc, passStart_eq] at hcell
    rw [hcore]
    exact hcell
  case other => rw [hcore]; exact hother
  case mq => rw [hcore]; exact hmq
  case vreg => rw [hcore]; exact hvreg
  case cores => rw [State.issued_core_ne _ _ (by rwa [hc]), matEffect_core_ne _ _ _ _ (by rwa [hc])]
  case objs =>
    have h := hobjs.append (State.issued_sameObjs (matEffect s e (matOps e) a) e)
    rw [hc] at h
    exact h.mono (by simp)
  case groups => rw [State.issued_sameObjs _ _ _ _ (by decide) (by simp), hgroups]

end

section
/-! DRAIN (R59, R60, R64, R178): what a command's store leaves alone, and the state after a drain that takes no draws. -/

namespace Sys2Proof.Machine

variable {s t u : State} {e : Env}

/-! ### A command's store (R127, R129) -/

/-- From `s` to `t` the cores differ in their holding buffers alone, and no register below those of the scratchpads has changed. -/
structure HeldOnly (s t : State) : Prop where
  core      : ∀ d, t.core d = { s.core d with held := (t.core d).held }
  obj       : ∀ i k, i < 0x3400 → k < 256 → t.obj i k = s.obj i k
  redirects : t.redirects = s.redirects

theorem HeldOnly.refl (s : State) : HeldOnly s s := ⟨fun _ => rfl, fun _ _ _ _ => rfl, rfl⟩

theorem HeldOnly.trans (h : HeldOnly s t) (g : HeldOnly t u) : HeldOnly s u where
  core d := by rw [g.core d, h.core d]
  obj i k hi hk := (g.obj i k hi hk).trans (h.obj i k hi hk)
  redirects := g.redirects.trans h.redirects

theorem State.setHeld_heldOnly (s : State) (n : Nat) (l : List HeldWord) : HeldOnly s (s.setHeld n l) where
  core d := by
    unfold State.setHeld
    rw [State.setObj_core, State.setCore_core_eq]
    split
    · next h => rw [h]
    · rfl
  obj i k hi hk := State.setObj_obj_ne _ _ _ _ _ _ (by decide) hk fun h => by
    have := (Prod.mk.inj h).1
    omega
  redirects := rfl

theorem State.portWrites_heldOnly (s : State) (c n : Nat) : HeldOnly s (s.portWrites c n) := by
  unfold State.portWrites
  split
  · exact .refl s
  · exact ⟨fun _ => rfl, fun i k hi hk => State.setObj_obj_ne _ _ _ _ _ _ (by decide) hk fun h => by
      have := (Prod.mk.inj h).1
      omega, rfl⟩

theorem State.flushHeld_heldOnly (s : State) (c w v : Nat) : HeldOnly s (s.flushHeld c w v) := by
  unfold State.flushHeld
  dsimp only
  split
  · exact .refl s
  · have hm : HeldOnly s { s with mem := putHeld c s.mem ((s.core c).held.filter (sameBanks w v)) } :=
      ⟨fun _ => rfl, fun _ _ _ _ => rfl, rfl⟩
    exact (hm.trans (State.setHeld_heldOnly ..)).trans (State.portWrites_heldOnly ..)

theorem storeCells_heldOnly (s : State) (l : Cells) : HeldOnly s (storeCells s l) := by
  unfold storeCells
  dsimp only
  refine HeldOnly.trans (t := l.foldl (fun s c => if c.1 < 0x80000000 then
    s.flushHeld (c.1 / 0x8000000) (c.1 % 0x8000000 / 64) (c.1 % 0x8000000 / 64) else s) s) ?_ ⟨fun _ => rfl, fun _ _ _ _ => rfl, rfl⟩
  refine List.foldlRecOn _ _ (HeldOnly.refl s) fun t h c _ => ?_
  split
  · exact h.trans (State.flushHeld_heldOnly ..)
  · exact h

theorem commitCells_of_none {l : Cells} (h : partialHalf s (s.placed l) = none) : commitCells s l = .ok (storeCells s (s.placed l)) := by
  have h' : partialHalf s (l.map fun c => (redirectBy s.redirects c.1, c.2)) = none := h
  unfold commitCells
  dsimp only
  rw [h']
  rfl

/-- Memory is as written where memory, holding buffers and redirects are. -/
theorem MemWritten.of_same {l : Cells} (h : MemWritten s t l) (hm : u.mem = t.mem) (hh : ∀ c, (u.core c).held = (t.core c).held)
    (hr : u.redirects = t.redirects) : MemWritten s u l := fun x => by
  rw [← h x, State.byteAt, State.byteAt, State.rawByte_congr hm hh, hr]

theorem MemWritten.issued {l : Cells} (h : MemWritten s u l) (e : Env) : MemWritten s (u.issued e) l :=
  h.of_same rfl (State.issued_held u e) rfl

/-! ### A drain without draws -/

theorem fmtWord_rnd_lt (w : Nat) : (fmtWord w).rnd < 4 := Nat.mod_lt _ (by decide)

/-- A word that is accepted and takes no draw rounds alike whatever the draw. -/
theorem rndOf_of_ok {w : Nat} {load : Bool} (h : (fmtWord w).ok load = true) (h2 : (fmtWord w).rnd ≠ 2) (draw : Nat) :
    rndOf (fmtWord w).rnd draw = rndOf (fmtWord w).rnd 0 := by
  have h3 : (fmtWord w).rnd ≠ 3 := by
    simp only [FmtWord.ok, Bool.and_eq_true, decide_eq_true_eq] at h
    tauto
  have h4 := fmtWord_rnd_lt w
  generalize (fmtWord w).rnd = r at *
  obtain rfl | rfl : r = 0 ∨ r = 1 := by omega
  · rfl
  · rfl

/-- An FP32 drain does not round. -/
theorem drainAll_fp32 {d : Tensor} (h : d.f.fmt = 0) (rnd rnd' : Nat → Nat → Rnd) (acc : Nat → Nat → Word) (o : DrainOps) :
    drainAll d rnd acc o = drainAll d rnd' acc o := by
  have he : ∀ i j, drainElem d rnd acc o i j = drainElem d rnd' acc o i j := fun i j => by
    unfold drainElem
    simp only [h, if_true]
  simp only [drainAll, he, h, hasAreas, show decide (4 ≤ 0) = false from rfl, Bool.false_eq_true, if_false]

theorem Chk.of_bind_ok {α β : Type} {x : Chk α} {f : α → Chk β} {b : β} (h : (x >>= f) = .ok b) :
    ∃ a, x = .ok a ∧ f a = .ok b := by
  cases x with
  | error => cases h
  | ok a => exact ⟨a, rfl, h⟩

theorem atSlot_ok {α : Type} {sl : Nat} {x : Chk α} {a : α} (h : atSlot sl x = .ok a) : x = .ok a := by
  unfold atSlot at h
  split at h
  case h_4 => exact h
  all_goals cases h

/-- A tensor that is acceptable has an accepted format word (R107). -/
theorem tensorCheck_fmt {load wr : Bool} {w : Nat} {d : Tensor} (h : tensorCheck s e load wr w = .ok d) :
    ∃ v, d.f = fmtWord v ∧ (fmtWord v).ok load = true := by
  refine ⟨fieldAt w 0 16, ?_⟩
  have hbase : ∀ x : Chk Nat, (x >>= fun a => .ok { tensorOf w with base := a }) = (.ok d : Chk Tensor) → d.f = (tensorOf w).f :=
    fun x hx => by
      obtain ⟨a, -, hx⟩ := Chk.of_bind_ok hx
      cases hx
      rfl
  unfold tensorCheck at h
  dsimp only at h
  split at h
  case isTrue => cases h
  case isFalse hf =>
    have hok : (tensorOf w).f.ok load = true := by simpa using hf
    split at h
    · cases h
    split at h
    · split at h
      · cases h
      split at h
      · cases h
      exact ⟨hbase _ h, hok⟩
    · exact ⟨hbase _ h, hok⟩

/-- The tensor that a drain's checks answer has an accepted format word. -/
theorem drainCheck_fmt {o : DrainOps} {d : Tensor} (h : drainCheck s e o = .ok d) :
    ∃ w, d.f = fmtWord w ∧ (fmtWord w).ok false = true := by
  unfold drainCheck at h
  obtain ⟨-, -, h⟩ := Chk.of_bind_ok h
  obtain ⟨-, -, h⟩ := Chk.of_bind_ok h
  obtain ⟨-, -, h⟩ := Chk.of_bind_ok h
  obtain ⟨t, ht, h⟩ := Chk.of_bind_ok h
  obtain ⟨-, -, h⟩ := Chk.of_bind_ok h
  obtain ⟨-, -, h⟩ := Chk.of_bind_ok h
  obtain ⟨-, -, h⟩ := Chk.of_bind_ok h
  cases h
  exact tensorCheck_fmt (atSlot_ok ht)

/-- Where no draw is taken, what is drained does not depend on one. -/
theorem drainAll_of_noDraws {o o' : DrainOps} {d : Tensor} (hc : drainCheck s e o' = .ok d) (hd : drawsOf d = false)
    (draw : Nat → Nat → Nat) (acc : Nat → Nat → Word) :
    drainAll d (fun r c => rndOf d.f.rnd (draw r c)) acc o = drainAll d (fun _ _ => rndOf d.f.rnd 0) acc o := by
  obtain ⟨w, hw, hok⟩ := drainCheck_fmt hc
  by_cases h0 : d.f.fmt = 0
  · exact drainAll_fp32 h0 ..
  · have h2 : (fmtWord w).rnd ≠ 2 := fun h2 => by
      rw [← hw] at h2
      simp [drawsOf, h0, h2] at hd
    rw [hw]
    simp only [rndOf_of_ok hok h2]

/-- The state after a drain of `w`, whose accumulator set is then drained and whose destination is WRITING (R173, R178). -/
def State.drained (s : State) (e : Env) (o : DrainOps) (w : Drained) : State :=
  let u := storeCells s (s.placed w.cells)
  let c := u.core e.core
  let v := u.setCore e.core (if o.acc then { c with undrained1 := none, mqCtx := some e.ctx }
    else { c with undrained0 := none, mqCtx := some e.ctx })
  (((v.count (0x3010 + e.core) 5 64 w.nans).count (0x3010 + e.core) 6 64 w.sats).noteWrite e).startWrites e [o.dst] false

/-- What a drain writes that takes no draws. -/
def drainOut (s : State) (e : Env) (o : DrainOps) (d : Tensor) : Drained :=
  drainAll d (fun _ _ => rndOf d.f.rnd 0) (fun r c => (if o.acc then (s.core e.core).acc1 else (s.core e.core).acc0).get (r * 64 + c)) o

theorem drainEffect_of_noDraws {o o' : DrainOps} {d : Tensor} (hc : drainCheck s e o' = .ok d) (hd : drawsOf d = false)
    (hp : partialHalf s (s.placed (drainOut s e o d).cells) = none) :
    drainEffect s e o d = .ok (s.drained e o (drainOut s e o d)) := by
  unfold drainEffect
  dsimp only
  rw [hd]
  simp only [drainAll_of_noDraws hc hd]
  have hst := commitCells_of_none hp
  unfold drainOut at hst
  simp only [Bool.false_and, Bool.false_eq_true, if_false, hst]
  rfl

theorem runDrain_of_check {d : Tensor} (hc : drainCheck s e (drainOps e) = .ok d) (hf : arrayFree s e = true) (hd : drawsOf d = false)
    (hp : partialHalf s (s.placed (drainOut s e (drainOps e) d).cells) = none) :
    runDrain e s = .ok (s.drained e (drainOps e) (drainOut s e (drainOps e) d)) := by
  unfold runDrain
  rw [hc]
  dsimp only
  rw [if_pos hf, drainEffect_of_noDraws hc hd hp]
  rfl

/-! ### What the drain leaves -/

variable (s : State) (e : Env) (o : DrainOps) (w : Drained)

theorem State.drained_core_self :
    (s.drained e o w).core e.core = { s.core e.core with
      held := ((storeCells s (s.placed w.cells)).core e.core).held
      undrained0 := if o.acc then (s.core e.core).undrained0 else none
      undrained1 := if o.acc then none else (s.core e.core).undrained1
      mqCtx := some e.ctx
      ctxs := (s.core e.core).ctxs.modify e.ctx fun q => { q with unfenced := 0b1111 }
      slots := (s.core e.core).slots.modify (slotKey e.ctx o.dst) fun x => { x with st := .writing }
      outst := (s.core e.core).outst ++ [⟨e.ctx, e.idx, slotKey e.ctx o.dst, none, false⟩] } := by
  have hu := (storeCells_heldOnly s (s.placed w.cells)).core e.core
  unfold State.drained
  rw [State.startWrites_core_self, State.noteWrite_core_self, State.count_eq, State.count_eq, State.setObj_core, State.setObj_core,
    State.setCore_core_self, hu]
  cases o.acc <;> rfl

theorem State.drained_held (d : Nat) : ((s.drained e o w).core d).held = ((storeCells s (s.placed w.cells)).core d).held := by
  by_cases h : d = e.core
  · rw [h, State.drained_core_self]
  · unfold State.drained
    rw [State.startWrites_core_ne _ _ _ _ h, State.noteWrite_core_ne _ _ h, State.count_eq, State.count_eq, State.setObj_core,
      State.setObj_core, State.setCore_core_ne _ _ _ _ h]

/-- A drain stores its cells. -/
theorem State.drained_memWritten (hs : s.Canonical) (hp : partialHalf s (s.placed w.cells) = none) :
    MemWritten s (s.drained e o w) w.cells :=
  (commitCells_written s _ hs _ (commitCells_of_none hp) (storeCells_heldOnly ..).redirects).of_same rfl (State.drained_held s e o w) rfl

/-- A drain counts NaN and saturated elements, and leaves the count of commands to the issue (R59, R212). -/
theorem State.drained_obj (hc : e.core < 16) :
    (s.drained e o w).obj (0x3010 + e.core) 5 = counterAt 64 (s.obj (0x3010 + e.core) 5 + w.nans)
      ∧ (s.drained e o w).obj (0x3010 + e.core) 6 = counterAt 64 (s.obj (0x3010 + e.core) 6 + w.sats)
      ∧ (s.drained e o w).obj (0x3010 + e.core) 7 = s.obj (0x3010 + e.core) 7 := by
  unfold State.drained
  dsimp only
  generalize hv : (storeCells s (s.placed w.cells)).setCore e.core _ = v
  have hvo : ∀ k, k < 256 → v.obj (0x3010 + e.core) k = s.obj (0x3010 + e.core) k := fun k hk => by
    rw [← hv, State.setCore_obj, (storeCells_heldOnly ..).obj _ k (by omega) hk]
  simp only [State.startWrites_obj, State.noteWrite_obj, State.count_eq]
  refine ⟨?_, ?_, ?_⟩
  · rw [State.setObj_obj_ne _ _ _ _ _ _ (by decide) (by decide) (by simp), State.setObj_obj_self, hvo 5 (by decide)]
  · rw [State.setObj_obj_self, State.setObj_obj_ne _ _ _ _ _ _ (by decide) (by decide) (by simp), hvo 6 (by decide)]
  · rw [State.setObj_obj_ne _ _ _ _ _ _ (by decide) (by decide) (by simp),
      State.setObj_obj_ne _ _ _ _ _ _ (by decide) (by decide) (by simp), hvo 7 (by decide)]

end Sys2Proof.Machine

open Sys2Proof.Machine

/-- Settles O15: the state after the drain is `State.drained` and one command counted. -/
theorem drainWritesAccumulators : Obligations.DrainWritesAccumulators := by
  intro core ctx e d s hs hat hchk hfree hd
  obtain ⟨hc, hx, -⟩ := hat.env
  dsimp only
  intro hp
  have hout : drainOut s e (drainOps e) d = drainAll d (fun _ _ => rndOf d.f.rnd 0)
      (fun r c => (if (drainOps e).acc then (s.core core).acc1 else (s.core core).acc0).get (r * 64 + c)) (drainOps e) := by
    rw [← hc]
    rfl
  rw [← hout] at hp ⊢
  have hcore := State.issued_core_self (s.drained e (drainOps e) (drainOut s e (drainOps e) d)) e
  obtain ⟨hnan, hsat, hcount⟩ := State.drained_obj s e (drainOps e) (drainOut s e (drainOps e) d) (hc ▸ core.isLt)
  rw [State.drained_core_self] at hcore
  rw [hc] at hcore hnan hsat hcount
  refine ⟨_, congrArg Host.Outcome.next (issue_of_ok hat (runDrain_of_check hchk hfree hd hp)), hat.issued hcount,
    (State.drained_memWritten s e _ _ hs hp).issued e, ?undrained, ?acc0, ?acc1, ?nans, ?sats, ?slot⟩
  case undrained => rw [hcore]; cases (drainOps e).acc <;> rfl
  case acc0 => rw [hcore]
  case acc1 => rw [hcore]
  case nans => rw [State.issued_sameObjs _ _ _ _ (by decide) (by simp), hnan]
  case sats => rw [State.issued_sameObjs _ _ _ _ (by decide) (by simp), hsat]
  case slot =>
    rw [State.slotOf, hc, hcore]
    dsimp only
    rw [Tab.get_modify_self]

end

section
/-! Instructions of the vector row that work lane by lane (R92–R94): each writes its destination once, in the lanes whose flag is
set; integer arithmetic on words is arithmetic on numbers. -/

namespace Sys2Proof.Machine

variable {s t : State} {core : CoreId} {o : VecOps}

/-! ### Arithmetic of words (R92) -/

theorem word_sub (a b : Word) : a - b = BitVec.ofInt 32 ((a.toNat : Int) - b.toNat) := by
  refine BitVec.eq_of_toInt_eq ?_
  rw [BitVec.toInt_sub, BitVec.toInt_ofInt, BitVec.toInt_eq_toNat_bmod, BitVec.toInt_eq_toNat_bmod, Int.sub_bmod_bmod,
    Int.bmod_sub_bmod]

theorem word_shiftLeft (a : Word) (n : Nat) : a <<< n = BitVec.ofNat 32 (a.toNat * 2 ^ n) := by
  apply BitVec.eq_of_toNat_eq
  rw [BitVec.toNat_shiftLeft, BitVec.toNat_ofNat, Nat.shiftLeft_eq]

theorem word_shiftRight (a : Word) (n : Nat) : a >>> n = BitVec.ofNat 32 (a.toNat / 2 ^ n) := by
  apply BitVec.eq_of_toNat_eq
  rw [BitVec.toNat_ushiftRight, BitVec.toNat_ofNat, Nat.shiftRight_eq_div_pow,
    Nat.mod_eq_of_lt (Nat.lt_of_le_of_lt (Nat.div_le_self ..) a.isLt)]

theorem word_sshiftRight (a : Word) (n : Nat) : a.sshiftRight n = BitVec.ofInt 32 (a.toInt / 2 ^ n) := by
  rw [BitVec.sshiftRight, Int.shiftRight_eq_div_pow]
  norm_cast

/-! ### Lane by lane (R92, R93) -/

theorem vecRow_lanes (f : Word → Word → Word → Word) :
    vecRow core (lanes f o) s = s.vecWrote core o ((s.core core).active o.flg)
      fun l => f ((s.core core).src o.src1 l) ((s.core core).src o.src2 l) ((s.core core).src o.src3 l) := vecRow_of_ok rfl

theorem State.vecWrote_sameObjs (s : State) (core : CoreId) (o : VecOps) (mask : Nat → Bool) (f : Nat → Word) :
    SameObjs s (s.vecWrote core o mask f) [(0x3060 + core, 1)] := 
  State.setObj_sameObjs (s := s) (by decide)

/-- A row that issues an instruction which works lane by lane with `g`, stated with the function `f` that `g` is. -/
theorem laneOp_of_lanes {i : CoreId → VecOps → Instr} {f g : Word → Word → Word → Word}
    (hi : ∀ core o s, exec (i core o) s = .next (vecRow core (lanes g o) s)) (hf : ∀ a b c, g a b c = f a b c) : LaneOp i f := by
  obtain rfl : g = f := funext fun a => funext fun b => funext (hf a b)
  exact fun core o s => ⟨_, (hi core o s).trans (congrArg _ (vecRow_lanes g)), rfl, State.vecWrote_sameObjs _ _ _ _ _,
    State.vecWrote_counted .., State.vecWrote_onlyVregs .., State.vecWrote_dstWritten ..⟩

/-- The same, where the model's function is written as the statement writes it. -/
theorem laneOp_lanes {i : CoreId → VecOps → Instr} {f : Word → Word → Word → Word}
    (hi : ∀ core o s, exec (i core o) s = .next (vecRow core (lanes f o) s)) : LaneOp i f := laneOp_of_lanes hi fun _ _ _ => rfl

end Sys2Proof.Machine

open Sys2Proof.Machine

/-- Settles O17: every row issues `lanes` of its function; only the integer operations are written otherwise in the model. -/
theorem vectorLaneArithmetic : Obligations.VectorLaneArithmetic := by
  unfold Obligations.VectorLaneArithmetic
  simp only [List.forall_mem_cons]
  refine ⟨laneOp_lanes fun _ _ _ => rfl, laneOp_lanes fun _ _ _ => rfl, laneOp_lanes fun _ _ _ => rfl, laneOp_lanes fun _ _ _ => rfl,
    laneOp_lanes fun _ _ _ => rfl, laneOp_lanes fun _ _ _ => rfl, laneOp_lanes fun _ _ _ => rfl, laneOp_lanes fun _ _ _ => rfl,
    laneOp_lanes fun _ _ _ => rfl, laneOp_lanes fun _ _ _ => rfl, laneOp_lanes fun _ _ _ => rfl, laneOp_lanes fun _ _ _ => rfl,
    ?iadd, ?isub, ?imul, laneOp_lanes fun _ _ _ => rfl, laneOp_lanes fun _ _ _ => rfl, laneOp_lanes fun _ _ _ => rfl,
    laneOp_lanes fun _ _ _ => rfl, ?shl, ?shr, ?sar, nofun⟩
  case iadd => exact laneOp_of_lanes (g := fun a b _ => a + b) (fun _ _ _ => rfl) fun _ _ _ => BitVec.add_def ..
  case isub => exact laneOp_of_lanes (g := fun a b _ => a - b) (fun _ _ _ => rfl) fun a b _ => word_sub a b
  case imul => exact laneOp_of_lanes (g := fun a b _ => a * b) (fun _ _ _ => rfl) fun _ _ _ => BitVec.mul_def ..
  case shl => exact laneOp_of_lanes (g := fun a b _ => a <<< (b.toNat % 32)) (fun _ _ _ => rfl) fun a b _ => word_shiftLeft a _
  case shr => exact laneOp_of_lanes (g := fun a b _ => a >>> (b.toNat % 32)) (fun _ _ _ => rfl) fun a b _ => word_shiftRight a _
  case sar =>
    exact laneOp_of_lanes (g := fun a b _ => a.sshiftRight (b.toNat % 32)) (fun _ _ _ => rfl) fun a b _ => word_sshiftRight a _

end

section
/-! Compares and SEL (R90–R93): a compare writes the bits of one flag register, SEL every lane of its destination. -/

namespace Sys2Proof.Machine

variable {s t : State} {core : CoreId} {o : VecOps}

/-- A number read as bits from a list reads as the list. -/
theorem testBit_planeWord (l : List Bool) (i : Nat) : (planeWord l).testBit i = l.getD i false := by
  unfold planeWord
  induction l generalizing i with
  | nil => exact Nat.zero_testBit i
  | cons b r ih =>
    have hb : (if b then 1 else 0) + 2 * planeWord.natBits r = Nat.bit b (planeWord.natBits r) := by
      cases b
      · exact Nat.zero_add _
      · exact Nat.add_comm ..
    rw [planeWord.natBits, hb]
    cases i with
    | zero => exact Nat.testBit_bit_zero b _
    | succ i => exact (Nat.testBit_bit_succ i b _).trans (ih i)

theorem getLsbD_planeWord_range (f : Nat → Bool) {n l : Nat} (hl : l < n) :
    (BitVec.ofNat n (planeWord ((List.range n).map f))).getLsbD l = f l := by
  rw [BitVec.getLsbD_ofNat, decide_eq_true hl, Bool.true_and, testBit_planeWord, List.getD_eq_getElem _ _ (by simpa using hl),
    List.getElem_map, List.getElem_range]

/-- What a compare with `f` does, whatever the state. -/
def CompareOp (i : CoreId → VecOps → Instr) (f : Word → Word → Bool) : Prop :=
  ∀ (core : CoreId) (o : VecOps) (s : State), ∃ t, exec (i core o) s = .next t ∧ VecCounted s t core
    ∧ (∀ l, l < 512 → ((t.core core).flags.get o.fdst.toNat).getLsbD l
        = if o.fdst ≠ 0 ∧ (s.core core).active o.flg l then f ((s.core core).src o.src1 l) ((s.core core).src o.src2 l)
          else ((s.core core).flags.get o.fdst.toNat).getLsbD l)
    ∧ (∀ g, g ≠ o.fdst.toNat → (t.core core).flags.get g = (s.core core).flags.get g)
    ∧ t.core core = { s.core core with flags := (t.core core).flags }

/-- F0 as destination: the instruction is counted and does nothing. -/
theorem vecRow_compares_f0 (f : Word → Word → Bool) (h : o.fdst = 0) :
    vecRow core (compares f o) s = s.count (0x3060 + core) 1 64 1 := vecRow_of_ok (if_pos h)

/-- The flag register after a compare. -/
def Core.compared (c : Core) (o : VecOps) (f : Word → Word → Bool) : BitVec 512 :=
  BitVec.ofNat 512 (planeWord ((List.range 512).map fun l =>
    if c.active o.flg l then f (c.src o.src1 l) (c.src o.src2 l) else (c.flags.get o.fdst.toNat).getLsbD l))

theorem vecRow_compares (f : Word → Word → Bool) (h : o.fdst ≠ 0) :
    vecRow core (compares f o) s = (s.count (0x3060 + core) 1 64 1).setCore core { s.core core with
      flags := (s.core core).flags.set o.fdst.toNat ((s.core core).compared o f) } := vecRow_of_ok (if_neg h)

theorem State.count_vecCounted (s : State) (core : CoreId) : VecCounted s (s.count (0x3060 + core) 1 64 1) core :=
  ⟨State.count_obj_self .., fun _ _ => rfl, rfl, rfl, rfl⟩

theorem State.count_setCore_vecCounted (s : State) (core : CoreId) (c : Core) :
    VecCounted s ((s.count (0x3060 + core) 1 64 1).setCore core c) core :=
  ⟨State.count_obj_self .., fun _ hd => State.setCore_core_ne _ _ _ _ hd, rfl, rfl, rfl⟩

theorem compareOp_compares {i : CoreId → VecOps → Instr} {f : Word → Word → Bool}
    (hi : ∀ core o s, exec (i core o) s = .next (vecRow core (compares f o) s)) : CompareOp i f := by
  intro core o s
  by_cases h : o.fdst = 0
  · refine ⟨_, (hi core o s).trans (congrArg _ (vecRow_compares_f0 f h)), s.count_vecCounted core, fun l _ => ?_, fun _ _ => rfl, rfl⟩
    rw [if_neg fun g => g.1 h]
    rfl
  · refine ⟨_, (hi core o s).trans (congrArg _ (vecRow_compares f h)), s.count_setCore_vecCounted core _, fun l hl => ?_,
      fun g hg => ?_, ?_⟩
    all_goals rw [State.setCore_core_self]
    · rw [Tab.get_set_self]
      refine (getLsbD_planeWord_range _ hl).trans ?_
      simp only [ne_eq, h, not_false_eq_true, true_and]
    · rw [Tab.get_set_of_ne _ _ hg]

theorem execSel : exec (.vSel core o) s = .next (s.vecWrote core o (fun _ => true) fun l =>
    if (s.core core).active o.flg l then (s.core core).src o.src1 l else (s.core core).src o.src2 l) :=
  congrArg Host.Outcome.next (vecRow_of_ok rfl)

end Sys2Proof.Machine

open Sys2Proof.Machine

/-- Settles O18: every compare issues `compares` of its relation, and SEL writes its destination with the choice of the flag. -/
theorem vectorComparesAndSelect : Obligations.VectorComparesAndSelect := by
  refine ⟨?_, fun core o s => ⟨_, execSel, State.vecWrote_counted .., State.vecWrote_onlyVregs .., State.vecWrote_dstWritten ..⟩⟩
  change ∀ x ∈ (_ : List (_ × _)), CompareOp x.1 x.2
  simp only [List.forall_mem_cons]
  exact ⟨compareOp_compares fun _ _ _ => rfl, compareOp_compares fun _ _ _ => rfl, compareOp_compares fun _ _ _ => rfl,
    compareOp_compares fun _ _ _ => rfl, compareOp_compares fun _ _ _ => rfl, nofun⟩

end

section
/-! Reductions (R95): pairwise over each segment, the result in every lane of it. -/

namespace Sys2Proof.Machine

variable {s t : State} {core : CoreId} {o : VecOps}

/-- What a destination takes is decided by what its 512 lanes take. -/
theorem DstWritten.congr {mask : Nat → Bool} {f g : Nat → Word} (h : DstWritten s t core o mask f) (hf : ∀ l, l < 512 → f l = g l) :
    DstWritten s t core o mask g := by
  obtain ⟨hv, hs⟩ := h
  refine ⟨fun hd => ⟨(hv hd).1, fun r l hl => ?_⟩, fun hd => ?_⟩
  · rw [← hf l hl]
    exact (hv hd).2 r l hl
  · obtain ⟨h1, h2, h3, h4⟩ := hs hd
    rw [← hf 0 (by decide)]
    exact ⟨h1, h2, fun hl => h3 fun l hlt => ⟨(hl l hlt).1, (hf l hlt).trans (hl l hlt).2⟩, h4⟩

/-- A segment `g` of `n` lanes combined over `k` levels, clear lanes counting as the neutral value. -/
def Core.combined (c : Core) (o : VecOps) (f : Word → Word → Word) (neutral : Word) (k n g : Nat) : Word :=
  reducePairs f k ((List.range n).map fun i => if c.active o.flg (g * n + i) then c.src o.src1 (g * n + i) else neutral)

/-- What a lane holds after a reduction: its segment of 32 · 2^SEG lanes combined. -/
def Core.reduced (c : Core) (o : VecOps) (f : Word → Word → Word) (neutral : Word) (l : Nat) : Word :=
  c.combined o f neutral (5 + o.src3.toNat) (32 * 2 ^ o.src3.toNat) (l / (32 * 2 ^ o.src3.toNat))

/-- What a reduction with `f` does, whatever the state. -/
def ReduceOp (i : CoreId → VecOps → Instr) (f : Word → Word → Word) (neutral : Word) : Prop :=
  ∀ (core : CoreId) (o : VecOps) (s : State), o.src3.toNat ≤ 4 → ∃ t, exec (i core o) s = .next t ∧ VecCounted s t core
    ∧ OnlyVregs s t core ∧ DstWritten s t core o (fun _ => true) ((s.core core).reduced o f neutral)

/-- The results of all segments, from which each lane takes that of its own. -/
theorem getD_segments (f : Nat → Word) {n l : Nat} (h : n ∣ 512) (hl : l < 512) :
    ((List.range (512 / n)).map f).getD (l / n) 0 = f (l / n) := by
  have hlt : l / n < 512 / n := Nat.div_lt_div_of_lt_of_dvd h hl
  rw [List.getD_eq_getElem _ _ (by simpa using hlt), List.getElem_map, List.getElem_range]

theorem reduceOp_reduces {i : CoreId → VecOps → Instr} {f : Word → Word → Word} {neutral : Word}
    (hi : ∀ core o s, exec (i core o) s = .next (vecRow core (reduces f neutral o) s)) : ReduceOp i f neutral := by
  intro core o s h4
  have hseg : 2 ^ (5 + o.src3.toNat) = 32 * 2 ^ o.src3.toNat := Nat.pow_add ..
  have hdvd : 32 * 2 ^ o.src3.toNat ∣ 512 := hseg ▸ Nat.pow_dvd_pow 2 (show 5 + o.src3.toNat ≤ 9 by omega)
  have hrow : vecRow core (reduces f neutral o) s = s.vecWrote core o (fun _ => true) fun l =>
      ((List.range (512 / 2 ^ (5 + o.src3.toNat))).map
        ((s.core core).combined o f neutral (5 + o.src3.toNat) (2 ^ (5 + o.src3.toNat)))).getD (l / 2 ^ (5 + o.src3.toNat)) 0 := by
    refine vecRow_of_ok ?_
    unfold reduces
    rw [needParam, need_of_true (decide_eq_true h4)]
    rfl
  refine ⟨_, (hi core o s).trans (congrArg _ hrow), State.vecWrote_counted .., State.vecWrote_onlyVregs ..,
    (State.vecWrote_dstWritten ..).congr fun l hl => ?_⟩
  rw [hseg, getD_segments _ hdvd hl]
  rfl

end Sys2Proof.Machine

open Sys2Proof.Machine

/-- Settles O20: every row issues `reduces` of its function and neutral value. -/
theorem vectorReductionsBySegment : Obligations.VectorReductionsBySegment := by
  change ∀ x ∈ (_ : List (_ × _ × _)), ReduceOp x.1 x.2.1 x.2.2
  simp only [List.forall_mem_cons]
  exact ⟨reduceOp_reduces fun _ _ _ => rfl, reduceOp_reduces fun _ _ _ => rfl, reduceOp_reduces fun _ _ _ => rfl, nofun⟩

end

section
/-! VEC (R90, R179): the registers a program starts from, and the destinations a command leaves WRITING. -/

namespace Sys2Proof.Machine

variable {s u : State} {e : Env}

/-- Marking slots one after another leaves each WRITING, whatever follows it. -/
theorem slots_foldl_writing (ctx d : Nat) (l : List Nat) (t : Tab slotReset) (h : d ∈ l ∨ (t.get (slotKey ctx d)).st = .writing) :
    ((l.foldl (fun t d => t.modify (slotKey ctx d) fun x => { x with st := .writing }) t).get (slotKey ctx d)).st = .writing := by
  induction l generalizing t with
  | nil => exact h.resolve_left List.not_mem_nil
  | cons x l ih =>
    refine ih _ ?_
    by_cases hx : slotKey ctx d = slotKey ctx x
    · exact .inr (by rw [hx, Tab.get_modify_self])
    · rw [Tab.get_modify_of_ne _ _ hx]
      exact h.imp_left fun hm => (List.mem_cons.1 hm).resolve_left fun he => hx (congrArg _ he)

/-- Every destination among those whose writes start is WRITING (R173). -/
theorem State.startWrites_writing (u : State) (e : Env) (b : Bool) {d : Nat} {l : List Nat} (hd : d ∈ l) :
    ((u.startWrites e l b).slotOf e d).st = .writing := by
  rw [State.slotOf, State.startWrites_core_self]
  exact slots_foldl_writing e.ctx d l _ (.inl hd)

/-- Counting and passing a command leaves the slots. -/
theorem State.issued_slotOf (u : State) (e : Env) (d : Nat) : (u.issued e).slotOf e d = u.slotOf e d := by
  rw [State.slotOf, State.issued_core_self]
  rfl

theorem vecStart_core (s : State) (e : Env) : ∃ run, (vecStart s e).core e.core = { (s.core e.core).clearVector with vec := run } :=
  ⟨_, State.setCore_core_self ..⟩

theorem runVec_of_ok {pr : Nat × Nat} (hc : vecCheck s e = .ok pr) (hr : runProgram e pr.1 pr.2 0 (vecStart s e) = .ok u) :
    runVec e s = .ok (u.startWrites e (vecDests e) false) := by
  unfold runVec
  rw [hc]
  dsimp only
  rw [hr]

end Sys2Proof.Machine

open Sys2Proof.Machine

/-- Settles O16: a checked VEC is its program from `vecStart`, whose vector registers are cleared tables, and the start of its
writes. -/
theorem vecRunsProgramFromCleanRegisters : Obligations.VecRunsProgramFromCleanRegisters := by
  intro core ctx e pr s u hat hchk hrun
  obtain ⟨hc, -, -⟩ := hat.env
  obtain ⟨run, hstart⟩ := vecStart_core s e
  rw [hc] at hstart
  refine ⟨⟨_, congrArg Host.Outcome.next (issue_of_ok hat (runVec_of_ok hchk hrun)), rfl, fun d hd => ?_⟩, fun r => ?_, fun f => ?_⟩
  · rw [State.issued_slotOf]
    exact State.startWrites_writing u e false hd
  · rw [hstart]
    exact ⟨rfl, rfl⟩
  · rw [hstart]
    rfl

end

section
/-! RAND16 and RAND32 (R99–R101): the lane generators before and after a draw, and what the draws give. -/

namespace Sys2Proof.Machine

variable {s t : State} {core : CoreId} {o : VecOps}

/-! ### Lane generators (R99) -/

theorem Core.lane_congr {c d : Core} (h : c.gen = d.gen) (l : Nat) : c.lane l = d.lane l := by rw [Core.lane, Core.lane, h]

theorem Core.setDst_lane (c : Core) (o : VecOps) (mask : Nat → Bool) (f : Nat → Word) (l : Nat) :
    (c.setDst o mask f).lane l = c.lane l := by
  rw [Core.setDst_frame]
  exact Core.lane_congr rfl l

theorem Core.setDst_vec (c : Core) (o : VecOps) (mask : Nat → Bool) (f : Nat → Word) : (c.setDst o mask f).vec = c.vec := by
  rw [Core.setDst_frame]

theorem Core.setLanes_lane (c : Core) (f : Nat → BitVec 64 × BitVec 64) {l : Nat} (hl : l < 512) : (c.setLanes f).lane l = f l := by
  unfold Core.lane Core.setLanes
  refine Prod.ext ?_ ?_
  · refine (Tab.get_fill_of_mem _ _ _ _ _ (Nat.zero_le _) (by omega)).trans ?_
    rw [if_pos (by omega), show (2 * l - 0) / 2 = l by omega]
  · refine (Tab.get_fill_of_mem _ _ _ _ _ (Nat.zero_le _) (by omega)).trans ?_
    rw [if_neg (by omega), show (2 * l + 1 - 0) / 2 = l by omega]

/-- The state in which a vector command that may draw takes its draws: reseeded in COUNTED mode if this is its first (R101, R180). -/
def State.drawReady (s : State) (e : Env) : State :=
  let u := if s.counted e.p && !(s.core e.core).vec.seeded then s.reseedCounted e (s.core e.core).vec.rkey else s
  u.setCore e.core { u.core e.core with vec := { (s.core e.core).vec with seeded := true } }

theorem vecDraws_of_draws {e : Env} (h : (s.core e.core).vec.draws = true) (n : Nat → Nat) :
    vecDraws e s n = .ok ((s.drawReady e).takeDraws e.core e.p n) := by
  unfold vecDraws
  dsimp only
  rw [needParam, need_of_true h]
  rfl

/-! ### What the draws of a command leave -/

/-- From `s` to `t` a vector command has drawn on core `n`: of the core its generators and the record of the command have changed,
and of the rest at most the model's counter of free values. -/
structure Drew (s t : State) (n : Nat) : Prop where
  core   : t.core n = { s.core n with gen := (t.core n).gen, vec := (t.core n).vec }
  others : ∀ d, d ≠ n → t.core d = s.core d
  obj    : ∀ i k, t.obj i k = s.obj i k
  rest   : t.parts = s.parts ∧ t.syncs = s.syncs ∧ t.log = s.log

theorem Drew.trans {u : State} {n : Nat} (h : Drew s t n) (g : Drew t u n) : Drew s u n := by
  obtain ⟨hp, hs, hl⟩ := h.rest
  obtain ⟨gp, gs, gl⟩ := g.rest
  refine ⟨?_, fun d hd => (g.others d hd).trans (h.others d hd), fun i k => (g.obj i k).trans (h.obj i k), gp.trans hp, gs.trans hs,
    gl.trans hl⟩
  rw [g.core, h.core]

theorem Drew.vreg {n : Nat} (h : Drew s t n) : (t.core n).vreg = (s.core n).vreg := by rw [h.core]
theorem Drew.sreg {n : Nat} (h : Drew s t n) : (t.core n).sreg = (s.core n).sreg := by rw [h.core]

/-- An instruction that has drawn writes its destination on that core and is counted. -/
theorem Drew.vecCounted (h : Drew (s.count (0x3060 + core) 1 64 1) t core) (c : Core) : VecCounted s (t.setCore core c) core :=
  ⟨(State.setCore_obj ..).trans ((h.obj _ _).trans (State.count_obj_self ..)),
    fun d hd => (State.setCore_core_ne _ _ _ _ hd).trans (h.others d hd), h.rest⟩

theorem Drew.dstWritten (h : Drew (s.count (0x3060 + core) 1 64 1) t core) (mask : Nat → Bool) (f : Nat → Word) :
    DstWritten s (t.setCore core ((t.core core).setDst o mask f)) core o mask f := by
  have hv : (t.core core).vreg = (s.core core).vreg := h.vreg
  have hs : (t.core core).sreg = (s.core core).sreg := h.sreg
  unfold DstWritten
  rw [State.setCore_core_self, ← hv, ← hs]
  exact ⟨Core.setDst_vector _ _ _, Core.setDst_scalar _ _ _⟩

theorem State.setCore_drew {n : Nat} (c : Core) (hc : c = { s.core n with gen := c.gen, vec := c.vec }) : Drew s (s.setCore n c) n := by
  refine ⟨?_, fun d hd => State.setCore_core_ne _ _ _ _ hd, fun _ _ => rfl, rfl, rfl, rfl⟩
  rw [State.setCore_core_self]
  exact hc

theorem State.drawReady_drew (s : State) (e : Env) : Drew s (s.drawReady e) e.core := by
  unfold State.drawReady
  dsimp only
  split
  · exact (State.setCore_drew _ rfl).trans (State.setCore_drew _ rfl)
  · exact State.setCore_drew _ rfl

theorem State.takeDraws_drew (s : State) (n p : Nat) (k : Nat → Nat) : Drew s (s.takeDraws n p k).2 n := by
  unfold State.takeDraws
  split
  · exact State.setCore_drew _ rfl
  · exact ⟨rfl, fun _ _ => rfl, fun _ _ => rfl, rfl, rfl, rfl⟩

theorem State.drawReady_seeded (s : State) (e : Env) : ((s.drawReady e).core e.core).vec.seeded = true := by
  unfold State.drawReady
  rw [State.setCore_core_self]

theorem State.takeDraws_vec (s : State) (n p : Nat) (k : Nat → Nat) : ((s.takeDraws n p k).2.core n).vec = (s.core n).vec := by
  unfold State.takeDraws
  split
  · dsimp only
    rw [State.setCore_core_self]
    rfl
  · rfl

/-- In COUNTED mode the lanes are ready as they were left, or reseeded (R101). -/
theorem State.drawReady_lane {e : Env} (hp : s.counted e.p = true) {l : Nat} (hl : l < 512) :
    ((s.drawReady e).core e.core).lane l = if (s.core e.core).vec.seeded then (s.core e.core).lane l
      else laneSeed (BitVec.ofNat 64 (s.obj (0x3050 + e.p) 2)) (BitVec.ofNat 32 (s.obj (0x3100 + e.p) 6)) (s.core e.core).vec.rkey l := by
  have hready : ((s.drawReady e).core e.core).lane l
      = ((if s.counted e.p && !(s.core e.core).vec.seeded then s.reseedCounted e (s.core e.core).vec.rkey else s).core e.core).lane l := by
    unfold State.drawReady
    rw [State.setCore_core_self]
    exact Core.lane_congr rfl l
  rw [hready, hp, Bool.true_and]
  cases (s.core e.core).vec.seeded
  · rw [Bool.not_false, if_pos rfl, State.reseedCounted, State.setCore_core_self, Core.setLanes_lane _ _ hl,
      if_neg Bool.false_ne_true]
  · rw [Bool.not_true, if_neg Bool.false_ne_true, if_pos rfl]

/-- In COUNTED mode a lane's first draw is one advance of its generator (R99). -/
theorem State.takeDraws_first {n p : Nat} (hp : s.counted p = true) (k : Nat → Nat) (l : Nat) :
    (s.takeDraws n p k).1 l 0 = (advance ((s.core n).lane l).1 ((s.core n).lane l).2).2.2 := by
  unfold State.takeDraws
  rw [if_pos hp]
  rfl

/-- A lane that takes one draw has advanced once; one that takes none is as it was. -/
theorem State.takeDraws_lane {n p : Nat} (hp : s.counted p = true) (on : Nat → Bool) {l : Nat} (hl : l < 512) :
    ((s.takeDraws n p fun l => if on l then 1 else 0).2.core n).lane l =
      if on l then ((advance ((s.core n).lane l).1 ((s.core n).lane l).2).1, (advance ((s.core n).lane l).1 ((s.core n).lane l).2).2.1)
      else (s.core n).lane l := by
  unfold State.takeDraws
  rw [if_pos hp]
  dsimp only
  rw [State.setCore_core_self, Core.setLanes_lane _ _ hl]
  cases on l <;> rfl

/-! ### The instructions -/

theorem vecEnv_p_lt (s : State) (core : CoreId) : (vecEnv s core).p < 4 := by
  unfold vecEnv State.partOf
  dsimp only
  split
  · assumption
  · decide

variable (s core o)

/-- What one RAND instruction draws: one number for each lane whose flag is set. -/
def State.rowDraws : (Nat → Nat → BitVec 64) × State :=
  ((s.count (0x3060 + core) 1 64 1).drawReady (vecEnv s core)).takeDraws core (vecEnv s core).p
    fun l => if (s.core core).active o.flg l then 1 else 0

/-- The state after a RAND instruction. -/
def State.randomised (value : BitVec 64 → Nat) : State :=
  (s.rowDraws core o).2.setCore core (((s.rowDraws core o).2.core core).setDst o ((s.core core).active o.flg)
    fun l => BitVec.ofNat 32 (value ((s.rowDraws core o).1 l 0)))

variable {s} in
theorem vecRow_randoms (value : BitVec 64 → Nat) (h : (s.core core).vec.draws = true) :
    vecRow core (randoms value o) s = s.randomised core o value := by
  refine vecRow_of_ok ?_
  unfold randoms
  dsimp only
  rw [vecDraws_of_draws (e := vecEnv s core) (s := s.count (0x3060 + core) 1 64 1) h]
  rfl

theorem State.rowDraws_drew : Drew (s.count (0x3060 + core) 1 64 1) (s.rowDraws core o).2 core :=
  ((s.count (0x3060 + core) 1 64 1).drawReady_drew (vecEnv s core)).trans (State.takeDraws_drew ..)

theorem State.rowDraws_seeded : ((s.rowDraws core o).2.core core).vec.seeded = true := by
  rw [State.rowDraws, State.takeDraws_vec]
  exact (s.count (0x3060 + core) 1 64 1).drawReady_seeded (vecEnv s core)

variable (value : BitVec 64 → Nat)

theorem State.randomised_seeded : ((s.randomised core o value).core core).vec.seeded = true := by
  rw [State.randomised, State.setCore_core_self, Core.setDst_vec, State.rowDraws_seeded]

theorem State.randomised_lane (l : Nat) : ((s.randomised core o value).core core).lane l = ((s.rowDraws core o).2.core core).lane l := by
  rw [State.randomised, State.setCore_core_self, Core.setDst_lane]

/-- The generator that a draw of COUNTED mode starts from: as the lane has it, or reseeded at a command's first draw (R101). -/
def State.drawLane (l : Nat) : BitVec 64 × BitVec 64 :=
  if (s.core core).vec.seeded then (s.core core).lane l
  else laneSeed (BitVec.ofNat 64 (s.obj (0x3050 + (vecEnv s core).p) 2)) (BitVec.ofNat 32 (s.obj (0x3100 + (vecEnv s core).p) 6))
    (s.core core).vec.rkey l

/-- The generators of the row, ready for an instruction's draws in COUNTED mode. -/
theorem State.rowReady (hc : s.counted (vecEnv s core).p = true) :
    ((s.count (0x3060 + core) 1 64 1).drawReady (vecEnv s core)).counted (vecEnv s core).p = true
      ∧ ∀ l, l < 512 → (((s.count (0x3060 + core) 1 64 1).drawReady (vecEnv s core)).core core).lane l = s.drawLane core l := by
  have hp := vecEnv_p_lt s core
  have hobj : ∀ i k : Nat, k < 256 → (i, k) ≠ (0x3060 + (core : Nat), 1) → (s.count (0x3060 + core) 1 64 1).obj i k = s.obj i k :=
    fun i k hk h => State.setObj_obj_ne _ _ _ _ _ _ (by decide) hk h
  have hcount : (s.count (0x3060 + core) 1 64 1).counted (vecEnv s core).p = true := by
    rw [State.counted, hobj _ _ (by decide) (by simp only [ne_eq, Prod.mk.injEq]; omega)]
    exact hc
  refine ⟨?_, fun l hl => (State.drawReady_lane (e := vecEnv s core) hcount hl).trans ?_⟩
  · rw [State.counted, (State.drawReady_drew ..).obj]
    exact hcount
  · rw [hobj _ _ (by decide) (by simp), hobj _ _ (by decide) (by simp)]
    rfl

/-- What a RAND instruction of COUNTED mode leaves in the lanes of its destination and in the generators (R99, R101). -/
theorem State.randomised_of_counted (hc : s.counted (vecEnv s core).p = true) :
    DstWritten s (s.randomised core o value) core o ((s.core core).active o.flg)
        (fun l => BitVec.ofNat 32 (value (advance (s.drawLane core l).1 (s.drawLane core l).2).2.2))
      ∧ ∀ l, l < 512 → ((s.randomised core o value).core core).lane l = if (s.core core).active o.flg l
          then ((advance (s.drawLane core l).1 (s.drawLane core l).2).1, (advance (s.drawLane core l).1 (s.drawLane core l).2).2.1)
          else s.drawLane core l := by
  obtain ⟨hp, hg⟩ := s.rowReady core hc
  refine ⟨((s.rowDraws_drew core o).dstWritten _ _).congr fun l hl => ?_, fun l hl => ?_⟩
  · rw [← hg l hl, State.rowDraws, State.takeDraws_first hp]
  · rw [State.randomised_lane, ← hg l hl, State.rowDraws, State.takeDraws_lane hp _ hl]

/-- What a RAND instruction that takes the top bits of a draw does, whatever the state: those above bit `b`. -/
def RandomOp (i : CoreId → VecOps → Instr) (b : Nat) : Prop :=
  ∀ (core : CoreId) (o : VecOps) (s : State), (s.core core).vec.draws = true → ∃ t, exec (i core o) s = .next t ∧ VecCounted s t core
    ∧ (t.core core).vec.seeded = true
    ∧ (s.counted (vecEnv s core).p = true →
      DstWritten s t core o ((s.core core).active o.flg)
          (fun l => BitVec.ofNat 32 ((advance (s.drawLane core l).1 (s.drawLane core l).2).2.2.toNat / 2 ^ b))
        ∧ ∀ l, l < 512 → (t.core core).lane l = if (s.core core).active o.flg l
            then ((advance (s.drawLane core l).1 (s.drawLane core l).2).1, (advance (s.drawLane core l).1 (s.drawLane core l).2).2.1)
            else s.drawLane core l)

theorem randomOp_randoms {i : CoreId → VecOps → Instr} {b : Nat}
    (hi : ∀ core o s, exec (i core o) s = .next (vecRow core (randoms (fun x => x.toNat / 2 ^ b) o) s)) : RandomOp i b :=
  fun core o s h => ⟨_, (hi core o s).trans (congrArg _ (vecRow_randoms core o _ h)), (s.rowDraws_drew core o).vecCounted _,
    s.randomised_seeded core o _, s.randomised_of_counted core o _⟩

end Sys2Proof.Machine

open Sys2Proof.Machine

/-- Settles O21: both rows issue `randoms`, with the bits of a draw from bit 48 or from bit 32. -/
theorem vectorRandomsDraw : Obligations.VectorRandomsDraw := by
  change ∀ x ∈ (_ : List (_ × _)), RandomOp x.1 x.2
  simp only [List.forall_mem_cons]
  exact ⟨randomOp_randoms fun _ _ _ => rfl, randomOp_randoms fun _ _ _ => rfl, nofun⟩

end

section
/-! Why the frame of the vector row's stores fails (R97, R127, R208): a store into another core's scratchpad writes back the words
that core holds. A takeover core stores so when the tensor lies outside the working range it redirects. -/

namespace Sys2Proof.Machine

variable {s : State} {core : CoreId} {o : VecOps} {d : Tensor}

/-! ### What a store takes from the holding buffer -/

/-- No word that a cell lies in is held after the cells are stored (R127). -/
theorem storeCells_held_none (hs : s.Canonical) {l : Cells} {a : Nat} {b : Byte} (hc : (a, b) ∈ l) (hlt : a < 0x80000000) :
    heldData ((storeCells s l).core (a / 0x8000000)).held (a % 0x8000000 / 64) = none := by
  obtain ⟨-, -, h⟩ := storeCells_flush l s hs.held
  have h := h (a, b) hc hlt
  dsimp only at h
  exact h

/-! ### STC of a column -/

/-- The cells of a column that takes no draws. -/
def stcCells (s : State) (core : Nat) (o : VecOps) (d : Tensor) : Cells :=
  (List.range 512).flatMap fun l => d.codeCells l o.imm.toNat
    (storeCode d (rndOf d.f.rnd 0) ((s.core core).vreg.get (o.dst.toNat * 512 + l)) l o.imm.toNat)

theorem vecRow_stc (hb : bound (s.count (0x3060 + core) 1 64 1) (vecEnv s core) o true 0x53 = .ok d) (hl : d.layout = 3)
    (hst : d.stored 0 o.imm.toNat = true) (hd : drawsOf d = false) (ha : hasAreas d.f.fmt = false)
    (hp : partialHalf s (s.placed (stcCells s core o d)) = none) :
    vecRow core (stepStc o) s
      = (storeCells (s.count (0x3060 + core) 1 64 1) (s.placed (stcCells s core o d))).noteWrite (vecEnv s core) := by
  have hdraws : storeDraws (vecEnv s core) (s.count (0x3060 + core) 1 64 1) d 1
      = .ok (fun _ _ => rndOf d.f.rnd 0, s.count (0x3060 + core) 1 64 1) := by
    unfold storeDraws
    rw [hd]
    rfl
  have hcommit : commitCells (s.count (0x3060 + core) 1 64 1) (stcCells s core o d)
      = .ok (storeCells (s.count (0x3060 + core) 1 64 1) (s.placed (stcCells s core o d))) := commitCells_of_none hp
  refine vecRow_of_ok ?_
  unfold stepStc
  rw [hb]
  dsimp only [bind, Except.bind]
  rw [needParam, need_of_true (by rw [hl, hst]; rfl), hdraws]
  dsimp only
  simp only [ha, Bool.false_eq_true, if_false]
  exact congrArg (fun x : Chk State => atSlot (boundSlot (s.count (0x3060 + core) 1 64 1) (vecEnv s core) o)
    (x.map fun t => t.noteWrite (vecEnv s core))) hcommit

/-- An element of 1 byte or more has a cell at its address. -/
theorem codeAddr_mem_codeCells (d : Tensor) (r c code : Nat) (h : 0 < elemSize d.f.fmt) :
    ∃ b, (d.codeAddr r c, b) ∈ d.codeCells r c code := by
  obtain ⟨n, hn⟩ := Nat.exists_eq_succ_of_ne_zero h.ne'
  refine ⟨BitVec.ofNat 8 code, ?_⟩
  unfold Tensor.codeCells cellsAt
  rw [hn, bytesOf, List.mapIdx_cons]
  exact List.mem_cons_self

theorem stcCells_first (s : State) (core : Nat) (o : VecOps) (h : 0 < elemSize d.f.fmt) :
    ∃ b, (d.codeAddr 0 o.imm.toNat, b) ∈ stcCells s core o d := by
  obtain ⟨b, hb⟩ := codeAddr_mem_codeCells d 0 o.imm.toNat _ h
  exact ⟨b, List.mem_flatMap.2 ⟨0, List.mem_range.2 (by decide), hb⟩⟩

/-- Without an uncorrectable half no write covers one in part. -/
theorem partialHalf_of_noBad {s : State} (h : s.sramBad.entries = []) (l : Cells) : partialHalf s l = none := by
  unfold partialHalf
  rw [h]
  rfl

/-- An STC to another core's scratchpad leaves that core without the word of the column's first element. -/
theorem execStc_held_none {a : Nat} (hs : s.Canonical) (hbad : s.sramBad.entries = [])
    (hb : bound (s.count (0x3060 + core) 1 64 1) (vecEnv s core) o true 0x53 = .ok d) (hl : d.layout = 3)
    (hst : d.stored 0 o.imm.toNat = true) (hd : drawsOf d = false) (ha : hasAreas d.f.fmt = false) (hes : 0 < elemSize d.f.fmt)
    (hadr : redirectBy s.redirects (d.codeAddr 0 o.imm.toNat) = a) (hlt : a < 0x80000000) (hne : a / 0x8000000 ≠ core) :
    ∃ t, exec (.vStc core o) s = .next t ∧ heldData (t.core (a / 0x8000000)).held (a % 0x8000000 / 64) = none := by
  obtain ⟨b, hcell⟩ := stcCells_first s core o hes
  have hmem : (a, b) ∈ s.placed (stcCells s core o d) := List.mem_map.2 ⟨_, hcell, by rw [hadr]⟩
  have hcanon : (s.count (0x3060 + core) 1 64 1).Canonical := (State.count_keeps (Keeps.refl _)).canon hs
  refine ⟨_, congrArg Host.Outcome.next (vecRow_stc hb hl hst hd ha (partialHalf_of_noBad hbad _)), ?_⟩
  rw [State.noteWrite_core_ne _ _ hne]
  exact storeCells_held_none hcanon hmem hlt

/-! ### A takeover core that stores into the failed core's scratchpad -/

/-- The descriptor of a BF16 tensor of one FEED_ACT column at the start of core 1's scratchpad. -/
def carriedWord : Nat := 1 + 3 * 2 ^ 16 + 512 * 2 ^ 32 + 2 ^ 56 + winOf 1 * 2 ^ 80

/-- Cores 0 and 1 are of partition 0. Core 0 runs a VEC of the work of core 1, which it carries; binding 0 is a destination, in core
1's scratchpad. Core 1 holds that scratchpad's word 0. -/
def carriedVec : State :=
  (([0x3010, 0x3011].foldl (fun s i => s.setObj i 2 0) State.reset).setCore 0 {
    vec := { ctx := 4, binds := [8], wmask := 1, used := 1 }
    carries := some 1
    slots := Tab.empty.set (slotKey 4 8) { content := BitVec.ofNat 256 carriedWord } }).setCore 1 { held := [⟨0, 0⟩] }

/-- STC of V0 to column 0 of binding 0. -/
def carriedStc : VecOps := ⟨0, false, 0, 0, 0, 0, 0, 0, 0, false⟩

theorem carriedVec_canonical : carriedVec.Canonical := by
  refine ⟨by decide +kernel, by decide +kernel, by decide +kernel, by decide +kernel, by decide +kernel, by decide +kernel, fun c => ?_⟩
  unfold carriedVec
  rw [State.setCore_core_eq, State.setCore_core_eq]
  split_ifs
  · decide
  · decide
  · exact ⟨List.nodup_nil, fun _ h => absurd h List.not_mem_nil⟩

theorem carriedVec_bound :
    bound (carriedVec.count 0x3060 1 64 1) (vecEnv carriedVec 0) carriedStc true 0x53 = .ok (tensorOf carriedWord) := by
  decide +kernel

/-- The column's first element lies in the word that core 1 holds, and core 1 holds it no longer. -/
theorem carriedVec_stc_held : ∃ t, exec (.vStc 0 carriedStc) carriedVec = .next t ∧ heldData (t.core 1).held 0 = none :=
  execStc_held_none (a := winOf 1) carriedVec_canonical rfl carriedVec_bound (by decide +kernel) (by decide +kernel) (by decide +kernel)
    (by decide +kernel) (by decide +kernel) (by decide +kernel) (by decide) (by decide)

end Sys2Proof.Machine

open Sys2Proof.Machine

/-- Refutes O22: the core that stores is not the only one that changes. In `carriedVec` core 0 stores into the scratchpad of core 1,
whose work it carries, and core 1's holding buffer gives up the word that the store covers. -/
theorem not_vectorLoadsAndStores : ¬ Obligations.VectorLoadsAndStores := by
  intro h
  obtain ⟨t, hx, ⟨-, hcores, -⟩, -⟩ := (h.2 0 carriedStc (tensorOf carriedWord) carriedVec _ carriedVec_canonical rfl (by decide +kernel)
    (by decide +kernel)).1 carriedVec_bound (by decide +kernel) (by decide +kernel) (partialHalf_of_noBad rfl _)
  obtain ⟨u, hu, hheld⟩ := carriedVec_stc_held
  obtain rfl : t = u := Host.Outcome.next.inj (hx.symm.trans hu)
  rw [hcores 1 (by decide)] at hheld
  exact absurd hheld (by decide +kernel)

end

section
/-! Why the frame of the tile mover's commands fails (R28, R181–R183, R377): a read through an outbound host window takes a free
value of the model, and the mover may read its source there. -/

namespace Sys2Proof.Machine

/-! ### The model's counter of free values -/

/-- The model's counter of free values stands at `f`. -/
def State.FreeAt (s : State) (f : Nat) : Prop := s.freeCtr = f

section

variable {s t : State} {f : Nat}

theorem State.FreeAt.ite {c : Prop} [Decidable c] (hs : s.FreeAt f) (ht : t.FreeAt f) : (if c then s else t).FreeAt f := by
  split
  · exact hs
  · exact ht

theorem State.FreeAt.count (h : s.FreeAt f) (i k w n : Nat) : (s.count i k w n).FreeAt f := h

theorem State.FreeAt.emit (h : s.FreeAt f) (o : Output) : (s.emit o).FreeAt f := h

theorem State.FreeAt.flushHeld (h : s.FreeAt f) (c w v : Nat) : (s.flushHeld c w v).FreeAt f := by
  rw [State.flushHeld_frame]
  exact h

theorem State.FreeAt.portWrites (h : s.FreeAt f) (c n : Nat) : (s.portWrites c n).FreeAt f := .ite h (h.count ..)

theorem State.FreeAt.countHost (h : s.FreeAt f) (k a n : Nat) : (s.countHost k a n).FreeAt f := .ite h (h.count ..)

theorem State.FreeAt.storeCells (h : s.FreeAt f) (l : Cells) : (storeCells s l).FreeAt f :=
  List.foldlRecOn (motive := fun t : State => t.FreeAt f) _ _ h fun _ h _ _ => .ite (h.flushHeld ..) h

/-- A read through the host windows takes one free value: what the server answers (R28; log 4). -/
theorem State.FreeAt.hostGet (h : s.FreeAt f) (a n : Nat) : (s.hostGet a n).FreeAt (f + 1) := by
  have hnext : State.FreeAt { s with freeCtr := s.freeCtr + 1 } (f + 1) := congrArg (· + 1) h
  unfold State.hostGet
  exact .ite ((hnext.emit _).countHost ..) ((((hnext.emit _).countHost ..).emit _).countHost ..)

/-- A write of the mover that is not recorded and meets no half in part. -/
theorem State.FreeAt.moverWrite {e : Env} {l : Cells} (h : s.FreeAt f) (hr : s.recorded e = false)
    (hp : partialHalf s (s.placed l) = none) : ∃ u, Machine.moverWrite s e l = .ok u ∧ u.FreeAt f := by
  unfold Machine.moverWrite
  rw [hr, if_neg Bool.false_ne_true]
  dsimp only
  rw [commitCells_of_none hp]
  exact ⟨_, rfl, List.foldlRecOn (motive := fun t : State => t.FreeAt f) _ _ (h.storeCells _) fun _ h _ _ => h.portWrites ..⟩

/-- The mover's read of one span behind a host window takes one free value. -/
theorem State.FreeAt.moverReads_host {a n : Nat} (h : s.FreeAt f) (ha : hostBase ≤ a) (hn : 0 < n) :
    (moverReads s [(a, n)]).FreeAt (f + 1) := by
  have hread : (s.countBulk 1 a n).FreeAt (f + 1) := by
    unfold State.countBulk
    rw [if_neg fun hb => absurd hb.2 (Nat.not_lt.2 ha), if_pos ⟨ha, rfl, hn⟩]
    exact h.hostGet a n
  exact List.foldlRecOn (motive := fun t : State => t.FreeAt (f + 1)) _ _ hread fun _ h _ _ => .ite h (h.count ..)

theorem State.FreeAt.moverDone (h : s.FreeAt f) (e : Env) (dst : Nat) (d : Tensor) : (moverDone s e dst d).FreeAt f := h

theorem State.FreeAt.issued (h : s.FreeAt f) (e : Env) : (s.issued e).FreeAt f := h

/-- A mover command leaves the counter, as its frame says. -/
theorem MoverDone.freeAt {core : CoreId} {ctx : CtxId} {e : Env} {dst : Nat} {w : Cells} (h : MoverDone s t core ctx e dst w) :
    t.FreeAt s.freeCtr := by
  obtain ⟨-, -, -, -, h⟩ := h
  rw [h]
  rfl

end

/-! ### GATHER of one block behind a host window -/

section

variable {s : State} {core : CoreId} {ctx : CtxId} {e : Env} {g : ListArgs} {x : Nat × Nat}

theorem atSlot_of_ok {α : Type} (sl : Nat) (a : α) : atSlot sl (.ok a) = .ok a := rfl

theorem gatherAll_one (ht : g.table = none) (hk : g.packed = false) (hx : (nullEntry x || !g.src.inGrid x.1 x.2) = false)
    (hr : readSpans s (blockSpans g.src (g.src.block x.1 x.2)) = .ok ()) :
    ∃ w, gatherAll s e g 0 [x] = .ok (w, blockSpans g.src (g.src.block x.1 x.2), s) := by
  have hblock : gatherBlock s e g (g.src.block x.1 x.2)
      = .ok (blockBytes s g.src (g.src.block x.1 x.2), blockSpans g.src (g.src.block x.1 x.2), s) := by
    unfold gatherBlock
    rw [ht, hk]
    dsimp only
    rw [if_neg Bool.false_ne_true, hr]
    rfl
  unfold gatherAll gatherAll
  rw [hx, if_neg Bool.false_ne_true, hblock]
  exact ⟨blockCells g.dst 0 (blockBytes s g.src (g.src.block x.1 x.2)) ++ [],
    congrArg (fun l => Except.ok (_, l, s)) (List.append_nil _)⟩

/-- A GATHER whose list is read and whose destination takes the write. -/
theorem gatherCommand_of_all {w : Cells} {l : Spans} {u : State} (hargs : listArgs s e true = .ok (g, s))
    (hf : g.src.f.fmt = g.dst.f.fmt) (hk : g.src.f.kst = g.dst.f.kst) (hlen : g.entries.length ≤ g.dst.tiles * 32)
    (hall : gatherAll s e g 0 g.entries = .ok (w, l, s)) (hu : moverWrite s e w = .ok u) :
    gatherCommand e s = .ok (moverDone (countRange (moverReads u l) e g.src g.entries) e (e.f 16 8) g.dst) := by
  unfold gatherCommand
  rw [hargs]
  dsimp only [bind, Except.bind]
  rw [need_of_true (by simp only [hf, hk, beq_self_eq_true, Bool.and_self])]
  dsimp only
  rw [needParam, need_of_true (decide_eq_true hlen), atSlot_of_ok]
  dsimp only
  rw [hall, atSlot_of_ok]
  dsimp only
  rw [hu, atSlot_of_ok]

/-- A GATHER of one entry, whose block lies in one span behind a host window, takes one free value. -/
theorem execGather_host {a n : Nat} (hat : AtHead s core ctx 0x11 e) (hargs : listArgs s e true = .ok (g, s))
    (ht : g.table = none) (hpk : g.packed = false) (hf : g.src.f.fmt = g.dst.f.fmt) (hk : g.src.f.kst = g.dst.f.kst)
    (hlen : g.entries.length ≤ g.dst.tiles * 32) (he : g.entries = [x]) (hx : (nullEntry x || !g.src.inGrid x.1 x.2) = false)
    (hspans : blockSpans g.src (g.src.block x.1 x.2) = [(a, n)]) (hread : readSpans s [(a, n)] = .ok ()) (ha : hostBase ≤ a) (hn : 0 < n)
    (hr : s.recorded e = false) (hbad : s.sramBad.entries = []) :
    ∃ t, exec (.gather core ctx) s = .next t ∧ t.FreeAt (s.freeCtr + 1) := by
  obtain ⟨w, hall⟩ := gatherAll_one (s := s) (e := e) ht hpk hx (hspans ▸ hread)
  obtain ⟨u, hu, hfree⟩ := State.FreeAt.moverWrite (l := w) (rfl : s.FreeAt s.freeCtr) hr (partialHalf_of_noBad hbad _)
  have hcmd := gatherCommand_of_all hargs hf hk hlen (he ▸ hall) hu
  rw [hspans] at hcmd
  exact ⟨_, congrArg Host.Outcome.next (issue_of_ok hat (congrArg (Res.of s) hcmd)),
    ((((hfree.moverReads_host ha hn).count ..).moverDone ..)).issued e⟩

end

/-! ### WINDOW of an input behind a host window -/

section

variable {s : State} {core : CoreId} {ctx : CtxId} {e : Env} {a b : Tensor} {n : Nat}

/-- The cells of a WINDOW: a tile for each tap of the walk (R118, R119). -/
def windowCells (s : State) (e : Env) (a b : Tensor) : Cells :=
  let w := walkOf (s.content e (e.f 24 8))
  (List.range (w.kh * w.kw)).flatMap fun t => (List.range 512).flatMap fun r => (List.range 64).flatMap fun c =>
    b.codeCells ((b.tilePos t).1 * 512 + r) ((b.tilePos t).2 * 64 + c)
      (if (b.tilePos t).1 * 512 + r ≥ b.rows ∨ (b.tilePos t).2 * 64 + c ≥ b.cols then 0
        else windowCode s w a (w.mBase + e.f 64 32 + r) (e.f 32 16 + c) (e.f 48 2) (t / w.kw) (t % w.kw))

/-- The checks of a WINDOW of an input at `n` (R107, R118, R173, R183). -/
structure WindowChecks (s : State) (e : Env) (a b : Tensor) (n : Nat) : Prop where
  fields : onlyFields e.word [(0, 8), (8, 8), (16, 8), (24, 8), (32, 16), (48, 2), (64, 32)] = true
  padv   : e.f 48 2 ≠ 3
  board  : board s e [(e.f 8 8, kTensor), (e.f 24 8, kWalk)] [(e.f 16 8, kTensor)] = .ok ()
  src    : slotTensor s e false false (e.f 8 8) = .ok a
  dst    : moverDst s e (e.f 16 8) = .ok b
  fmt    : a.f.fmt = b.f.fmt
  layout : a.layout = 2 ∧ b.layout = 0
  tiles  : (walkOf (s.content e (e.f 24 8))).kh * (walkOf (s.content e (e.f 24 8))).kw ≤ b.tiles
  walk   : (walkOf (s.content e (e.f 24 8))).ok a.f.fmt = true ∧ (walkOf (s.content e (e.f 24 8))).groups = 1
  chan   : e.f 32 16 % 32 = 0 ∧ e.f 32 16 < (walkOf (s.content e (e.f 24 8))).cg
  span   : spanCheck s e false a.base (walkOf (s.content e (e.f 24 8))).inputBytes = .ok n
  read   : readSpans s [(n, (walkOf (s.content e (e.f 24 8))).inputBytes)] = .ok ()

theorem windowCommand_of_checks {u : State} (h : WindowChecks s e a b n) (hu : moverWrite s e (windowCells s e a b) = .ok u) :
    windowCommand e s
      = .ok (moverDone (moverReads u [(n, (walkOf (s.content e (e.f 24 8))).inputBytes)]) e (e.f 16 8) b) := by
  obtain ⟨hla, hlb⟩ := h.layout
  obtain ⟨hwalk, hgroups⟩ := h.walk
  obtain ⟨hch, hcg⟩ := h.chan
  unfold windowCommand
  dsimp only [bind, Except.bind]
  rw [fieldsOnly, needParam, need_of_true h.fields]
  dsimp only
  rw [needParam, need_of_true (bne_iff_ne.2 h.padv), h.board, h.src, h.dst]
  dsimp only
  rw [need_of_true (beq_iff_eq.2 h.fmt)]
  dsimp only
  rw [needParam, need_of_true (beq_iff_eq.2 hla), atSlot_of_ok]
  dsimp only
  rw [needParam, need_of_true (by rw [hlb, decide_eq_true h.tiles]; rfl), atSlot_of_ok]
  dsimp only
  rw [needParam, need_of_true (by rw [hwalk, hgroups]; rfl), atSlot_of_ok]
  dsimp only
  rw [needParam, need_of_true (by rw [decide_eq_true hch, decide_eq_true hcg]; rfl)]
  dsimp only
  rw [h.span, atSlot_of_ok]
  dsimp only
  rw [h.read, atSlot_of_ok]
  dsimp only
  unfold windowCells at hu
  dsimp only at hu
  rw [hu, atSlot_of_ok]

/-- A WINDOW of an input behind a host window takes one free value. -/
theorem execWindow_host (hat : AtHead s core ctx 0x14 e) (h : WindowChecks s e a b n) (hn : hostBase ≤ n)
    (hpos : 0 < (walkOf (s.content e (e.f 24 8))).inputBytes) (hr : s.recorded e = false) (hbad : s.sramBad.entries = []) :
    ∃ t, exec (.window core ctx) s = .next t ∧ t.FreeAt (s.freeCtr + 1) := by
  obtain ⟨u, hu, hfree⟩ := State.FreeAt.moverWrite (l := windowCells s e a b) (rfl : s.FreeAt s.freeCtr) hr (partialHalf_of_noBad hbad _)
  exact ⟨_, congrArg Host.Outcome.next (issue_of_ok hat (congrArg (Res.of s) (windowCommand_of_checks h hu))),
    ((hfree.moverReads_host hn hpos).moverDone ..).issued e⟩

end

/-! ### A device whose tile mover reads behind a host window -/

/-- A server is linked and window 0 enabled; partition 0 runs a step, and core 0 of it is LIVE. -/
def linkedDevice : State :=
  { ([(0x1140, 2, 1), (0x3010, 1, 0), (0x3010, 2, 0), (0x3100, 2, 3)].foldl (fun s x => s.setObj x.1 x.2.1 x.2.2) State.reset).setPart 0
      { inStep := true } with serverUp := true }

/-- On core 0 of that device: the command `word` at the head of the tile-mover queue, in the first 32 bytes of the scratchpad, and the
slots it names. -/
def linkedMover (word : Nat) (slots : Tab slotReset) : State :=
  { linkedDevice.setCore 0 { clock := true, ctxs := Tab.empty.set 2 { live := true, len := 1 }, slots } with
    mem := Tab.empty.setList 0 (bytesOf 32 word) }

/-- What the head of that queue is. -/
def linkedEnv (word : Nat) : Env := ⟨0, 2, 0, 0, 0, word⟩

theorem linkedMover_canonical (word : Nat) (slots : Tab slotReset) : (linkedMover word slots).Canonical := by
  refine ⟨Tab.setList_wf _ _ _ Tab.empty_wf, Tab.empty_wf, Tab.empty_wf, ?_, Tab.set_wf _ _ _ Tab.empty_wf, ?_, fun c => ?_⟩
  · have h : linkedDevice.objs.wf := by decide +kernel
    exact h
  · have h : linkedDevice.parts.wf := by decide +kernel
    exact h
  · have h : ((linkedMover word slots).core c).held = [] := by
      refine (congrArg Core.held (State.setCore_core_eq ..)).trans ?_
      split <;> rfl
    rw [h]
    exact ⟨List.nodup_nil, fun _ h => absurd h List.not_mem_nil⟩

/-- A READY slot of a kind. -/
def readySlot (kind content : Nat) : Slot := { content := BitVec.ofNat 256 content, kind := BitVec.ofNat 3 kind, st := .ready }

/-- The descriptor of a BLOCKED FP8 tensor of one block. -/
def oneBlock (base : Nat) : Nat := 2 + 32 * 2 ^ 32 + 32 * 2 ^ 56 + base * 2 ^ 80

/-- GATHER to slot 2 of one block of slot 1, which the list in slot 3 names. -/
def gatherWord : Nat := 0x11 + 1 * 2 ^ 8 + 2 * 2 ^ 16 + 3 * 2 ^ 24 + 1 * 2 ^ 32

/-- The source of the GATHER lies behind the window, its destination in the scratchpad; its list of one entry reads block (0, 0). -/
def linkedGather : State := linkedMover gatherWord
  (((Tab.empty.set 1 (readySlot kTensor (oneBlock hostBase))).set 2 (readySlot kTensor (oneBlock 0x40000))).set 3
    (readySlot kList (0x1000 + 1 * 2 ^ 64)))

def linkedGatherArgs : ListArgs := ⟨tensorOf (oneBlock hostBase), tensorOf (oneBlock 0x40000), [(0, 0)], none, false⟩

theorem linkedGather_atHead : AtHead linkedGather 0 2 0x11 (linkedEnv gatherWord) := by
  unfold AtHead
  decide +kernel

theorem linkedGather_args : listArgs linkedGather (linkedEnv gatherWord) true = .ok (linkedGatherArgs, linkedGather) := by
  decide +kernel

/-- The one block read is 1,024 bytes at the window's base. -/
theorem linkedGather_spans :
    blockSpans linkedGatherArgs.src (linkedGatherArgs.src.block 0 0) = [(hostBase, 1024)]
      ∧ readSpans linkedGather [(hostBase, 1024)] = .ok () := by
  decide +kernel

theorem linkedGather_takes : ∃ t, exec (.gather 0 2) linkedGather = .next t ∧ t.FreeAt (linkedGather.freeCtr + 1) :=
  execGather_host (x := (0, 0)) linkedGather_atHead linkedGather_args rfl rfl rfl rfl (by decide +kernel) rfl (by decide +kernel)
    linkedGather_spans.1 linkedGather_spans.2 (Nat.le_refl _) (by decide) (by decide +kernel) rfl

/-- The descriptor of a CHANNELS_LAST FP8 input of 4 × 1 pixels of 32 channels, and a walk of two taps over it. -/
def inputWord : Nat := 2 + 2 * 2 ^ 16 + 4 * 2 ^ 32 + 32 * 2 ^ 56 + hostBase * 2 ^ 80 + 2 * 2 ^ 160
def tapsWord : Nat := 4 + 1 * 2 ^ 16 + 3 * 2 ^ 32 + 1 * 2 ^ 48 + 32 * 2 ^ 64 + 2 ^ 80 + 2 ^ 96 + 2 ^ 128 + 2 * 2 ^ 192

/-- The descriptor of a BLOCKED FP8 tensor of two tiles in the scratchpad, for the two taps. -/
def tapTiles : Nat := 2 + 512 * 2 ^ 32 + 128 * 2 ^ 56 + 0x40000 * 2 ^ 80

/-- WINDOW of slot 1 by the walk in slot 3 to slot 2. -/
def windowWord : Nat := 0x14 + 1 * 2 ^ 8 + 2 * 2 ^ 16 + 3 * 2 ^ 24

/-- The input of the WINDOW lies behind the window. -/
def linkedWindow : State := linkedMover windowWord
  (((Tab.empty.set 1 (readySlot kTensor inputWord)).set 2 (readySlot kTensor tapTiles)).set 3 (readySlot kWalk tapsWord))

theorem linkedWindow_atHead : AtHead linkedWindow 0 2 0x14 (linkedEnv windowWord) := by
  unfold AtHead
  decide +kernel

theorem linkedWindow_checks : WindowChecks linkedWindow (linkedEnv windowWord) (tensorOf inputWord) (tensorOf tapTiles) hostBase :=
  ⟨by decide +kernel, by decide +kernel, by decide +kernel, by decide +kernel, by decide +kernel, by decide +kernel, by decide +kernel,
    by decide +kernel, by decide +kernel, by decide +kernel, by decide +kernel, by decide +kernel⟩

theorem linkedWindow_takes : ∃ t, exec (.window 0 2) linkedWindow = .next t ∧ t.FreeAt (linkedWindow.freeCtr + 1) :=
  execWindow_host linkedWindow_atHead linkedWindow_checks (Nat.le_refl _) (by decide +kernel) (by decide +kernel) rfl

/-- A mover command that takes a free value is no `MoverDone`. -/
theorem MoverDone.not_takes {s t u : State} {core : CoreId} {ctx : CtxId} {e : Env} {dst : Nat} {w : Cells} {i : Instr}
    (h : MoverDone s t core ctx e dst w) (ht : exec i s = .next t) (hu : exec i s = .next u) : ¬ u.FreeAt (s.freeCtr + 1) := by
  obtain rfl : t = u := Host.Outcome.next.inj (ht.symm.trans hu)
  exact fun hf => absurd (h.freeAt.symm.trans hf) (Nat.ne_of_lt (Nat.lt_succ_self _))

end Sys2Proof.Machine

open Sys2Proof.Machine

/-- Refutes O25: the model's counter of free values changes too. The GATHER of `linkedGather` reads its block behind a host window. -/
theorem not_moveGatherScatterCopy : ¬ Obligations.MoveGatherScatterCopy := by
  intro h
  obtain ⟨-, hgather, -⟩ := h 0 2 (linkedEnv gatherWord) linkedGatherArgs.src linkedGatherArgs.dst linkedGatherArgs linkedGather
    (linkedMover_canonical ..) (by decide +kernel)
  have hread : ∀ x ∈ linkedGatherArgs.entries, nullEntry x = false → linkedGatherArgs.src.inGrid x.1 x.2 = true →
      readSpans linkedGather (blockSpans linkedGatherArgs.src (linkedGatherArgs.src.block x.1 x.2)) = .ok () := by
    decide +kernel
  obtain ⟨t, ht, hdone⟩ := hgather linkedGather_atHead linkedGather_args rfl rfl rfl rfl (by decide +kernel) hread
    (partialHalf_of_noBad rfl _)
  obtain ⟨u, hu, hfree⟩ := linkedGather_takes
  exact hdone.not_takes ht hu hfree

/-- Refutes O26: the model's counter of free values changes too. The WINDOW of `linkedWindow` reads its input behind a host window. -/
theorem not_scatterAddAndWindowWrite : ¬ Obligations.ScatterAddAndWindowWrite := by
  intro h
  obtain ⟨-, hwindow⟩ := h 0 2 (linkedEnv windowWord) linkedWindow (linkedMover_canonical ..) (by decide +kernel)
  obtain ⟨hfields, hpadv, hboard, hsrc, hdst, hfmt, ⟨hla, hlb⟩, htiles, ⟨hwalk, hgroups⟩, ⟨hch, hcg⟩, hspan, hread⟩ := linkedWindow_checks
  obtain ⟨t, ht, hdone⟩ := hwindow _ _ _ linkedWindow_atHead hfields hpadv hboard hsrc hdst hfmt hla hlb htiles hwalk hgroups hch hcg
    hspan hread (partialHalf_of_noBad rfl _)
  obtain ⟨u, hu, hfree⟩ := linkedWindow_takes
  exact hdone.not_takes ht hu hfree

end

section
/-! What the operations on memory at rest leave alone (R127, R131, R137, R155, R397, R423): registers but those they name, the
logs, the tables beside their own. -/

namespace Sys2Proof.Machine

variable {s t u : State} {l m : List (Nat × Nat)}

/-! ### Registers and logs -/

theorem SameObjs.refl (s : State) : SameObjs s s [] := .of_obj fun _ _ => rfl

theorem State.count_sameObjs (s : State) {i k : Nat} (w n : Nat) (hk : k < 256) : SameObjs s (s.count i k w n) [(i, k)] :=
  State.setObj_sameObjs hk

theorem State.countSat_sameObjs (s : State) {i k : Nat} (w n : Nat) (hk : k < 256) : SameObjs s (s.countSat i k w n) [(i, k)] :=
  State.setObj_sameObjs hk

theorem State.logEvent_sameObjs (s : State) (unit code detail : Nat) : SameObjs s (s.logEvent unit code detail) [(0x2400, 5)] := by
  unfold State.logEvent
  dsimp only
  generalize (if s.now / 1000000 = s.msIndex then s.msCount else 0) = n
  split
  · exact State.count_sameObjs (i := 0x2400) (k := 5) { s with msIndex := _, msCount := _, gapDue := true } 32 1 (by decide)
  · exact fun _ _ _ _ => rfl

theorem State.obj_congr (h : t.objs = s.objs) (i k : Nat) : t.obj i k = s.obj i k := congrArg (fun x : ObjTab => x.get _) h

theorem State.core_congr (h : t.cores = s.cores) (d : Nat) : t.core d = s.core d := congrArg (fun x : Tab coreReset => x.get d) h

theorem State.rawByte_setObj (s : State) (i k v x : Nat) : (s.setObj i k v).rawByte x = s.rawByte x := rfl

/-- From `s` to `t` nothing has been logged and no time has passed: the next event is made under the same number (R423, R424). -/
structure LogStays (s t : State) : Prop where
  now     : t.now = s.now
  msIndex : t.msIndex = s.msIndex
  msCount : t.msCount = s.msCount
  seqNext : t.seqNext = s.seqNext

theorem LogStays.refl (s : State) : LogStays s s := ⟨rfl, rfl, rfl, rfl⟩

theorem LogStays.logged {unit code detail : Nat} (h : LogStays s u) (hr : s.logRoom) :
    Logged s (u.logEvent unit code detail) unit code detail := by
  have hru : u.logRoom := by
    unfold State.logRoom
    rw [h.now, h.msIndex, h.msCount]
    exact hr
  obtain ⟨e, he, hseq, h'⟩ := (State.logEvent_within (unit := unit) (code := code) (detail := detail) hru).logged
  exact ⟨e, he, hseq.trans (congrArg (· % 2 ^ 24) h.seqNext), h'⟩

theorem Logged.of_log {unit code detail : Nat} (h : Logged s t unit code detail) (hl : u.log = t.log) :
    Logged s u unit code detail := by
  unfold Logged
  rw [hl]
  exact h

/-- The device moves between IDLE and RUN: one register and the log (R379, R405). -/
theorem State.settlePower_noting (s : State) : s.settlePower = s.noting s.settlePower := by
  unfold State.settlePower
  dsimp only
  split_ifs
  · exact State.noting_trans rfl (State.logEvent_noting ..)
  · exact State.noting_trans rfl (State.logEvent_noting ..)
  · rfl

theorem State.settlePower_sameObjs (s : State) : SameObjs s s.settlePower [(0x2000, 1), (0x2400, 5)] := by
  unfold State.settlePower
  dsimp only
  split_ifs
  · exact (State.setObj_sameObjs (by decide)).append (State.logEvent_sameObjs _ _ _ _)
  · exact (State.setObj_sameObjs (by decide)).append (State.logEvent_sameObjs _ _ _ _)
  · exact fun _ _ _ _ => rfl

/-- The end of a scrub pass: the scrub debt and its register (R397). -/
theorem State.passDone_frame (s : State) (a : Nat) :
    s.passDone a = { s with objs := (s.passDone a).objs, debts := (s.passDone a).debts } := by
  unfold State.passDone
  split <;> rfl

theorem State.passDone_sameObjs (s : State) (a : Nat) : SameObjs s (s.passDone a) [(0x2101 + a, 6)] := by
  unfold State.passDone
  split
  · exact State.setObj_sameObjs (by decide)
  · exact fun _ _ _ _ => rfl

/-! ### Bytes counted as they pass (R160, R377) -/

/-- Counting bytes that pass writes a channel's counter of that subindex, or a host window's of the bytes read (R160, R377). -/
theorem State.countBulk_obj (s : State) {k : Nat} (a n : Nat) (hk : k < 256) {i j : Nat} (hj : j < 256)
    (hc : ¬ (0x3470 ≤ i ∧ i < 0x3480 ∧ j = k)) (hh : ¬ (0x1140 ≤ i ∧ j = 3)) : (s.countBulk k a n).obj i j = s.obj i j := by
  have hhost : ∀ (t : State) (a n : Nat), (t.countHost 3 a n).obj i j = t.obj i j := fun t a n => by
    unfold State.countHost
    split
    · rfl
    · exact State.setObj_obj_ne _ _ _ _ _ _ (by decide) hj fun e =>
        hh ⟨(Prod.mk.inj e).1 ▸ Nat.le_add_right .., (Prod.mk.inj e).2⟩
  unfold State.countBulk
  split
  · refine List.foldlRecOn _ _ (motive := fun t : State => t.obj i j = s.obj i j) rfl fun t h m hm => ?_
    have hm := List.mem_range.1 hm
    dsimp only
    split
    · exact h
    · exact (State.setObj_obj_ne _ _ _ _ _ _ hk hj (by simp; omega)).trans h
  · split
    · unfold State.hostGet
      dsimp only
      split
      · exact hhost _ _ _
      · exact (hhost _ _ _).trans (hhost _ _ _)
    · rfl

/-- Only registers, the model's counter of free values and the outputs have changed. -/
def OnlyCounts (s u : State) : Prop := u = { s with objs := u.objs, freeCtr := u.freeCtr, out := u.out }

theorem OnlyCounts.refl (s : State) : OnlyCounts s s := rfl

theorem OnlyCounts.trans (h : OnlyCounts s t) (g : OnlyCounts t u) : OnlyCounts s u :=
  Eq.trans g (congrArg (fun x : State => { x with objs := u.objs, freeCtr := u.freeCtr, out := u.out }) h)

theorem OnlyCounts.countBulk (h : OnlyCounts s u) (k a n : Nat) : OnlyCounts s (u.countBulk k a n) :=
  OnlyCounts.trans h (u.countBulk_frame k a n)

theorem OnlyCounts.count (h : OnlyCounts s u) (i k w n : Nat) : OnlyCounts s (u.count i k w n) :=
  Eq.trans (congrArg (fun x : State => x.count i k w n) h) rfl

theorem OnlyCounts.mem (h : OnlyCounts s u) : u.mem = s.mem := Eq.trans (congrArg State.mem h) rfl
theorem OnlyCounts.cores (h : OnlyCounts s u) : u.cores = s.cores := Eq.trans (congrArg State.cores h) rfl
theorem OnlyCounts.redirects (h : OnlyCounts s u) : u.redirects = s.redirects := Eq.trans (congrArg State.redirects h) rfl

/-! ### The holding buffer -/

theorem State.setHeld_core (s : State) (n : Nat) (h : List HeldWord) (d : Nat) :
    (s.setHeld n h).core d = if d = n then { s.core n with held := h } else s.core d := State.setCore_core_eq ..

theorem State.setHeld_onlyRegsCores (s : State) (n : Nat) (h : List HeldWord) : OnlyRegsCores s (s.setHeld n h) := rfl

theorem State.setHeld_sameObjs (s : State) (n : Nat) (h : List HeldWord) : SameObjs s (s.setHeld n h) [(0x3400 + n, 5)] :=
  State.setObj_sameObjs (s := s.setCore n { s.core n with held := h }) (by decide)

theorem State.portWrites_sameObjs (s : State) (c n : Nat) : SameObjs s (s.portWrites c n) [(0x3400 + c, 1)] := by
  unfold State.portWrites
  split
  · exact fun _ _ _ _ => rfl
  · exact State.setObj_sameObjs (by decide)

theorem State.flushHeld_sameObjs (s : State) (c w v : Nat) : SameObjs s (s.flushHeld c w v) [(0x3400 + c, 5), (0x3400 + c, 1)] := by
  unfold State.flushHeld
  dsimp only
  split
  · exact fun _ _ _ _ => rfl
  · exact SameObjs.append (State.setHeld_sameObjs { s with mem := _ } _ _) (State.portWrites_sameObjs _ _ _)

theorem State.flushHeld_core_ne (s : State) {c d : Nat} (w v : Nat) (h : d ≠ c) : (s.flushHeld c w v).core d = s.core d := by
  unfold State.flushHeld
  dsimp only
  split
  · rfl
  · rw [State.portWrites_core, State.setHeld_core, if_neg h]
    rfl

/-- Words cleared: the count of held words is the only register (R129). -/
theorem State.clearScratch_sameObjs (s : State) (n lo hi : Nat) : SameObjs s (s.clearScratch n lo hi) [(0x3400 + n, 5)] :=
  s.setHeld_sameObjs n _

/-! ### Waking a quadrant (R131) -/

theorem State.each_setCore_core (f : Core → Core) {l : List Nat} (hl : l.Nodup) (s : State) (d : Nat) :
    (s.each l fun s c => s.setCore c (f (s.core c))).core d = if d ∈ l then f (s.core d) else s.core d := by
  induction l generalizing s with
  | nil => rfl
  | cons c l ih =>
    obtain ⟨hc, hl⟩ := List.nodup_cons.1 hl
    refine (ih hl (s.setCore c (f (s.core c)))).trans ?_
    rw [State.setCore_core_eq]
    by_cases h : d = c
    · rw [h, if_neg hc, if_pos rfl, if_pos List.mem_cons_self]
    · simp only [if_neg h, List.mem_cons, or_iff_right h]

theorem State.each_setCore_onlyRegsCores (f : Core → Core) (l : List Nat) (s : State) :
    OnlyRegsCores s (s.each l fun s c => s.setCore c (f (s.core c))) :=
  List.foldlRecOn l _ (motive := OnlyRegsCores s) rfl fun _ h c _ => h.trans (State.setCore_onlyRegsCores _ c _)

theorem State.each_setCore_obj (f : Core → Core) (l : List Nat) (s : State) (i k : Nat) :
    (s.each l fun s c => s.setCore c (f (s.core c))).obj i k = s.obj i k :=
  List.foldlRecOn l _ (motive := fun t : State => t.obj i k = s.obj i k) rfl fun t h c _ => (t.setCore_obj c _ i k).trans h

/-- A quadrant woken before its PLLs start: ACTIVE, and counted from RETAINED. -/
def State.wokenRegs (s : State) (q : Nat) : State :=
  (if s.obj (0x3490 + q) 3 = 1 then s.count (0x3490 + q) 4 32 1 else s).setObj (0x3490 + q) 3 0

/-- The PLLs of a core that is woken start. -/
def Core.woken (c : Core) : Core := { c with pllStarting := !c.pll }

theorem State.wakeQuad_of_active {q : Nat} (h : s.obj (0x3490 + q) 3 = 0) : s.wakeQuad q = s := if_pos h

theorem State.wakeQuad_of_asleep {q : Nat} (h : s.obj (0x3490 + q) 3 ≠ 0) :
    s.wakeQuad q = (s.wokenRegs q).each (quadOf q) fun s c => s.setCore c (s.core c).woken := if_neg h

theorem mem_quadOf {q d : Nat} : d ∈ quadOf q ↔ d / 4 = q := by
  simp only [quadOf, List.mem_cons, List.not_mem_nil, or_false]
  omega

theorem OnlyRegsCores.parts (h : OnlyRegsCores s u) : u.parts = s.parts := Eq.trans (congrArg State.parts h) rfl

theorem State.wokenRegs_onlyRegsCores (s : State) (q : Nat) : OnlyRegsCores s (s.wokenRegs q) := by
  unfold State.wokenRegs
  split <;> rfl

theorem State.wokenRegs_core (s : State) (q d : Nat) : (s.wokenRegs q).core d = s.core d := by
  unfold State.wokenRegs
  split <;> rfl

theorem State.wakeQuad_onlyRegsCores (s : State) (q : Nat) : OnlyRegsCores s (s.wakeQuad q) := by
  by_cases h : s.obj (0x3490 + q) 3 = 0
  · rw [State.wakeQuad_of_active h]
    rfl
  · rw [State.wakeQuad_of_asleep h]
    exact OnlyRegsCores.trans (s.wokenRegs_onlyRegsCores q) (State.each_setCore_onlyRegsCores Core.woken (quadOf q) _)

theorem State.wakeQuad_obj {q : Nat} (h : s.obj (0x3490 + q) 3 ≠ 0) (i k : Nat) :
    (s.wakeQuad q).obj i k = (s.wokenRegs q).obj i k := by
  rw [State.wakeQuad_of_asleep h, State.each_setCore_obj Core.woken]

theorem State.wakeQuad_core {q : Nat} (h : s.obj (0x3490 + q) 3 ≠ 0) (d : Nat) :
    (s.wakeQuad q).core d = if d / 4 = q then (s.core d).woken else s.core d := by
  rw [State.wakeQuad_of_asleep h, State.each_setCore_core Core.woken (by simp [quadOf]), State.wokenRegs_core]
  exact if_congr mem_quadOf rfl rfl

/-- Waking counts a quadrant that was RETAINED, and one that was OFF not (R131). -/
theorem State.wokenRegs_obj (s : State) (q : Nat) :
    (s.wokenRegs q).obj (0x3490 + q) 3 = 0
      ∧ (s.wokenRegs q).obj (0x3490 + q) 4
        = if s.obj (0x3490 + q) 3 = 1 then counterAt 32 (s.obj (0x3490 + q) 4 + 1) else s.obj (0x3490 + q) 4 := by
  refine ⟨State.setObj_obj_self .., ?_⟩
  unfold State.wokenRegs
  rw [State.setObj_obj_ne _ _ _ _ _ _ (by decide) (by decide) (by simp)]
  split
  · exact State.count_obj_self ..
  · rfl

theorem State.wokenRegs_sameObjs (s : State) (q : Nat) : SameObjs s (s.wokenRegs q) [(0x3490 + q, 3), (0x3490 + q, 4)] := by
  unfold State.wokenRegs
  split
  · exact ((State.setObj_sameObjs (by decide)).append (State.setObj_sameObjs (by decide))).mono (by simp)
  · exact (State.setObj_sameObjs (by decide)).mono (by simp)

theorem State.wakeQuad_sameObjs (s : State) (q : Nat) : SameObjs s (s.wakeQuad q) [(0x3490 + q, 3), (0x3490 + q, 4)] := by
  by_cases h : s.obj (0x3490 + q) 3 = 0
  · rw [State.wakeQuad_of_active h]
    exact fun _ _ _ _ => rfl
  · exact fun i k hk hn => (State.wakeQuad_obj h i k).trans (s.wokenRegs_sameObjs q i k hk hn)

theorem State.wakeQuad_held (s : State) (q d : Nat) : ((s.wakeQuad q).core d).held = (s.core d).held := by
  by_cases h : s.obj (0x3490 + q) 3 = 0
  · rw [State.wakeQuad_of_active h]
  · rw [State.wakeQuad_core h]
    split <;> rfl

theorem State.wakeQuad_rawByte (s : State) (q x : Nat) : (s.wakeQuad q).rawByte x = s.rawByte x :=
  State.rawByte_congr (s.wakeQuad_onlyRegsCores q).mem (s.wakeQuad_held q) x

end Sys2Proof.Machine

end

section
/-! Scratchpads at rest (R127–R138, R385): what each operation on them leaves in memory, in the registers and in the cores. -/

namespace Sys2Proof.Machine

variable {s t u : State} {n : Nat}

/-! ### A word enters and leaves the holding buffer (R127) -/

theorem heldData_append (l k : List HeldWord) (w : Nat) : heldData (l ++ k) w = (heldData l w).or (heldData k w) := by
  simp only [heldData, List.find?_append, Option.map_or]

theorem bytesOf_length (n v : Nat) : (bytesOf n v).length = n := by
  induction n generalizing v with
  | zero => rfl
  | succ n ih => rw [bytesOf, List.length_cons, ih]

theorem granuleBytes_length (g : Granule) : (granuleBytes g).length = 64 := bytesOf_length ..

theorem granuleBytes_getD (g : Granule) {i : Nat} (h : i < 64) : (granuleBytes g).getD i 0 = heldByte g i := by
  rw [List.getD_eq_getElem?_getD, granuleBytes, bytesOf_getElem?, if_pos h]
  rfl

/-- A place in no core's window, or one in the window of core `c`. -/
theorem window_cases (x : Nat) : 0x80000000 ≤ x ∨ ∃ c a, c < 16 ∧ a < 0x8000000 ∧ x = winOf c + a := by
  by_cases h : 0x80000000 ≤ x
  · exact .inl h
  · exact .inr ⟨x / 0x8000000, x % 0x8000000, by omega, by omega, by simp only [winOf]; omega⟩

/-- A word that joins the holding buffer reads as its data, and every other byte as before. -/
theorem State.rawByte_heldAppend (hn : n < 16) {w : Nat} (hw : w < 0x200000) (g : Granule) (hh : heldData (s.core n).held w = none) :
    RawWritten s (s.setHeld n ((s.core n).held ++ [⟨w, g⟩])) (winOf n + 64 * w) (granuleBytes g) := by
  intro x
  rw [granuleBytes_length]
  obtain hx | ⟨c, a, hc, ha, rfl⟩ := window_cases x
  · rw [State.rawByte_other _ _ hx, State.rawByte_other _ _ hx, if_neg (by simp only [winOf]; omega), State.setHeld_mem]
  rw [State.rawByte_scratch _ _ _ hc ha, State.rawByte_scratch _ _ _ hc ha, State.setHeld_held_eq, State.setHeld_mem]
  by_cases e : c = n
  · subst e
    rw [if_pos rfl, heldData_append, heldData_cons]
    by_cases ew : w = a / 64
    · subst ew
      rw [hh, if_pos rfl, if_pos (by omega), granuleBytes_getD g (by omega)]
      exact congrArg (heldByte g) (by omega)
    · rw [if_neg ew, if_neg (by omega)]
      cases heldData (s.core c).held (a / 64) <;> rfl
  · rw [if_neg e, if_neg (by simp only [winOf]; omega)]

/-- Words written back lie in the window of their core. -/
theorem putHeld_get_outside {l : List HeldWord} (hl : HeldOk l) (m : ByteTab) {x : Nat}
    (hx : x < winOf n ∨ winOf n + 0x8000000 ≤ x) : (putHeld n m l).get x = m.get x := by
  obtain hx | hx := hx
  · exact putHeld_get_below n x l m hx
  · obtain ⟨a, rfl⟩ := Nat.exists_eq_add_of_le (Nat.le_trans (Nat.le_add_right ..) hx)
    rw [putHeld_get n a l m hl.1, heldData_of_ge l (a / 64) 0x200000 hl.2 (by omega)]

/-- The oldest held word reads as before when memory takes it over. -/
theorem State.rawByte_heldWriteback (hn : n < 16) {h : HeldWord} {rest : List HeldWord} (hh : (s.core n).held = h :: rest)
    (hok : HeldOk (h :: rest)) (x : Nat) : ({ s with mem := putHeld n s.mem [h] }.setHeld n rest).rawByte x = s.rawByte x := by
  have hone : HeldOk [h] := hok.sublist (List.singleton_sublist.2 List.mem_cons_self)
  obtain hx | ⟨c, a, hc, ha, rfl⟩ := window_cases x
  · rw [State.rawByte_other _ _ hx, State.rawByte_other _ _ hx]
    exact putHeld_get_outside hone s.mem (by simp only [winOf]; omega)
  rw [State.rawByte_scratch _ _ _ hc ha, State.rawByte_scratch _ _ _ hc ha, State.setHeld_held_eq, State.setHeld_mem]
  by_cases e : c = n
  · subst e
    have hrest : h.word = a / 64 → heldData rest (a / 64) = none := fun e => by
      simp only [heldData, Option.map_eq_none_iff, List.find?_eq_none, beq_iff_eq]
      exact fun y hy ey => (List.nodup_cons.1 hok.1).1 (List.mem_map.2 ⟨y, hy, ey.trans e.symm⟩)
    rw [if_pos rfl, hh, heldData_cons, putHeld_get c a [h] s.mem hone.1, heldData_cons]
    by_cases ew : h.word = a / 64
    · rw [hrest ew, if_pos ew, if_pos ew]
    · rw [if_neg ew, if_neg ew]
      rfl
  · rw [if_neg e, putHeld_get_outside hone s.mem (by simp only [winOf]; omega)]
    rfl

theorem State.flushHeld_held_sublist (s : State) (n w v : Nat) : ((s.flushHeld n w v).core n).held.Sublist (s.core n).held := by
  unfold State.flushHeld
  dsimp only
  split
  · exact List.Sublist.refl _
  · rw [State.portWrites_core, State.setHeld_held_eq, if_pos rfl]
    exact List.filter_sublist

/-- A word joins the buffer, counted, with the most that the buffer has held (R127, R129). -/
def State.wordHeld (s : State) (core word : Nat) (data : Granule) : State :=
  let l := (s.core core).held
  let s := (s.setHeld core (l ++ [⟨word, data⟩])).countSat (0x3400 + core) 4 32 1
  s.setObj (0x3400 + core) 6 (max (s.obj (0x3400 + core) 6) (l.length + 1))

/-- Other error marks on the scratchpads. -/
def State.withSramBad (s : State) (b : NatTab) : State := { s with sramBad := b }

theorem State.withSramBad_fields (s : State) (b : NatTab) :
    (s.withSramBad b).mem = s.mem ∧ (s.withSramBad b).cores = s.cores ∧ (s.withSramBad b).objs = s.objs
      ∧ (s.withSramBad b).parts = s.parts := ⟨rfl, rfl, rfl, rfl⟩

/-- HOLD with room in the buffer, once the words of its bank have gone back: beside error marks that go (R445), the word joins. -/
theorem State.holdWord_of_room {core word : Nat} {data : Granule} (h : (s.core core).held.length < 2048) :
    ∃ b, s.holdWord core word data = ((s.flushHeld core word word).wordHeld core word data).withSramBad b := by
  have hroom := (s.flushHeld_held_sublist core word word).length_le
  unfold State.holdWord State.wordHeld State.withSramBad
  dsimp only
  rw [if_neg (by omega)]
  exact ⟨_, rfl⟩

theorem State.wordHeld_core (s : State) (core word : Nat) (data : Granule) (d : Nat) :
    (s.wordHeld core word data).core d
      = if d = core then { s.core core with held := (s.core core).held ++ [⟨word, data⟩] } else s.core d := by
  unfold State.wordHeld
  dsimp only
  rw [State.setObj_core, State.countSat_eq, State.setObj_core, State.setHeld_core]

theorem State.wordHeld_sameObjs (s : State) (core word : Nat) (data : Granule) :
    SameObjs s (s.wordHeld core word data) [(0x3400 + core, 5), (0x3400 + core, 4), (0x3400 + core, 6)] :=
  SameObjs.append (SameObjs.append (s.setHeld_sameObjs core _) (State.countSat_sameObjs _ 32 1 (by decide)))
    (State.setObj_sameObjs (by decide))

theorem State.wordHeld_obj (s : State) (core word : Nat) (data : Granule) :
    (s.wordHeld core word data).obj (0x3400 + core) 4 = saturateAt 32 (s.obj (0x3400 + core) 4 + 1)
      ∧ (s.wordHeld core word data).obj (0x3400 + core) 5 = (s.core core).held.length + 1 := by
  unfold State.wordHeld State.setHeld
  dsimp only
  rw [State.countSat_eq]
  simp only [State.setObj_obj_eq, State.setCore_obj, Nat.reduceLT]
  simp

theorem State.rawByte_wordHeld (hn : n < 16) {w : Nat} (hw : w < 0x200000) (g : Granule) (hh : heldData (s.core n).held w = none) :
    RawWritten s (s.wordHeld n w g) (winOf n + 64 * w) (granuleBytes g) := fun x =>
  calc (s.wordHeld n w g).rawByte x
    _ = (State.countSat _ (0x3400 + n) 4 32 1).rawByte x := State.rawByte_setObj ..
    _ = (s.setHeld n _).rawByte x := State.rawByte_setObj ..
    _ = _ := State.rawByte_heldAppend hn hw g hh x

theorem State.wordHeld_parts (s : State) (n w : Nat) (g : Granule) : (s.wordHeld n w g).parts = s.parts := by
  unfold State.wordHeld
  dsimp only
  rw [State.setObj_parts, State.countSat_eq, State.setObj_parts]
  rfl

theorem State.wordHeld_heldData {w : Nat} (g : Granule) (hh : heldData (s.core n).held w = none) :
    heldData ((s.wordHeld n w g).core n).held w = some g := by
  rw [State.wordHeld_core, if_pos rfl, heldData_append, hh, heldData_cons, if_pos rfl]
  rfl

/-- HOLD with room in the buffer: its state but for the error marks. -/
theorem State.holdWord_spec {word : Nat} {data : Granule} (hs : s.Canonical) (hn : n < 16) (hw : word < 0x200000)
    (hroom : (s.core n).held.length < 2048) :
    let t := s.holdWord n word data
    RawWritten s t (winOf n + 64 * word) (granuleBytes data) ∧ heldData (t.core n).held word = some data
      ∧ t.obj (0x3400 + n) 4 = saturateAt 32 (s.obj (0x3400 + n) 4 + 1) ∧ t.obj (0x3400 + n) 5 = (t.core n).held.length
      ∧ (∀ d, d ≠ n → t.core d = s.core d) ∧ t.parts = s.parts
      ∧ SameObjs s t [(0x3400 + n, 1), (0x3400 + n, 4), (0x3400 + n, 5), (0x3400 + n, 6)] := by
  obtain ⟨b, hb⟩ := State.holdWord_of_room (word := word) (data := data) hroom
  obtain ⟨hmem, hcores, hobjs, hparts⟩ := ((s.flushHeld n word word).wordHeld n word data).withSramBad_fields b
  rw [← hb] at hmem hcores hobjs hparts
  have hnone := State.flushHeld_none s n word word word le_rfl le_rfl
  have hregs := s.flushHeld_sameObjs n word word
  have hraw := State.flushHeld_rawByte s n word word hn (hs.held n)
  have hflush : (s.flushHeld n word word).parts = s.parts := by rw [State.flushHeld_frame]
  have hother := fun d (hd : d ≠ n) => State.flushHeld_core_ne s word word hd
  generalize s.flushHeld n word word = u at *
  obtain ⟨h4, h5⟩ := u.wordHeld_obj n word data
  have hcore := fun d => (State.core_congr hcores d).trans (u.wordHeld_core n word data d)
  have hobj := State.obj_congr hobjs
  dsimp only
  refine ⟨fun x => ?bytes, ?data, ?counted, ?length, fun d hd => ?cores, ?parts, fun i k hk hn => ?regs⟩
  case bytes =>
    rw [State.rawByte_congr hmem (fun c => by rw [State.core_congr hcores]), State.rawByte_wordHeld hn hw data hnone, hraw]
  case data => rw [State.core_congr hcores, State.wordHeld_heldData data hnone]
  case counted => rw [hobj, h4, hregs _ _ (by decide) (by simp)]
  case length => rw [hobj, h5, hcore, if_pos rfl, List.length_append, List.length_singleton]
  case cores => rw [hcore, if_neg hd, hother d hd]
  case parts => rw [hparts, State.wordHeld_parts, hflush]
  case regs => exact (hobj i k).trans (((hregs.append (u.wordHeld_sameObjs n word data)).mono (by simp)) i k hk hn)

theorem State.portWrites_of_pos (s : State) (c : Nat) {k : Nat} (h : k ≠ 0) : s.portWrites c k = s.count (0x3400 + c) 1 64 k :=
  if_neg h

theorem State.holdWriteback_eq {h : HeldWord} {rest : List HeldWord} (hh : (s.core n).held = h :: rest) :
    s.holdWriteback n = ({ s with mem := putHeld n s.mem [h] }.setHeld n rest).count (0x3400 + n) 1 64 1 := by
  unfold State.holdWriteback
  rw [hh]
  exact State.portWrites_of_pos _ n Nat.one_ne_zero

/-- HOLD_WRITEBACK of the oldest word. -/
theorem State.holdWriteback_spec {h : HeldWord} {rest : List HeldWord} (hs : s.Canonical) (hn : n < 16)
    (hh : (s.core n).held = h :: rest) :
    let t := s.holdWriteback n
    (t.core n).held = rest ∧ t.obj (0x3400 + n) 5 = rest.length ∧ t.obj (0x3400 + n) 1 = counterAt 64 (s.obj (0x3400 + n) 1 + 1)
      ∧ (∀ a, t.rawByte a = s.rawByte a) ∧ (∀ d, d ≠ n → t.core d = s.core d) ∧ SameObjs s t [(0x3400 + n, 1), (0x3400 + n, 5)] := by
  have hraw := State.rawByte_heldWriteback hn hh (hh ▸ hs.held n)
  have hregs : SameObjs s ({ s with mem := putHeld n s.mem [h] }.setHeld n rest) [(0x3400 + n, 5)] :=
    State.setHeld_sameObjs { s with mem := _ } n rest
  have hcore := State.setHeld_core { s with mem := putHeld n s.mem [h] } n rest
  have hlen : ({ s with mem := putHeld n s.mem [h] }.setHeld n rest).obj (0x3400 + n) 5 = rest.length := State.setObj_obj_self ..
  dsimp only
  rw [State.holdWriteback_eq hh]
  generalize State.setHeld _ n rest = u at *
  refine ⟨?held, ?length, ?counted, fun a => (u.rawByte_count ..).trans (hraw a), fun d hd => ?cores, ?regs⟩
  case held => rw [State.count_eq, State.setObj_core, hcore, if_pos rfl]
  case length => rw [u.count_sameObjs 64 1 (by decide) _ _ (by decide) (by simp), hlen]
  case counted => rw [State.count_obj_self, hregs _ _ (by decide) (by simp)]
  case cores =>
    rw [State.count_eq, State.setObj_core, hcore, if_neg hd]
    rfl
  case regs => exact (hregs.append (u.count_sameObjs 64 1 (by decide))).mono (by simp)

/-! ### Wipes (R133–R135) -/

theorem LogStays.trans (h : LogStays s t) (g : LogStays t u) : LogStays s u :=
  ⟨g.now.trans h.now, g.msIndex.trans h.msIndex, g.msCount.trans h.msCount, g.seqNext.trans h.seqNext⟩

theorem OnlyRegsCores.logStays (h : OnlyRegsCores s u) (hn : u.now = s.now) : LogStays s u :=
  ⟨hn, Eq.trans (congrArg State.msIndex h) rfl, Eq.trans (congrArg State.msCount h) rfl, Eq.trans (congrArg State.seqNext h) rfl⟩

theorem State.setObj_logStays (s : State) {i k : Nat} (v : Nat) (hk : k < 256) (hn : (0x40A0, 1) ≠ (i, k)) :
    LogStays s (s.setObj i k v) := ⟨State.setObj_obj_ne _ _ _ _ _ _ hk (by decide) hn, rfl, rfl, rfl⟩

theorem State.count_logStays (s : State) {i k : Nat} (w n : Nat) (hk : k < 256) (hn : (0x40A0, 1) ≠ (i, k)) :
    LogStays s (s.count i k w n) := s.setObj_logStays _ hk hn

theorem State.setCore_logStays (s : State) (n : Nat) (c : Core) : LogStays s (s.setCore n c) := ⟨rfl, rfl, rfl, rfl⟩

theorem State.wakeQuad_logStays (s : State) (q : Nat) : LogStays s (s.wakeQuad q) :=
  (s.wakeQuad_onlyRegsCores q).logStays (s.wakeQuad_sameObjs q _ _ (by decide) (by simp))

/-- A vault cleared, counted and its trigger noted, before the event is logged. -/
def State.vaultCleared (s : State) (core : Nat) (tr : WipeTrigger) : State :=
  (((s.clearScratch core vaultOff scratchSize).abortCore core).count 0x34A0 (core + 1) 32 1).setObj 0x34A0 0x11 (wipeNum tr)

theorem State.wipeVault_eq (s : State) (core : Nat) (tr : WipeTrigger) :
    s.wipeVault core tr = (s.vaultCleared core tr).logEvent core 0x0201 (wipeNum tr) := rfl

theorem State.abortCore_sameObjs (s : State) (core : Nat) : SameObjs s (s.abortCore core) [] := SameObjs.refl s

theorem State.vaultCleared_sameObjs (s : State) {core : Nat} (tr : WipeTrigger) (hc : core < 16) :
    SameObjs s (s.vaultCleared core tr) [(0x3400 + core, 5), (0x34A0, core + 1), (0x34A0, 0x11)] := by
  have hclear := (s.clearScratch_sameObjs core vaultOff scratchSize).append (State.abortCore_sameObjs _ core)
  have hcount := hclear.append (State.count_sameObjs _ (i := 0x34A0) 32 1 (show core + 1 < 256 by omega))
  exact hcount.append (State.setObj_sameObjs (by decide))

theorem State.clearScratch_logStays (s : State) (core lo hi : Nat) : LogStays s (s.clearScratch core lo hi) :=
  ⟨s.clearScratch_sameObjs core lo hi _ _ (by decide) (by simp), rfl, rfl, rfl⟩

theorem State.vaultCleared_logStays (s : State) {core : Nat} (tr : WipeTrigger) (hc : core < 16) :
    LogStays s (s.vaultCleared core tr) := by
  have habort : LogStays s ((s.clearScratch core vaultOff scratchSize).abortCore core) :=
    (s.clearScratch_logStays core _ _).trans (State.setCore_logStays _ core _)
  have hcount := habort.trans (State.count_logStays _ (i := 0x34A0) (k := core + 1) 32 1 (by omega) (by simp))
  exact hcount.trans (State.setObj_logStays _ _ (by decide) (by decide))

theorem State.abortCore_held (s : State) (core d : Nat) : ((s.abortCore core).core d).held = (s.core d).held := by
  unfold State.abortCore
  rw [State.setCore_core_eq]
  split
  · next h => rw [h]
  · rfl

theorem State.rawByte_vaultCleared (s : State) {core : Nat} (tr : WipeTrigger) (hc : core < 16) (x : Nat) :
    (s.vaultCleared core tr).rawByte x = if winOf core + vaultOff ≤ x ∧ x < winOf core + scratchSize then 0 else s.rawByte x :=
  calc (s.vaultCleared core tr).rawByte x = ((s.clearScratch core vaultOff scratchSize).abortCore core).rawByte x :=
      (State.rawByte_setObj ..).trans (State.rawByte_count ..)
    _ = (s.clearScratch core vaultOff scratchSize).rawByte x := State.rawByte_congr (State.setCore_mem ..) (State.abortCore_held _ core) x
    _ = _ := s.clearScratch_rawByte core _ _ (by decide) (by decide) (by decide) hc x

theorem State.vaultCleared_outst (s : State) (core : Nat) (tr : WipeTrigger) : ((s.vaultCleared core tr).core core).outst = [] := by
  unfold State.vaultCleared State.abortCore
  rw [State.setObj_core, State.count_eq, State.setObj_core, State.setCore_core_self]

theorem State.vaultCleared_obj (s : State) {core : Nat} (tr : WipeTrigger) (hc : core < 16) :
    (s.vaultCleared core tr).obj 0x34A0 (core + 1) = counterAt 32 (s.obj 0x34A0 (core + 1) + 1)
      ∧ (s.vaultCleared core tr).obj 0x34A0 0x11 = wipeNum tr := by
  have hold : ((s.clearScratch core vaultOff scratchSize).abortCore core).obj 0x34A0 (core + 1) = s.obj 0x34A0 (core + 1) :=
    (s.clearScratch_sameObjs core vaultOff scratchSize).append (State.abortCore_sameObjs _ core) _ _ (by omega) (by simp; omega)
  refine ⟨?_, State.setObj_obj_self ..⟩
  unfold State.vaultCleared
  rw [State.setObj_obj_ne _ _ _ _ _ _ (by decide) (by omega) (by simp; omega), State.count_obj_self, hold]

theorem State.wipeVault_logged {core : Nat} (tr : WipeTrigger) (hc : core < 16) (hs : LogStays u s) (hr : u.logRoom) :
    Logged u (s.wipeVault core tr) core 0x0201 (wipeNum tr) := (hs.trans (s.vaultCleared_logStays tr hc)).logged hr

/-- A wipe of the vault of a core. -/
theorem State.wipeVault_spec (s : State) {core : Nat} (tr : WipeTrigger) (hc : core < 16) :
    let t := s.wipeVault core tr
    (∀ a, t.rawByte a = if winOf core + vaultOff ≤ a ∧ a < winOf core + scratchSize then 0 else s.rawByte a)
      ∧ (t.core core).outst = [] ∧ t.obj 0x34A0 (core + 1) = counterAt 32 (s.obj 0x34A0 (core + 1) + 1)
      ∧ t.obj 0x34A0 0x11 = wipeNum tr ∧ SameObjs s t [(0x3400 + core, 5), (0x34A0, core + 1), (0x34A0, 0x11), (0x2400, 5)] := by
  have hraw := s.rawByte_vaultCleared tr hc
  have hout := s.vaultCleared_outst core tr
  have hregs := s.vaultCleared_sameObjs tr hc
  obtain ⟨hcount, htrig⟩ := s.vaultCleared_obj tr hc
  dsimp only
  rw [State.wipeVault_eq]
  generalize s.vaultCleared core tr = u at *
  have hu := u.logEvent_sameObjs core 0x0201 (wipeNum tr)
  have hframe := u.logEvent_noting core 0x0201 (wipeNum tr)
  refine ⟨fun a => ?bytes, ?outst, ?count, ?trigger, hregs.append hu⟩
  case bytes =>
    rw [← hraw, hframe]
    rfl
  case outst =>
    rw [← hout, hframe]
    rfl
  case count => rw [hu _ _ (by omega) (by simp), hcount]
  case trigger => rw [hu _ _ (by decide) (by simp), htrig]

theorem State.rawByte_zeroScratch (s : State) {core : Nat} (hc : core < 16) (x : Nat) :
    (s.zeroScratch core).rawByte x = if winOf core ≤ x ∧ x < winOf core + scratchSize then 0 else s.rawByte x := by
  have h := s.clearScratch_rawByte core 0 scratchSize (by decide) (by decide) (by decide) hc x
  rwa [Nat.add_zero] at h

/-! ### SRAM scrub (R138) -/

/-- What scrub does with the word it has read: nothing, a count, or a fault. -/
def State.scrubNoted (s : State) (core : Nat) (found : EccFind) : State :=
  match found with
  | .clean => s
  | .corrected => s.countSat (0x3400 + core) 8 32 1
  | .uncorrectable => s.sramFault core (s.core core).scrub

/-- The next word is the one after it. -/
def State.scrubMoved (s : State) (core : Nat) : State :=
  s.setCore core { s.core core with scrub := ((s.core core).scrub + 1) % scratchWords }

/-- The word that scrub marks, before its event is logged (R137, R138). -/
def State.sramMarked (s : State) (core word : Nat) : State :=
  let a := winOf core + 64 * word
  State.countSat { s with sramBad := (s.sramBad.set (a / 32) 1).set (a / 32 + 1) 1 } (0x3400 + core) 9 32 1

theorem State.sramFault_eq (s : State) (core word : Nat) :
    s.sramFault core word = (s.sramMarked core word).logEvent (0x10 + core / 4) 0x0202 (winOf core + 64 * word + core * 2 ^ 44) := rfl

theorem State.sramMarked_sameObjs (s : State) (core word : Nat) : SameObjs s (s.sramMarked core word) [(0x3400 + core, 9)] :=
  State.countSat_sameObjs { s with sramBad := _ } 32 1 (by decide)

theorem State.sramFault_sameObjs (s : State) (core word : Nat) :
    SameObjs s (s.sramFault core word) [(0x3400 + core, 9), (0x2400, 5)] :=
  SameObjs.append (s.sramMarked_sameObjs core word) (State.logEvent_sameObjs _ _ _ _)

/-- A fault leaves memory and the cores. -/
theorem State.sramFault_frame (s : State) (core word : Nat) :
    s.sramFault core word = { s.noting (s.sramFault core word) with sramBad := (s.sramFault core word).sramBad } := by
  rw [State.sramFault_eq, State.logEvent_noting]
  rfl

theorem State.sramFault_obj (s : State) (core word : Nat) :
    (s.sramFault core word).obj (0x3400 + core) 9 = saturateAt 32 (s.obj (0x3400 + core) 9 + 1) :=
  (State.logEvent_sameObjs (s.sramMarked core word) _ _ _ _ _ (by decide) (by simp)).trans (State.setObj_obj_self ..)

theorem State.sramFault_sramBad (s : State) (core word : Nat) :
    (s.sramFault core word).sramBad.get ((winOf core + 64 * word) / 32) = 1 := by
  have h : (s.sramFault core word).sramBad = (s.sramMarked core word).sramBad := by
    rw [State.sramFault_eq, State.logEvent_noting]
    rfl
  rw [h]
  exact (Tab.get_set_of_ne _ _ (by omega)).trans (Tab.get_set_self ..)

theorem State.sramFault_logged (s : State) (core word : Nat) (hr : s.logRoom) :
    Logged s (s.sramFault core word) (0x10 + core / 4) 0x0202 (winOf core + 64 * word + core * 2 ^ 44) :=
  LogStays.logged ⟨s.sramMarked_sameObjs core word _ _ (by decide) (by simp), rfl, rfl, rfl⟩ hr

theorem State.scrubNoted_frame (s : State) (core : Nat) (found : EccFind) :
    s.scrubNoted core found = { s.noting (s.scrubNoted core found) with sramBad := (s.scrubNoted core found).sramBad } := by
  cases found with
  | clean => rfl
  | corrected => rfl
  | uncorrectable => exact s.sramFault_frame core _

theorem State.scrubNoted_sameObjs (s : State) (core : Nat) (found : EccFind) :
    SameObjs s (s.scrubNoted core found) [(0x3400 + core, 8), (0x3400 + core, 9), (0x2400, 5)] := by
  cases found with
  | clean => exact (SameObjs.refl s).mono (by simp)
  | corrected => exact (State.countSat_sameObjs s 32 1 (by decide)).mono (by simp)
  | uncorrectable => exact (s.sramFault_sameObjs core _).mono (by simp)

theorem State.scrubNoted_fields (s : State) (core : Nat) (found : EccFind) :
    (s.scrubNoted core found).cores = s.cores ∧ (s.scrubNoted core found).mem = s.mem := by
  rw [State.scrubNoted_frame]
  exact ⟨rfl, rfl⟩

/-- SRAM_SCRUB of an ACTIVE quadrant: the word's finding, the next word, and at the last word the end of the pass. -/
theorem State.scrubStep_of_active {core : Nat} {found : EccFind} (hq : s.obj (0x3490 + core / 4) 3 = 0) (hr : s.obj 0x2101 3 ≠ 0) :
    s.scrubStep core found = ((s.scrubNoted core found).scrubMoved core)
      ∨ s.scrubStep core found = ((s.scrubNoted core found).scrubMoved core).passDone 0 := by
  have hw : ((s.scrubNoted core found).core core).scrub = (s.core core).scrub := by
    rw [State.core_congr (s.scrubNoted_fields core found).1]
  have h : s.scrubStep core found = if (s.core core).scrub + 1 < scratchWords then (s.scrubNoted core found).scrubMoved core
      else ((s.scrubNoted core found).scrubMoved core).passDone 0 := by
    unfold State.scrubStep State.scrubMoved
    rw [if_neg (not_or.2 ⟨not_not.2 hq, hr⟩), hw]
    cases found <;> rfl
  rw [h]
  split
  · exact .inl rfl
  · exact .inr rfl

theorem State.scrubMoved_core_self (s : State) (core : Nat) :
    (s.scrubMoved core).core core = { s.core core with scrub := ((s.core core).scrub + 1) % scratchWords } :=
  State.setCore_core_self ..

theorem State.scrubMoved_core_ne (s : State) {core d : Nat} (h : d ≠ core) : (s.scrubMoved core).core d = s.core d :=
  State.setCore_core_ne _ _ _ _ h

theorem State.scrubMoved_held (s : State) (core d : Nat) : ((s.scrubMoved core).core d).held = (s.core d).held := by
  by_cases h : d = core
  · rw [h, State.scrubMoved_core_self]
  · rw [State.scrubMoved_core_ne s h]

/-- SRAM_SCRUB leaves what the finding leaves, but for the place of the next word and the end of a pass. -/
theorem State.scrubStep_fields {core : Nat} {found : EccFind} (hq : s.obj (0x3490 + core / 4) 3 = 0) (hr : s.obj 0x2101 3 ≠ 0) :
    let u := s.scrubNoted core found
    let t := s.scrubStep core found
    t.cores = (u.scrubMoved core).cores ∧ t.mem = u.mem ∧ t.sramBad = u.sramBad ∧ t.log = u.log ∧ SameObjs u t [(0x2101, 6)] := by
  dsimp only
  obtain h | h := State.scrubStep_of_active (found := found) hq hr
  · rw [h]
    exact ⟨rfl, rfl, rfl, rfl, (SameObjs.refl _).mono (by simp)⟩
  · have hregs := ((s.scrubNoted core found).scrubMoved core).passDone_sameObjs 0
    rw [h]
    refine ⟨?_, ?_, ?_, ?_, hregs⟩ <;> rw [State.passDone_frame] <;> rfl

/-- SRAM_SCRUB of an ACTIVE quadrant: the cores and the bytes. -/
theorem State.scrubStep_cores {core : Nat} {found : EccFind} (hq : s.obj (0x3490 + core / 4) 3 = 0) (hr : s.obj 0x2101 3 ≠ 0) :
    let t := s.scrubStep core found
    t.core core = { s.core core with scrub := ((s.core core).scrub + 1) % scratchWords } ∧ (∀ d, d ≠ core → t.core d = s.core d)
      ∧ ∀ a, t.rawByte a = s.rawByte a := by
  obtain ⟨hcores, hmem, -, -, -⟩ := State.scrubStep_fields (found := found) hq hr
  obtain ⟨hcores', hmem'⟩ := s.scrubNoted_fields core found
  have hold := State.core_congr hcores'
  have hnew := State.core_congr hcores
  refine ⟨?_, fun d hd => ?_, State.rawByte_congr (hmem.trans hmem') fun c => ?_⟩
  · rw [hnew, State.scrubMoved_core_self, hold]
  · rw [hnew, State.scrubMoved_core_ne _ hd, hold]
  · rw [hnew, State.scrubMoved_held, hold]

/-- What scrub counts, marks and logs (R138). -/
theorem State.scrubStep_finds {core : Nat} {found : EccFind} (hq : s.obj (0x3490 + core / 4) 3 = 0) (hr : s.obj 0x2101 3 ≠ 0) :
    let t := s.scrubStep core found
    let a := winOf core + 64 * (s.core core).scrub
    (found = .corrected → t.obj (0x3400 + core) 8 = saturateAt 32 (s.obj (0x3400 + core) 8 + 1)
        ∧ t.obj (0x3400 + core) 9 = s.obj (0x3400 + core) 9)
      ∧ (found = .uncorrectable → t.obj (0x3400 + core) 9 = saturateAt 32 (s.obj (0x3400 + core) 9 + 1)
          ∧ t.sramBad.get (a / 32) = 1 ∧ (s.logRoom → Logged s t (0x10 + core / 4) 0x0202 (a + core * 2 ^ 44)))
      ∧ SameObjs s t [(0x3400 + core, 8), (0x3400 + core, 9), (0x2101, 6), (0x2400, 5)] := by
  obtain ⟨-, -, hbad, hlog, hregs⟩ := State.scrubStep_fields (found := found) hq hr
  have hnoted := s.scrubNoted_sameObjs core found
  dsimp only
  refine ⟨?corrected, ?uncorrectable, (hnoted.append hregs).mono (by simp)⟩
  case corrected =>
    rintro rfl
    rw [hregs _ _ (by decide) (by simp), hregs _ _ (by decide) (by simp)]
    exact ⟨State.setObj_obj_self .., State.setObj_obj_ne _ _ _ _ _ _ (by decide) (by decide) (by simp)⟩
  case uncorrectable =>
    rintro rfl
    rw [hregs _ _ (by decide) (by simp), hbad]
    exact ⟨s.sramFault_obj core _, s.sramFault_sramBad core _, fun h => (s.sramFault_logged core _ h).of_log hlog⟩

/-! ### Core PLLs (R385) -/

/-- Does the core run a step of its partition? -/
def State.runsStep (s : State) (core : Nat) : Bool :=
  s.cstate core == 0 && match s.partOf core with
    | some p => s.stepping p
    | none => false

theorem State.runsStep_iff (s : State) (core : Nat) :
    s.runsStep core = true ↔ s.cstate core = 0 ∧ ∃ p, s.partOf core = some p ∧ s.pstate p = 3 := by
  unfold State.runsStep
  rw [Bool.and_eq_true, beq_iff_eq]
  refine and_congr_right fun _ => ?_
  cases s.partOf core with
  | none => simp
  | some p => simp [State.stepping]

/-- A core whose PLL has locked: its clock starts, its ramp at 0, where it runs a step and is not gated (R390). -/
def State.locked (s : State) (core : Nat) : Core :=
  if s.runsStep core && !(s.core core).clock && !(s.core core).gated then
    { s.core core with pll := true, pllStarting := false, clock := true, ramp := 0 }
  else { s.core core with pll := true, pllStarting := false }

theorem State.pllLock_of_starting {core : Nat} (h : (s.core core).pllStarting = true) :
    s.pllLock core = (s.setCore core (s.locked core)).settlePower := by
  unfold State.pllLock
  dsimp only
  rw [if_neg (by simp [h])]
  rfl

theorem State.locked_clock (s : State) (core : Nat) :
    (s.locked core).clock = ((s.core core).clock || (s.runsStep core && !(s.core core).gated)) := by
  unfold State.locked
  split
  · next h =>
    obtain ⟨⟨hr, -⟩, hg⟩ : (s.runsStep core = true ∧ _) ∧ _ := by simpa only [Bool.and_eq_true] using h
    simp [hr, hg]
  · next h =>
    change (s.core core).clock = _
    generalize (s.core core).clock = c at h ⊢
    generalize (s.core core).gated = g at h ⊢
    generalize s.runsStep core = r at h ⊢
    revert c g r
    decide

theorem State.locked_clock_iff (s : State) (core : Nat) :
    (s.locked core).clock = true ↔ (s.core core).clock = true
      ∨ (s.cstate core = 0 ∧ (s.core core).gated = false ∧ ∃ p, s.partOf core = some p ∧ s.pstate p = 3) := by
  rw [State.locked_clock, Bool.or_eq_true, Bool.and_eq_true, State.runsStep_iff, Bool.not_eq_true', and_right_comm, and_assoc]

/-- PLL_LOCK leaves the core locked; the device may enter RUN (R379). -/
theorem State.pllLock_spec {core : Nat} (h : (s.core core).pllStarting = true) :
    (∀ d, (s.pllLock core).core d = if d = core then s.locked core else s.core d) ∧ (s.pllLock core).mem = s.mem
      ∧ SameObjs s (s.pllLock core) [(0x2000, 1), (0x2400, 5)] := by
  rw [State.pllLock_of_starting h]
  have hregs := (s.setCore core (s.locked core)).settlePower_sameObjs
  refine ⟨fun d => ?_, ?_, hregs⟩
  · rw [State.settlePower_noting, ← State.setCore_core_eq]
    rfl
  · rw [State.settlePower_noting]
    rfl

theorem State.pllStop_of_idle {core : Nat} (hp : (s.core core).pll = true) (hc : (s.core core).clock = false)
    (hr : ∀ p, s.partOf core = some p → s.pstate p ≠ 3) :
    s.pllStop core = s.setCore core { s.core core with pll := false, gated := false } := by
  unfold State.pllStop
  refine if_pos ?_
  rw [hp, hc]
  cases h : s.partOf core with
  | none => rfl
  | some p => simp [State.stepping, hr p h]

theorem State.locked_pll (s : State) (core : Nat) : (s.locked core).pll = true ∧ (s.locked core).pllStarting = false := by
  unfold State.locked
  split <;> exact ⟨rfl, rfl⟩

end Sys2Proof.Machine

open Sys2Proof.Machine

/-- Settles O47: each clause is what its operation leaves, by the lemmas above on it; a wipe and zeroing wake the quadrant first. -/
theorem scratchpadsAtRest : Obligations.ScratchpadsAtRest := by
  refine ⟨?hold, ?writeback, ?wipe, ?zeroing, ?scrub, ?retain, ?wake, ?lock, ?stop⟩
  case hold => exact fun core word data s hs hroom => ⟨_, rfl, State.holdWord_spec hs core.isLt (by omega) hroom⟩
  case writeback => exact fun core h rest s hs hh => ⟨_, rfl, State.holdWriteback_spec hs core.isLt hh⟩
  case wipe =>
    intro core tr s
    have hwake := s.wakeQuad_sameObjs (core / 4)
    obtain ⟨hraw, hout, hcount, htrig, hregs⟩ := (s.wakeQuad (core / 4)).wipeVault_spec tr core.isLt
    refine ⟨_, rfl, fun a => ?_, hout, ?_, htrig, fun hr => ?_, (hwake.append hregs).mono (by simp)⟩
    · rw [hraw, State.wakeQuad_rawByte]
    · rw [hcount, hwake _ _ (by omega) (by simp; omega)]
    · exact State.wipeVault_logged tr core.isLt (s.wakeQuad_logStays _) hr
  case zeroing =>
    intro core s
    have hwake := s.wakeQuad_sameObjs (core / 4)
    refine ⟨_, rfl, fun a => ?_, (hwake.append ((s.wakeQuad (core / 4)).clearScratch_sameObjs core _ _)).mono (by simp), ?_⟩
    · rw [State.rawByte_zeroScratch _ core.isLt, State.wakeQuad_rawByte]
    · exact (s.wakeQuad_onlyRegsCores _).parts
  case scrub =>
    intro core found s hq hr
    obtain ⟨hself, hother, hraw⟩ := State.scrubStep_cores (found := found) hq hr
    obtain ⟨hcorr, hunc, hregs⟩ := State.scrubStep_finds (found := found) hq hr
    exact ⟨_, rfl, hself, hcorr, hunc, hraw, hother, hregs⟩
  case retain => exact fun q s h => ⟨_, congrArg Host.Outcome.next (if_pos h), State.setObj_obj_self .., rfl, State.setObj_sameObjs (by decide)⟩
  case wake =>
    intro q s h
    obtain ⟨h3, h4⟩ := s.wokenRegs_obj q
    exact ⟨_, rfl, (State.wakeQuad_obj h _ _).trans h3, (State.wakeQuad_obj h _ _).trans h4, State.wakeQuad_core h,
      s.wakeQuad_onlyRegsCores q, s.wakeQuad_sameObjs q⟩
  case lock =>
    intro core s h
    obtain ⟨hcore, hmem, hregs⟩ := State.pllLock_spec h
    have hself := (hcore core).trans (if_pos rfl)
    obtain ⟨hpll, hstart⟩ := s.locked_pll core
    refine ⟨_, rfl, ?_, ?_, ?_, fun d hd => (hcore d).trans (if_neg hd), hmem, hregs⟩
    · rw [hself, hpll]
    · rw [hself, hstart]
    · rw [hself, State.locked_clock_iff]
  case stop =>
    intro core s hp hc hr
    refine ⟨_, congrArg Host.Outcome.next (State.pllStop_of_idle hp hc hr), State.setCore_core_self .., fun d hd => ?_, rfl⟩
    exact State.setCore_core_ne _ _ _ _ hd

end

section
/-! Bulk memory at rest (R139–R142, R153–R159): what re-reads, fronts, scrub and writes of its map and its regions leave. -/

namespace Sys2Proof.Machine

variable {s t u v : State}

/-! ### Re-reads and uncorrectable units (R153) -/

/-- Only registers have changed. -/
def OnlyRegs (s u : State) : Prop := u = { s with objs := u.objs }

theorem OnlyRegs.refl (s : State) : OnlyRegs s s := rfl

theorem OnlyRegs.setObj (h : OnlyRegs s u) (i k x : Nat) : OnlyRegs s (u.setObj i k x) :=
  Eq.trans (congrArg (fun y : State => y.setObj i k x) h) rfl

/-- Beside registers, logs and outputs, only the marks of bulk units have changed: to `b`. -/
def OnlyMarks (s u : State) (b : NatTab) : Prop := u = { s.noting u with bulkBad := b }

theorem OnlyMarks.setObj {b : NatTab} (h : OnlyMarks s u b) (i k x : Nat) : OnlyMarks s (u.setObj i k x) b :=
  Eq.trans (congrArg (fun y : State => y.setObj i k x) h) rfl

theorem OnlyMarks.count {b : NatTab} (h : OnlyMarks s u b) (i k w n : Nat) : OnlyMarks s (u.count i k w n) b := h.setObj ..

theorem OnlyMarks.emit {b : NatTab} (h : OnlyMarks s u b) (o : Output) : OnlyMarks s (u.emit o) b :=
  Eq.trans (congrArg (fun y : State => y.emit o) h) rfl

theorem OnlyMarks.logEvent {b : NatTab} (h : OnlyMarks s u b) (unit code detail : Nat) : OnlyMarks s (u.logEvent unit code detail) b :=
  (u.logEvent_noting unit code detail).trans
    (Eq.trans (congrArg (fun y : State => y.noting (u.logEvent unit code detail)) h) rfl)

theorem OnlyMarks.trans {b c : NatTab} (h : OnlyMarks s t b) (g : OnlyMarks t u c) : OnlyMarks s u c :=
  Eq.trans g (Eq.trans (congrArg (fun y : State => { y.noting u with bulkBad := c }) h) rfl)

theorem OnlyMarks.bulkBad {b : NatTab} (h : OnlyMarks s u b) : u.bulkBad = b := Eq.trans (congrArg State.bulkBad h) rfl
theorem OnlyMarks.mem {b : NatTab} (h : OnlyMarks s u b) : u.mem = s.mem := Eq.trans (congrArg State.mem h) rfl
theorem OnlyMarks.cores {b : NatTab} (h : OnlyMarks s u b) : u.cores = s.cores := Eq.trans (congrArg State.cores h) rfl
theorem OnlyMarks.patrol {b : NatTab} (h : OnlyMarks s u b) : u.patrol = s.patrol := Eq.trans (congrArg State.patrol h) rfl

/-- The mark of a bulk unit set: 1 uncorrectable, 0 good. -/
def State.markBulk (s : State) (k x : Nat) : State := { s with bulkBad := s.bulkBad.set k x }

theorem State.markBulk_sameObjs (s : State) (k x : Nat) : SameObjs s (s.markBulk k x) [] := SameObjs.refl s

theorem State.markBulk_onlyMarks (s : State) (k x : Nat) : OnlyMarks s (s.markBulk k x) (s.bulkBad.set k x) := rfl

theorem State.markBulk_logStays (s : State) (k x : Nat) : LogStays s (s.markBulk k x) := ⟨rfl, rfl, rfl, rfl⟩

theorem State.bulkReread_good {ch unit p : Nat} (h : unit < 2 ^ 27) :
    s.bulkReread ch unit true p = ((s.markBulk (s.unitKey ch unit) 0).count (0x3470 + ch) 4 32 1).countSat (0x3480 + p) 6 32 1 :=
  (if_neg (Nat.not_le.2 h)).trans (if_pos rfl)

theorem State.bulkReread_bad {ch unit p : Nat} (h : unit < 2 ^ 27) :
    s.bulkReread ch unit false p = ((s.bulkFault ch unit 0).countSat (0x3480 + p) 7 32 1).reportFailure .bulkRead :=
  (if_neg (Nat.not_le.2 h)).trans (if_neg Bool.false_ne_true)

/-- An uncorrectable unit marked and counted, before its event is logged. -/
def State.unitFailed (s : State) (ch unit : Nat) : State :=
  (((s.markBulk (s.unitKey ch unit) 1).count (0x3470 + ch) 4 32 1).count (0x3470 + ch) 5 32 1).setObj (0x3470 + ch) 7 (64 * unit)

theorem State.bulkFault_eq (s : State) (ch unit who : Nat) :
    s.bulkFault ch unit who = (s.unitFailed ch unit).logEvent (0x20 + ch) 0x0301 (64 * unit + who * 2 ^ 44) := rfl

theorem State.unitFailed_sameObjs (s : State) (ch unit : Nat) :
    SameObjs s (s.unitFailed ch unit) [(0x3470 + ch, 4), (0x3470 + ch, 5), (0x3470 + ch, 7)] := by
  have hcount := (s.markBulk_sameObjs (s.unitKey ch unit) 1).append (State.count_sameObjs _ (i := 0x3470 + ch) (k := 4) 32 1 (by decide))
  have hcount' := hcount.append (State.count_sameObjs _ (i := 0x3470 + ch) (k := 5) 32 1 (by decide))
  exact hcount'.append (State.setObj_sameObjs (by decide))

theorem State.unitFailed_logStays (s : State) (ch unit : Nat) : LogStays s (s.unitFailed ch unit) := by
  have hcount := (s.markBulk_logStays (s.unitKey ch unit) 1).trans
    (State.count_logStays _ (i := 0x3470 + ch) (k := 4) 32 1 (by decide) (by simp))
  have hcount' := hcount.trans (State.count_logStays _ (i := 0x3470 + ch) (k := 5) 32 1 (by decide) (by simp))
  exact hcount'.trans (State.setObj_logStays _ _ (by decide) (by simp))

theorem State.unitFailed_obj (s : State) (ch unit : Nat) :
    (s.unitFailed ch unit).obj (0x3470 + ch) 5 = counterAt 32 (s.obj (0x3470 + ch) 5 + 1)
      ∧ (s.unitFailed ch unit).obj (0x3470 + ch) 7 = 64 * unit := by
  refine ⟨?_, State.setObj_obj_self ..⟩
  unfold State.unitFailed
  rw [State.setObj_obj_ne _ _ _ _ _ _ (by decide) (by decide) (by simp), State.count_obj_self, State.count_eq,
    State.setObj_obj_ne _ _ _ _ _ _ (by decide) (by decide) (by simp)]
  rfl

theorem State.bulkFault_sameObjs (s : State) (ch unit who : Nat) :
    SameObjs s (s.bulkFault ch unit who) [(0x3470 + ch, 4), (0x3470 + ch, 5), (0x3470 + ch, 7), (0x2400, 5)] :=
  SameObjs.append (s.unitFailed_sameObjs ch unit) (State.logEvent_sameObjs _ _ _ _)

theorem State.bulkFault_obj (s : State) (ch unit who : Nat) :
    (s.bulkFault ch unit who).obj (0x3470 + ch) 5 = counterAt 32 (s.obj (0x3470 + ch) 5 + 1)
      ∧ (s.bulkFault ch unit who).obj (0x3470 + ch) 7 = 64 * unit := by
  obtain ⟨h5, h7⟩ := s.unitFailed_obj ch unit
  rw [State.bulkFault_eq, State.logEvent_sameObjs _ _ _ _ _ _ (by decide) (by simp; omega),
    State.logEvent_sameObjs _ _ _ _ _ _ (by decide) (by simp)]
  exact ⟨h5, h7⟩

/-- An uncorrectable unit: its mark alone. -/
theorem State.bulkFault_onlyMarks (s : State) (ch unit who : Nat) :
    OnlyMarks s (s.bulkFault ch unit who) (s.bulkBad.set (s.unitKey ch unit) 1) :=
  (((((s.markBulk_onlyMarks (s.unitKey ch unit) 1).count ..).count ..).setObj ..).logEvent ..)

theorem State.bulkFault_logged (ch unit who : Nat) (hs : LogStays u s) (hr : u.logRoom) :
    Logged u (s.bulkFault ch unit who) (0x20 + ch) 0x0301 (64 * unit + who * 2 ^ 44) :=
  (hs.trans (s.unitFailed_logStays ch unit)).logged hr

/-- A re-read that delivers its data: the unit is good, and the re-read is counted at the channel and for the partition. -/
theorem State.goodReread_spec (s : State) (ch unit p : Nat) :
    let t := ((s.markBulk (s.unitKey ch unit) 0).count (0x3470 + ch) 4 32 1).countSat (0x3480 + p) 6 32 1
    (∀ k, t.bulkBad.get k = if k = s.unitKey ch unit then 0 else s.bulkBad.get k)
      ∧ t.obj (0x3470 + ch) 4 = counterAt 32 (s.obj (0x3470 + ch) 4 + 1)
      ∧ t.obj (0x3480 + p) 6 = saturateAt 32 (s.obj (0x3480 + p) 6 + 1)
      ∧ t = { s with objs := t.objs, bulkBad := t.bulkBad } ∧ SameObjs s t [(0x3470 + ch, 4), (0x3480 + p, 6)] := by
  have hmark := s.markBulk_sameObjs (s.unitKey ch unit) 0
  have hbad : ∀ k, (s.markBulk (s.unitKey ch unit) 0).bulkBad.get k = if k = s.unitKey ch unit then 0 else s.bulkBad.get k :=
    fun k => Tab.get_set ..
  have hframe : ∀ t, OnlyRegs (s.markBulk (s.unitKey ch unit) 0) t → t = { s with objs := t.objs, bulkBad := t.bulkBad } := fun t h => by
    rw [show t = _ from h]
    rfl
  generalize s.markBulk (s.unitKey ch unit) 0 = u at *
  have hcount := u.count_sameObjs (i := 0x3470 + ch) (k := 4) 32 1 (by decide)
  have hsat := (u.count (0x3470 + ch) 4 32 1).countSat_sameObjs (i := 0x3480 + p) (k := 6) 32 1 (by decide)
  refine ⟨hbad, ?_, ?_, ?_, (hmark.append hcount).append hsat⟩
  · rw [hsat _ _ (by decide) (by simp), State.count_obj_self, hmark _ _ (by decide) (by simp)]
  · rw [State.countSat_eq, State.setObj_obj_self, hcount _ _ (by decide) (by simp), hmark _ _ (by decide) (by simp)]
  · exact hframe _ (((OnlyRegs.refl u).setObj ..).setObj ..)

/-- A re-read that stays uncorrectable: the fault of the unit, counted for the partition and told to the job's lead (R243). -/
theorem State.badReread_spec (s : State) {ch : Nat} (hch : ch < 16) (unit p : Nat) :
    let t := ((s.bulkFault ch unit 0).countSat (0x3480 + p) 7 32 1).reportFailure .bulkRead
    t.obj (0x3470 + ch) 5 = counterAt 32 (s.obj (0x3470 + ch) 5 + 1) ∧ t.obj (0x3470 + ch) 7 = 64 * unit
      ∧ t.obj (0x3480 + p) 7 = saturateAt 32 (s.obj (0x3480 + p) 7 + 1)
      ∧ OnlyMarks s t (s.bulkBad.set (s.unitKey ch unit) 1)
      ∧ SameObjs s t [(0x3470 + ch, 4), (0x3470 + ch, 5), (0x3470 + ch, 7), (0x3480 + p, 7), (0x2400, 5)]
      ∧ (s.logRoom → Logged s t (0x20 + ch) 0x0301 (64 * unit)) := by
  have hregs := s.bulkFault_sameObjs ch unit 0
  have hmarks := s.bulkFault_onlyMarks ch unit 0
  have hlog := State.bulkFault_logged ch unit 0 (LogStays.refl s)
  obtain ⟨h5, h7⟩ := s.bulkFault_obj ch unit 0
  rw [Nat.zero_mul, Nat.add_zero] at hlog
  generalize s.bulkFault ch unit 0 = u at *
  have hsat := u.countSat_sameObjs (i := 0x3480 + p) (k := 7) 32 1 (by decide)
  refine ⟨?_, ?_, ?_, (hmarks.setObj ..).emit _, (hregs.append hsat).mono (by simp), fun h => (hlog h).of_log rfl⟩
  · exact (hsat _ _ (by decide) (by simp)).trans h5
  · exact (hsat _ _ (by decide) (by simp; omega)).trans h7
  · exact (State.setObj_obj_self ..).trans (by rw [hregs _ _ (by decide) (by simp; omega)])

/-! ### Zeroing fronts (R155) -/

/-- A channel's front past its next 2 MiB, which it counts. -/
def State.frontMoved (s : State) (m : Nat) : State :=
  (s.setObj 0x3460 (m + 1) (s.obj 0x3460 (m + 1) + 1)).count (0x3470 + m) 2 64 0x200000

/-- Has every front passed all of bulk memory? -/
def State.frontsDone (s : State) : Bool := (List.range 16).all fun k => s.obj 0x3460 (k + 1) == 4096

theorem State.frontsDone_iff (s : State) : s.frontsDone = true ↔ ∀ k, k < 16 → s.obj 0x3460 (k + 1) = 4096 := by
  simp [State.frontsDone]

theorem State.zeroChunk_eq {m : Nat} (ha : s.bulkActive = true) (hf : s.obj 0x3460 (m + 1) < 4096) :
    s.zeroChunk m = if (s.frontMoved m).frontsDone = true then (s.frontMoved m).setObj 0x3460 0x11 1 else s.frontMoved m := by
  unfold State.zeroChunk
  dsimp only
  rw [if_pos ⟨ha, hf⟩]
  rfl

theorem State.frontMoved_sameObjs (s : State) {m : Nat} (hm : m < 16) :
    SameObjs s (s.frontMoved m) [(0x3460, m + 1), (0x3470 + m, 2)] :=
  SameObjs.append (State.setObj_sameObjs (by omega)) (State.count_sameObjs _ 64 _ (by decide))

theorem State.frontMoved_onlyRegs (s : State) (m : Nat) : OnlyRegs s (s.frontMoved m) := ((OnlyRegs.refl s).setObj ..).setObj ..

theorem State.frontMoved_obj (s : State) {m : Nat} (hm : m < 16) :
    (s.frontMoved m).obj 0x3460 (m + 1) = s.obj 0x3460 (m + 1) + 1
      ∧ (s.frontMoved m).obj (0x3470 + m) 2 = counterAt 64 (s.obj (0x3470 + m) 2 + 0x200000) := by
  have hne : (0x3460, m + 1) ≠ (0x3470 + m, 2) := by simp; omega
  have hpass : SameObjs s (s.setObj 0x3460 (m + 1) (s.obj 0x3460 (m + 1) + 1)) [(0x3460, m + 1)] := State.setObj_sameObjs (by omega)
  have hcount := State.count_sameObjs (s.setObj 0x3460 (m + 1) (s.obj 0x3460 (m + 1) + 1)) (i := 0x3470 + m) (k := 2) 64 0x200000
    (by decide)
  refine ⟨?_, ?_⟩
  · exact (hcount _ _ (by omega) (by simpa using hne)).trans (State.setObj_obj_self ..)
  · exact (State.count_obj_self ..).trans (by rw [hpass _ _ (by decide) (by simpa using hne.symm)])

/-- ZEROING: the fronts are those of `frontMoved`, and the last of them ends the zeroing. -/
theorem State.zeroChunk_spec {m : Nat} (hm : m < 16) (ha : s.bulkActive = true) (hf : s.obj 0x3460 (m + 1) < 4096) :
    let t := s.zeroChunk m
    (∀ i k, k < 256 → (i, k) ≠ (0x3460, 0x11) → t.obj i k = (s.frontMoved m).obj i k)
      ∧ t.obj 0x3460 0x11 = (if (s.frontMoved m).frontsDone = true then 1 else s.obj 0x3460 0x11) ∧ t = { s with objs := t.objs } := by
  dsimp only
  rw [State.zeroChunk_eq ha hf]
  split
  · exact ⟨fun i k hk hn => State.setObj_obj_ne _ _ _ _ _ _ (by decide) hk hn, State.setObj_obj_self ..,
      (s.frontMoved_onlyRegs m).setObj ..⟩
  · exact ⟨fun _ _ _ _ => rfl, s.frontMoved_sameObjs hm _ _ (by decide) (by simp; omega), s.frontMoved_onlyRegs m⟩

/-! ### Fronts of regions (R156) -/

/-- The bytes that the fronts of a region pass are counted. -/
def State.frontsCounted (s : State) (r : Nat) : State :=
  (s.zeroJobs.filter fun j => j.region == r).foldl (fun s j => s.countBulk 2 (bulkBase + j.pos) 0x200000) s

/-- The fronts after those of region `r` have passed their next 2 MiB. -/
def movedJobs (r : Nat) (l : List ZeroJob) : List ZeroJob :=
  (l.map fun j => if j.region = r then { j with pos := j.pos + 0x200000 } else j).filter fun j => decide (j.pos < j.stop)

theorem State.frontsCounted_onlyCounts (s : State) (r : Nat) : OnlyCounts s (s.frontsCounted r) :=
  List.foldlRecOn _ _ (motive := OnlyCounts s) (OnlyCounts.refl s) fun _ h _ _ => h.countBulk ..

theorem State.frontsCounted_obj (s : State) (r : Nat) {i : Nat} (hi : i < 0x3470) {j : Nat} (hj : j < 256) (h3 : j ≠ 3) :
    (s.frontsCounted r).obj i j = s.obj i j :=
  List.foldlRecOn _ _ (motive := fun t : State => t.obj i j = s.obj i j) rfl fun t h _ _ =>
    (t.countBulk_obj _ _ (by decide) hj (by omega) (by omega)).trans h

theorem mem_movedJobs {r : Nat} {l : List ZeroJob} {j : ZeroJob} :
    j ∈ movedJobs r l ↔ j.pos < j.stop ∧ ∃ i ∈ l, j = if i.region = r then { i with pos := i.pos + 0x200000 } else i := by
  simp only [movedJobs, List.mem_filter, List.mem_map, decide_eq_true_eq]
  exact and_comm.trans (and_congr_right fun _ => exists_congr fun i => and_congr_right fun _ => eq_comm)

/-- A front that is left is another region's, as it was, or one of region `r` that has moved. -/
theorem cases_of_mem_movedJobs {r : Nat} {l : List ZeroJob} {j : ZeroJob} (h : j ∈ movedJobs r l) :
    (j.region ≠ r ∧ j ∈ l)
      ∨ (j.region = r ∧ j.pos < j.stop ∧ ∃ i ∈ l, i.region = r ∧ j = { i with pos := i.pos + 0x200000 }) := by
  obtain ⟨hp, i, hi, rfl⟩ := mem_movedJobs.1 h
  by_cases hr : i.region = r
  · rw [if_pos hr] at hp ⊢
    exact .inr ⟨hr, hp, i, hi, hr, rfl⟩
  · rw [if_neg hr] at hp ⊢
    exact .inl ⟨hr, hi⟩

def State.withZeroJobs (s : State) (l : List ZeroJob) : State := { s with zeroJobs := l }

theorem State.zeroRegionStep_eq {r : Nat} (ha : s.bulkActive = true) (hj : ∃ j ∈ s.zeroJobs, j.region = r) :
    let u := (s.frontsCounted r).withZeroJobs (movedJobs r (s.frontsCounted r).zeroJobs)
    s.zeroRegionStep r = if (u.zeroJobs.any fun j => j.region == r) = true then u
      else u.setObj (0x3420 + r) 6 (if u.obj (0x3420 + r) 2 = 0 then 0 else 2) := by
  have hany : (s.zeroJobs.any fun j => j.region == r) = true := by simpa using hj
  unfold State.zeroRegionStep
  rw [ha, hany, if_neg (by decide)]
  rfl

/-- REGION_ZEROING: the region's fronts move; with none left it is ready, or disabled. -/
theorem State.zeroRegionStep_spec {r : Nat} (hr : r < 64) (ha : s.bulkActive = true) (hj : ∃ j ∈ s.zeroJobs, j.region = r) :
    let t := s.zeroRegionStep r
    t.zeroJobs = movedJobs r s.zeroJobs ∧ t.mem = s.mem ∧ t.cores = s.cores
      ∧ ((∀ j ∈ movedJobs r s.zeroJobs, j.region ≠ r) → t.obj (0x3420 + r) 6 = if (s.region r).size = 0 then 0 else 2) := by
  have hcount := s.frontsCounted_onlyCounts r
  have hjobs : (s.frontsCounted r).zeroJobs = s.zeroJobs := Eq.trans (congrArg State.zeroJobs hcount) rfl
  have hsize : (s.frontsCounted r).obj (0x3420 + r) 2 = (s.region r).size :=
    s.frontsCounted_obj r (by omega) (by decide) (by decide)
  dsimp only
  rw [State.zeroRegionStep_eq ha hj, hjobs]
  split
  · next h =>
    refine ⟨rfl, hcount.mem, hcount.cores, fun hn => ?_⟩
    obtain ⟨j, hj, hjr⟩ := List.any_eq_true.1 h
    exact absurd (beq_iff_eq.1 hjr) (hn j hj)
  · exact ⟨rfl, hcount.mem, hcount.cores, fun _ => (State.setObj_obj_self ..).trans (congrArg (fun x => if x = 0 then 0 else 2) hsize)⟩

/-! ### Patrol scrub (R159) -/

/-- What patrol scrub does with the unit it has read: nothing, a count, or a mark. -/
def State.patrolNoted (s : State) (ch unit : Nat) (found : EccFind) : State :=
  match found with
  | .clean => s
  | .corrected => s.count (0x3470 + ch) 3 32 1
  | .uncorrectable => s.bulkFault ch unit 1

/-- The next unit that patrol scrub reads on a channel. -/
def State.patrolTo (s : State) (ch x : Nat) : State := { s with patrol := s.patrol.set ch x }

/-- The unit that patrol scrub reads next: the channel's place, or the first unit where that lies above the front. -/
def State.patrolUnit (s : State) (ch : Nat) : Nat := if s.patrol.get ch < s.obj 0x3460 (ch + 1) * 32768 then s.patrol.get ch else 0

/-- The channel counts the unit's 64 bytes, and what the unit holds is noted. -/
def State.patrolled (s : State) (ch : Nat) (found : EccFind) : State :=
  (s.count (0x3470 + ch) 1 64 64).patrolNoted ch (s.patrolUnit ch) found

theorem State.patrolStep_eq {ch : Nat} {found : EccFind} (ha : s.bulkActive = true) (hf : s.obj 0x3460 (ch + 1) ≠ 0)
    (hr : s.obj 0x2102 3 ≠ 0) :
    let v := s.patrolled ch found
    s.patrolStep ch found = if s.patrolUnit ch + 1 < s.obj 0x3460 (ch + 1) * 32768 then v.patrolTo ch (s.patrolUnit ch + 1)
      else ((v.patrolTo ch 0).count (0x3470 + ch) 6 32 1).passDone 1 := by
  have htop : (s.obj 0x3460 (ch + 1) * 32768 == 0) = false := by simpa using hf
  have hrate : (s.obj 0x2102 3 == 0) = false := by simpa using hr
  unfold State.patrolStep
  dsimp only
  rw [ha, htop, hrate, if_neg (by decide)]
  rfl

theorem State.patrolNoted_onlyMarks (s : State) (ch unit : Nat) (found : EccFind) :
    OnlyMarks s (s.patrolNoted ch unit found)
      (if found = .uncorrectable then s.bulkBad.set (s.unitKey ch unit) 1 else s.bulkBad) := by
  cases found with
  | clean => exact rfl
  | corrected => exact OnlyMarks.count (s := s) (u := s) rfl ..
  | uncorrectable => exact s.bulkFault_onlyMarks ch unit 1

theorem State.patrolNoted_sameObjs (s : State) (ch unit : Nat) (found : EccFind) :
    SameObjs s (s.patrolNoted ch unit found)
      [(0x3470 + ch, 3), (0x3470 + ch, 4), (0x3470 + ch, 5), (0x3470 + ch, 7), (0x2400, 5)] := by
  cases found with
  | clean => exact (SameObjs.refl s).mono (by simp)
  | corrected => exact (State.count_sameObjs s 32 1 (by decide)).mono (by simp)
  | uncorrectable => exact (s.bulkFault_sameObjs ch unit 1).mono (by simp)

/-- PATROL_SCRUB leaves what the finding leaves, but for the place of the next unit and the end of a pass. -/
theorem State.patrolStep_fields {ch : Nat} {found : EccFind} (ha : s.bulkActive = true) (hf : s.obj 0x3460 (ch + 1) ≠ 0)
    (hr : s.obj 0x2102 3 ≠ 0) :
    let v := s.patrolled ch found
    let t := s.patrolStep ch found
    t.mem = v.mem ∧ t.cores = v.cores ∧ t.bulkBad = v.bulkBad ∧ t.log = v.log
      ∧ t.patrol.get ch = (if s.patrolUnit ch + 1 < s.obj 0x3460 (ch + 1) * 32768 then s.patrolUnit ch + 1 else 0)
      ∧ SameObjs v t [(0x3470 + ch, 6), (0x2102, 6)] := by
  dsimp only
  rw [State.patrolStep_eq ha hf hr]
  generalize s.patrolled ch found = v
  split
  · exact ⟨rfl, rfl, rfl, rfl, Tab.get_set_self .., (SameObjs.refl v).mono (by simp)⟩
  · have hpass := State.passDone_frame ((v.patrolTo ch 0).count (0x3470 + ch) 6 32 1) 1
    have hregs : SameObjs v ((v.patrolTo ch 0).count (0x3470 + ch) 6 32 1) [(0x3470 + ch, 6)] :=
      State.count_sameObjs (v.patrolTo ch 0) 32 1 (by decide)
    refine ⟨?_, ?_, ?_, ?_, ?_, hregs.append (State.passDone_sameObjs _ 1)⟩
    · rw [hpass]; rfl
    · rw [hpass]; rfl
    · rw [hpass]; rfl
    · rw [hpass]; rfl
    · rw [hpass]
      exact Tab.get_set_self ..

theorem State.patrolRead_unitKey (s : State) (ch unit : Nat) : (s.count (0x3470 + ch) 1 64 64).unitKey ch unit = s.unitKey ch unit := by
  unfold State.unitKey
  rw [s.count_sameObjs 64 64 (by decide) _ _ (by decide) (by simp; omega)]

theorem State.patrolled_onlyMarks (s : State) (ch : Nat) (found : EccFind) :
    OnlyMarks s (s.patrolled ch found)
      (if found = .uncorrectable then s.bulkBad.set (s.unitKey ch (s.patrolUnit ch)) 1 else s.bulkBad) := by
  have h := (s.count (0x3470 + ch) 1 64 64).patrolNoted_onlyMarks ch (s.patrolUnit ch) found
  rw [State.patrolRead_unitKey] at h
  exact OnlyMarks.trans (OnlyMarks.count (s := s) (u := s) rfl ..) h

/-- What patrol scrub counts and logs (R159, R425). -/
theorem State.patrolled_finds (s : State) {ch : Nat} (hch : ch < 16) (found : EccFind) :
    let v := s.patrolled ch found
    let u := s.patrolUnit ch
    v.obj (0x3470 + ch) 1 = counterAt 64 (s.obj (0x3470 + ch) 1 + 64)
      ∧ (found = .corrected → v.obj (0x3470 + ch) 3 = counterAt 32 (s.obj (0x3470 + ch) 3 + 1))
      ∧ (found = .uncorrectable → v.obj (0x3470 + ch) 7 = 64 * u ∧ (s.logRoom → Logged s v (0x20 + ch) 0x0301 (64 * u + 2 ^ 44))) := by
  have hread := s.count_sameObjs (i := 0x3470 + ch) (k := 1) 64 64 (by decide)
  have hnoted := (s.count (0x3470 + ch) 1 64 64).patrolNoted_sameObjs ch (s.patrolUnit ch) found
  dsimp only
  refine ⟨?read, ?corrected, ?uncorrectable⟩
  case read => exact (hnoted _ _ (by decide) (by simp)).trans (State.count_obj_self ..)
  case corrected =>
    rintro rfl
    exact (State.count_obj_self ..).trans (by rw [hread _ _ (by decide) (by simp)])
  case uncorrectable =>
    rintro rfl
    obtain ⟨-, h7⟩ := (s.count (0x3470 + ch) 1 64 64).bulkFault_obj ch (s.patrolUnit ch) 1
    refine ⟨h7, fun h => ?_⟩
    have hlog := State.bulkFault_logged ch (s.patrolUnit ch) 1
      (s.count_logStays (i := 0x3470 + ch) (k := 1) 64 64 (by decide) (by simp; omega)) h
    rwa [Nat.one_mul] at hlog

/-! ### Dictionary writes that take (R344, R371) -/

/-- A write that its object's rules take answers OK (R346). -/
theorem State.guarded_of_taken {m : Master} {i k : Nat} {f : Act} (h : Accepts s m i k) (hf : f (s.heard m.path) = (v, stOk)) :
    (s.heard m.path).guarded m i k f = (v, stOk) := by
  obtain ⟨-, -, hserved, hlock⟩ := h
  have hrec : ((s.heard m.path).recovering && !(s.heard m.path).served i k true) = false := by
    cases hr : (s.heard m.path).recovering with
    | false => rfl
    | true => simp [hserved hr]
  unfold State.guarded
  dsimp only
  rw [hrec, hf, hlock, if_neg Bool.false_ne_true, if_neg (show ¬ stOk = stSealed by decide)]

/-- A command that is one dictionary write takes where its object's rules do. -/
theorem takes_of_act {i : Master → Instr} {idx k : Nat} {f : Act} {pre : State → Prop} {post : State → State → Prop}
    (hi : ∀ m s, exec (i m) s = .next (s.act m idx k f))
    (hf : ∀ u, pre u → ∃ v, f u = (v, stOk) ∧ ∀ o, post u (v.emit o)) : Takes i idx k pre post := by
  intro m s ha hp
  obtain ⟨v, hv, hpost⟩ := hf _ hp
  refine ⟨_, hi m s, ?_⟩
  rw [act_of_accepts f ha, State.guarded_of_taken ha hv]
  exact ⟨rfl, hpost _⟩

/-! ### The slab map (R141) -/

theorem State.each_setObj_obj (i x : Nat) {l : List Nat} (hl : ∀ m ∈ l, m + 1 < 256) (s : State) (j : Nat) {k : Nat} (hk : k < 256) :
    (s.each l fun s m => s.setObj i (m + 1) x).obj j k = if j = i ∧ ∃ m ∈ l, k = m + 1 then x else s.obj j k := by
  induction l generalizing s with
  | nil => simp [State.each]
  | cons m l ih =>
    refine (ih (fun m hm => hl m (List.mem_cons_of_mem _ hm)) _).trans ?_
    rw [State.setObj_obj_eq _ _ _ _ _ _ (hl m List.mem_cons_self) hk]
    simp only [List.mem_cons, exists_eq_or_imp]
    by_cases h : j = i <;> by_cases h' : k = m + 1 <;> simp [h, h']

theorem State.each_setObj_onlyRegs (i x : Nat) (l : List Nat) (s : State) :
    OnlyRegs s (s.each l fun s m => s.setObj i (m + 1) x) :=
  List.foldlRecOn l _ (motive := OnlyRegs s) (OnlyRegs.refl s) fun _ h _ _ => h.setObj ..

/-- Bulk memory cleared reads zero, and every other byte as before. -/
theorem State.rawByte_clearBulk (s : State) (lo hi x : Nat) :
    (s.clearBulk lo hi).rawByte x = if bulkBase + lo ≤ x ∧ x < bulkBase + hi then 0 else s.rawByte x := by
  by_cases hx : 0x80000000 ≤ x
  · rw [State.rawByte_other _ _ hx, State.rawByte_other _ _ hx]
    exact Tab.get_clear ..
  · have hout : ¬ (bulkBase + lo ≤ x ∧ x < bulkBase + hi) := by simp only [bulkBase]; omega
    rw [if_neg hout]
    unfold State.rawByte
    rw [show (s.clearBulk lo hi).mem.get x = s.mem.get x from (Tab.get_clear ..).trans (if_neg hout)]
    rfl

/-- All rings of spilled tiles empty. -/
def State.ringsEmpty (s : State) : State := { s with rings := .empty }

theorem State.restartZeroing_eq (s : State) :
    s.restartZeroing = (((s.clearBulk 0 bulkSize).ringsEmpty).each (List.range 16) fun s m => s.setObj 0x3460 (m + 1) 0).setObj 0x3460 0x11 0 :=
  rfl

theorem State.restartZeroing_obj (s : State) (i : Nat) {k : Nat} (hk : k < 256) :
    s.restartZeroing.obj i k = if i = 0x3460 ∧ (k = 0x11 ∨ ∃ m ∈ List.range 16, k = m + 1) then 0 else s.obj i k := by
  rw [State.restartZeroing_eq, State.setObj_obj_eq _ _ _ _ _ _ (by decide) hk,
    State.each_setObj_obj 0x3460 0 (fun m hm => by have := List.mem_range.1 hm; omega) _ _ hk]
  by_cases h : i = 0x3460 <;> by_cases h' : k = 0x11 <;> simp [h, h'] <;> rfl

theorem State.restartZeroing_fields (s : State) :
    s.restartZeroing.mem = (s.clearBulk 0 bulkSize).mem ∧ s.restartZeroing.cores = s.cores ∧ s.restartZeroing.parts = s.parts := by
  have h : OnlyRegs (s.clearBulk 0 bulkSize).ringsEmpty s.restartZeroing :=
    (State.each_setObj_onlyRegs 0x3460 0 (List.range 16) _).setObj ..
  rw [show s.restartZeroing = _ from h]
  exact ⟨rfl, rfl, rfl⟩

theorem slabMapAct_of_idle {w : Nat} (hi : u.obj 0x2000 1 = 2) (hp : ∀ p, p < 4 → u.pstate p = 0) (h4 : w % 4 = 0) (hlo : 4 ≤ w)
    (hhi : w ≤ 128) : slabMapAct w u = (((u.setObj 0x3410 1 w).setObj 0x3410 2 ((128 - w) / 4)).restartZeroing, stOk) := by
  have hany : (List.range 4).any (fun p => u.pstate p != 0) = false := by simpa using hp
  unfold slabMapAct
  rw [hany, if_neg (by simp [hi]), if_neg (by omega)]

/-- A slab map written: both numbers of slabs, every front at 0, bulk memory zero (R141, R155, R156). -/
theorem State.slabMap_spec (u : State) (w x : Nat) :
    let v := ((u.setObj 0x3410 1 w).setObj 0x3410 2 x).restartZeroing
    v.obj 0x3410 1 = w ∧ v.obj 0x3410 2 = x
      ∧ (∀ a, v.rawByte a = if bulkBase ≤ a ∧ a < bulkBase + bulkSize then 0 else u.rawByte a)
      ∧ (∀ k, k < 16 → v.obj 0x3460 (k + 1) = 0) ∧ v.obj 0x3460 0x11 = 0 ∧ v.cores = u.cores ∧ v.parts = u.parts
      ∧ SameObjs u v ([(0x3410, 1), (0x3410, 2), (0x3460, 0x11)] ++ (List.range 16).map fun k => (0x3460, k + 1)) := by
  have hmap : SameObjs u ((u.setObj 0x3410 1 w).setObj 0x3410 2 x) [(0x3410, 1), (0x3410, 2)] :=
    SameObjs.append (State.setObj_sameObjs (by decide)) (State.setObj_sameObjs (by decide))
  have h1 : ((u.setObj 0x3410 1 w).setObj 0x3410 2 x).obj 0x3410 1 = w :=
    (State.setObj_obj_ne _ _ _ _ _ _ (by decide) (by decide) (by decide)).trans (State.setObj_obj_self ..)
  have h2 : ((u.setObj 0x3410 1 w).setObj 0x3410 2 x).obj 0x3410 2 = x := State.setObj_obj_self ..
  have hcores : ((u.setObj 0x3410 1 w).setObj 0x3410 2 x).cores = u.cores := rfl
  have hparts : ((u.setObj 0x3410 1 w).setObj 0x3410 2 x).parts = u.parts := rfl
  have hraw : ∀ a, ((u.setObj 0x3410 1 w).setObj 0x3410 2 x).rawByte a = u.rawByte a := fun _ => rfl
  dsimp only
  generalize (u.setObj 0x3410 1 w).setObj 0x3410 2 x = s at *
  have hobj := fun i k (hk : k < 256) => s.restartZeroing_obj i hk
  obtain ⟨hm, hc, hpt⟩ := s.restartZeroing_fields
  refine ⟨?_, ?_, fun a => ?bytes, fun k hk => ?fronts, ?_, hc.trans hcores, hpt.trans hparts, fun i k hk hn => ?frame⟩
  · rw [hobj _ _ (by decide), if_neg (by simp), h1]
  · rw [hobj _ _ (by decide), if_neg (by simp), h2]
  case bytes =>
    rw [State.rawByte_congr (t := s.restartZeroing) hm (fun c => by rw [State.core_congr hc]; rfl), State.rawByte_clearBulk, hraw]
    rfl
  case fronts => rw [hobj _ _ (by omega), if_pos ⟨rfl, .inr ⟨k, List.mem_range.2 hk, rfl⟩⟩]
  · rw [hobj _ _ (by decide), if_pos ⟨rfl, .inl rfl⟩]
  case frame =>
    rw [List.mem_append, not_or, List.mem_map] at hn
    obtain ⟨hl, hr⟩ := hn
    rw [hobj _ _ hk, if_neg ?_, hmap.mono (by simp) i k hk hl]
    rintro ⟨rfl, rfl | ⟨m, hm, rfl⟩⟩
    · exact hl (by simp)
    · exact hr ⟨m, hm, rfl⟩

/-! ### Region records (R142, R143, R156) -/

theorem State.regionAsk_live (s : State) (g : Region) (f : RegionField) (x : Nat) : (s.regionAsk g f x).live = g.live := by
  cases f
  case owner =>
    unfold State.regionAsk
    dsimp only
    split <;> rfl
  all_goals rfl

/-- A region record stored: its fields, and LIVE at 0 when disabled and outside WPAIR (R142). -/
def State.recordPut (s : State) (r : Nat) (h : Region) : State :=
  let s := (((s.setObj (0x3420 + r) 1 h.base).setObj (0x3420 + r) 2 h.size).setObj (0x3420 + r) 3 h.attr).setObj (0x3420 + r) 4 h.owner
  if h.size = 0 ∨ h.cls ≠ 1 then s.setObj (0x3420 + r) 5 0 else s

theorem State.putRegion_eq (s : State) (r : Nat) (g h : Region) :
    s.putRegion r g h = (s.recordPut r h).zeroSpan r (zeroedBy g h).1 (zeroedBy g h).2 := rfl

theorem State.recordPut_sameObjs (s : State) (r : Nat) (h : Region) :
    SameObjs s (s.recordPut r h) [(0x3420 + r, 1), (0x3420 + r, 2), (0x3420 + r, 3), (0x3420 + r, 4), (0x3420 + r, 5)] := by
  have h1 : SameObjs s (s.setObj (0x3420 + r) 1 h.base) [(0x3420 + r, 1)] := State.setObj_sameObjs (by decide)
  have h2 := h1.append (State.setObj_sameObjs (i := 0x3420 + r) (k := 2) (v := h.size) (by decide))
  have h3 := h2.append (State.setObj_sameObjs (i := 0x3420 + r) (k := 3) (v := h.attr) (by decide))
  have h4 := h3.append (State.setObj_sameObjs (i := 0x3420 + r) (k := 4) (v := h.owner) (by decide))
  unfold State.recordPut
  dsimp only
  split
  · exact h4.append (State.setObj_sameObjs (by decide))
  · exact h4.mono (by simp)

theorem State.recordPut_onlyRegs (s : State) (r : Nat) (h : Region) : OnlyRegs s (s.recordPut r h) := by
  have hput := ((((OnlyRegs.refl s).setObj (0x3420 + r) 1 h.base).setObj (0x3420 + r) 2 h.size).setObj (0x3420 + r) 3 h.attr).setObj
    (0x3420 + r) 4 h.owner
  unfold State.recordPut
  dsimp only
  split
  · exact hput.setObj ..
  · exact hput

theorem State.region_recordPut (s : State) (r : Nat) (h : Region) :
    (s.recordPut r h).region r = { h with live := if h.size = 0 ∨ h.cls ≠ 1 then 0 else (s.region r).live } := by
  unfold State.recordPut State.region
  dsimp only
  split <;> simp [State.setObj_obj_eq]

theorem State.zeroSpan_obj (s : State) (r lo n : Nat) {i k : Nat} (hk : k < 256) :
    (s.zeroSpan r lo n).obj i k = if n ≠ 0 ∧ i = 0x3420 + r ∧ k = 6 then 1 else s.obj i k := by
  unfold State.zeroSpan
  split
  · next h => rw [if_neg fun hn => hn.1 h]
  · next h =>
    refine (State.setObj_obj_eq _ _ _ _ _ _ (by decide) hk).trans ?_
    simp only [h, ne_eq, not_false_eq_true, true_and]
    rfl

/-- The span that a record zeroes reads zero, and every other byte as before. -/
theorem State.rawByte_zeroSpan (s : State) (r lo n x : Nat) :
    (s.zeroSpan r lo n).rawByte x = if bulkBase + lo ≤ x ∧ x < bulkBase + lo + n then 0 else s.rawByte x := by
  unfold State.zeroSpan
  split
  · next h => rw [if_neg (by omega)]
  · rw [Nat.add_assoc]
    exact s.rawByte_clearBulk lo (lo + n) x

theorem State.zeroSpan_fields (s : State) (r lo n : Nat) :
    (s.zeroSpan r lo n).cores = s.cores ∧ (s.zeroSpan r lo n).parts = s.parts
      ∧ (0 < n → (s.zeroSpan r lo n).rings.get r = {}) := by
  unfold State.zeroSpan
  split
  · next h => exact ⟨rfl, rfl, fun hn => absurd h (Nat.ne_of_gt hn)⟩
  · exact ⟨rfl, rfl, fun _ => Tab.get_set_self ..⟩

/-- The record that a write of a region asks for is accepted (R142, R143, R325). -/
structure RecordTakes (u : State) (r : Nat) (f : RegionField) (h : Region) : Prop where
  unsealed : u.regionClosed (u.region r) h f = false
  idle     : ((u.region r).owner < 4 → u.pstate (u.region r).owner ≠ 3) ∧ (h.owner < 4 → u.pstate h.owner ≠ 3)
  fits     : h.recordOk = true ∧ h.slabsOk (u.obj 0x3410 1) = true ∧ u.regionClash r h = false
  sealed   : h.xts = true → h.owner < 4 ∧ u.isSealed h.owner = true

theorem regionAct_of_takes {r x : Nat} {f : RegionField} (h : RecordTakes u r f (u.regionAsk (u.region r) f x)) :
    regionAct r f x u = (u.putRegion r (u.region r) (u.regionAsk (u.region r) f x), stOk) := by
  obtain ⟨hopen, ⟨hg, hh⟩, ⟨hok, hslabs, hclash⟩, hxts⟩ := h
  have hidle : ∀ p, (p < 4 → u.pstate p ≠ 3) → (decide (p < 4) && u.stepping p) = false := fun p hp => by
    simpa [State.stepping] using hp
  have hx : ∀ g : Region, (g.xts = true → g.owner < 4 ∧ u.isSealed g.owner = true) →
      (g.xts && !(decide (g.owner < 4) && u.isSealed g.owner)) = false := fun g hg => by
    cases hb : g.xts with
    | false => rfl
    | true => simp [hg hb]
  unfold regionAct
  dsimp only
  rw [hopen, hidle _ hg, hidle _ hh, hok, hslabs, hclash, hx _ hxts]
  rfl

/-- A region record written: the record, the span it zeroes, and nothing beside (R142, R156). -/
theorem State.putRegion_spec (u : State) (r : Nat) (g h : Region) (hl : h.live = (u.region r).live) :
    let z := zeroedBy g h
    let t := u.putRegion r g h
    t.region r = { h with live := if h.size = 0 ∨ h.cls ≠ 1 then 0 else h.live }
      ∧ (∀ a, t.rawByte a = if bulkBase + z.1 ≤ a ∧ a < bulkBase + z.1 + z.2 then 0 else u.rawByte a)
      ∧ (0 < z.2 → t.obj (0x3420 + r) 6 = 1 ∧ t.rings.get r = {}) ∧ t.cores = u.cores ∧ t.parts = u.parts
      ∧ SameObjs u t [(0x3420 + r, 1), (0x3420 + r, 2), (0x3420 + r, 3), (0x3420 + r, 4), (0x3420 + r, 5), (0x3420 + r, 6)] := by
  have hregs := u.recordPut_sameObjs r h
  have hput := u.recordPut_onlyRegs r h
  have hcores : (u.recordPut r h).cores = u.cores := Eq.trans (congrArg State.cores hput) rfl
  have hparts : (u.recordPut r h).parts = u.parts := Eq.trans (congrArg State.parts hput) rfl
  have hraw : ∀ a, (u.recordPut r h).rawByte a = u.rawByte a :=
    State.rawByte_congr (Eq.trans (congrArg State.mem hput) rfl) fun c => by rw [State.core_congr hcores]
  have hregion := u.region_recordPut r h
  rw [← hl] at hregion
  dsimp only
  rw [State.putRegion_eq]
  generalize u.recordPut r h = v at *
  have hobj := fun i k (hk : k < 256) => v.zeroSpan_obj r (zeroedBy g h).1 (zeroedBy g h).2 (i := i) hk
  obtain ⟨hc, hp, hring⟩ := v.zeroSpan_fields r (zeroedBy g h).1 (zeroedBy g h).2
  refine ⟨?record, fun a => ?bytes, fun hn => ⟨?_, hring hn⟩, hc.trans hcores, hp.trans hparts, fun i k hk hn => ?frame⟩
  case record =>
    rw [← hregion]
    simp [State.region, hobj]
  case bytes => rw [State.rawByte_zeroSpan, hraw]
  · rw [hobj _ _ (by decide), if_pos ⟨Nat.ne_of_gt hn, rfl, rfl⟩]
  case frame =>
    rw [hobj _ _ hk, if_neg ?_, hregs.mono (by simp) i k hk hn]
    rintro ⟨-, rfl, rfl⟩
    exact hn (by simp)

end Sys2Proof.Machine

open Sys2Proof.Machine

/-- Settles O48: each clause is what its operation leaves, by the lemmas above on it. -/
theorem bulkMemoryAtRest : Obligations.BulkMemoryAtRest := by
  refine ⟨?good, ?bad, ?zeroing, ?region, ?patrol, ?slabMap, ?record⟩
  case good => exact fun ch unit p s h => ⟨_, congrArg Host.Outcome.next (State.bulkReread_good h), s.goodReread_spec ch unit p⟩
  case bad =>
    intro ch unit p s h
    obtain ⟨h5, h7, hp, hmarks, hregs, hlog⟩ := s.badReread_spec ch.isLt unit p
    refine ⟨_, congrArg Host.Outcome.next (State.bulkReread_bad h), fun k => ?_, h5, h7, hp, hlog, ?_, hregs⟩
    · rw [hmarks.bulkBad, Tab.get_set]
    · rw [hmarks.bulkBad]
      exact hmarks
  case zeroing =>
    intro ch s ha hf
    obtain ⟨hobj, hdone, hframe⟩ := State.zeroChunk_spec ch.isLt ha hf
    obtain ⟨hfront, hcount⟩ := s.frontMoved_obj ch.isLt
    have hfronts : (∀ k, k < 16 → (s.zeroChunk ch).obj 0x3460 (k + 1) = 4096) ↔ (s.frontMoved ch).frontsDone = true := by
      rw [State.frontsDone_iff]
      exact forall₂_congr fun k hk => by rw [hobj _ _ (by omega) (by simp; omega)]
    refine ⟨_, rfl, ?_, ?_, fun h => ?_, fun h => ?_, hframe, fun i k hk hn => ?_⟩
    · rw [hobj _ _ (by omega) (by simp; omega), hfront]
    · rw [hobj _ _ (by decide) (by simp), hcount]
    · rw [hdone, if_pos (hfronts.1 h)]
    · obtain ⟨k, hk, hne⟩ := h
      rw [hdone, if_neg fun hd => hne (hfronts.2 hd k hk)]
    · rw [hobj i k hk fun e => hn (by simp [e]), (s.frontMoved_sameObjs ch.isLt).mono (by simp) i k hk hn]
  case region =>
    intro r s ha hj
    obtain ⟨hjobs, hmem, hcores, hready⟩ := State.zeroRegionStep_spec r.isLt ha hj
    refine ⟨_, rfl, fun j hj hr hp => ?moves, fun j hj hr => ?others, fun j hj hr => ?mine, fun hlast => hready fun j hj hr => ?last,
      hmem, hcores⟩
    case moves =>
      rw [hjobs, mem_movedJobs]
      exact ⟨hp, j, hj, (if_pos hr).symm⟩
    case others =>
      obtain ⟨-, h⟩ | ⟨h, -⟩ := cases_of_mem_movedJobs (hjobs ▸ hj)
      · exact h
      · exact absurd h hr
    case mine =>
      obtain ⟨h, -⟩ | ⟨-, -, i, hi, -, h⟩ := cases_of_mem_movedJobs (hjobs ▸ hj)
      · exact absurd hr h
      · exact ⟨i, hi, h⟩
    case last =>
      obtain ⟨h, -⟩ | ⟨-, hp, i, hi, hir, rfl⟩ := cases_of_mem_movedJobs hj
      · exact h hr
      · exact Nat.not_lt.2 (hlast i hi hir) hp
  case patrol =>
    intro ch found s ha hf hr
    obtain ⟨hmem, hcores, hbad, hlog, hnext, hregs⟩ := State.patrolStep_fields (found := found) ha hf hr
    obtain ⟨hread, hcorr, hunc⟩ := s.patrolled_finds ch.isLt found
    have hmarks := s.patrolled_onlyMarks ch found
    refine ⟨_, rfl, hnext, ?_, fun h => ?_, fun h => ⟨?_, ?_, fun hroom => ?_⟩, fun h => ?_, hmem.trans hmarks.mem, hcores.trans hmarks.cores⟩
    · rw [hregs _ _ (by decide) (by simp), hread]
    · rw [hregs _ _ (by decide) (by simp), hcorr h]
    · rw [hbad, hmarks.bulkBad, if_pos h]
      exact Tab.get_set_self ..
    · rw [hregs _ _ (by decide) (by simp), (hunc h).1]
      rfl
    · exact ((hunc h).2 hroom).of_log hlog
    · rw [hbad, hmarks.bulkBad, if_neg h]
  case slabMap =>
    refine fun w => takes_of_act (fun _ _ => rfl) ?_
    rintro u ⟨hi, hp, h4, hlo, hhi⟩
    refine ⟨_, slabMapAct_of_idle hi hp h4 hlo hhi, fun _ => ?_⟩
    have hspec := u.slabMap_spec w.toNat ((128 - w.toNat) / 4)
    dsimp only at hspec
    generalize ((u.setObj 0x3410 1 w.toNat).setObj 0x3410 2 ((128 - w.toNat) / 4)).restartZeroing = v at hspec ⊢
    exact hspec
  case record =>
    refine fun r f x => takes_of_act (fun _ _ => rfl) ?_
    rintro u ⟨hopen, hg, hh, hok, hslabs, hclash, hxts⟩
    refine ⟨_, regionAct_of_takes ⟨hopen, ⟨hg, hh⟩, ⟨hok, hslabs, hclash⟩, hxts⟩, fun _ => ?_⟩
    have hspec := u.putRegion_spec r (u.region r) _ (u.regionAsk_live (u.region r) f x.toNat)
    dsimp only at hspec
    generalize u.putRegion r (u.region r) (u.regionAsk (u.region r) f x.toNat) = v at hspec ⊢
    exact hspec

end

section
/-! SPILL and PREFETCH (R151, R152, R184): the state after each, what it holds in memory, in the ring and in the core. -/

namespace Sys2Proof.Machine

variable {s t u : State} {e : Env}

/-! ### What the mover reads and writes beside its cells (R129, R160) -/

theorem moverReads_onlyCounts (s : State) (l : Spans) : OnlyCounts s (moverReads s l) := by
  unfold moverReads
  refine List.foldlRecOn _ _ (motive := OnlyCounts s)
    (List.foldlRecOn _ _ (motive := OnlyCounts s) (OnlyCounts.refl s) fun _ h _ _ => h.countBulk ..) fun _ h _ _ => ?_
  dsimp only
  split
  · exact h
  · exact h.count ..

/-- Reads are counted in subindexes 1 to 3. -/
theorem moverReads_obj (s : State) (l : Spans) (i : Nat) {k : Nat} (hk : k < 256) (h3 : 3 < k) :
    (moverReads s l).obj i k = s.obj i k := by
  unfold moverReads
  refine List.foldlRecOn _ _ (motive := fun t : State => t.obj i k = s.obj i k)
    (List.foldlRecOn _ _ (motive := fun t : State => t.obj i k = s.obj i k) rfl fun t h _ _ =>
      (t.countBulk_obj _ _ (by decide) hk (by omega) (by omega)).trans h) fun t h _ _ => ?_
  dsimp only
  split
  · exact h
  · exact (State.setObj_obj_ne _ _ _ _ _ _ (by decide) hk (by simp; omega)).trans h

/-- A store outside the scratchpads is counted in subindexes 1 to 3. -/
theorem State.putBytes_obj (s : State) {a : Nat} (bs : List Byte) (ha : bulkBase ≤ a) (i : Nat) {k : Nat} (hk : k < 256)
    (h3 : 3 < k) : (s.putBytes a bs).obj i k = s.obj i k := by
  have hout : ¬ a < 0x80000000 := by simp only [bulkBase] at ha; omega
  unfold State.putBytes
  dsimp only
  split
  · rfl
  · exact s.countBulk_obj a bs.length (by decide) hk (by omega) (by omega)

/-- A store outside the scratchpads puts its bytes there and leaves every other. -/
theorem State.putBytes_written (hs : s.Canonical) {a : Nat} (bs : List Byte) (ha : bulkBase ≤ a) : RawWritten s (s.putBytes a bs) a bs :=
  State.putBytes_rawByte s hs a bs fun h => absurd h (by simp only [bulkBase] at ha; omega)

/-- Other rings of spilled tiles. -/
def State.withRings (s : State) (x : Tab ringReset) : State := { s with rings := x }

/-! ### SPILL -/

/-- Bytes of an entry: its header, and the tile in whole words (R151). -/
def entryBytes (d : Tensor) : Nat := 64 + ceilDiv d.tileSize 64 * 64

/-- The entry that SPILL appends at offset `off` of the region (R151). -/
def spilledEntry (s : State) (e : Env) (g : Region) (d : Tensor) (off : Nat) : SpillEntry :=
  ⟨bulkBase + g.start + off, BitVec.ofNat 32 (s.obj (0x3100 + e.p) 6), e.f 32 16, e.f 48 32, entryBytes d / 64, true, false, false⟩

/-- The tile written behind its header, its reads counted. -/
def State.tileSpilled (s : State) (e : Env) (d : Tensor) (a : Nat) (en : SpillEntry) : State :=
  moverReads (s.putBytes a (spillHeader en ++ spillBytes s d (e.f 48 32))) (d.tileSpans (e.f 48 32))

theorem Chk.bind_of_ok {α β : Type} {x : Chk α} {a : α} {f : α → Chk β} (h : x = .ok a) : (x >>= f) = f a := by
  rw [h]
  rfl

theorem spillCommand_of_place {x : Nat × Region × Tensor} {off : Nat} {rest : List SpillEntry} (hx : e.ctx < 4)
    (hargs : spillArgs s e false = .ok x) (hread : readSpans s (x.2.2.tileSpans (e.f 48 32)) = .ok ())
    (hplace : spillPlace (s.rings.get x.1) (bulkBase + x.2.1.start) x.2.1.bytes (entryBytes x.2.2) = some (off, rest))
    (hready : s.bulkReady (x.2.1.start + off) (entryBytes x.2.2) = true) :
    spillCommand e s = .ok (((s.tileSpilled e x.2.2 (bulkBase + x.2.1.start + off) (spilledEntry s e x.2.1 x.2.2 off)).withRings
      (s.rings.set x.1 ⟨off + entryBytes x.2.2, rest ++ [spilledEntry s e x.2.1 x.2.2 off]⟩)).noteWrite e) := by
  have hreads : atSlot (e.f 8 8) (readSpans s (x.2.2.tileSpans (e.f 48 32))) = .ok () := by rw [hread, atSlot_of_ok]
  unfold spillCommand State.tileSpilled State.withRings
  refine (Chk.bind_of_ok hargs).trans ?_
  refine (if_neg fun h => absurd h.1 (Nat.not_le.2 hx)).trans ?_
  refine (Chk.bind_of_ok hreads).trans ?_
  extract_lets n base
  have hplace' : spillPlace (s.rings.get x.1) base x.2.1.bytes n = some (off, rest) := hplace
  rw [hplace']
  exact Chk.bind_of_ok (need_of_true hready)

/-- What SPILL leaves of the state but for its ring: the bytes behind the header, the count of commands. -/
theorem State.tileSpilled_spec (hs : s.Canonical) (d : Tensor) {a : Nat} (ha : bulkBase ≤ a) (en : SpillEntry) :
    let t := s.tileSpilled e d a en
    RawWritten s t a (spillHeader en ++ spillBytes s d (e.f 48 32))
      ∧ ∀ i k, k < 256 → 3 < k → t.obj i k = s.obj i k := by
  have hbytes := State.putBytes_written hs (spillHeader en ++ spillBytes s d (e.f 48 32)) ha
  have hobj := s.putBytes_obj (spillHeader en ++ spillBytes s d (e.f 48 32)) ha
  unfold State.tileSpilled
  dsimp only
  generalize s.putBytes a (spillHeader en ++ spillBytes s d (e.f 48 32)) = u at *
  have hreads := moverReads_onlyCounts u (d.tileSpans (e.f 48 32))
  refine ⟨fun x => ?_, fun i k hk h3 => (moverReads_obj u _ i hk h3).trans (hobj i hk h3)⟩
  rw [State.rawByte_congr hreads.mem fun c => by rw [State.core_congr hreads.cores], hbytes]

theorem State.noteWrite_held (u : State) (e : Env) (d : Nat) : ((u.noteWrite e).core d).held = (u.core d).held := by
  by_cases h : d = e.core
  · rw [h, State.noteWrite_core_self]
  · rw [State.noteWrite_core_ne u e h]

theorem State.startWrites_held (u : State) (e : Env) (l : List Nat) (b : Bool) (d : Nat) :
    ((u.startWrites e l b).core d).held = (u.core d).held := by
  by_cases h : d = e.core
  · rw [h, State.startWrites_core_self]
  · rw [State.startWrites_core_ne u e l b h]

theorem State.rawByte_noteWrite (u : State) (e : Env) (x : Nat) : (u.noteWrite e).rawByte x = u.rawByte x :=
  State.rawByte_congr (State.setCore_mem ..) (u.noteWrite_held e) x

theorem State.rawByte_startWrites (u : State) (e : Env) (l : List Nat) (b : Bool) (x : Nat) :
    (u.startWrites e l b).rawByte x = u.rawByte x :=
  State.rawByte_congr (State.setCore_mem ..) (u.startWrites_held e l b) x

theorem State.rawByte_issued (u : State) (e : Env) (x : Nat) : (u.issued e).rawByte x = u.rawByte x :=
  State.rawByte_congr (State.issued_onlyRegsCores u e).mem (State.issued_held u e) x

theorem OnlyRegsCores.rings (h : OnlyRegsCores s u) : u.rings = s.rings := Eq.trans (congrArg State.rings h) rfl

/-- A command that notes a write and issues leaves its context's writes unfenced. -/
theorem State.noteWrite_issued_unfenced (u : State) (e : Env) :
    ((((u.noteWrite e).issued e).core e.core).ctxs.get e.ctx).unfenced = 0b1111 := by
  rw [State.issued_core_self, State.noteWrite_core_self]
  simp only [Tab.get_modify_self]

theorem State.withRings_noteWrite_issued_rings (u : State) (R : Tab ringReset) (e : Env) :
    (((u.withRings R).noteWrite e).issued e).rings = R :=
  (State.issued_onlyRegsCores _ e).rings.trans (OnlyRegsCores.rings (State.setCore_onlyRegsCores (u.withRings R) e.core _))

theorem State.withRings_noteWrite_issued_rawByte (u : State) (R : Tab ringReset) (e : Env) (x : Nat) :
    (((u.withRings R).noteWrite e).issued e).rawByte x = u.rawByte x :=
  (State.rawByte_issued _ e x).trans (State.rawByte_noteWrite _ e x)

/-! ### PREFETCH -/

/-- The cells of a tile that PREFETCH copies back from behind its header, area by area. -/
def prefetchCells (s : State) (d : Tensor) (addr tile : Nat) : Cells :=
  let offs := (d.areas.foldl (fun (y : Nat × List Nat) n => (y.1 + 32 * n, y.2 ++ [y.1])) (64, [])).2
  (d.areas.mapIdx fun a n =>
    cellsAt (d.areaAddr a (tile * 32)) ((List.range (32 * n)).map fun j => s.byteAt (addr + offs.getD a 0 + j))).flatten

/-- An entry read back for the first time. -/
def SpillEntry.consume (en : SpillEntry) : SpillEntry := { en with consumed := true, reread := en.consumed }

/-- The entries with one marked. -/
def markEntry (l : List SpillEntry) (en : SpillEntry) : List SpillEntry := l.map fun y => if y.addr = en.addr then en.consume else y

theorem consumed_of_mem_markEntry {l : List SpillEntry} {en y : SpillEntry} (h : y ∈ markEntry l en) (ha : y.addr = en.addr) :
    y.consumed = true := by
  obtain ⟨x, -, rfl⟩ := List.mem_map.1 h
  by_cases hx : x.addr = en.addr
  · rw [if_pos hx]
    rfl
  · rw [if_neg hx] at ha
    exact absurd ha hx

/-- Cells written through the mover port, their words counted (R129). -/
def State.moverStored (s : State) (l : Cells) : State :=
  (List.range 16).foldl (fun u c => u.portWrites c
    (wordsIn ((l.map fun x => (redirectBy u.redirects x.1, x.2)).filter fun x => decide (winOf c ≤ x.1) && decide (x.1 < winOf (c + 1)))))
    (storeCells s (s.placed l))

theorem moverWrite_of_none {l : Cells} (hr : s.recorded e = false) (hp : partialHalf s (s.placed l) = none) :
    moverWrite s e l = .ok (s.moverStored l) := by
  unfold moverWrite
  rw [hr, if_neg Bool.false_ne_true]
  exact Chk.bind_of_ok (commitCells_of_none hp)

/-- The mover's cells in memory (R208); the cores as they were but for held words. -/
theorem State.moverStored_spec {l : Cells} (hs : s.Canonical) (hr : s.recorded e = false) (hp : partialHalf s (s.placed l) = none) :
    (s.moverStored l).Canonical ∧ MemWritten s (s.moverStored l) l ∧ HeldOnly s (s.moverStored l) := by
  have hheld : HeldOnly s (s.moverStored l) := List.foldlRecOn _ _ (motive := HeldOnly s) (storeCells_heldOnly s _) fun _ h _ _ =>
    h.trans (State.portWrites_heldOnly ..)
  have hcanon : (s.moverStored l).Canonical :=
    (Keeps.of_ok (moverWrite_of_none hr hp) (moverWrite_keeps (Keeps.refl s))).canon hs
  have hstore := commitCells_written s _ hs l (commitCells_of_none hp) (storeCells_heldOnly s _).redirects
  refine ⟨hcanon, List.foldlRecOn _ _ (motive := fun u => MemWritten s u l) hstore fun u h c _ => ?_, hheld⟩
  exact h.of_same (State.portWrites_mem ..) (fun d => by rw [State.portWrites_core]) (State.portWrites_heldOnly ..).redirects

/-- The tile of a PREFETCH back in its place, and its entry's header marked consumed. -/
def State.tileFetched (s : State) (e : Env) (d : Tensor) (en : SpillEntry) : State :=
  (s.moverStored (prefetchCells s d en.addr (e.f 48 32))).putBytes en.addr (spillHeader en.consume)

theorem prefetchCommand_of_entry {x : Nat × Region × Tensor} {en : SpillEntry} (hr : s.recorded e = false)
    (hargs : spillArgs s e true = .ok x)
    (hfind : spillFind (s.rings.get x.1).entries (BitVec.ofNat 32 (s.obj (0x3100 + e.p) 6)) (e.f 32 16) (e.f 48 32) = some en)
    (hv : en.valid = true) (hc : en.consumed = false) (hsize : en.size * 64 = entryBytes x.2.2)
    (hread : readSpans s [(en.addr, en.size * 64)] = .ok ())
    (hp : partialHalf s (s.placed (prefetchCells s x.2.2 en.addr (e.f 48 32))) = none) :
    prefetchCommand e s = .ok (moverDone ((moverReads (s.tileFetched e x.2.2 en) [(en.addr, en.size * 64)]).withRings
      ((s.tileFetched e x.2.2 en).rings.set x.1 { s.rings.get x.1 with entries := markEntry (s.rings.get x.1).entries en }))
      e (e.f 8 8) x.2.2) := by
  have hwrite : atSlot (e.f 8 8) (moverWrite s e (prefetchCells s x.2.2 en.addr (e.f 48 32)))
      = .ok (s.moverStored (prefetchCells s x.2.2 en.addr (e.f 48 32))) := by rw [moverWrite_of_none hr hp, atSlot_of_ok]
  unfold prefetchCommand State.withRings
  refine (Chk.bind_of_ok hargs).trans ?_
  extract_lets t step ring
  have hfind' : spillFind ring.entries step (e.f 32 16) (e.f 48 32) = some en := hfind
  rw [hfind']
  refine (Chk.bind_of_ok (need_of_true hv)).trans ?_
  refine (Chk.bind_of_ok (need_of_true (by rw [hc]; rfl))).trans ?_
  refine (Chk.bind_of_ok (need_of_true (beq_iff_eq.2 hsize))).trans ?_
  refine (Chk.bind_of_ok hread).trans ?_
  exact Chk.bind_of_ok hwrite

/-- What PREFETCH leaves of the state but for its ring, its slot and its context: below bulk memory the tile's cells (R208). -/
theorem State.tileFetched_spec {d : Tensor} {en : SpillEntry} (hs : s.Canonical) (hr : s.recorded e = false)
    (hp : partialHalf s (s.placed (prefetchCells s d en.addr (e.f 48 32))) = none) (ha : bulkBase ≤ en.addr) :
    let t := moverReads (s.tileFetched e d en) [(en.addr, en.size * 64)]
    let w := prefetchCells s d en.addr (e.f 48 32)
    (∀ x, redirectBy s.redirects x < bulkBase →
        t.rawByte (redirectBy s.redirects x) = (lastByte (s.placed w) (redirectBy s.redirects x)).getD (s.byteAt x))
      ∧ t.redirects = s.redirects ∧ ∀ i, i < 0x3400 → t.obj i 7 = s.obj i 7 := by
  obtain ⟨hcanon, hmem, hheld⟩ := State.moverStored_spec hs hr hp
  unfold State.tileFetched
  dsimp only
  generalize s.moverStored (prefetchCells s d en.addr (e.f 48 32)) = m at *
  have hbytes := State.putBytes_written hcanon (spillHeader en.consume) ha
  have hredir : (m.putBytes en.addr (spillHeader en.consume)).redirects = m.redirects := by rw [State.putBytes_frame]
  have hobj := m.putBytes_obj (spillHeader en.consume) ha
  generalize m.putBytes en.addr (spillHeader en.consume) = u at *
  have hreads := moverReads_onlyCounts u [(en.addr, en.size * 64)]
  refine ⟨fun x hx => ?bytes, hreads.redirects.trans (hredir.trans hheld.redirects), fun i hi => ?regs⟩
  case bytes =>
    rw [State.rawByte_congr hreads.mem fun c => by rw [State.core_congr hreads.cores], hbytes,
      if_neg fun h => absurd (Nat.le_trans ha h.1) (Nat.not_le.2 hx), ← hmem x, State.byteAt, hheld.redirects]
  case regs =>
    rw [moverReads_obj u _ i (by decide) (by decide), hobj i (by decide) (by decide), hheld.obj i 7 hi (by decide)]

theorem moverDone_onlyRegsCores (u : State) (e : Env) (dst : Nat) (d : Tensor) : OnlyRegsCores u (moverDone u e dst d) :=
  OnlyRegsCores.trans (u.setCore_onlyRegsCores e.core _) (State.setCore_onlyRegsCores _ e.core _)

theorem rawByte_moverDone (u : State) (e : Env) (dst : Nat) (d : Tensor) (x : Nat) : (moverDone u e dst d).rawByte x = u.rawByte x :=
  (State.rawByte_startWrites _ e _ _ x).trans (u.rawByte_noteWrite e x)

theorem moverDone_obj (u : State) (e : Env) (dst : Nat) (d : Tensor) (i k : Nat) : (moverDone u e dst d).obj i k = u.obj i k :=
  (State.startWrites_obj ..).trans (State.noteWrite_obj ..)

/-- A mover command that completes and issues leaves the bytes where they are (R152). -/
theorem moverDone_issued_byteAt (u : State) (e : Env) (dst : Nat) (d : Tensor) (x : Nat) :
    ((moverDone u e dst d).issued e).byteAt x = u.rawByte (redirectBy u.redirects x) := by
  rw [State.byteAt, (State.issued_onlyRegsCores _ e).redirects, (moverDone_onlyRegsCores u e dst d).redirects, State.rawByte_issued,
    rawByte_moverDone]

theorem moverDone_issued_rings (u : State) (e : Env) (dst : Nat) (d : Tensor) : ((moverDone u e dst d).issued e).rings = u.rings :=
  (State.issued_onlyRegsCores _ e).rings.trans (moverDone_onlyRegsCores u e dst d).rings

/-- The destination of a mover command that issues is WRITING (R173). -/
theorem moverDone_issued_writing (u : State) (e : Env) (dst : Nat) (d : Tensor) :
    (((moverDone u e dst d).issued e).slotOf e dst).st = .writing := by
  unfold State.slotOf moverDone
  rw [State.issued_core_self, State.startWrites_core_self]
  simp only [List.foldl_cons, List.foldl_nil, Tab.get_modify_self]

end Sys2Proof.Machine

open Sys2Proof.Machine

/-- Settles O27: each command issues, and the lemmas above say what its tile, its ring, its slot and its context then hold. -/
theorem spillAndPrefetchRing : Obligations.SpillAndPrefetchRing := by
  refine ⟨?spill, ?prefetch⟩
  case spill =>
    intro core ctx e r g d off rest s hs hat hctx hargs hread hplace hready
    obtain ⟨hc, hx, -⟩ := hat.env
    have hcmd := spillCommand_of_place (x := (r, g, d)) (hx ▸ hctx) hargs hread hplace hready
    have ha : bulkBase ≤ bulkBase + g.start + off := by omega
    obtain ⟨hbytes, hobj⟩ := State.tileSpilled_spec (e := e) hs d ha (spilledEntry s e g d off)
    generalize s.tileSpilled e d (bulkBase + g.start + off) (spilledEntry s e g d off) = u at *
    refine ⟨_, congrArg Host.Outcome.next (issue_of_ok hat (congrArg (Res.of s) hcmd)), ?_, ?_, ?_⟩
    · exact hat.issued ((State.noteWrite_obj ..).trans (hobj _ 7 (by decide) (by decide)))
    · refine ⟨?_, fun q hq => ?_, fun x => (State.withRings_noteWrite_issued_rawByte ..).trans (hbytes x)⟩
      · rw [State.withRings_noteWrite_issued_rings, Tab.get_set_self]
        rfl
      · rw [State.withRings_noteWrite_issued_rings, Tab.get_set_of_ne _ _ hq]
    · rw [← hc, ← hx]
      exact State.noteWrite_issued_unfenced _ e
  case prefetch =>
    intro core ctx e r g d en s hs hat hrec hargs hfind hv hcons hsize hread ha
    dsimp only
    intro hp
    have hcmd := prefetchCommand_of_entry (x := (r, g, d)) hrec hargs hfind hv hcons hsize hread hp
    obtain ⟨hbytes, hredir, hobj⟩ := State.tileFetched_spec hs hrec hp ha
    generalize moverReads (s.tileFetched e d en) [(en.addr, en.size * 64)] = u at *
    generalize (s.tileFetched e d en).rings = R at *
    refine ⟨_, congrArg Host.Outcome.next (issue_of_ok hat (congrArg (Res.of s) hcmd)), hat.issued ?_, fun x hx => ?_,
      fun y hy => ?_, moverDone_issued_writing ..⟩
    · exact (moverDone_obj ..).trans (hobj _ (by omega))
    · rw [moverDone_issued_byteAt]
      exact (congrArg (fun l => State.rawByte _ (redirectBy l x)) hredir).trans (hbytes x hx)
    · rw [moverDone_issued_rings] at hy
      exact consumed_of_mem_markEntry ((congrArg SpillRing.entries (Tab.get_set_self _ r _)) ▸ hy)

end

section
/-! Commands that change their own context and a sync object at most (R170, R187–R198): which checks they pass, and what they leave
once issued. -/

namespace Sys2Proof.Machine

variable {s t u : State} {core : CoreId} {ctx : CtxId} {op : Nat} {e : Env}

/-! ### The context that issues -/

theorem State.setCtx_core_self (u : State) (e : Env) (f : QCtx → QCtx) :
    (u.setCtx e f).core e.core = { u.core e.core with ctxs := (u.core e.core).ctxs.modify e.ctx f } := State.setCore_core_self ..

theorem State.recordEffect_core_self (u : State) (c x i : Nat) :
    (u.recordEffect c x i).core c = { u.core c with
      ctxs := (u.core c).ctxs.modify x fun q => { q with effects := if i ∈ q.effects then q.effects else i :: q.effects } } :=
  State.setCore_core_self ..

theorem State.recordEffect_core_ne (u : State) {c d : Nat} (x i : Nat) (h : d ≠ c) : (u.recordEffect c x i).core d = u.core d :=
  State.setCore_core_ne _ _ _ _ h

/-- The context that issues has moved on and is otherwise as the command's effect leaves it. -/
theorem AtHead.issued_ctx (h : AtHead s core ctx op e) (u : State) :
    ((u.issued e).core core).ctxs.get ctx = { (u.core core).ctxs.get ctx with ptr := e.idx + 1 } := by
  obtain ⟨hc, hx, -⟩ := h.env
  rw [← hc, State.issued_core_self, ← hx, Tab.get_modify_self]

theorem AtHead.setCtx_ctx (h : AtHead s core ctx op e) (u : State) (f : QCtx → QCtx) :
    ((u.setCtx e f).core core).ctxs.get ctx = f ((u.core core).ctxs.get ctx) := by
  obtain ⟨hc, hx, -⟩ := h.env
  rw [← hc, State.setCtx_core_self, ← hx, Tab.get_modify_self]

theorem State.recordEffect_ctx (u : State) (c x i : Nat) :
    ((u.recordEffect c x i).core c).ctxs.get x = { (u.core c).ctxs.get x with
      effects := if i ∈ ((u.core c).ctxs.get x).effects then ((u.core c).ctxs.get x).effects else i :: ((u.core c).ctxs.get x).effects } := by
  rw [State.recordEffect_core_self, Tab.get_modify_self]

theorem State.setCtx_onlyRegsCores (u : State) (e : Env) (f : QCtx → QCtx) : OnlyRegsCores u (u.setCtx e f) := rfl
theorem State.recordEffect_onlyRegsCores (u : State) (c x i : Nat) : OnlyRegsCores u (u.recordEffect c x i) := rfl

/-! ### Of the cores only that context changes -/

theorem OnlyCtx.refl (s : State) (core : CoreId) (ctx : CtxId) : OnlyCtx s s core ctx := ⟨fun _ _ => rfl, fun _ _ => rfl, rfl⟩

theorem OnlyCtx.of_cores (h : OnlyCtx s u core ctx) (hc : t.cores = u.cores) : OnlyCtx s t core ctx := by
  have hcore : ∀ d, t.core d = u.core d := State.core_congr hc
  obtain ⟨hother, hctx, hself⟩ := h
  exact ⟨fun d hd => (hcore d).trans (hother d hd), fun k hk => by rw [hcore]; exact hctx k hk, by rw [hcore]; exact hself⟩

/-- A change of the context's record, or of the commands a re-run has yet to pass. -/
theorem OnlyCtx.modify (h : OnlyCtx s u core ctx) (f : QCtx → QCtx) (l : List Nat) :
    OnlyCtx s (u.setCore core { u.core core with ctxs := (u.core core).ctxs.modify ctx f, rerunLeft := l }) core ctx := by
  obtain ⟨hother, hctx, hself⟩ := h
  refine ⟨fun d hd => (State.setCore_core_ne _ _ _ _ hd).trans (hother d hd), fun k hk => ?_, ?_⟩
  · rw [State.setCore_core_self]
    exact (Tab.get_modify_of_ne _ _ hk).trans (hctx k hk)
  · rw [State.setCore_core_self, hself]

theorem AtHead.setCtx_onlyCtx (h : AtHead s core ctx op e) (hu : OnlyCtx s u core ctx) (f : QCtx → QCtx) :
    OnlyCtx s (u.setCtx e f) core ctx := by
  obtain ⟨hc, hx, -⟩ := h.env
  unfold State.setCtx
  rw [hc, hx]
  exact hu.modify f _

theorem OnlyCtx.recordEffect (h : OnlyCtx s u core ctx) (i : Nat) : OnlyCtx s (u.recordEffect core ctx i) core ctx := h.modify _ _

theorem AtHead.issued_onlyCtx (h : AtHead s core ctx op e) (hu : OnlyCtx s u core ctx) : OnlyCtx s (u.issued e) core ctx := by
  obtain ⟨hc, hx, -⟩ := h.env
  have hcount : OnlyCtx s (u.count (0x3010 + core) 7 64 1) core ctx := hu.of_cores rfl
  unfold State.issued
  rw [hc, hx]
  exact hcount.modify _ _

theorem AtHead.issued_sameObjs (h : AtHead s core ctx op e) {l : List (Nat × Nat)} (hu : SameObjs s u l) :
    SameObjs s (u.issued e) ((0x3010 + core.val, 7) :: l) := by
  have hi := State.issued_sameObjs u e
  rw [h.env.1] at hi
  exact (hu.append hi).mono (by simp; tauto)

/-! ### FENCE (R189, R191) -/

/-- The checks of FENCE pass: it issues, and the writes up to its scope are covered. -/
theorem fenceCommand_of_idle (hf : onlyFields e.word [(0, 8), (8, 2)] = true) (hb : s.ctxBusy e.core e.ctx = false)
    (hfab : e.f 8 2 = 3 → s.fabricBusy e.core e.ctx = false) :
    fenceCommand e s = .ok (s.setCtx e fun q => { q with unfenced := fenced (e.f 8 2) q.unfenced }) := by
  have hlt : e.f 8 2 < 4 := Nat.mod_lt _ (by decide)
  have hplaced : (decide (e.f 8 2 < 3) || !s.fabricBusy e.core e.ctx) = true := by
    by_cases h : e.f 8 2 = 3
    · rw [hfab h, Bool.not_false, Bool.or_true]
    · rw [decide_eq_true (by omega), Bool.true_or]
  unfold fenceCommand
  refine (Chk.bind_of_ok (need_of_true hf)).trans ?_
  refine (Chk.bind_of_ok (need_of_true (by rw [hb]; rfl))).trans ?_
  exact Chk.bind_of_ok (need_of_true hplaced)

/-- A fence of scope `f` leaves the bits above `f`. -/
theorem fenced_getLsbD (f : Nat) (x : BitVec 4) {k : Nat} (hk : k < 4) : (fenced f x).getLsbD k = (x.getLsbD k && decide (f < k)) := by
  unfold fenced
  rw [BitVec.getLsbD_and, BitVec.getLsbD_shiftLeft, BitVec.getLsbD_allOnes]
  congr 1
  by_cases h : f < k
  · simp [h, hk, show k - (f + 1) < 4 by omega, show ¬ k < f + 1 by omega]
  · simp [h, show k < f + 1 by omega]

end Sys2Proof.Machine

open Sys2Proof.Machine

/-- Settles O6: the checks pass, and of the device only the context that fences has changed. -/
theorem fenceCoversWrites : Obligations.FenceCoversWrites := by
  intro core ctx e s hat hf hb hfab
  obtain ⟨hc, hx, -⟩ := hat.env
  have hrun := fenceCommand_of_idle hf (hc ▸ hx ▸ hb) (hc ▸ hx ▸ hfab)
  refine ⟨_, congrArg Host.Outcome.next (issue_of_ok hat (congrArg (Res.of s) hrun)), hat.issued rfl, fun k hk => ?_,
    hat.issued_onlyCtx (hat.setCtx_onlyCtx (.refl ..) _), rfl, hat.issued_sameObjs (SameObjs.refl s)⟩
  rw [hat.issued_ctx, hat.setCtx_ctx]
  exact fenced_getLsbD _ _ hk

end

section
/-! SIGNAL, WAIT and BARRIER (R187, R191, R195): what each does to the sync object or the flag word it names. -/

namespace Sys2Proof.Machine

variable {s t u : State} {core : CoreId} {ctx : CtxId} {op : Nat} {e : Env} {i : Nat}

/-! ### The checks -/

theorem AtHead.blocked (h : AtHead s core ctx op e) : ((s.core core).ctxs.get ctx).blocked = .no := by
  obtain ⟨h, -⟩ := h
  unfold State.headEnv at h
  dsimp only at h
  split at h
  · split at h
    · next hlive => exact hlive.2.2.2.2.2.2.1
    · cases h
  · cases h

theorem syncOf_of_mapped {n : Nat} (h : (s.part e.p).syncMap[n]? = some i) : syncOf s e n = .ok i := by
  unfold syncOf
  rw [h]

theorem Chk.ite_of_false {α : Type} {c : Prop} [Decidable c] {a b x : Chk α} (hc : ¬ c) (h : b = x) : (if c then a else b) = x :=
  (if_neg hc).trans h

theorem signalCount_of_room {n scope add : Nat} (hi : (s.part e.p).syncMap[n]? = some i) (hk : (s.sync i).kind = 0)
    (hu : unfencedAt s e scope = false) (hs : (s.sync i).scope.toNat ≤ scope) (hr : s.recorded e = false)
    (ha : (s.sync i).count.toNat + add < 2 ^ 32) :
    signalCount e s n scope add = .ok (s.setSync i { s.sync i with count := (s.sync i).count + BitVec.ofNat 32 add }) := by
  have hfenced : (!unfencedAt s e scope && decide ((s.sync i).scope.toNat ≤ scope)) = true := by
    rw [hu, decide_eq_true hs]
    rfl
  unfold signalCount
  refine (Chk.bind_of_ok (syncOf_of_mapped hi)).trans ?_
  refine (Chk.bind_of_ok (need_of_true (beq_iff_eq.2 hk))).trans ?_
  refine (Chk.bind_of_ok (need_of_true hfenced)).trans ?_
  refine Chk.ite_of_false (by rw [hr]; decide) ?_
  exact Chk.bind_of_ok (need_of_true (decide_eq_true ha))

/-- A SIGNAL without FW whose counter takes ADD. -/
theorem signalCommand_of_count (hf : onlyFields e.word [(0, 8), (8, 2), (12, 12), (24, 1), (32, 8), (48, 16), (96, 64)] = true)
    (hb : e.b 24 = false) (ha : e.f 48 16 ≠ 0) (h : signalCount e s (e.f 12 12) (e.f 8 2) (e.f 48 16) = .ok t) :
    signalCommand e s = .ok (t.recordEffect e.core e.ctx e.idx) := by
  unfold signalCommand
  refine (Chk.bind_of_ok (need_of_true hf)).trans ?_
  refine (Chk.bind_of_ok (need_of_true (decide_eq_true ha))).trans ?_
  rw [hb, if_neg Bool.false_ne_true]
  exact Chk.bind_of_ok h

/-- A SIGNAL with FW that writes its flag word. -/
theorem signalCommand_of_flag (hf : onlyFields e.word [(0, 8), (8, 2), (12, 12), (24, 1), (32, 8), (48, 16), (96, 64)] = true)
    (hb : e.b 24 = true) (ha : e.f 48 16 ≠ 0) (h : signalFlag e s (e.f 32 8) (e.f 8 2) (e.f 96 64) = .ok t) :
    signalCommand e s = .ok (t.recordEffect e.core e.ctx e.idx) := by
  unfold signalCommand
  refine (Chk.bind_of_ok (need_of_true hf)).trans ?_
  refine (Chk.bind_of_ok (need_of_true (decide_eq_true ha))).trans ?_
  rw [hb, if_pos rfl]
  exact Chk.bind_of_ok h

theorem Sync.count_add_toNat {x : Sync} {n : Nat} (h : x.count.toNat + n < 2 ^ 32) :
    (x.count + BitVec.ofNat 32 n).toNat = x.count.toNat + n := by
  rw [BitVec.toNat_add, BitVec.toNat_ofNat, Nat.add_mod_mod, Nat.mod_eq_of_lt h]

/-- What a WAIT that takes its sync object leaves of the state. -/
def State.waited (s : State) (e : Env) (i : Nat) : State :=
  if e.f 64 32 ≤ (s.sync i).count.toNat then s else s.setCtx e fun q => { q with blocked := .wait i (e.f 64 32) }

theorem waitCommand_of_counter (hf : onlyFields e.word [(0, 8), (12, 12), (64, 32)] = true)
    (hi : (s.part e.p).syncMap[e.f 12 12]? = some i) (hk : (s.sync i).kind = 0) : waitCommand e s = .ok (s.waited e i) := by
  unfold waitCommand State.waited
  refine (Chk.bind_of_ok (need_of_true hf)).trans ?_
  refine (Chk.bind_of_ok (syncOf_of_mapped hi)).trans ?_
  refine (Chk.bind_of_ok (need_of_true (beq_iff_eq.2 hk))).trans ?_
  exact (apply_ite _ _ _ _).symm

theorem State.waited_onlyRegsCores (s : State) (e : Env) (i : Nat) : OnlyRegsCores s (s.waited e i) := by
  unfold State.waited
  split <;> rfl

theorem State.waited_obj (s : State) (e : Env) (i j k : Nat) : (s.waited e i).obj j k = s.obj j k := by
  unfold State.waited
  split <;> rfl

theorem AtHead.waited_onlyCtx (h : AtHead s core ctx op e) (i : Nat) : OnlyCtx s (s.waited e i) core ctx := by
  unfold State.waited
  split
  · exact .refl ..
  · exact h.setCtx_onlyCtx (.refl ..) _

theorem AtHead.waited_blocked (h : AtHead s core ctx op e) (i : Nat) :
    (((s.waited e i).core core).ctxs.get ctx).blocked
      = if e.f 64 32 ≤ (s.sync i).count.toNat then .no else .wait i (e.f 64 32) := by
  unfold State.waited
  split
  · exact h.blocked
  · rw [h.setCtx_ctx]

/-! ### Flag words (R187, R191) -/

/-- A span of scratchpad or vault that a command reaches lies in a core of its partition (R205). -/
theorem partOf_of_spanCheck {wr : Bool} {a n b c o : Nat} (h : spanCheck s e wr a n = .ok b)
    (hp : placeOf a = .scratch c o ∨ placeOf a = .vault c o) : (s.partOf c == some e.p) = true := by
  unfold spanCheck at h
  obtain hp | hp := hp <;> rw [hp] at h <;> dsimp only at h <;> split at h
  · cases h
  · next hc => exact beq_iff_eq.2 (not_not.1 hc)
  · cases h
  · next hc => exact beq_iff_eq.2 (not_not.1 hc)

theorem listSlot_base {w a n : Nat} (h : listSlot w = .ok (a, n)) : fieldAt w 0 44 = a := by
  obtain ⟨-, -, h⟩ := Chk.of_bind_ok h
  cases h
  rfl

theorem signalFlag_of_reached {sl scope v a : Nat} (hst : (s.slotOf e sl).st = .ready) (hrd : (s.slotOf e sl).readers < 255)
    (hk : (s.slotOf e sl).kind.toNat = kFlag) (hl : ∃ n, listSlot (s.content e sl) = .ok (a, n)) (hlt : a < bulkBase)
    (hsp : spanCheck s e true a 8 = .ok a) (hu : unfencedAt s e scope = false) (hr : s.recorded e = false)
    (hp : partialHalf s (s.placed (cellsAt a (bytesOf 8 v))) = none) :
    signalFlag e s sl scope v = .ok (storeCells s (s.placed (cellsAt a (bytesOf 8 v)))) := by
  obtain ⟨n, hl⟩ := hl
  have hbase : fieldAt (s.slotOf e sl).content.toNat 0 44 = a := listSlot_base hl
  have hlow : a < hostBase := Nat.lt_trans hlt (by decide)
  have hnotBulk : (!(decide (bulkBase ≤ a) && decide (a < hostBase))) = true := by
    rw [decide_eq_false (Nat.not_le.2 hlt)]
    rfl
  have hfenced : (!unfencedAt s e scope && (decide (a < hostBase) || decide (2 ≤ scope))) = true := by
    rw [hu, decide_eq_true hlow]
    rfl
  unfold signalFlag
  refine (Chk.bind_of_ok (need_of_true (by rw [hst, decide_eq_true hrd]; rfl))).trans ?_
  rw [hbase]
  extract_lets a' rest
  have hrest : rest () = .ok (storeCells s (s.placed (cellsAt a (bytesOf 8 v)))) := by
    refine (Chk.bind_of_ok (need_of_true (beq_iff_eq.2 hk))).trans ?_
    refine (Chk.bind_of_ok (need_of_true hnotBulk)).trans ?_
    refine (Chk.bind_of_ok (a := (a, n)) (congrArg (atSlot sl) hl)).trans ?_
    refine (Chk.bind_of_ok (a := a) (congrArg (atSlot sl) hsp)).trans ?_
    refine (Chk.bind_of_ok (need_of_true hfenced)).trans ?_
    refine Chk.ite_of_false (by rw [hr]; decide) ?_
    refine Chk.ite_of_false (Nat.not_le.2 hlow) ?_
    rw [commitCells_of_none hp]
    rfl
  cases hpl : placeOf a' with
  | scratch c o => exact (Chk.bind_of_ok (need_of_true (partOf_of_spanCheck hsp (.inl hpl)))).trans hrest
  | vault c o => exact (Chk.bind_of_ok (need_of_true (partOf_of_spanCheck hsp (.inr hpl)))).trans hrest
  | control _ => exact hrest
  | bulk _ => exact hrest
  | host _ _ => exact hrest
  | nowhere => exact hrest

theorem storeCells_syncs (s : State) (l : Cells) : (storeCells s l).syncs = s.syncs := by
  unfold storeCells
  dsimp only
  refine List.foldlRecOn _ _ (motive := fun t : State => t.syncs = s.syncs) rfl fun t h c _ => ?_
  split
  · rw [State.flushHeld_frame]
    exact h
  · exact h

theorem State.recordEffect_held (u : State) (c x i d : Nat) : ((u.recordEffect c x i).core d).held = (u.core d).held := by
  by_cases h : d = c
  · rw [h, State.recordEffect_core_self]
  · rw [State.recordEffect_core_ne u x i h]

theorem MemWritten.recordEffect {l : Cells} (h : MemWritten s u l) (c x i : Nat) : MemWritten s (u.recordEffect c x i) l :=
  h.of_same rfl (State.recordEffect_held u c x i) rfl

/-! ### BARRIER (R195) -/

/-- Of the state only registers, cores and sync objects have changed. -/
def OnlyRegsCoresSyncs (s u : State) : Prop := u = { s with objs := u.objs, cores := u.cores, syncs := u.syncs }

theorem OnlyRegsCoresSyncs.trans (h : OnlyRegsCoresSyncs s t) (g : OnlyRegsCoresSyncs t u) : OnlyRegsCoresSyncs s u :=
  Eq.trans g (congrArg (fun x : State => { x with objs := u.objs, cores := u.cores, syncs := u.syncs }) h)

theorem OnlyRegsCores.withSyncs (h : OnlyRegsCores s u) : OnlyRegsCoresSyncs s u :=
  Eq.trans h (congrArg (fun x : Tab syncReset => { s with objs := u.objs, cores := u.cores, syncs := x })
    (congrArg State.syncs h).symm)

theorem State.setSync_onlyRegsCoresSyncs (s : State) (i : Nat) (x : Sync) : OnlyRegsCoresSyncs s (s.setSync i x) := rfl

/-- A barrier with one arrival more; the last one needed advances the generation. -/
def Sync.arrived (x : Sync) : Sync :=
  if x.need ≤ x.arrivals + 1 then { x with arrivals := 0, gen := (x.gen + 1) % 2 ^ 16 } else { x with arrivals := x.arrivals + 1 }

theorem State.arrive_of_barrier (hk : (s.sync i).kind = 1) : s.arrive i = s.setSync i (s.sync i).arrived := by
  unfold State.arrive Sync.arrived
  dsimp only
  rw [if_pos hk]
  split <;> rfl

/-- What a BARRIER that arrives leaves of the state: its context blocked, one arrival more, its effect recorded. -/
def State.barrierArrived (s : State) (e : Env) (i : Nat) : State :=
  ((s.setCtx e fun q => { q with blocked := .barrier i (s.sync i).gen }).setSync i (s.sync i).arrived).recordEffect e.core e.ctx e.idx

theorem barrierCommand_of_barrier (hf : onlyFields e.word [(0, 8), (12, 12)] = true)
    (hi : (s.part e.p).syncMap[e.f 12 12]? = some i) (hk : (s.sync i).kind = 1) (hr : s.recorded e = false) :
    barrierCommand e s = .ok (s.barrierArrived e i) := by
  unfold barrierCommand
  refine (Chk.bind_of_ok (need_of_true hf)).trans ?_
  refine (Chk.bind_of_ok (syncOf_of_mapped hi)).trans ?_
  refine (Chk.bind_of_ok (need_of_true (by rw [hk]; rfl))).trans ?_
  refine Chk.ite_of_false (by rw [hr]; decide) ?_
  exact congrArg (fun u : State => Except.ok (u.recordEffect e.core e.ctx e.idx)) (State.arrive_of_barrier hk)

theorem State.barrierArrived_frame (s : State) (e : Env) (i : Nat) : OnlyRegsCoresSyncs s (s.barrierArrived e i) :=
  ((s.setCtx_onlyRegsCores e _).withSyncs.trans (State.setSync_onlyRegsCoresSyncs _ i _)).trans
    (State.recordEffect_onlyRegsCores _ e.core e.ctx e.idx).withSyncs

theorem State.barrierArrived_sync (s : State) (e : Env) (i j : Nat) :
    (s.barrierArrived e i).sync j = if j = i then (s.sync i).arrived else s.sync j := State.setSync_sync_eq ..

theorem State.barrierArrived_obj (s : State) (e : Env) (i j k : Nat) : (s.barrierArrived e i).obj j k = s.obj j k := rfl

theorem AtHead.barrierArrived_onlyCtx (h : AtHead s core ctx op e) (i : Nat) : OnlyCtx s (s.barrierArrived e i) core ctx := by
  obtain ⟨hc, hx, -⟩ := h.env
  unfold State.barrierArrived
  rw [hc, hx]
  exact ((h.setCtx_onlyCtx (.refl ..) _).of_cores (State.setSync_cores ..)).recordEffect _

theorem AtHead.barrierArrived_blocked (h : AtHead s core ctx op e) (i : Nat) :
    (((s.barrierArrived e i).core core).ctxs.get ctx).blocked = .barrier i (s.sync i).gen := by
  obtain ⟨hc, hx, -⟩ := h.env
  unfold State.barrierArrived
  rw [hc, hx, State.recordEffect_ctx, State.setSync_core, h.setCtx_ctx]

end Sys2Proof.Machine

open Sys2Proof.Machine

/-- Settles O7: the checks pass, and each clause reads off what the command leaves. -/
theorem signalsAndWaits : Obligations.SignalsAndWaits := by
  refine ⟨?count, ?wait, ?flag⟩
  case count =>
    intro core ctx e i s hat hf hb ha hi hk hu hs hr hroom
    have hrun := signalCommand_of_count hf hb ha (signalCount_of_room hi hk hu hs hr hroom)
    have hcount := Sync.count_add_toNat hroom
    generalize hx : ({ s.sync i with count := (s.sync i).count + BitVec.ofNat 32 (e.f 48 16) } : Sync) = x at hrun
    obtain ⟨hc, hctx, -⟩ := hat.env
    have hcores : OnlyCtx s ((s.setSync i x).recordEffect e.core e.ctx e.idx) core ctx := by
      rw [hc, hctx]
      exact ((OnlyCtx.refl s core ctx).of_cores (State.setSync_cores ..)).recordEffect _
    have hself : (((s.setSync i x).recordEffect e.core e.ctx e.idx).issued e).sync i = x := State.setSync_sync_self ..
    refine ⟨_, congrArg Host.Outcome.next (issue_of_ok hat (congrArg (Res.of s) hrun)), hat.issued rfl, ?_, ?_,
      fun j hj => State.setSync_sync_ne _ _ _ _ hj, hat.issued_onlyCtx hcores, rfl, hat.issued_sameObjs (SameObjs.refl s)⟩
    · rw [hself, ← hx]
      exact hcount
    · rw [hself, ← hx]
  case wait =>
    intro core ctx e i s hat hf hi hk
    have hrun := waitCommand_of_counter hf hi hk
    refine ⟨_, congrArg Host.Outcome.next (issue_of_ok hat (congrArg (Res.of s) hrun)), hat.issued (State.waited_obj ..), ?_,
      hat.issued_onlyCtx (hat.waited_onlyCtx i), (s.waited_onlyRegsCores e i).trans (State.issued_onlyRegsCores _ e),
      hat.issued_sameObjs (SameObjs.of_obj (s.waited_obj e i))⟩
    rw [hat.issued_ctx]
    exact hat.waited_blocked i
  case flag =>
    intro core ctx e a s hs hat hf hb ha hst hrd hk hl hlt hsp hu hr hp
    have hrun := signalCommand_of_flag hf hb ha (signalFlag_of_reached hst hrd hk hl hlt hsp hu hr hp)
    have hheld := storeCells_heldOnly s (s.placed (cellsAt a (bytesOf 8 (e.f 96 64))))
    have hmem := commitCells_written s _ hs _ (commitCells_of_none hp) hheld.redirects
    have hsyncs := storeCells_syncs s (s.placed (cellsAt a (bytesOf 8 (e.f 96 64))))
    generalize storeCells s (s.placed (cellsAt a (bytesOf 8 (e.f 96 64)))) = u at *
    exact ⟨_, congrArg Host.Outcome.next (issue_of_ok hat (congrArg (Res.of s) hrun)),
      hat.issued (hheld.obj _ 7 (by omega) (by decide)), MemWritten.issued (MemWritten.recordEffect hmem _ _ _) e, hsyncs⟩

/-- Settles O8: the checks pass, and the barrier has one arrival more. -/
theorem barrierCountsArrivals : Obligations.BarrierCountsArrivals := by
  intro core ctx e i s hat hf hi hk hr
  have hrun := barrierCommand_of_barrier hf hi hk hr
  have hblocked := hat.barrierArrived_blocked i
  have hsync := s.barrierArrived_sync e i
  have hctx := hat.issued_onlyCtx (hat.barrierArrived_onlyCtx i)
  have hframe := (s.barrierArrived_frame e i).trans (State.issued_onlyRegsCores _ e).withSyncs
  have hobj := s.barrierArrived_obj e i
  generalize s.barrierArrived e i = u at *
  refine ⟨_, congrArg Host.Outcome.next (issue_of_ok hat (congrArg (Res.of s) hrun)), hat.issued (hobj ..), ?_,
    (hsync i).trans (if_pos rfl), fun j hj => (hsync j).trans (if_neg hj), hctx, hframe, hat.issued_sameObjs (SameObjs.of_obj hobj)⟩
  rw [hat.issued_ctx]
  exact hblocked

end

section
/-! A fault of class PROGRAM (R201–R204): what it leaves of the registers, the partition and the log. -/

namespace Sys2Proof.Machine

variable {s t u : State} {core : CoreId} {ctx : CtxId} {op : Nat} {e : Env} {p code : Nat}

/-! ### Registers, logs, outputs and partitions -/

/-- Of the state only registers, logs, outputs and partitions have changed. -/
def OnlyNotesParts (s u : State) : Prop := u = { s.noting u with parts := u.parts }

theorem OnlyNotesParts.trans (h : OnlyNotesParts s t) (g : OnlyNotesParts t u) : OnlyNotesParts s u :=
  Eq.trans g (congrArg (fun x : State => { x.noting u with parts := u.parts }) h)

theorem OnlyNotesParts.of_noting (h : u = s.noting u) : OnlyNotesParts s u :=
  have hp : s.parts = u.parts := (Eq.trans (congrArg State.parts h) rfl).symm
  Eq.trans h (congrArg (fun x : Tab partReset => { s.noting u with parts := x }) hp)

theorem State.setObj_onlyNotesParts (s : State) (i k v : Nat) : OnlyNotesParts s (s.setObj i k v) := rfl
theorem State.setPart_onlyNotesParts (s : State) (p : Nat) (x : Part) : OnlyNotesParts s (s.setPart p x) := rfl
theorem State.emit_onlyNotesParts (s : State) (o : Output) : OnlyNotesParts s (s.emit o) := rfl

theorem OnlyNotesParts.cores (h : OnlyNotesParts s u) : u.cores = s.cores := Eq.trans (congrArg State.cores h) rfl
theorem OnlyNotesParts.mem (h : OnlyNotesParts s u) : u.mem = s.mem := Eq.trans (congrArg State.mem h) rfl
theorem OnlyNotesParts.syncs (h : OnlyNotesParts s u) : u.syncs = s.syncs := Eq.trans (congrArg State.syncs h) rfl
theorem OnlyNotesParts.redirects (h : OnlyNotesParts s u) : u.redirects = s.redirects := Eq.trans (congrArg State.redirects h) rfl

theorem OnlyNotesParts.sameMem (h : OnlyNotesParts s u) : SameMem s u := fun a => by
  rw [State.byteAt, State.byteAt, h.redirects, State.rawByte_congr h.mem fun c => by rw [State.core_congr h.cores]]

/-! ### A partition enters HELD (R162, R164, R204) -/

/-- The registers and the record of a partition that enters HELD. -/
def State.heldMarked (s : State) (p cause : Nat) : State :=
  (((s.setObj (0x3100 + p) 2 4).setObj (0x3100 + p) 0x0E cause).setObj (0x3100 + p) 6 (s.part p).lastStep).setPart p
    { s.part p with inStep := false, upd := .idle }

theorem State.enterHeld_eq (s : State) (p cause : Nat) : s.enterHeld p cause = (s.heldMarked p cause).settlePower := rfl

theorem State.heldMarked_onlyNotesParts (s : State) (p cause : Nat) : OnlyNotesParts s (s.heldMarked p cause) :=
  (((s.setObj_onlyNotesParts _ _ _).trans (State.setObj_onlyNotesParts ..)).trans (State.setObj_onlyNotesParts ..)).trans
    (State.setPart_onlyNotesParts ..)

theorem State.enterHeld_onlyNotesParts (s : State) (p cause : Nat) : OnlyNotesParts s (s.enterHeld p cause) :=
  (s.heldMarked_onlyNotesParts p cause).trans (.of_noting (State.settlePower_noting _))

/-- The registers that entering HELD writes. -/
def heldRegs (p : Nat) : List (Nat × Nat) := [(0x3100 + p, 2), (0x3100 + p, 6), (0x3100 + p, 0x0E), (0x2000, 1), (0x2400, 5)]

theorem State.heldMarked_sameObjs (s : State) (p cause : Nat) :
    SameObjs s (s.heldMarked p cause) [(0x3100 + p, 2), (0x3100 + p, 0x0E), (0x3100 + p, 6)] := by
  have hregs := (State.setObj_sameObjs (s := s) (i := 0x3100 + p) (k := 2) (v := 4) (by decide)).append
    (State.setObj_sameObjs (i := 0x3100 + p) (k := 0x0E) (v := cause) (by decide))
  have hall := hregs.append (State.setObj_sameObjs (i := 0x3100 + p) (k := 6) (v := (s.part p).lastStep) (by decide))
  exact fun i k hk hn => (State.setPart_obj ..).trans (hall i k hk hn)

theorem State.heldMarked_log (s : State) (p cause : Nat) : (s.heldMarked p cause).log = s.log := by
  unfold State.heldMarked
  simp only [State.setPart_log, State.setObj_log]

theorem State.enterHeld_sameObjs (s : State) (p cause : Nat) : SameObjs s (s.enterHeld p cause) (heldRegs p) :=
  ((s.heldMarked_sameObjs p cause).append (State.settlePower_sameObjs _)).mono (by simp [heldRegs])

/-- What settling the power state leaves of a register of a partition. -/
theorem State.settlePower_obj (s : State) {i k : Nat} (hi : 0x2400 < i) (hk : k < 256) : s.settlePower.obj i k = s.obj i k :=
  s.settlePower_sameObjs i k hk (by simp; omega)

theorem State.enterHeld_obj (s : State) (p cause : Nat) :
    (s.enterHeld p cause).pstate p = 4 ∧ (s.enterHeld p cause).obj (0x3100 + p) 0x0E = cause
      ∧ (s.enterHeld p cause).obj (0x3100 + p) 6 = (s.part p).lastStep := by
  have hmarked : (s.heldMarked p cause).obj (0x3100 + p) 2 = 4 ∧ (s.heldMarked p cause).obj (0x3100 + p) 0x0E = cause
      ∧ (s.heldMarked p cause).obj (0x3100 + p) 6 = (s.part p).lastStep := by
    unfold State.heldMarked
    simp only [State.setPart_obj, State.setObj_obj_self, ne_eq, Prod.mk.injEq, true_and, Nat.reduceEqDiff, not_false_eq_true,
      State.setObj_obj_ne, Nat.reduceLT, and_self]
  obtain ⟨hstate, hcause, hstep⟩ := hmarked
  rw [State.enterHeld_eq, State.pstate, State.settlePower_obj _ (by omega) (by decide), State.settlePower_obj _ (by omega) (by decide),
    State.settlePower_obj _ (by omega) (by decide)]
  exact ⟨hstate, hcause, hstep⟩

theorem LoggedWithin.of_log {k unit code detail : Nat} (h : LoggedWithin k s t unit code detail) (hl : u.log = t.log) :
    LoggedWithin k s u unit code detail := by
  unfold LoggedWithin
  rw [hl]
  exact h

theorem LoggedWithin.settlePower {k unit code detail : Nat} (h : LoggedWithin k s t unit code detail) (hk : k < 4096) :
    LoggedWithin (k + 1) s t.settlePower unit code detail := by
  unfold State.settlePower
  dsimp only
  split_ifs
  · exact LoggedWithin.logEvent (t := t.setObj 0x2000 1 3) h hk _ _ _
  · exact LoggedWithin.logEvent (t := t.setObj 0x2000 1 2) h hk _ _ _
  · exact h.mono (Nat.le_succ k)

/-! ### The fault (R201, R204) -/

/-- The fault is noted at the core and logged. -/
def State.faultNoted (s : State) (core ctx slot index code info : Nat) : State :=
  (s.setObj (0x3010 + core) 4 code).logEvent core (0x0100 + code) (faultDetail code ctx slot index info)

theorem State.faultNoted_sameObjs (s : State) (core ctx slot index code info : Nat) :
    SameObjs s (s.faultNoted core ctx slot index code info) [(0x3010 + core, 4), (0x2400, 5)] :=
  (State.setObj_sameObjs (by decide)).append (State.logEvent_sameObjs _ _ _ _)

theorem State.faultNoted_noting (s : State) (core ctx slot index code info : Nat) :
    s.faultNoted core ctx slot index code info = s.noting (s.faultNoted core ctx slot index code info) :=
  State.noting_trans rfl (State.logEvent_noting ..)

/-- A fault other than ADDRESS of a core of a partition holds the partition. -/
theorem State.programFault_of_part {core ctx slot index info : Nat} (hp : s.partOf core = some p) (hc : code ≠ fAddress) :
    s.programFault core ctx slot index code info = (s.faultNoted core ctx slot index code info).hold p code := by
  have hpart : (s.faultNoted core ctx slot index code info).partOf core = some p := by
    rw [← hp, State.partOf, State.partOf, s.faultNoted_sameObjs core ctx slot index code info _ _ (by decide) (by simp)]
  unfold State.programFault
  unfold State.faultNoted at hpart ⊢
  dsimp only
  rw [hpart]
  exact congrArg (fun u : State => u.hold p code) (if_neg fun h => hc h.1)

theorem State.hold_onlyNotesParts (s : State) (p cause : Nat) : OnlyNotesParts s (s.hold p cause) :=
  (s.enterHeld_onlyNotesParts p cause).trans (State.emit_onlyNotesParts ..)

/-- What such a fault leaves (R201, R204). -/
theorem State.programFault_spec {core ctx slot index info : Nat} (hp : s.partOf core = some p) (hc : code ≠ fAddress) :
    let t := s.programFault core ctx slot index code info
    OnlyNotesParts s t ∧ t.pstate p = 4 ∧ t.obj (0x3100 + p) 0x0E = code
      ∧ SameObjs s t ((0x3010 + core, 4) :: heldRegs p) ∧ t.obj (0x3010 + core) 4 = code
      ∧ (s.logRoom → Logged s t core (0x0100 + code) (faultDetail code ctx slot index info)) := by
  have hnote := s.faultNoted_noting core ctx slot index code info
  have hregs := s.faultNoted_sameObjs core ctx slot index code info
  have hcode : (s.faultNoted core ctx slot index code info).obj (0x3010 + core) 4 = code :=
    (State.logEvent_sameObjs _ _ _ _ _ _ (by decide) (by simp)).trans (State.setObj_obj_self ..)
  have hlog : s.logRoom → LoggedWithin 1 s (s.faultNoted core ctx slot index code info) core (0x0100 + code)
      (faultDetail code ctx slot index info) := fun hr => by
    have hstay := s.setObj_logStays (i := 0x3010 + core) (k := 4) code (by decide) (by simp)
    have hroom : (s.setObj (0x3010 + core) 4 code).logRoom := by
      unfold State.logRoom
      rw [hstay.now, hstay.msIndex, hstay.msCount]
      exact hr
    exact State.logEvent_within hroom
  rw [State.programFault_of_part hp hc]
  generalize s.faultNoted core ctx slot index code info = u at *
  obtain ⟨hstate, hcause, -⟩ := u.enterHeld_obj p code
  have hheld := u.enterHeld_sameObjs p code
  refine ⟨(OnlyNotesParts.of_noting hnote).trans (u.hold_onlyNotesParts p code), hstate, hcause, ?_, ?_, fun hr => ?_⟩
  · exact (hregs.append hheld).mono (by simp [heldRegs])
  · exact (hheld _ _ (by decide) (by simp [heldRegs])).trans hcode
  · have hsettled : LoggedWithin 2 s (u.enterHeld p code) core (0x0100 + code) (faultDetail code ctx slot index info) := by
      rw [State.enterHeld_eq]
      exact ((hlog hr).of_log (u.heldMarked_log p code)).settlePower (by decide)
    exact hsettled.logged.of_log (State.emit_log ..)

/-! ### A command that faults (R201) -/

/-- The command at the head faults: it is counted, and the fault is taken. -/
theorem issue_of_fault {op : Nat} {run : Env → State → Res} {slot info : Nat} (h : AtHead s core ctx op e)
    (r : run e s = .stop t (.prog code slot info)) :
    issue op core ctx s run = (t.count (0x3010 + core) 7 64 1).applyStop e (.prog code slot info) := by
  rw [issue_atHead run h, r]

theorem AtHead.partOf (h : AtHead s core ctx op e) : s.partOf core = some e.p := by
  obtain ⟨h, -⟩ := h
  unfold State.headEnv at h
  dsimp only at h
  split at h
  · next hp _ =>
    split at h
    · cases h
      exact hp
    · cases h
  · cases h

/-- A command with a reserved bit set faults before it does anything (R175). -/
theorem fieldsOnly_of_reserved {fs : List (Nat × Nat)} (h : onlyFields e.word ((0, 8) :: fs) = false) :
    fieldsOnly e fs = .error (.prog fParameter 0 0) := if_neg (by rw [h]; decide)

theorem Chk.bind_of_error {α β : Type} {x : Chk α} {w : Stop} {f : α → Chk β} (h : x = .error w) : (x >>= f) = .error w := by
  rw [h]
  rfl

/-- The partition is HELD by a parameter fault of the context's command; no core, sync object or byte has changed (R201, R204). -/
def ParameterHeld (s t : State) (core : CoreId) (ctx : CtxId) (e : Env) : Prop :=
  t.pstate e.p = 4 ∧ t.obj (0x3100 + e.p) 0x0E = fParameter ∧ t.obj (0x3010 + core) 4 = fParameter ∧ t.cores = s.cores
    ∧ t.syncs = s.syncs ∧ SameMem s t ∧ Logged s t core 0x0102 (faultDetail fParameter ctx 0 e.idx 0)

theorem State.count_partOf (s : State) (c d w n : Nat) : (s.count (0x3010 + c) 7 w n).partOf d = s.partOf d := by
  rw [State.partOf, State.partOf, s.count_sameObjs (i := 0x3010 + c) w n (by decide) _ _ (by decide) (by simp)]

/-- A command at the head that takes the parameter fault before it does anything. -/
theorem AtHead.parameterHeld (h : AtHead s core ctx op e) {cmd : Env → State → Chk State} (hr : s.logRoom)
    (r : cmd e s = .error (.prog fParameter 0 0)) :
    ∃ t, issue op core ctx s (fun e s => Res.of s (cmd e s)) = t ∧ ParameterHeld s t core ctx e := by
  obtain ⟨hc, hx, -⟩ := h.env
  have hpart : (s.count (0x3010 + core) 7 64 1).partOf core = some e.p := (s.count_partOf ..).trans h.partOf
  have hstay := s.count_logStays (i := 0x3010 + core) (k := 7) 64 1 (by decide) (by simp)
  have hroom : (s.count (0x3010 + core) 7 64 1).logRoom := by
    unfold State.logRoom
    rw [hstay.now, hstay.msIndex, hstay.msCount]
    exact hr
  obtain ⟨hframe, hstate, hcause, -, hcode, hlog⟩ :=
    State.programFault_spec (ctx := ctx) (slot := 0) (index := e.idx) (info := 0) hpart (show fParameter ≠ fAddress by decide)
  have hstop : (s.count (0x3010 + core) 7 64 1).applyStop e (.prog fParameter 0 0)
      = (s.count (0x3010 + core) 7 64 1).programFault core ctx 0 e.idx fParameter 0 := by
    unfold State.applyStop
    dsimp only
    rw [hc, hx]
    exact congrArg (fun u : State => u.programFault core ctx 0 e.idx fParameter 0) (if_neg fun h => absurd h.1 (by decide))
  exact ⟨_, (issue_of_fault h (congrArg (Res.of s) r)).trans hstop, hstate, hcause, hcode,
    hframe.cores, hframe.syncs, hframe.sameMem, hlog hroom⟩

end Sys2Proof.Machine

open Sys2Proof.Machine

/-- Settles O10: each of the four commands checks its fields first, and the parameter fault says the rest. -/
theorem reservedBitHoldsPartition : Obligations.ReservedBitHoldsPartition := by
  intro core ctx e s hr x hx hat hf
  simp only [List.mem_cons, List.not_mem_nil, or_false] at hx
  obtain rfl | rfl | rfl | rfl := hx
  case inl =>
    obtain ⟨t, ht, h⟩ := hat.parameterHeld hr (cmd := fenceCommand) (Chk.bind_of_error (fieldsOnly_of_reserved hf))
    exact ⟨t, congrArg Host.Outcome.next ht, h⟩
  case inr.inl =>
    obtain ⟨t, ht, h⟩ := hat.parameterHeld hr (cmd := waitCommand) (Chk.bind_of_error (fieldsOnly_of_reserved hf))
    exact ⟨t, congrArg Host.Outcome.next ht, h⟩
  case inr.inr.inl =>
    obtain ⟨t, ht, h⟩ := hat.parameterHeld hr (cmd := barrierCommand) (Chk.bind_of_error (fieldsOnly_of_reserved hf))
    exact ⟨t, congrArg Host.Outcome.next ht, h⟩
  case inr.inr.inr =>
    obtain ⟨t, ht, h⟩ := hat.parameterHeld hr (cmd := endCommand) (Chk.bind_of_error (fieldsOnly_of_reserved hf))
    exact ⟨t, congrArg Host.Outcome.next ht, h⟩

end

section
/-! The scoreboard and the Bell network (R173, R197): a slot made READY, a context released, a core that gates its clock. -/

namespace Sys2Proof.Machine

variable {s t u : State} {c : Nat}

/-! ### Slots made READY (R173) -/

theorem State.slotReady_core_self (s : State) (c key : Nat) :
    (s.slotReady c key).core c = { s.core c with slots := (s.core c).slots.modify key fun x => { x with st := .ready } } :=
  State.setCore_core_self ..

theorem State.slotReady_core_ne (s : State) {c d : Nat} (key : Nat) (h : d ≠ c) : (s.slotReady c key).core d = s.core d :=
  State.setCore_core_ne _ _ _ _ h

/-- A command off the list of those outstanding, its destination READY. -/
def State.slotWritten (s : State) (c key : Nat) (o : Outst) : State :=
  (s.setCore c { s.core c with outst := (s.core c).outst.erase o }).slotReady c key

theorem State.slotWritten_core_self (s : State) (c key : Nat) (o : Outst) :
    (s.slotWritten c key o).core c = { s.core c with
      outst := (s.core c).outst.erase o, slots := (s.core c).slots.modify key fun x => { x with st := .ready } } := by
  unfold State.slotWritten
  rw [State.slotReady_core_self, State.setCore_core_self]

theorem State.slotWritten_core_ne (s : State) {c d : Nat} (key : Nat) (o : Outst) (h : d ≠ c) :
    (s.slotWritten c key o).core d = s.core d :=
  (State.slotReady_core_ne _ key h).trans (State.setCore_core_ne _ _ _ _ h)

/-- Of the state only cores have changed. -/
def OnlyCores (s u : State) : Prop := u = { s with cores := u.cores }

theorem OnlyCores.trans (h : OnlyCores s t) (g : OnlyCores t u) : OnlyCores s u :=
  Eq.trans g (congrArg (fun x : State => { x with cores := u.cores }) h)

theorem State.setCore_onlyCores (s : State) (n : Nat) (x : Core) : OnlyCores s (s.setCore n x) := rfl

/-- The write is done; whether its command's effect is recorded too, the slots and the list read alike. -/
theorem State.destinationReady_cases {ctx sl : Nat} {o : Outst} (h : (s.core c).writer ctx (slotKey ctx sl) = some o) :
    s.destinationReady c ctx sl = s.slotWritten c (slotKey ctx sl) o
      ∨ s.destinationReady c ctx sl = (s.slotWritten c (slotKey ctx sl) o).recordEffect c ctx o.index := by
  unfold State.destinationReady State.slotWritten
  dsimp only
  rw [h]
  dsimp only
  split
  · exact .inr rfl
  · exact .inl rfl

theorem State.destinationReady_spec {ctx sl : Nat} {o : Outst} (h : (s.core c).writer ctx (slotKey ctx sl) = some o) :
    let t := s.destinationReady c ctx sl
    (t.core c).slots = (s.core c).slots.modify (slotKey ctx sl) (fun x => { x with st := .ready })
      ∧ (t.core c).outst = (s.core c).outst.erase o ∧ (∀ d, d ≠ c → t.core d = s.core d) ∧ OnlyCores s t := by
  have hframe : OnlyCores s (s.slotWritten c (slotKey ctx sl) o) := (State.setCore_onlyCores ..).trans (State.setCore_onlyCores ..)
  have hself := s.slotWritten_core_self c (slotKey ctx sl) o
  have hother : ∀ d, d ≠ c → (s.slotWritten c (slotKey ctx sl) o).core d = s.core d := fun d => s.slotWritten_core_ne _ o
  obtain ht | ht := State.destinationReady_cases h <;> rw [ht] <;> generalize s.slotWritten c (slotKey ctx sl) o = u at *
  · exact ⟨congrArg Core.slots hself, congrArg Core.outst hself, hother, hframe⟩
  · refine ⟨?_, ?_, fun d hd => (State.recordEffect_core_ne u ctx o.index hd).trans (hother d hd),
      hframe.trans (State.setCore_onlyCores ..)⟩ <;> rw [State.recordEffect_core_self, hself]

/-! ### A core changes, and the power state settles (R197, R379) -/

/-- One core written; beside it only registers, logs and outputs have changed. -/
theorem State.setCore_noted {x : Core} (h : t = (s.setCore c x).noting t) :
    t.core c = x ∧ (∀ d, d ≠ c → t.core d = s.core d) ∧ t = (s.noting t).setCore c (t.core c) := by
  have hcores : t.cores = (s.setCore c x).cores := Eq.trans (congrArg State.cores h) rfl
  have hself : t.core c = x := (State.core_congr hcores c).trans (State.setCore_core_self ..)
  refine ⟨hself, fun d hd => (State.core_congr hcores d).trans (State.setCore_core_ne _ _ _ _ hd), ?_⟩
  rw [hself]
  exact h

/-- A context released, and its core's clock restarted if it was gated. -/
def Core.released (c : Core) (ctx : Nat) : Core :=
  { c with ctxs := c.ctxs.modify ctx fun q => { q with blocked := .no } }.restart

theorem Core.released_ctxs (c : Core) (ctx : Nat) :
    (c.released ctx).ctxs = c.ctxs.modify ctx fun q => { q with blocked := .no } := by
  unfold Core.released Core.restart
  split <;> rfl

theorem Core.released_clock (c : Core) (ctx : Nat) :
    (c.released ctx).gated = false ∧ (c.gated = true → (c.released ctx).clock = true ∧ (c.released ctx).ramp = 0) := by
  unfold Core.released Core.restart
  split
  · exact ⟨rfl, fun _ => ⟨rfl, rfl⟩⟩
  · next h => exact ⟨Bool.eq_false_iff.2 h, fun g => absurd g h⟩

theorem State.bellRelease_of_released {ctx p : Nat} (hp : s.partOf c = some p)
    (h : s.released p ((s.core c).ctxs.get ctx).blocked = true) :
    s.bellRelease c ctx = (s.setCore c ((s.core c).released ctx)).settlePower := by
  unfold State.bellRelease
  rw [hp]
  exact if_pos h

/-- A core whose clock is gated. -/
def Core.gatedOff (c : Core) : Core := { c with clock := false, gated := true }

theorem State.clockGate_of_idle {p : Nat} (hp : s.partOf c = some p) (hst : s.cstate c = 0) (hc : (s.core c).clock = true)
    (hi : (s.core c).idle = true) :
    s.clockGate c = ((s.setCore c (s.core c).gatedOff).count (0x3010 + c) 8 32 1).settlePower := by
  unfold State.clockGate
  dsimp only
  rw [hp]
  refine if_pos ?_
  dsimp only
  rw [hc, hi, hst]
  rfl

end Sys2Proof.Machine

open Sys2Proof.Machine

/-- Settles O11: each event takes the branch that acts, and the lemmas above say what it leaves. -/
theorem scoreboardReleaseAndGate : Obligations.ScoreboardReleaseAndGate := by
  refine ⟨?ready, ?release, ?gate⟩
  case ready =>
    intro core ctx sl o s h
    obtain ⟨hslots, hout, hother, hframe⟩ := State.destinationReady_spec h
    refine ⟨_, rfl, ?_, hout, fun k hk => ?_, hother, hframe⟩
    · rw [hslots, Tab.get_modify_self]
    · rw [hslots, Tab.get_modify_of_ne _ _ hk]
  case release =>
    intro core ctx p s hp h
    have ht := State.bellRelease_of_released hp h
    obtain ⟨hself, hother, hframe⟩ := State.setCore_noted (State.settlePower_noting (s.setCore core ((s.core core).released ctx)))
    obtain ⟨hgated, hclock⟩ := (s.core core).released_clock ctx
    refine ⟨_, congrArg Host.Outcome.next ht, ?_, ?_, ?_, fun k hk => ?_, hother, hframe⟩
    · rw [hself, Core.released_ctxs, Tab.get_modify_self]
    · rw [hself]
      exact hgated
    · rw [hself]
      exact hclock
    · rw [hself, Core.released_ctxs, Tab.get_modify_of_ne _ _ hk]
  case gate =>
    intro core p s hp hst hc hi
    have ht := State.clockGate_of_idle hp hst hc hi
    have hcounted : (s.setCore core (s.core core).gatedOff).count (0x3010 + core) 8 32 1
        = (s.setCore core (s.core core).gatedOff).noting ((s.setCore core (s.core core).gatedOff).count (0x3010 + core) 8 32 1) := rfl
    obtain ⟨hself, hother, hframe⟩ := State.setCore_noted (State.noting_trans hcounted (State.settlePower_noting _))
    have hcount : ((s.setCore core (s.core core).gatedOff).count (0x3010 + core) 8 32 1).settlePower.obj (0x3010 + core) 8
        = counterAt 32 (s.obj (0x3010 + core) 8 + 1) := by
      rw [State.settlePower_obj _ (by omega) (by decide), State.count_obj_self, State.setCore_obj]
    exact ⟨_, congrArg Host.Outcome.next ht, congrArg Core.clock hself, congrArg Core.gated hself, hcount, hself, hother, hframe⟩

end

section
/-! COLL and COLLECTIVE_COMPLETE (R173, R185, R218, R227): the sequencer takes a collective over, and gives its operands back. -/

namespace Sys2Proof.Machine

variable {s t u : State} {core : CoreId} {ctx : CtxId} {op : Nat} {e : Env}

/-! ### COLL -/

theorem State.setSlot_core_self (s : State) (e : Env) (sl : Nat) (x : Slot) :
    (s.setSlot e sl x).core e.core = { s.core e.core with slots := (s.core e.core).slots.set (slotKey e.ctx sl) x } :=
  State.setCore_core_self ..

theorem State.setSlot_core_ne (s : State) (e : Env) (sl : Nat) (x : Slot) {d : Nat} (h : d ≠ e.core) :
    (s.setSlot e sl x).core d = s.core d := State.setCore_core_ne _ _ _ _ h

theorem State.setSlot_onlyRegsCores (s : State) (e : Env) (sl : Nat) (x : Slot) : OnlyRegsCores s (s.setSlot e sl x) := rfl

theorem slotKey_inj {ctx a b : Nat} (h : slotKey ctx a = slotKey ctx b) : a = b := by
  unfold slotKey at h
  split at h
  · exact h
  · omega

theorem State.setSlot_slotOf_self (s : State) (e : Env) (sl : Nat) (x : Slot) : (s.setSlot e sl x).slotOf e sl = x := by
  rw [State.slotOf, State.setSlot_core_self, Tab.get_set_self]

theorem State.setSlot_slotOf_ne (s : State) (e : Env) {sl d : Nat} (x : Slot) (h : d ≠ sl) :
    (s.setSlot e sl x).slotOf e d = s.slotOf e d := by
  rw [State.slotOf, State.setSlot_core_self, Tab.get_set_of_ne _ _ fun h' => h (slotKey_inj h')]
  rfl

theorem State.slotOf_noteWrite (u : State) (e : Env) (d : Nat) : (u.noteWrite e).slotOf e d = u.slotOf e d := by
  rw [State.slotOf, State.noteWrite_core_self]
  rfl

/-- The operands of a collective are taken: its source has a reader more, its destination is WRITING (R173). -/
def State.operandsTaken (s : State) (e : Env) (src dst : Nat) : State :=
  let u := if src = dst then s else s.setSlot e src { s.slotOf e src with readers := (s.slotOf e src).readers + 1 }
  u.setSlot e dst { u.slotOf e dst with st := .writing }

/-- The sequencer holds a collective, and the core its command, under the collective's number (R185). -/
def State.collListed (s : State) (e : Env) (x : Coll) : State :=
  { s.setCore e.core { s.core e.core with
      outst := (s.core e.core).outst ++ [⟨e.ctx, e.idx, slotKey e.ctx x.dst, some x.id, true⟩] } with
    colls := s.colls ++ [x], collNext := s.collNext + 1 }

/-- The collective that a COLL hands over. -/
def State.collOfCommand (s : State) (e : Env) (g : Group) : Coll :=
  ⟨s.collNext, e.p, e.core, e.ctx, e.idx, e.f 24 4, g, e.f 8 8, e.f 16 8, e.f 48 32, e.f 80 24, false, s.recorded e⟩

theorem State.operandsTaken_lists (s : State) (e : Env) (src dst : Nat) :
    (s.operandsTaken e src dst).colls = s.colls ∧ (s.operandsTaken e src dst).collNext = s.collNext := by
  unfold State.operandsTaken
  split <;> exact ⟨rfl, rfl⟩

theorem collCommand_of_group {g : Group} {a b : Tensor}
    (hf : onlyFields e.word [(0, 8), (8, 8), (16, 8), (24, 4), (32, 16), (48, 32), (80, 24)] = true) (hk : e.f 24 4 ≤ 3)
    (hb : board s e [(e.f 8 8, kTensor)] [(e.f 16 8, kTensor)] = .ok ())
    (hg : (s.part e.p).groups.find? (fun g => g.group == e.f 32 16) = some g) (ha : collTensor s e false (e.f 8 8) = .ok a)
    (hd : collTensor s e true (e.f 16 8) = .ok b) (halg : g.alg < 2) (hi : (s.memberIndex g).isSome = true)
    (hsz : a.tileSize = b.tileSize) (hq : overQueue s e b.base b.extent = false) :
    collCommand e s = .ok (((s.operandsTaken e (e.f 8 8) (e.f 16 8)).collListed e (s.collOfCommand e g)).noteWrite e) := by
  have hfits : (decide (g.alg < 2) && (s.memberIndex g).isSome && a.tileSize == b.tileSize && !overQueue s e b.base b.extent) = true := by
    rw [decide_eq_true halg, hi, hsz, hq, beq_self_eq_true]
    rfl
  unfold collCommand
  refine (Chk.bind_of_ok (need_of_true hf)).trans ?_
  refine (Chk.bind_of_ok (need_of_true (decide_eq_true hk))).trans ?_
  refine (Chk.bind_of_ok hb).trans ?_
  rw [hg]
  refine (Chk.bind_of_ok ha).trans ?_
  refine (Chk.bind_of_ok hd).trans ?_
  refine (Chk.bind_of_ok (need_of_true hfits)).trans ?_
  unfold State.collListed State.operandsTaken State.collOfCommand
  rfl

/-- Of a core that takes the operands only the slots have changed. -/
theorem State.operandsTaken_core (s : State) (e : Env) (src dst : Nat) :
    (s.operandsTaken e src dst).core e.core = { s.core e.core with slots := ((s.operandsTaken e src dst).core e.core).slots } := by
  unfold State.operandsTaken
  split <;> simp only [State.setSlot_core_self]

theorem State.operandsTaken_core_ne (s : State) (e : Env) (src dst : Nat) {d : Nat} (h : d ≠ e.core) :
    (s.operandsTaken e src dst).core d = s.core d := by
  unfold State.operandsTaken
  dsimp only
  rw [State.setSlot_core_ne _ _ _ _ h]
  split
  · rfl
  · exact State.setSlot_core_ne _ _ _ _ h

theorem State.operandsTaken_dst (s : State) (e : Env) (src dst : Nat) : ((s.operandsTaken e src dst).slotOf e dst).st = .writing := by
  unfold State.operandsTaken
  dsimp only
  rw [State.setSlot_slotOf_self]

theorem State.operandsTaken_src (s : State) (e : Env) {src dst : Nat} (h : src ≠ dst) :
    ((s.operandsTaken e src dst).slotOf e src).readers = (s.slotOf e src).readers + 1 := by
  unfold State.operandsTaken
  dsimp only
  rw [State.setSlot_slotOf_ne _ _ _ h, if_neg h, State.setSlot_slotOf_self]

theorem State.operandsTaken_onlyRegsCores (s : State) (e : Env) (src dst : Nat) : OnlyRegsCores s (s.operandsTaken e src dst) := by
  unfold State.operandsTaken
  split
  · exact State.setSlot_onlyRegsCores ..
  · exact (State.setSlot_onlyRegsCores ..).trans (State.setSlot_onlyRegsCores ..)

theorem State.operandsTaken_obj (s : State) (e : Env) (src dst i k : Nat) : (s.operandsTaken e src dst).obj i k = s.obj i k := by
  unfold State.operandsTaken
  split <;> rfl

theorem State.collListed_core_self (s : State) (e : Env) (x : Coll) :
    (s.collListed e x).core e.core = { s.core e.core with
      outst := (s.core e.core).outst ++ [⟨e.ctx, e.idx, slotKey e.ctx x.dst, some x.id, true⟩] } := State.setCore_core_self ..

theorem State.collListed_core_ne (s : State) (e : Env) (x : Coll) {d : Nat} (h : d ≠ e.core) : (s.collListed e x).core d = s.core d :=
  State.setCore_core_ne _ _ _ _ h

theorem State.collListed_slotOf (s : State) (e : Env) (x : Coll) (d : Nat) : (s.collListed e x).slotOf e d = s.slotOf e d := by
  rw [State.slotOf, State.collListed_core_self]
  rfl

/-- Of the state only registers, cores and what the sequencer holds have changed. -/
def OnlyRegsCoresColls (s u : State) : Prop :=
  u = { s with objs := u.objs, cores := u.cores, colls := u.colls, collNext := u.collNext }

theorem OnlyRegsCoresColls.trans (h : OnlyRegsCoresColls s t) (g : OnlyRegsCoresColls t u) : OnlyRegsCoresColls s u :=
  Eq.trans g (congrArg (fun x : State => { x with objs := u.objs, cores := u.cores, colls := u.colls, collNext := u.collNext }) h)

theorem OnlyRegsCores.withColls (h : OnlyRegsCores s u) : OnlyRegsCoresColls s u :=
  Eq.trans h (congrArg₂ (fun (l : List Coll) n => { s with objs := u.objs, cores := u.cores, colls := l, collNext := n })
    (congrArg State.colls h).symm (congrArg State.collNext h).symm)

theorem State.collListed_onlyRegsCoresColls (s : State) (e : Env) (x : Coll) : OnlyRegsCoresColls s (s.collListed e x) := rfl

/-! ### COLLECTIVE_COMPLETE -/

/-- A collective off the sequencer's list, and its command off the core's: the source loses its reader (R173). -/
def State.collFreed (s : State) (x : Coll) : State :=
  { s with colls := s.colls.filter fun y => y.id != x.id }.setCore x.core { s.core x.core with
    outst := (s.core x.core).outst.filter fun o => o.entry != some x.id
    slots := if x.src = x.dst then (s.core x.core).slots
      else (s.core x.core).slots.modify (slotKey x.ctx x.src) fun y => { y with readers := y.readers - 1 } }

theorem State.collComplete_of_outstanding {x : Coll} (hx : s.colls.find? (fun y => y.id == x.id && y.done) = some x)
    (ho : ((s.core x.core).outst.any fun o => o.entry == some x.id) = true) :
    s.collComplete x.id = ((s.collFreed x).slotReady x.core (slotKey x.ctx x.dst)).recordEffect x.core x.ctx x.index := by
  unfold State.collComplete State.collFreed
  rw [hx]
  exact if_pos ho

theorem State.collFreed_core_self (s : State) (x : Coll) :
    (s.collFreed x).core x.core = { s.core x.core with
      outst := (s.core x.core).outst.filter fun o => o.entry != some x.id
      slots := if x.src = x.dst then (s.core x.core).slots
        else (s.core x.core).slots.modify (slotKey x.ctx x.src) fun y => { y with readers := y.readers - 1 } } :=
  State.setCore_core_self ..

theorem State.collFreed_core_ne (s : State) (x : Coll) {d : Nat} (h : d ≠ x.core) : (s.collFreed x).core d = s.core d :=
  State.setCore_core_ne _ _ _ _ h

theorem mem_recordedEffects (i : Nat) (l : List Nat) : i ∈ if i ∈ l then l else i :: l := by
  split
  · assumption
  · exact List.mem_cons_self

end Sys2Proof.Machine

open Sys2Proof.Machine

/-- Settles O28: the checks pass, the operands are taken, and the sequencer holds the collective. -/
theorem collHandsOver : Obligations.CollHandsOver := by
  intro core ctx e g a b s hat hf hk hb hg ha hd halg hi hsz hq
  obtain ⟨hc, hx, -⟩ := hat.env
  have hrun := collCommand_of_group hf hk hb hg ha hd halg hi hsz hq
  obtain ⟨hcolls, hnext⟩ := s.operandsTaken_lists e (e.f 8 8) (e.f 16 8)
  have hcore := s.operandsTaken_core e (e.f 8 8) (e.f 16 8)
  have hother : ∀ d, d ≠ e.core → (s.operandsTaken e (e.f 8 8) (e.f 16 8)).core d = s.core d :=
    fun d => s.operandsTaken_core_ne e _ _
  have hdst := s.operandsTaken_dst e (e.f 8 8) (e.f 16 8)
  have hsrc : e.f 8 8 ≠ e.f 16 8 → _ := s.operandsTaken_src e
  have hframe := s.operandsTaken_onlyRegsCores e (e.f 8 8) (e.f 16 8)
  have hobj := s.operandsTaken_obj e (e.f 8 8) (e.f 16 8)
  generalize s.operandsTaken e (e.f 8 8) (e.f 16 8) = u at *
  have hslots : ∀ d, (((u.collListed e (s.collOfCommand e g)).noteWrite e).issued e).slotOf e d = u.slotOf e d := fun d => by
    rw [State.issued_slotOf, State.slotOf_noteWrite, State.collListed_slotOf]
  have houtst : ((((u.collListed e (s.collOfCommand e g)).noteWrite e).issued e).core e.core).outst
      = (s.core e.core).outst ++ [⟨e.ctx, e.idx, slotKey e.ctx (e.f 16 8), some s.collNext, true⟩] := by
    rw [State.issued_core_self, State.noteWrite_core_self, State.collListed_core_self, hcore]
    rfl
  refine ⟨_, congrArg Host.Outcome.next (issue_of_ok hat (congrArg (Res.of s) hrun)), hat.issued (hobj ..), ?_,
    congrArg (· + 1) hnext, ?_, fun hne => ?_, ?_, ?_, fun d hd => ?_, ?_⟩
  · rw [← hc, ← hx]
    exact congrArg (· ++ [s.collOfCommand e g]) hcolls
  · rw [hslots, hdst]
  · rw [hslots, hsrc hne]
  · rw [← hc, ← hx]
    exact houtst
  · rw [← hc, ← hx]
    exact State.noteWrite_issued_unfenced ..
  · rw [← hc] at hd
    rw [State.issued_core_ne _ _ hd, State.noteWrite_core_ne _ _ hd, State.collListed_core_ne _ _ _ hd, hother d hd]
  · exact (hframe.withColls.trans (u.collListed_onlyRegsCoresColls e _)).trans
      (OnlyRegsCores.trans (State.setCore_onlyRegsCores _ e.core _) (State.issued_onlyRegsCores _ e)).withColls

/-- Settles O30: the command is outstanding, and the lemmas above say what freeing it leaves. -/
theorem collectiveCompletes : Obligations.CollectiveCompletes := by
  intro x s hx ho
  have ht := State.collComplete_of_outstanding hx ho
  have hself := s.collFreed_core_self x
  have hother : ∀ d, d ≠ x.core → (s.collFreed x).core d = s.core d := fun d => s.collFreed_core_ne x
  have hcolls : (s.collFreed x).colls = s.colls.filter fun y => y.id != x.id := rfl
  have hframe : s.collFreed x = { s with cores := (s.collFreed x).cores, colls := (s.collFreed x).colls } := rfl
  generalize s.collFreed x = u at *
  have hcore : ((u.slotReady x.core (slotKey x.ctx x.dst)).recordEffect x.core x.ctx x.index).core x.core = _ :=
    State.recordEffect_core_self ..
  rw [State.slotReady_core_self, hself] at hcore
  have hcores : OnlyCores u ((u.slotReady x.core (slotKey x.ctx x.dst)).recordEffect x.core x.ctx x.index) :=
    (State.setCore_onlyCores u x.core _).trans (State.setCore_onlyCores _ x.core _)
  refine ⟨_, congrArg Host.Outcome.next ht, hcolls, ?_, fun hne => ?_, congrArg Core.outst hcore, ?_, fun d hd => ?_, ?_⟩
  · rw [hcore, Tab.get_modify_self]
  · have hsrc : x.src ≠ x.dst := fun h => hne (congrArg (slotKey x.ctx) h)
    rw [hcore, if_neg hsrc, Tab.get_modify_of_ne _ _ hne, Tab.get_modify_self]
  · rw [hcore, Tab.get_modify_self]
    exact mem_recordedEffects ..
  · rw [State.recordEffect_core_ne _ _ _ hd, State.slotReady_core_ne _ _ hd, hother d hd]
  · generalize (u.slotReady x.core (slotKey x.ctx x.dst)).recordEffect x.core x.ctx x.index = t at *
    have hlist : u.colls = t.colls := (Eq.trans (congrArg State.colls hcores) rfl).symm
    exact Eq.trans hcores (congrArg₂ (fun (y : State) (l : List Coll) => { y with cores := t.cores, colls := l }) hframe hlist)

end

section
/-! Why SLOT does not always read at the window of the core whose work it is (R146, R187, R208): the number of a core that another
carries is not bounded in a state, and the window of a large one lies in bulk memory, where the LIVE half of a WPAIR region is read. -/

namespace Sys2Proof.Machine

/-- SLOT of slot 0, MODE 0: its content is read at offset 0 of the window, its kind is a list. -/
def rebindWord : Nat := 0x38 + kList * 2 ^ 19

/-- The number of a core whose window would start where bulk memory does. -/
def farCore : Nat := bulkBase / 0x8000000

/-- Partition 0 runs a step on core 0, whose context 4 does the work of core `farCore`, with the SLOT at its head. Region 0 is a
WPAIR region of 2 MiB whose upper half is LIVE. -/
def farRebind : State :=
  { (([(0x3010, 1, 0), (0x3010, 2, 0), (0x3100, 2, 3), (0x3420, 1, 0), (0x3420, 2, 1), (0x3420, 3, 8), (0x3420, 4, 0), (0x3420, 5, 1)].foldl
      (fun s x => s.setObj x.1 x.2.1 x.2.2) State.reset).setPart 0 { inStep := true }).setCore 0 {
        clock := true, carries := some farCore, ctxs := Tab.empty.set 4 { live := true, len := 1 } } with
    mem := Tab.empty.setList bulkBase (bytesOf 32 rebindWord) }

/-- What the head of that queue is. -/
def farEnv : Env := ⟨0, 4, farCore, 0, 0, rebindWord⟩

theorem farRebind_atHead : AtHead farRebind 0 4 0x38 farEnv := by
  unfold AtHead
  decide +kernel

/-- The content read is that of the LIVE half, which is zero; the bytes at the window itself are the command's own. -/
theorem farRebind_content : slotContent farRebind farEnv (farRebind.slotOf farEnv (farEnv.f 8 8)) (farEnv.f 16 2) = .ok (0, kList)
    ∧ contentCheck farRebind farEnv kList 0 = .ok farRebind
    ∧ 0 ≠ farRebind.natAt (winOf farEnv.home + farEnv.f 64 27) 32 := by
  refine ⟨by decide +kernel, rfl, by decide +kernel⟩

end Sys2Proof.Machine

open Sys2Proof.Machine

/-- Refutes O9: the clause of SLOT with MODE 0 takes the content at the window's address, and in `farRebind` it is read at another. -/
theorem not_phaseSlotAndEndIssue : ¬ Obligations.PhaseSlotAndEndIssue := by
  intro h
  obtain ⟨-, -, hslot, -⟩ := h
  obtain ⟨hread, hcheck, hne⟩ := farRebind_content
  obtain ⟨t, -, -, -, hmode0, -⟩ := hslot 0 4 farEnv (0, kList) farRebind farRebind farRebind_atHead (by decide) (by decide)
    (by decide +kernel) (by decide +kernel) hread hcheck
  exact hne (hmode0 (by decide)).1

end

section
/-! BORE (R186, R284): the work entry of its slot goes on a queue of the connection it names. -/

namespace Sys2Proof.Machine

variable {s t u : State} {core : CoreId} {ctx : CtxId} {op c : Nat} {e : Env} {w : WorkEntry}

/-- A connection with an entry more: a RECV on the receive queue, any other on the send queue (R282). -/
def Conn.posted (x : Conn) (w : WorkEntry) : Conn :=
  if w.op = 2 then { x with recvQ := x.recvQ ++ [w] } else { x with sendQ := x.sendQ ++ [w] }

theorem State.post_of_open (h : (s.conn c).st = .isOpen) :
    s.post c w = { s with entryNext := s.entryNext + 1 }.setConn c ((s.conn c).posted w) := by
  unfold State.post Conn.posted
  dsimp only
  rw [h, if_neg (not_not.2 rfl)]
  split <;> rfl

theorem markRdy_core_ne (s : State) (e : Env) (st : SlotSt) {d : Nat} (h : d ≠ e.core) : (markRdy s e st).core d = s.core d := by
  unfold markRdy
  split
  · exact State.setSlot_core_ne _ _ _ _ h
  · rfl

theorem markRdy_onlyRegsCores (s : State) (e : Env) (st : SlotSt) : OnlyRegsCores s (markRdy s e st) := by
  unfold markRdy
  split <;> rfl

theorem markRdy_obj (s : State) (e : Env) (st : SlotSt) (i k : Nat) : (markRdy s e st).obj i k = s.obj i k := by
  unfold markRdy
  split <;> rfl

theorem markRdy_slotOf (s : State) {e : Env} (st : SlotSt) (h : e.b 40 = true) : ((markRdy s e st).slotOf e (e.f 32 8)).st = st := by
  unfold markRdy
  rw [if_pos h, State.setSlot_slotOf_self]

/-- What a BORE that posts leaves of the state before it issues: an entry that is written or sent remotely is an unfenced write. -/
def State.bored (s : State) (e : Env) (c : Nat) (w : WorkEntry) : State :=
  let u := (markRdy s e .writing).post c w
  if w.isData then u.noteWrite e else u

theorem boreCommand_of_open {a b n : Nat}
    (hf : onlyFields e.word [(0, 8), (8, 8), (16, 12), (32, 8), (40, 1)] = true)
    (hb : board s e [(e.f 8 8, kWork)] (if e.b 40 then [(e.f 32 8, (s.slotOf e (e.f 32 8)).kind.toNat)] else []) = .ok ())
    (hst : (s.conn (e.f 16 12)).st = .isOpen) (hp : (s.conn (e.f 16 12)).part = e.p) (hl : listSlot (s.content e (e.f 8 8)) = .ok (b, n))
    (hsp : spanCheck s e false b 64 = .ok a) (hin : inScratch a = true) (hrd : readSpans s [(a, 64)] = .ok ())
    (hw : entryCheck s e (s.conn (e.f 16 12)) (s.natAt a 64) = .ok ()) (hr : s.recorded e = false)
    (hroom : if fieldAt (s.natAt a 64) 0 8 = 2 then (s.conn (e.f 16 12)).recvQ.length < 64
      else ((s.conn (e.f 16 12)).sendQ.filter fun y => !y.isBarrier).length < 32) :
    boreCommand e s = .ok (s.bored e (e.f 16 12) (workEntry s e (s.natAt a 64))) := by
  have hmine : ((s.conn (e.f 16 12)).st != .free && (s.conn (e.f 16 12)).part == e.p) = true := by
    rw [hst, hp, beq_self_eq_true]
    rfl
  have hfree : (if fieldAt (s.natAt a 64) 0 8 = 2 then decide ((s.conn (e.f 16 12)).recvQ.length < 64)
      else decide (((s.conn (e.f 16 12)).sendQ.filter fun y => !y.isBarrier).length < 32)) = true := by
    split_ifs at hroom ⊢ <;> exact decide_eq_true hroom
  unfold boreCommand
  refine (Chk.bind_of_ok (need_of_true hf)).trans ?_
  refine (Chk.bind_of_ok hb).trans ?_
  refine (Chk.bind_of_ok (need_of_true hmine)).trans ?_
  refine (Chk.bind_of_ok (a := (b, n)) (congrArg (atSlot _) hl)).trans ?_
  refine (Chk.bind_of_ok (a := a) (congrArg (atSlot _) hsp)).trans ?_
  refine (Chk.bind_of_ok (a := ()) (congrArg (atSlot _) (need_of_true hin))).trans ?_
  refine (Chk.bind_of_ok (a := ()) (congrArg (atSlot _) hrd)).trans ?_
  refine (Chk.bind_of_ok (a := ()) (congrArg (atSlot _) hw)).trans ?_
  refine Chk.ite_of_false (by rw [hr]; decide) ?_
  refine (Chk.bind_of_ok (need_of_true (by rw [hst]; rfl))).trans ?_
  exact Chk.bind_of_ok (need_of_true hfree)

/-- A BORE leaves of the cores, the registers and memory what marking its RDY slot leaves, but for the unfenced writes. -/
theorem State.bored_spec (hst : (s.conn c).st = .isOpen) :
    let t := s.bored e c w
    t.conn c = (s.conn c).posted w ∧ (∀ d, d ≠ c → t.conn d = s.conn d) ∧ t.entryNext = s.entryNext + 1 ∧ t.mem = s.mem
      ∧ (∀ i k, t.obj i k = s.obj i k) ∧ (∀ d, d ≠ e.core → t.core d = s.core d)
      ∧ (e.b 40 = true → (t.slotOf e (e.f 32 8)).st = .writing)
      ∧ (w.isData = true → (((t.issued e).core e.core).ctxs.get e.ctx).unfenced = 0b1111) := by
  have hframe := markRdy_onlyRegsCores s e .writing
  have hobj := markRdy_obj s e .writing
  have hother : ∀ d, d ≠ e.core → (markRdy s e .writing).core d = s.core d := fun d => markRdy_core_ne s e _
  have hslot : e.b 40 = true → ((markRdy s e .writing).slotOf e (e.f 32 8)).st = .writing := markRdy_slotOf s _
  unfold State.bored
  generalize markRdy s e .writing = m at *
  have hconns : m.conns = s.conns := Eq.trans (congrArg State.conns hframe) rfl
  have hconn : ∀ d, m.conn d = s.conn d := fun d => congrArg (fun x : Tab connReset => x.get d) hconns
  have hnext : m.entryNext = s.entryNext := Eq.trans (congrArg State.entryNext hframe) rfl
  have hmem : m.mem = s.mem := Eq.trans (congrArg State.mem hframe) rfl
  rw [State.post_of_open ((hconn c).symm ▸ hst), hconn c]
  generalize hu : ({ m with entryNext := m.entryNext + 1 } : State).setConn c ((s.conn c).posted w) = u
  have hu_conn : ∀ d, u.conn d = if d = c then (s.conn c).posted w else s.conn d := fun d => by
    rw [← hu, State.setConn_conn_eq]
    exact congrArg (ite _ _) (hconn d)
  have hu_next : u.entryNext = s.entryNext + 1 := by rw [← hu, ← hnext]; rfl
  have hu_mem : u.mem = s.mem := by rw [← hu, ← hmem]; rfl
  have hu_obj : ∀ i k, u.obj i k = s.obj i k := fun i k => by rw [← hu, ← hobj]; rfl
  have hu_core : ∀ d, u.core d = m.core d := fun d => by rw [← hu]; rfl
  have hu_slot : ∀ d, u.slotOf e d = m.slotOf e d := fun d => congrArg (fun x : Core => x.slots.get (slotKey e.ctx d)) (hu_core _)
  clear hu
  by_cases hd : w.isData = true
  · rw [if_pos hd]
    refine ⟨(hu_conn c).trans (if_pos rfl), fun d h => (hu_conn d).trans (if_neg h), hu_next, hu_mem, hu_obj, fun d h => ?_,
      fun h => ?_, fun _ => State.noteWrite_issued_unfenced ..⟩
    · rw [State.noteWrite_core_ne _ _ h, hu_core, hother d h]
    · rw [State.slotOf_noteWrite, hu_slot, hslot h]
  · rw [if_neg hd]
    exact ⟨(hu_conn c).trans (if_pos rfl), fun d h => (hu_conn d).trans (if_neg h), hu_next, hu_mem, hu_obj,
      fun d h => (hu_core d).trans (hother d h), fun h => by rw [hu_slot, hslot h], fun h => absurd h hd⟩

end Sys2Proof.Machine

open Sys2Proof.Machine

/-- Settles O33: the checks pass, and the entry is on its queue. -/
theorem borePostsEntry : Obligations.BorePostsEntry := by
  intro core ctx e a b n s hat hf hb hst hp hl hsp hin hrd hw hr hroom
  have hrun := boreCommand_of_open hf hb hst hp hl hsp hin hrd hw hr hroom
  obtain ⟨hself, hother, hnext, hmem, hobj, hcore, hslot, hdata⟩ :=
    State.bored_spec (e := e) (w := workEntry s e (s.natAt a 64)) hst
  obtain ⟨hc, hx, -⟩ := hat.env
  generalize s.bored e (e.f 16 12) (workEntry s e (s.natAt a 64)) = u at *
  have hconns : ∀ d, (u.issued e).conn d = u.conn d := fun _ => rfl
  refine ⟨_, congrArg Host.Outcome.next (issue_of_ok hat (congrArg (Res.of s) hrun)), hat.issued (hobj ..), ⟨?_, fun h => ?_⟩,
    fun d h => (hconns d).trans (hother d h), hnext, fun h => ?_, fun d h => ?_, hmem⟩
  · exact (hconns _).trans hself
  · rw [← hc, ← hx]
    exact hdata h
  · rw [State.issued_slotOf, hslot h]
  · rw [← hc] at h
    rw [State.issued_core_ne _ _ h, hcore d h]

end

section
/-! Why a step boundary does not always leave memory (R200, R275): the frozen frames of a CAPTURE region are put into its ring header. -/

namespace Sys2Proof.Machine

/-- Partition 0 ends a step after which it stops; no core is its own. Stream context 0 is enabled and its CAPTURE region 0, of
2 MiB at the start of bulk memory, belongs to the partition. -/
def capturing : State :=
  ([(0x3100, 2, 3), (0x4100, 1, 1), (0x4100, 0x0D, 0), (0x3420, 1, 0), (0x3420, 2, 1), (0x3420, 3, 40), (0x3420, 4, 0)].foldl
    (fun s x => s.setObj x.1 x.2.1 x.2.2) State.reset).setPart 0 { inStep := true, upd := .complete, stopReq := true }

/-- The first byte of the ring header gives the step that starts (R275). -/
theorem capturing_boundary : (capturing.boundary 0).mem.get bulkBase = 1 ∧ capturing.mem.get bulkBase = 0 := by
  decide +kernel

/-- The premises of the clause on a partition told to stop. -/
theorem capturing_ends : capturing.pstate 0 = 3 ∧ (capturing.part 0).inStep = true ∧ (capturing.part 0).upd = .complete
    ∧ capturing.stepEnded 0 = true ∧ (∀ c ∈ capturing.coresOf 0, capturing.cstate c ≠ 2) ∧ 0 ∉ capturing.dutyDue
    ∧ (capturing.part 0).lowered = false ∧ (capturing.part 0).updated = [] ∧ (capturing.part 0).stopReq = true := by
  decide +kernel

end Sys2Proof.Machine

open Sys2Proof.Machine

/-- Refutes O45: the clause on a partition told to stop claims that memory is as before, and in `capturing` the boundary writes a
ring header. -/
theorem not_stepsStartEndAndTimeOut : ¬ Obligations.StepsStartEndAndTimeOut := by
  intro h
  obtain ⟨-, hstop, -⟩ := h
  obtain ⟨hrun, hin, hupd, hend, hcores, hdue, hlow, hlist, hreq⟩ := capturing_ends
  obtain ⟨hafter, hbefore⟩ := capturing_boundary
  obtain ⟨t, ht, -, -, -, -, -, -, hmem⟩ := hstop 0 capturing hrun hin hupd hend hcores hdue hlow (hlist ▸ List.nodup_nil)
    (fun r hr => absurd (hlist ▸ hr) List.not_mem_nil) (.inl hreq)
  have hstep : capturing.boundary 0 = t := Host.Outcome.next.inj ht
  rw [hstep, hmem, hbefore] at hafter
  exact absurd hafter (by decide)

end

section
/-! What storing bytes leaves alone (R125–R131): the cores but for their holding buffers and PLLs, the registers but for those that
count traffic, and every byte outside the span. -/

namespace Sys2Proof.Machine

variable {s t u : State}

/-- From `s` to `t` no core differs but in its holding buffer and in whether its PLL starts. -/
def CoresStored (s t : State) : Prop :=
  ∀ d, t.core d = { s.core d with held := (t.core d).held, pllStarting := (t.core d).pllStarting }

theorem CoresStored.of_core (h : ∀ d, t.core d = s.core d) : CoresStored s t := fun d => by rw [h]

theorem CoresStored.trans (h : CoresStored s t) (g : CoresStored t u) : CoresStored s u := fun d => by rw [g d, h d]

theorem CoresStored.of_cores (h : CoresStored s t) (hc : u.cores = t.cores) : CoresStored s u := fun d => by
  rw [State.core_congr hc]
  exact h d

theorem HeldOnly.coresStored (h : HeldOnly s t) : CoresStored s t := fun d => by
  rw [h.core d]

theorem State.touch_coresStored (s : State) (a : Nat) : CoresStored s (s.touch a) := by
  unfold State.touch
  split
  · by_cases h : s.obj (0x3490 + a / 0x20000000) 3 = 0
    · have hawake : s.wakeQuad (a / 0x20000000) = s := if_pos h
      rw [hawake]
      exact .of_core fun _ => rfl
    · intro d
      rw [State.wakeQuad_core h]
      split <;> rfl
  · exact .of_core fun _ => rfl

theorem State.countBulk_core (s : State) (k a n d : Nat) : (s.countBulk k a n).core d = s.core d := by
  rw [State.countBulk_frame]
  rfl

theorem State.putBytes_coresStored (s : State) (a : Nat) (bs : List Byte) : CoresStored s (s.putBytes a bs) := by
  unfold State.putBytes
  dsimp only
  split
  · exact .of_core fun _ => rfl
  · split
    · exact ((s.touch_coresStored a).trans (HeldOnly.coresStored (State.flushHeld_heldOnly ..))).of_cores rfl
    · exact CoresStored.of_core fun d => s.countBulk_core ..

/-- A store leaves every byte outside its span. -/
theorem State.putBytes_rawByte_outside (hs : s.Canonical) (a : Nat) (bs : List Byte) {x : Nat} (h : ¬ (a ≤ x ∧ x < a + bs.length)) :
    (s.putBytes a bs).rawByte x = s.rawByte x := by
  have hfill : ∀ (t : State) (b1 b2 : NatTab), ({ t with
      mem := t.mem.fill a bs.length fun i => bs.getD i 0, sramBad := b1, bulkBad := b2 } : State).rawByte x = t.rawByte x := fun t _ _ => by
    unfold State.rawByte
    rw [Tab.get_fill, if_neg h]
    rfl
  unfold State.putBytes
  dsimp only
  split
  · rfl
  · rw [hfill]
    split
    · obtain ⟨hmem, hheld⟩ := s.touch_mem a
      have hok : HeldOk ((s.touch a).core (a / 0x8000000)).held := by rw [hheld]; exact hs.held _
      rw [State.flushHeld_rawByte _ _ _ _ (by omega) hok, State.rawByte_congr hmem hheld]
    · exact State.rawByte_countBulk ..

/-- Only reads of server memory are sent to it. -/
theorem State.countBulk_out_of_write (s : State) (a n : Nat) : (s.countBulk 2 a n).out = s.out := by
  unfold State.countBulk
  split
  · refine List.foldlRecOn _ _ (motive := fun t : State => t.out = s.out) rfl fun t h m _ => ?_
    dsimp only
    split <;> exact h
  · rw [if_neg fun h => absurd h.2.1 (by decide)]

theorem State.putBytes_out (s : State) (a : Nat) (bs : List Byte) : (s.putBytes a bs).out = s.out := by
  unfold State.putBytes
  dsimp only
  split
  · rfl
  · split
    · rw [State.flushHeld_frame, State.touch_frame]
    · exact State.countBulk_out_of_write ..

/-- A store changes memory, its error marks, the cores, the registers and the model's counter of free values. -/
theorem State.putBytes_lists (s : State) (a : Nat) (bs : List Byte) :
    (s.putBytes a bs).redirects = s.redirects ∧ (s.putBytes a bs).colls = s.colls ∧ (s.putBytes a bs).syncs = s.syncs
      ∧ (s.putBytes a bs).parts = s.parts := by
  rw [State.putBytes_frame]
  exact ⟨rfl, rfl, rfl, rfl⟩

end Sys2Proof.Machine

end

section
/-! The four kinds of collective (R185, R228, R233): they send tiles, and store tiles in the destination's spans and nowhere else. -/

namespace Sys2Proof.Machine

variable {s t u : State} {x : Coll} {i j : Nat} {l l' : Spans}

/-! ### Bytes stored in some spans -/

/-- From `s` to `t` bytes have been stored in these spans of device memory at most, and things have been sent. -/
structure StoredWithin (s t : State) (l : Spans) : Prop where
  bytes     : s.Canonical → ∀ a, (∀ q ∈ l, ¬ (redirectBy s.redirects q.1 ≤ a ∧ a < redirectBy s.redirects q.1 + q.2)) →
    t.rawByte a = s.rawByte a
  canon     : s.Canonical → t.Canonical
  cores     : CoresStored s t
  redirects : t.redirects = s.redirects
  colls     : t.colls = s.colls
  syncs     : t.syncs = s.syncs
  parts     : t.parts = s.parts
  sent      : ∀ o ∈ s.out, o ∈ t.out

theorem StoredWithin.refl (s : State) (l : Spans) : StoredWithin s s l :=
  ⟨fun _ _ _ => rfl, id, .of_core fun _ => rfl, rfl, rfl, rfl, rfl, fun _ h => h⟩

theorem StoredWithin.mono (h : StoredWithin s t l) (hl : l ⊆ l') : StoredWithin s t l' :=
  { h with bytes := fun hs a ha => h.bytes hs a fun q hq => ha q (hl hq) }

theorem StoredWithin.trans (h : StoredWithin s t l) (g : StoredWithin t u l) : StoredWithin s u l where
  bytes hs a ha := (g.bytes (h.canon hs) a (by rw [h.redirects]; exact ha)).trans (h.bytes hs a ha)
  canon := g.canon ∘ h.canon
  cores := h.cores.trans g.cores
  redirects := g.redirects.trans h.redirects
  colls := g.colls.trans h.colls
  syncs := g.syncs.trans h.syncs
  parts := g.parts.trans h.parts
  sent o ho := g.sent o (h.sent o ho)

theorem StoredWithin.foldl {α : Type} {f : State → α → State} {xs : List α}
    (hf : ∀ t, StoredWithin s t l → ∀ y ∈ xs, StoredWithin t (f t y) l) : StoredWithin s (xs.foldl f s) l :=
  List.foldlRecOn xs f (motive := fun t => StoredWithin s t l) (.refl s l) fun t h y hy => h.trans (hf t h y hy)

theorem StoredWithin.writeAt {a n : Nat} {bs : List Byte} (h : (a, n) ∈ l) (hn : bs.length ≤ n) :
    StoredWithin s (s.writeAt a bs) l where
  bytes hs b hb := s.putBytes_rawByte_outside hs _ bs fun hin => hb _ h ⟨hin.1, lt_of_lt_of_le hin.2 (Nat.add_le_add_left hn _)⟩
  canon hs := (State.writeAt_keeps (.refl s)).canon hs
  cores := s.putBytes_coresStored _ bs
  redirects := (s.putBytes_lists _ bs).1
  colls := (s.putBytes_lists _ bs).2.1
  syncs := (s.putBytes_lists _ bs).2.2.1
  parts := (s.putBytes_lists _ bs).2.2.2
  sent o ho := by rw [State.writeAt, State.putBytes_out]; exact ho

theorem StoredWithin.count (s : State) (i k w n : Nat) (l : Spans) : StoredWithin s (s.count i k w n) l :=
  ⟨fun _ _ _ => State.rawByte_count .., (State.count_keeps (.refl s)).canon, .of_core fun _ => rfl, rfl, rfl, rfl, rfl, fun _ h => h⟩

theorem StoredWithin.putSpans (l : Spans) (bs : List Byte) : StoredWithin s (s.putSpans l bs) l := by
  induction l generalizing s bs with
  | nil => exact .refl s []
  | cons q rest ih =>
    have hput : StoredWithin s (s.writeAt q.1 (bs.take q.2)) (q :: rest) := .writeAt List.mem_cons_self (List.length_take_le ..)
    exact (hput.trans (.count _ _ 1 64 _ _)).trans ((ih (bs.drop q.2)).mono (List.subset_cons_self ..))

theorem StoredWithin.putTiles (d : Tensor) (tiles : List Nat) (bs : List Byte) :
    StoredWithin s (s.putTiles d tiles bs) (tiles.flatMap d.tileSpans) := .putSpans ..

/-! ### What a collective sends and stores -/

theorem StoredWithin.sendTiles (m : Nat) (bs : List Byte) : StoredWithin s (s.sendTiles x m bs) l := by
  unfold State.sendTiles
  split
  · exact .refl s l
  · exact ⟨fun _ _ _ => rfl, (State.emit_keeps (.refl s)).canon, .of_core fun _ => rfl, rfl, rfl, rfl, rfl,
      fun _ h => List.mem_cons_of_mem _ h⟩

theorem StoredWithin.sendAll (bs : List Byte) : StoredWithin s (s.sendAll x i bs) l := .foldl fun _ _ _ _ => .sendTiles ..

theorem StoredWithin.sendContributions : StoredWithin s (s.sendContributions x i) l := .foldl fun _ _ _ _ => .sendTiles ..

/-- The tensors of a collective stand in its core's slots, which stores leave. -/
theorem StoredWithin.collDst (h : StoredWithin s t l) : t.collDst x = s.collDst x := by
  rw [State.collDst, State.collDst, h.cores]

/-- The spans of some of a collective's destination tiles. -/
def State.dstSpans (s : State) (x : Coll) (tiles : List Nat) : Spans := tiles.flatMap (s.collDst x).tileSpans

theorem State.dstSpans_mono {tiles tiles' : List Nat} (h : tiles ⊆ tiles') : s.dstSpans x tiles ⊆ s.dstSpans x tiles' := fun _ hq =>
  have ⟨n, hn, hmem⟩ := List.mem_flatMap.1 hq
  List.mem_flatMap.2 ⟨n, h hn, hmem⟩

theorem StoredWithin.putDst {tiles : List Nat} (h : StoredWithin s t l) (ht : s.dstSpans x tiles ⊆ l) (bs : List Byte) :
    StoredWithin t (t.putTiles (t.collDst x) tiles bs) l := by
  rw [h.collDst]
  exact (StoredWithin.putTiles ..).mono ht

theorem StoredWithin.reduceShard (h : StoredWithin s t l) (ht : s.dstSpans x (x.shard i) ⊆ l) (peers : List (List Word)) :
    StoredWithin t (t.reduceShard x i peers) l := h.putDst ht _

theorem StoredWithin.storeShards (h : StoredWithin s t l) (ht : ∀ j < x.group.nmem, s.dstSpans x (x.shard j) ⊆ l)
    (bs : List (List Byte)) : StoredWithin t (t.storeShards x i bs) l :=
  .foldl fun _ g y hy => (h.trans g).putDst (ht y.1 (List.mem_range.1 (List.mem_of_mem_filter (List.of_mem_zip hy).1))) y.2

/-- A shard is part of the tiles (R228). -/
theorem Coll.shard_subset (h : j < x.group.nmem) : x.shard j ⊆ x.allTiles := by
  intro n hn
  obtain ⟨k, hk, rfl⟩ := List.mem_map.1 hn
  have hle : (j + 1) * x.nt / x.group.nmem ≤ x.nt :=
    Nat.div_le_of_le_mul (Nat.mul_le_mul_right _ h)
  have hk := List.mem_range.1 hk
  simp only [shardStart] at hk ⊢
  exact List.mem_map.2 ⟨j * x.nt / x.group.nmem + k, List.mem_range.2 (by omega), by omega⟩

/-! ### The four kinds -/

theorem State.collRun_of_clean (hsrc : s.tilesBad (s.collSrc x) x.allTiles = none) (hdst : s.tilesBad (s.collDst x) x.allTiles = none)
    (run : State → State) : s.collRun x run = (run s).collDone x.id := by
  unfold State.collRun
  rw [hsrc, hdst]

theorem execReduceScatter_of_held {peers : List (List Word)} (h : s.collOf x.id 0 = some (x, i)) (hfit : s.peersFit x i peers = true) :
    execReduceScatter x.id peers s = .next (s.collRun x fun s => (s.sendContributions x i).reduceShard x i peers) := by
  unfold execReduceScatter
  rw [h]
  exact congrArg _ (if_pos hfit)

/-- The owned shard sent and stored, and the other members' shards stored. -/
def State.gathered (s : State) (x : Coll) (i : Nat) (sums : List (List Byte)) : State :=
  ((s.sendAll x i (s.tilesAt (s.collSrc x) (x.shard i))).putTiles (s.collDst x) (x.shard i)
    (s.tilesAt (s.collSrc x) (x.shard i))).storeShards x i sums

theorem execAllGather_of_held {sums : List (List Byte)} (h : s.collOf x.id 1 = some (x, i)) (hfit : s.gatherFit x i sums = true) :
    execAllGather x.id sums s = .next (s.collRun x fun s => s.gathered x i sums) := by
  unfold execAllGather
  rw [h]
  exact congrArg _ (if_pos hfit)

/-- The result of the owned shard sent, and the other members' stored. -/
def State.regathered (s : State) (x : Coll) (i : Nat) (sums : List (List Byte)) : State :=
  (s.sendAll x i (s.tilesAt (s.collDst x) (x.shard i))).storeShards x i sums

theorem execAllReduce_of_held {peers : List (List Word)} {sums : List (List Byte)} (h : s.collOf x.id 2 = some (x, i))
    (hfit : s.peersFit x i peers = true) (hsums : s.gatherFit x i sums = true) :
    execAllReduce x.id peers sums s
      = .next (s.collRun x fun s => ((s.sendContributions x i).reduceShard x i peers).regathered x i sums) := by
  unfold execAllReduce
  rw [h]
  exact congrArg _ (if_pos (by rw [hfit, hsums]; rfl))

/-- The source tiles sent to the next member, and the predecessor's stored. -/
def State.passed (s : State) (x : Coll) (i : Nat) (incoming : List Byte) : State :=
  (s.sendTiles x ((i + 1) % x.group.nmem) (s.tilesAt (s.collSrc x) x.allTiles)).putTiles (s.collDst x) x.allTiles incoming

theorem execRingPass_of_held {incoming : List Byte} (h : s.collOf x.id 3 = some (x, i))
    (hlen : incoming.length = x.nt * (s.collSrc x).tileSize) :
    execRingPass x.id incoming s = .next (s.collRun x fun s => s.passed x i incoming) := by
  unfold execRingPass
  rw [h]
  exact congrArg _ (if_pos hlen)

theorem State.collOf_member {k : Nat} (h : s.collOf x.id k = some (x, i)) : i < x.group.nmem := by
  unfold State.collOf at h
  split at h
  · cases h
  · obtain ⟨n, hn, hx⟩ := Option.map_eq_some_iff.1 h
    cases hx
    exact List.mem_range.1 (List.mem_of_find?_eq_some hn)

/-- The tiles of a sent message that is not held back stand in the outputs (R209). -/
theorem State.sendTiles_sent (hx : x.silent = false) (m : Nat) (bs : List Byte) :
    .collTiles x.id (s.memberAt x.group m) bs ∈ (s.sendTiles x m bs).out := by
  unfold State.sendTiles
  rw [hx, if_neg Bool.false_ne_true]
  exact List.mem_cons_self

theorem StoredWithin.placed {tiles : List Nat} (hs : s.Canonical) (h : StoredWithin s t (s.dstSpans x tiles)) :
    TilesPlaced s (t.collDone x.id) x tiles := by
  refine ⟨fun y hy hid => ?_, fun a ha => h.bytes hs a ha, h.syncs, h.parts⟩
  obtain ⟨z, -, rfl⟩ := List.mem_map.1 hy
  by_cases hz : z.id = x.id
  · rw [if_pos hz]
  · rw [if_neg hz] at hid
    exact absurd hid hz

end Sys2Proof.Machine

open Sys2Proof.Machine

/-- Settles O29: each kind runs on tiles that read without error, and what it stores lies in the destination's tiles. -/
theorem collectiveKindsMoveTiles : Obligations.CollectiveKindsMoveTiles := by
  intro x i peers sums incoming s hs hsrc hdst
  have hrun := State.collRun_of_clean hsrc hdst
  have hshard : ∀ j < x.group.nmem, s.dstSpans x (x.shard j) ⊆ s.dstSpans x x.allTiles :=
    fun j hj => State.dstSpans_mono (Coll.shard_subset hj)
  have hreduce : ∀ l, s.dstSpans x (x.shard i) ⊆ l → StoredWithin s ((s.sendContributions x i).reduceShard x i peers) l :=
    fun l hl => StoredWithin.sendContributions.trans (StoredWithin.sendContributions.reduceShard hl peers)
  refine ⟨fun hx hfit => ?reduce, fun hx hfit => ?gather, fun hx hfit hsums => ?both, fun hx hlen => ?ring⟩
  case reduce =>
    have hmoved := hreduce _ (List.Subset.refl _)
    exact ⟨_, (execReduceScatter_of_held hx hfit).trans (congrArg _ (hrun _)), hmoved.placed hs, rfl⟩
  case gather =>
    have hown := hshard i (State.collOf_member hx)
    have hmoved : StoredWithin s (s.gathered x i sums) (s.dstSpans x x.allTiles) :=
      have hput := StoredWithin.trans (.sendAll ..) ((StoredWithin.putTiles ..).mono hown)
      hput.trans (hput.storeShards hshard sums)
    exact ⟨_, (execAllGather_of_held hx hfit).trans (congrArg _ (hrun _)), hmoved.placed hs, rfl⟩
  case both =>
    have hown := hshard i (State.collOf_member hx)
    have hmoved : StoredWithin s (((s.sendContributions x i).reduceShard x i peers).regathered x i sums) (s.dstSpans x x.allTiles) :=
      have hsent := (hreduce _ hown).trans (.sendAll ..)
      hsent.trans (hsent.storeShards hshard sums)
    exact ⟨_, (execAllReduce_of_held hx hfit hsums).trans (congrArg _ (hrun _)), hmoved.placed hs, rfl⟩
  case ring =>
    have hmoved : StoredWithin s (s.passed x i incoming) (s.dstSpans x x.allTiles) := (StoredWithin.sendTiles ..).trans (.putTiles ..)
    have hput : StoredWithin _ (s.passed x i incoming) (s.dstSpans x x.allTiles) := .putTiles ..
    exact ⟨_, (execRingPass_of_held hx hlen).trans (congrArg _ (hrun _)), hmoved.placed hs, rfl,
      fun hloud => hput.sent _ (State.sendTiles_sent hloud _ _)⟩

end

section
/-! What Bore's completions leave alone (R163, R283, R286, R299, R301): the registers of cores and partitions, and of the cores all but
the slots and contexts that a completion marks and what a store touches. -/

namespace Sys2Proof.Machine

variable {s t u : State} {c : Nat}

/-- From `s` to `t` no register of a core or of a partition has changed, and no core but in its holding buffer, the start of its PLL,
its slots and its contexts. -/
structure ControlStays (s t : State) : Prop where
  obj  : ∀ i k, 0x3000 ≤ i → i < 0x3400 → k < 256 → t.obj i k = s.obj i k
  core : ∀ d, t.core d = { s.core d with
    held := (t.core d).held, pllStarting := (t.core d).pllStarting, slots := (t.core d).slots, ctxs := (t.core d).ctxs }

theorem ControlStays.refl (s : State) : ControlStays s s := ⟨fun _ _ _ _ _ => rfl, fun _ => rfl⟩

theorem ControlStays.trans (h : ControlStays s t) (g : ControlStays t u) : ControlStays s u where
  obj i k h1 h2 hk := (g.obj i k h1 h2 hk).trans (h.obj i k h1 h2 hk)
  core d := by rw [g.core d, h.core d]

theorem ControlStays.of_same (ho : t.objs = s.objs) (hc : t.cores = s.cores) : ControlStays s t :=
  ⟨fun i k _ _ _ => State.obj_congr ho i k, fun d => by rw [State.core_congr hc]⟩

theorem ControlStays.foldl {α : Type} {f : State → α → State} (xs : List α) (hf : ∀ t, ∀ y ∈ xs, ControlStays t (f t y)) :
    ControlStays s (xs.foldl f s) :=
  List.foldlRecOn xs f (motive := ControlStays s) (.refl s) fun t h y hy => h.trans (hf t y hy)

theorem ControlStays.ite {p : Prop} [Decidable p] (h : p → ControlStays s t) (g : ¬ p → ControlStays s u) :
    ControlStays s (if p then t else u) := by
  split
  · next hp => exact h hp
  · next hp => exact g hp

/-- Registers outside those of cores and partitions. -/
theorem ControlStays.of_regs {l : List (Nat × Nat)} (h : SameObjs s t l) (hl : ∀ x ∈ l, x.1 < 0x3000 ∨ 0x3400 ≤ x.1)
    (hc : CoresStored s t) : ControlStays s t where
  obj i k h1 h2 hk := h i k hk fun hm => by
    have hi : i < 0x3000 ∨ 0x3400 ≤ i := hl (i, k) hm
    omega
  core d := by rw [hc d]

theorem State.setObj_controlStays (s : State) {i k : Nat} (v : Nat) (hk : k < 256) (hi : i < 0x3000 ∨ 0x3400 ≤ i) :
    ControlStays s (s.setObj i k v) := .of_regs (State.setObj_sameObjs hk) (by simpa using hi) (.of_core fun _ => rfl)

theorem State.count_controlStays (s : State) {i k : Nat} (w n : Nat) (hk : k < 256) (hi : i < 0x3000 ∨ 0x3400 ≤ i) :
    ControlStays s (s.count i k w n) := s.setObj_controlStays _ hk hi

theorem State.logEvent_controlStays (s : State) (unit code detail : Nat) : ControlStays s (s.logEvent unit code detail) :=
  .of_regs (s.logEvent_sameObjs unit code detail) (by simp) (.of_core (State.core_congr (Eq.trans
    (congrArg State.cores (State.logEvent_noting ..)) rfl)))

/-! ### Stores -/

/-- Bytes written through a channel are counted in the channel's registers. -/
theorem State.countBulk_controlStays (s : State) (a n : Nat) : ControlStays s (s.countBulk 2 a n) := by
  unfold State.countBulk
  refine .ite (fun _ => .foldl _ fun t m _ => ?_) fun _ => ?_
  · exact .ite (fun _ => .refl t) fun _ => t.count_controlStays _ _ (by decide) (.inr (by omega))
  · rw [if_neg fun h => absurd h.2.1 (by decide)]
    exact .refl s

theorem State.touch_controlStays (s : State) (a : Nat) : ControlStays s (s.touch a) := by
  have hcores := s.touch_coresStored a
  unfold State.touch at *
  split
  · exact .of_regs (State.wakeQuad_sameObjs s _) (by simp; omega) (by rwa [if_pos ‹_›] at hcores)
  · exact .refl s

theorem State.flushHeld_controlStays (s : State) (c w v : Nat) : ControlStays s (s.flushHeld c w v) :=
  .of_regs (s.flushHeld_sameObjs c w v) (by simp) (s.flushHeld_heldOnly c w v).coresStored

theorem State.putBytes_controlStays (s : State) (a : Nat) (bs : List Byte) : ControlStays s (s.putBytes a bs) := by
  unfold State.putBytes
  dsimp only
  refine .ite (fun _ => .refl s) fun _ => ControlStays.trans (t := if a < 0x80000000 then
      (s.touch a).flushHeld (a / 0x8000000) (a % 0x8000000 / 64) ((a + bs.length - 1) % 0x8000000 / 64) else s.countBulk 2 a bs.length)
    ?_ (.of_same rfl rfl)
  exact .ite (fun _ => (s.touch_controlStays a).trans (State.flushHeld_controlStays ..)) fun _ => s.countBulk_controlStays ..

theorem State.writeAt_controlStays (s : State) (a : Nat) (bs : List Byte) : ControlStays s (s.writeAt a bs) := s.putBytes_controlStays _ bs

theorem State.putHalves_controlStays (s : State) (a n : Nat) (bs : List Byte) : ControlStays s (s.putHalves a n bs) := by
  induction n generalizing s a bs with
  | zero => exact .refl s
  | succ n ih =>
    unfold State.putHalves
    refine .ite (fun _ => .refl s) fun _ => ControlStays.trans ?_ (ih ..)
    exact .ite (fun _ => .refl s) fun _ => s.writeAt_controlStays ..

/-- A host window's counter of bytes written. -/
theorem State.countHost_controlStays (s : State) {a : Nat} (n : Nat) (h : a < 2 ^ 44 + hostSize) : ControlStays s (s.countHost 4 a n) := by
  unfold State.countHost
  refine .ite (fun _ => .refl s) fun _ => s.count_controlStays _ _ (by decide) (.inl ?_)
  simp only [hostSize, hostBase] at *
  omega

theorem State.emit_controlStays (s : State) (o : Output) : ControlStays s (s.emit o) := .of_same rfl rfl

theorem State.hostPart_controlStays (s : State) (o : Output) {a : Nat} (n : Nat) (h : a < 2 ^ 44 + hostSize) :
    ControlStays s ((s.emit o).countHost 4 a n) := (s.emit_controlStays o).trans (State.countHost_controlStays _ n h)

theorem State.hostPut_controlStays (s : State) {a : Nat} (bs : List Byte) (h : a < 2 ^ 44) : ControlStays s (s.hostPut a bs) := by
  have hm : min bs.length (hostSize - (a - hostBase) % hostSize) ≤ hostSize := by omega
  unfold State.hostPut
  dsimp only
  refine .ite (fun _ => ?_) fun _ => ?_
  · exact s.hostPart_controlStays _ _ (by omega)
  · exact (s.hostPart_controlStays _ _ (by omega)).trans (State.hostPart_controlStays _ _ _ (by omega))

/-- What Bore reaches is below 2^44 (R25). -/
theorem lt_of_boreReach {p a n : Nat} (h : s.boreReach p a n = true) : a < 2 ^ 44 := by
  by_contra hge
  have hplace : placeOf a = .nowhere := by
    unfold placeOf
    rw [if_neg (by omega), if_neg (by omega), if_neg (by simp only [bulkBase, bulkSize]; omega), if_neg (by omega)]
  unfold State.boreReach at h
  rw [hplace] at h
  cases h

theorem State.boreStore_controlStays (s : State) (p a : Nat) (bs : List Byte) : ControlStays s (s.boreStore p a bs) := by
  unfold State.boreStore
  refine .ite (fun h => ?_) fun _ => .refl s
  unfold State.boreWrite
  refine .ite (fun _ => s.hostPut_controlStays bs (lt_of_boreReach h)) fun _ => .ite (fun _ => s.putBytes_controlStays a bs) fun _ => ?_
  exact (s.putHalves_controlStays ..).trans (State.count_controlStays _ _ _ (by decide) (.inr (by omega)))

/-! ### Completions -/

theorem State.setConn_controlStays (s : State) (c : Nat) (x : Conn) : ControlStays s (s.setConn c x) := .of_same rfl rfl

theorem State.setCore_controlStays {x : Core} (s : State) (n : Nat) (h : x = { s.core n with slots := x.slots, ctxs := x.ctxs }) :
    ControlStays s (s.setCore n x) where
  obj _ _ _ _ _ := rfl
  core d := by
    rw [State.setCore_core_eq]
    split
    · next hd => rw [hd, h]
    · rfl

theorem State.writeCqe_controlStays (s : State) (c : Nat) (wid : Word) (code : Nat) (recv immv : Bool) (bytes imm : Nat) :
    ControlStays s (s.writeCqe c wid code recv immv bytes imm) := (s.boreStore_controlStays ..).trans (State.setConn_controlStays ..)

theorem State.finish_controlStays (s : State) (c : Nat) (e : WorkEntry) (code : Nat) (recv immv : Bool) (bytes imm : Nat) :
    ControlStays s (s.finish c e code recv immv bytes imm) := by
  unfold State.finish
  refine .ite (fun _ => .refl s) fun _ => ?_
  extract_lets s1 x s2 s3
  have h1 : ControlStays s s1 := .ite (fun _ => s.writeCqe_controlStays ..) fun _ => .refl s
  have h2 : ControlStays s1 s2 := .ite (fun _ => s1.setConn_controlStays ..) fun _ => .refl s1
  have h3 : ControlStays s2 s3 := by
    unfold s3
    split
    · exact s2.setCore_controlStays _ rfl
    · exact .refl s2
  exact ((h1.trans h2).trans h3).trans (.ite (fun _ => s3.setCore_controlStays _ rfl) fun _ => .refl s3)

theorem State.finishSend_controlStays (s : State) (c : Nat) (e : WorkEntry) (code bytes imm : Nat) :
    ControlStays s (s.finishSend c e code bytes imm) := (s.setConn_controlStays ..).trans (State.finish_controlStays ..)

theorem State.finishRecv_controlStays (s : State) (c : Nat) (e : WorkEntry) (code bytes : Nat) (immv : Bool) (imm : Nat) :
    ControlStays s (s.finishRecv c e code bytes immv imm) := (s.setConn_controlStays ..).trans (State.finish_controlStays ..)

theorem State.flushConn_controlStays (s : State) (c : Nat) : ControlStays s (s.flushConn c) :=
  ControlStays.trans (.foldl _ fun t _ _ => t.finishSend_controlStays ..) (.foldl _ fun t _ _ => t.finishRecv_controlStays ..)

theorem State.breakChains_controlStays (s : State) (c : Nat) : ControlStays s (s.breakChains c) := by
  unfold State.breakChains
  refine .foldl _ fun t d _ => ?_
  split
  · exact .ite (fun _ => t.finishSend_controlStays ..) fun _ => .refl t
  · exact .refl t

theorem State.countOpen_controlStays (s : State) : ControlStays s s.countOpen := s.setObj_controlStays _ (by decide) (.inr (by decide))

theorem State.connError_controlStays (s : State) (c err : Nat) : ControlStays s (s.connError c err) :=
  ((((s.setConn_controlStays ..).trans (State.logEvent_controlStays ..)).trans (State.flushConn_controlStays ..)).trans
    (State.breakChains_controlStays ..)).trans (State.countOpen_controlStays _)

/-! ### Packets sent -/

theorem State.countFrame_controlStays (s : State) (link : Nat) (p : Packet) : ControlStays s (s.countFrame link p) := by
  unfold State.countFrame
  split
  · exact (s.count_controlStays _ _ (by decide) (.inr (by omega))).trans (State.count_controlStays _ _ _ (by decide) (.inr (by omega)))
  · exact .refl s

theorem State.sendPacket_controlStays (s : State) (c : Nat) (p : Packet) : ControlStays s (s.sendPacket c p) :=
  (((s.count_controlStays _ _ (by decide) (.inr (by decide))).trans (State.count_controlStays _ _ _ (by decide) (.inr (by decide)))).trans
    (State.countFrame_controlStays ..)).trans (State.emit_controlStays ..)

theorem State.connHandOver_controlStays (s : State) (c : Nat) : ControlStays s (s.connHandOver c) := by
  unfold State.connHandOver
  refine .ite (fun _ => .refl s) fun _ => ?_
  exact (((s.flushConn_controlStays c).trans (State.sendPacket_controlStays ..)).trans (State.setConn_controlStays ..)).trans
    (State.countOpen_controlStays _)

/-! ### Withdrawal (R301) -/

theorem State.withdrawEntry_controlStays (s : State) (c : Nat) (e : WorkEntry) : ControlStays s (s.withdrawEntry c e) := by
  unfold State.withdrawEntry
  refine .ite (fun _ => s.finishSend_controlStays ..) fun _ => ?_
  exact ControlStays.trans (.ite (fun _ => s.sendPacket_controlStays ..) fun _ => .refl s) (State.setConn_controlStays ..)

theorem State.countBulk_none (s : State) (k a : Nat) : s.countBulk k a 0 = s := by
  unfold State.countBulk
  split
  · exact List.foldlRecOn _ _ (motive := fun t => t = s) rfl fun t h _ _ => h
  · exact if_neg fun h => absurd h.2.2 (by decide)

/-- A barrier packet carries nothing (R302). -/
theorem WorkEntry.pay_of_barrier {e : WorkEntry} (h : e.isBarrier = true) (i : Nat) : e.pay i = 0 := by
  have hdata : e.isData = false := by
    simp only [WorkEntry.isBarrier, decide_eq_true_eq] at h
    simp only [WorkEntry.isData, Bool.or_eq_false_iff, beq_eq_false_iff_ne]
    omega
  unfold WorkEntry.pay
  rw [hdata]
  rfl

theorem State.transmit_controlStays (s : State) (c : Nat) {e : WorkEntry} (n : Nat) (h : e.isBarrier = true) :
    ControlStays s (s.transmit c e n) := by
  unfold State.transmit
  extract_lets x e' u bytes y
  have he : e'.isBarrier = true := by
    unfold e'
    split <;> exact h
  have hu : ControlStays s u  := .foldl _ fun _ _ _ => by
    rw [WorkEntry.pay_of_barrier he, State.countBulk_none]
    exact State.sendPacket_controlStays ..
  exact hu.trans (u.setConn_controlStays ..)

theorem State.pumpBarrier_controlStays (s : State) (c : Nat) : ControlStays s (s.pumpBarrier c) := by
  unfold State.pumpBarrier
  refine .foldl _ fun t _ _ => ?_
  split
  · exact .ite (fun h => t.transmit_controlStays c 1 h) fun _ => .refl t
  · exact .refl t

theorem State.withdraw_controlStays (s : State) (core : Nat) : ControlStays s (s.withdraw core) :=
  .foldl _ fun _ _ _ => (ControlStays.foldl _ fun u _ _ => u.withdrawEntry_controlStays ..).trans (State.pumpBarrier_controlStays ..)

/-! ### Key slots and seals (R304, R323, R340) -/

theorem State.clearKeySlot_controlStays (s : State) {k : Nat} (hk : k < 15) : ControlStays s (s.clearKeySlot k) := by
  have hset : ∀ (t : State) (j v : Nat), j < 256 → ControlStays t (t.setObj (0x1251 + k) j v) :=
    fun t j v hj => t.setObj_controlStays v hj (.inl (by omega))
  unfold State.clearKeySlot
  extract_lets u v
  have hu : ControlStays s u := .of_same rfl rfl
  have hv : ControlStays u v := (((hset u 1 _ (by decide)).trans (hset _ 2 _ (by decide))).trans (hset _ 3 _ (by decide))).trans
    (hset _ 5 _ (by decide))
  refine (hu.trans hv).trans (.foldl _ fun t c _ => ?_)
  exact .ite (fun _ => t.connError_controlStays ..) fun _ => .refl t

theorem State.clearKeySlots_controlStays (s : State) (f : Nat → Bool) : ControlStays s (s.clearKeySlots f) :=
  .foldl _ fun t _ hk => t.clearKeySlot_controlStays (List.mem_range.1 (List.mem_of_mem_filter hk))

theorem State.zeroSpan_controlStays (s : State) (r lo n : Nat) : ControlStays s (s.zeroSpan r lo n) where
  obj i k _ hi hk := (s.zeroSpan_obj r lo n hk).trans (if_neg fun h => by omega)
  core d := by rw [State.core_congr (s.zeroSpan_fields r lo n).1]

theorem State.dropRegions_controlStays (s : State) (p : Nat) : ControlStays s (s.dropRegions p) := by
  refine .foldl _ fun t r _ => .ite (fun _ => ?_) fun _ => .refl t
  exact (t.setObj_controlStays _ (by decide) (.inr (by omega))).trans (State.zeroSpan_controlStays ..)

theorem State.unbind_controlStays (s : State) (p : Nat) : ControlStays s (s.unbind p) := by
  unfold State.unbind
  split
  · exact .refl s
  · exact .of_same rfl rfl

theorem State.unseal_controlStays (s : State) {p : Nat} (hp : p < 4) : ControlStays s (s.unseal p) := by
  unfold State.unseal
  refine .ite (fun _ => .refl s) fun _ => ?_
  extract_lets u v w
  have hu : ControlStays s u := (s.unbind_controlStays p).trans (State.dropRegions_controlStays ..)
  clear_value u
  have hv : ControlStays u v := .of_same rfl rfl
  clear_value v
  have hw : ControlStays v w := .foldl _ fun t k hk => t.setObj_controlStays 0 (by simp at hk; omega) (.inl (by omega))
  clear_value w
  exact ((hu.trans hv).trans hw).trans (.of_same rfl rfl)

end Sys2Proof.Machine

end

section
/-! Bore with no entry left (R283, R301): to hand a connection over, to fail it or to withdraw from it then changes no core and no
byte of a scratchpad. -/

namespace Sys2Proof.Machine

variable {s t u : State} {c : Nat}

/-- From `s` to `t` no core and no byte of a scratchpad has changed, and in `t` no connection has an entry. -/
structure QuietStays (s t : State) : Prop where
  cores   : t.cores = s.cores
  scratch : ∀ x < 0x80000000, t.rawByte x = s.rawByte x
  quiet   : Quiet t

theorem QuietStays.refl (h : Quiet s) : QuietStays s s := ⟨rfl, fun _ _ => rfl, h⟩

theorem QuietStays.trans (h : QuietStays s t) (g : QuietStays t u) : QuietStays s u :=
  ⟨g.cores.trans h.cores, fun x hx => (g.scratch x hx).trans (h.scratch x hx), g.quiet⟩

theorem QuietStays.of_same (h : Quiet s) (hc : t.cores = s.cores) (hm : t.mem = s.mem) (hn : t.conns = s.conns) : QuietStays s t where
  cores := hc
  scratch x _ := State.rawByte_congr hm (fun d => by rw [State.core_congr hc]) x
  quiet d := by
    rw [State.conn, hn]
    exact h d

theorem QuietStays.foldl {α : Type} {f : State → α → State} (h : Quiet s) (xs : List α)
    (hf : ∀ t, Quiet t → ∀ y ∈ xs, QuietStays t (f t y)) : QuietStays s (xs.foldl f s) :=
  List.foldlRecOn xs f (motive := QuietStays s) (.refl h) fun t g y hy => g.trans (hf t g.quiet y hy)

theorem QuietStays.ite {p : Prop} [Decidable p] (h : p → QuietStays s t) (g : ¬ p → QuietStays s u) :
    QuietStays s (if p then t else u) := by
  split
  · next hp => exact h hp
  · next hp => exact g hp

theorem Quiet.of_onlyCounts (h : Quiet s) (g : OnlyCounts s t) : QuietStays s t :=
  .of_same h g.cores g.mem (Eq.trans (congrArg State.conns g) rfl)

theorem Quiet.logEvent (h : Quiet s) (unit code detail : Nat) : QuietStays s (s.logEvent unit code detail) := by
  have hn := State.logEvent_noting s unit code detail
  exact .of_same h (Eq.trans (congrArg State.cores hn) rfl) (Eq.trans (congrArg State.mem hn) rfl) (Eq.trans (congrArg State.conns hn) rfl)

theorem Quiet.setConn (h : Quiet s) (c : Nat) {x : Conn} (hs : x.sendQ = []) (hr : x.recvQ = []) : QuietStays s (s.setConn c x) where
  cores := rfl
  scratch _ _ := rfl
  quiet d := by
    rw [State.setConn_conn_eq]
    split
    · exact ⟨hs, hr⟩
    · exact h d

/-- There is nothing to flush. -/
theorem Quiet.flushConn (h : Quiet s) (c : Nat) : s.flushConn c = s := by
  obtain ⟨hsend, hrecv⟩ := h c
  unfold State.flushConn
  rw [hsend]
  dsimp only [List.foldl]
  rw [hrecv]
  rfl

/-- No entry waits on a connection. -/
theorem Quiet.breakChains (h : Quiet s) (c : Nat) : s.breakChains c = s := by
  unfold State.breakChains
  refine List.foldlRecOn _ _ (motive := fun t => t = s) rfl fun t ht d _ => ?_
  obtain ⟨hsend, -⟩ := h d
  have hnone : (t.conn d).toSend = none := by rw [ht, Conn.toSend, hsend]; rfl
  rw [hnone]
  exact ht

theorem Quiet.countOpen (h : Quiet s) : QuietStays s s.countOpen := h.of_onlyCounts rfl

theorem Quiet.connError (h : Quiet s) (c err : Nat) : QuietStays s (s.connError c err) := by
  obtain ⟨hsend, hrecv⟩ := h c
  have hfail : QuietStays s (s.setConn c { s.conn c with st := .error, err := BitVec.ofNat 8 err }) := h.setConn c hsend hrecv
  have hlog := hfail.quiet.logEvent 0x79 0x0903 (c * 2 ^ 16 + err * 2 ^ 28)
  unfold State.connError
  dsimp only
  rw [hlog.quiet.flushConn, hlog.quiet.breakChains]
  exact (hfail.trans hlog).trans hlog.quiet.countOpen

theorem State.countFrame_onlyCounts (s : State) (link : Nat) (p : Packet) : OnlyCounts s (s.countFrame link p) := by
  unfold State.countFrame
  split
  · exact ((OnlyCounts.refl s).count ..).count ..
  · exact .refl s

theorem State.sendPacket_onlyCounts (s : State) (c : Nat) (p : Packet) : OnlyCounts s (s.sendPacket c p) :=
  ((((OnlyCounts.refl s).count ..).count ..).trans (State.countFrame_onlyCounts ..)).trans rfl

theorem Quiet.connHandOver (h : Quiet s) (c : Nat) : QuietStays s (s.connHandOver c) := by
  unfold State.connHandOver
  refine .ite (fun _ => .refl h) fun _ => ?_
  rw [h.flushConn]
  have hsent := h.of_onlyCounts (s.sendPacket_onlyCounts c (blankPacket s c .close (s.conn c).spsn))
  have hfreed := hsent.quiet.setConn c (x := ((s.sendPacket c (blankPacket s c .close (s.conn c).spsn)).conn c).freed) rfl rfl
  exact (hsent.trans hfreed).trans hfreed.quiet.countOpen

theorem Quiet.withdraw (h : Quiet s) (core : Nat) : s.withdraw core = s := by
  unfold State.withdraw
  refine List.foldlRecOn _ _ (motive := fun t => t = s) rfl fun t ht c _ => ?_
  obtain ⟨hsend, -⟩ := h c
  rw [ht, hsend]
  unfold State.pumpBarrier
  dsimp only [List.filter, List.foldl]
  rw [hsend]
  rfl

/-! ### Key slots and seals (R304, R323, R340) -/

theorem Quiet.clearKeySlot (h : Quiet s) (k : Nat) : QuietStays s (s.clearKeySlot k) := by
  unfold State.clearKeySlot
  extract_lets u v
  have hv : QuietStays s v := .of_same h rfl rfl rfl
  exact hv.trans (.foldl hv.quiet _ fun t ht c _ => .ite (fun _ => ht.connError ..) fun _ => .refl ht)

theorem Quiet.clearKeySlots (h : Quiet s) (f : Nat → Bool) : QuietStays s (s.clearKeySlots f) :=
  .foldl h _ fun _ ht _ _ => ht.clearKeySlot _

theorem Quiet.zeroSpan (h : Quiet s) (r lo n : Nat) : QuietStays s (s.zeroSpan r lo n) where
  cores := (s.zeroSpan_fields r lo n).1
  scratch x hx := (s.rawByte_zeroSpan r lo n x).trans (if_neg fun hin => by simp only [bulkBase] at hin; omega)
  quiet d := by
    unfold State.zeroSpan
    split <;> exact h d

theorem Quiet.dropRegions (h : Quiet s) (p : Nat) : QuietStays s (s.dropRegions p) := by
  refine .foldl h _ fun t ht r _ => .ite (fun _ => ?_) fun _ => .refl ht
  have hmark : QuietStays t (t.setObj (0x3420 + r) 3 (withXts (t.region r).attr false)) := ht.of_onlyCounts rfl
  exact hmark.trans (hmark.quiet.zeroSpan ..)

theorem Quiet.unseal (h : Quiet s) (p : Nat) : QuietStays s (s.unseal p) := by
  unfold State.unseal
  refine .ite (fun _ => .refl h) fun _ => ?_
  extract_lets u v w
  have hunbound : QuietStays s (s.unbind p) := by
    unfold State.unbind
    split
    · exact .refl h
    · exact .of_same h rfl rfl rfl
  have hu : QuietStays s u := hunbound.trans (hunbound.quiet.dropRegions p)
  clear_value u
  have hv : QuietStays u v := .of_same hu.quiet rfl rfl rfl
  clear_value v
  have hw : QuietStays v w := .foldl hv.quiet _ fun t ht k _ => ht.of_onlyCounts rfl
  clear_value w
  exact ((hu.trans hv).trans hw).trans (.of_same hw.quiet rfl rfl rfl)

end Sys2Proof.Machine

end

section
/-! Cores handed over (R135, R136, R163): what the scratchpad, the queues and the records of a core are then, and what stays. -/

namespace Sys2Proof.Machine

variable {s t u : State} {core c d : Nat} {l : List Nat}

/-- From `s` to `t` this core has been handed over and no other touched: no register of a core or partition, no connection. -/
structure CoreCleared (s t : State) (core : Nat) : Prop where
  obj   : ∀ i k, 0x3000 ≤ i → i < 0x3400 → k < 256 → t.obj i k = s.obj i k
  conns : t.conns = s.conns
  done  : HandedOver t core
  other : ∀ d, d ≠ core → t.core d = s.core d
  bytes : ∀ x, ¬ (winOf core ≤ x ∧ x < winOf core + scratchSize) → t.rawByte x = s.rawByte x

theorem State.clearScratch_core_ne (s : State) (lo hi : Nat) (h : d ≠ core) : (s.clearScratch core lo hi).core d = s.core d :=
  (State.setHeld_core s core _ d).trans (if_neg h)

theorem State.vaultCleared_core_ne (s : State) (tr : WipeTrigger) (h : d ≠ core) : (s.vaultCleared core tr).core d = s.core d :=
  (State.setCore_core_ne _ _ _ _ h).trans (s.clearScratch_core_ne _ _ h)

theorem State.logEvent_lists (s : State) (unit code detail : Nat) :
    (s.logEvent unit code detail).cores = s.cores ∧ (s.logEvent unit code detail).conns = s.conns := by
  rw [State.logEvent_noting]
  exact ⟨rfl, rfl⟩

/-- A wipe leaves the other cores, the connections and the registers of cores and partitions. -/
theorem State.wipeVault_rest (s : State) (tr : WipeTrigger) (hc : core < 16) :
    (∀ i k, 0x3000 ≤ i → i < 0x3400 → k < 256 → (s.wipeVault core tr).obj i k = s.obj i k)
      ∧ (s.wipeVault core tr).conns = s.conns ∧ ∀ d, d ≠ core → (s.wipeVault core tr).core d = s.core d := by
  obtain ⟨-, -, -, -, hregs⟩ := s.wipeVault_spec tr hc
  obtain ⟨hcores, hconns⟩ := (s.vaultCleared core tr).logEvent_lists core 0x0201 (wipeNum tr)
  refine ⟨fun i k h1 h2 hk => hregs i k hk (by simp; omega), hconns, fun d hd => ?_⟩
  exact (State.core_congr hcores d).trans (s.vaultCleared_core_ne tr hd)

/-- A core whose queues, slots and records have been cleared (R163). -/
def Core.handedOver (c : Core) : Core := Core.clearVector { c with
  undrained0 := none, undrained1 := none, mqCtx := none, panel0 := none, panel1 := none
  slots := .empty, shadow := .empty, ctxs := .empty, queues := [], outst := [], wrLo := 0, wrHi := 0, logical := 0
  carries := none, rerunLeft := [], kept := [], clock := false, gated := false }

/-- The vault wiped under a trigger, if there is one. -/
def State.wiped (s : State) (tr : Option WipeTrigger) (core : Nat) : State :=
  match tr with
  | some t => s.wipeVault core t
  | none => s

/-- The generators of a core seeded with `g` and its records cleared. -/
def State.coreReset (s : State) (core : Nat) (g : Word64Tab) (n : Nat) : State :=
  let u := s.setCore core { s.core core with gen := g }
  { u.setCore core (u.core core).handedOver with
    freeCtr := n, redirects := u.redirects.filter fun r => r.failed != core && r.takeover != core }

theorem State.handOverCore_eq (s : State) (tr : Option WipeTrigger) (core : Nat) :
    ∃ g n, State.handOverCore tr s core = ((s.wiped tr core).zeroScratch core).coreReset core g n := by
  have hreset : ∀ z : State, ∃ g n, { (z.reseed core).setCore core ((z.reseed core).core core).handedOver with
      redirects := z.redirects.filter fun r => r.failed != core && r.takeover != core } = z.coreReset core g n := fun _ => ⟨_, _, rfl⟩
  exact hreset ((s.wiped tr core).zeroScratch core)

variable {g : Word64Tab} {n : Nat}

theorem State.coreReset_core_self : (s.coreReset core g n).core core = { s.core core with gen := g }.handedOver :=
  (State.setCore_core_self ..).trans (congrArg Core.handedOver (State.setCore_core_self ..))

theorem State.coreReset_core_ne (h : d ≠ core) : (s.coreReset core g n).core d = s.core d :=
  (State.setCore_core_ne _ _ _ _ h).trans (State.setCore_core_ne _ _ _ _ h)

theorem State.rawByte_coreReset (x : Nat) : (s.coreReset core g n).rawByte x = s.rawByte x := by
  refine State.rawByte_congr (t := s.coreReset core g n) (s := s) rfl (fun d => ?_) x
  by_cases h : d = core
  · rw [h, State.coreReset_core_self]
    rfl
  · rw [State.coreReset_core_ne h]

theorem State.zeroScratch_sameObjs (s : State) (core : Nat) : SameObjs s (s.zeroScratch core) [(0x3400 + core, 5)] :=
  s.clearScratch_sameObjs core 0 scratchSize

theorem State.clearScratch_conns (s : State) (core lo hi : Nat) : (s.clearScratch core lo hi).conns = s.conns := rfl

theorem State.coreReset_cleared (hc : core < 16) : CoreCleared s ((s.zeroScratch core).coreReset core g n) core := by
  have hobj := s.zeroScratch_sameObjs core
  have hconns := s.clearScratch_conns core 0 scratchSize
  have hcore : ∀ d, d ≠ core → (s.zeroScratch core).core d = s.core d := fun d => s.clearScratch_core_ne 0 scratchSize
  have hbytes := fun x => s.rawByte_zeroScratch hc x
  rw [← State.zeroScratch] at hconns
  generalize s.zeroScratch core = z at *
  refine ⟨fun i k _ hi hk => hobj i k hk (by simp; omega), hconns, ⟨fun o ho => ?_, ?_⟩,
    fun d hd => (State.coreReset_core_ne hd).trans (hcore d hd), fun x hx => ?_⟩
  · rw [State.rawByte_coreReset, hbytes, if_pos ⟨by omega, by omega⟩]
  · rw [State.coreReset_core_self]
    exact ⟨rfl, rfl, rfl, rfl, rfl, rfl⟩
  · rw [State.rawByte_coreReset, hbytes, if_neg hx]

/-- A wipe before it makes no difference (R135). -/
theorem State.handOverCore_cleared (s : State) (tr : Option WipeTrigger) (hc : core < 16) :
    CoreCleared s (State.handOverCore tr s core) core := by
  obtain ⟨g, n, heq⟩ := s.handOverCore_eq tr core
  rw [heq]
  cases tr with
  | none => exact State.coreReset_cleared hc
  | some w =>
    obtain ⟨hobj, hconns, hother⟩ := s.wipeVault_rest w hc
    obtain ⟨hraw, -⟩ := s.wipeVault_spec w hc
    have h : CoreCleared (s.wipeVault core w) (((s.wipeVault core w).zeroScratch core).coreReset core g n) core := State.coreReset_cleared hc
    exact {
      obj := fun i k h1 h2 hk => (h.obj i k h1 h2 hk).trans (hobj i k h1 h2 hk)
      conns := h.conns.trans hconns
      done := h.done
      other := fun d hd => (h.other d hd).trans (hother d hd)
      bytes := fun x hx => (h.bytes x hx).trans ((hraw x).trans (if_neg fun hin => hx ⟨by omega, hin.2⟩)) }

/-- What has been handed over stays so while another core is cleared: their windows are apart (R25). -/
theorem CoreCleared.handedOver (h : CoreCleared s t core) (hd : HandedOver s d) (hne : d ≠ core) : HandedOver t d := by
  obtain ⟨hbytes, hcore⟩ := hd
  refine ⟨fun o ho => (h.bytes _ fun hin => ?_).trans (hbytes o ho), by rw [h.other d hne]; exact hcore⟩
  simp only [winOf, scratchSize] at hin ho
  omega

/-- From `s` to `t` the cores of a list have been handed over, and no other touched. -/
structure CoresCleared (s t : State) (l : List Nat) : Prop where
  obj   : ∀ i k, 0x3000 ≤ i → i < 0x3400 → k < 256 → t.obj i k = s.obj i k
  conns : t.conns = s.conns
  done  : ∀ c ∈ l, HandedOver t c
  other : ∀ d, d ∉ l → t.core d = s.core d

theorem State.each_handOverCore_cleared (tr : Option WipeTrigger) (l : List Nat) (hl : ∀ c ∈ l, c < 16) (s : State) :
    CoresCleared s (s.each l (State.handOverCore tr)) l := by
  induction l using List.reverseRecOn with
  | nil => exact ⟨fun _ _ _ _ _ => rfl, rfl, fun _ h => absurd h List.not_mem_nil, fun _ _ => rfl⟩
  | append_singleton l c ih =>
    have hprev := ih fun d hd => hl d (List.mem_append_left _ hd)
    have hlast := (s.each l (State.handOverCore tr)).handOverCore_cleared tr (hl c (by simp))
    rw [State.each, List.foldl_append]
    refine ⟨fun i k h1 h2 hk => (hlast.obj i k h1 h2 hk).trans (hprev.obj i k h1 h2 hk), hlast.conns.trans hprev.conns,
      fun d hd => ?_, fun d hd => ?_⟩
    · by_cases hdc : d = c
      · rw [hdc]
        exact hlast.done
      · have hd := List.mem_append.1 hd
        exact hlast.handedOver (hprev.done d (by simpa [hdc] using hd)) hdc
    · have hd : d ∉ l ∧ d ≠ c := by simpa using hd
      exact (hlast.other d hd.2).trans (hprev.other d hd.1)

/-! ### A partition's hand-over (R163) -/

theorem settlePower_lists (s : State) : s.settlePower.cores = s.cores ∧ s.settlePower.conns = s.conns ∧ s.settlePower.parts = s.parts
    ∧ s.settlePower.mem = s.mem := by
  rw [State.settlePower_noting]
  exact ⟨rfl, rfl, rfl, rfl⟩

theorem Quiet.settlePower (h : Quiet s) : QuietStays s s.settlePower :=
  .of_same h (settlePower_lists s).1 (settlePower_lists s).2.2.2 (settlePower_lists s).2.1

theorem State.settlePower_controlStays (s : State) : ControlStays s s.settlePower :=
  .of_regs s.settlePower_sameObjs (by simp) (.of_core (State.core_congr (settlePower_lists s).1))

theorem QuietStays.handedOver (h : QuietStays s t) (hd : HandedOver s d) (hlt : d < 16) : HandedOver t d := by
  obtain ⟨hbytes, hcore⟩ := hd
  refine ⟨fun o ho => (h.scratch _ ?_).trans (hbytes o ho), by rw [State.core_congr h.cores]; exact hcore⟩
  simp only [winOf, scratchSize] at ho ⊢
  omega

end Sys2Proof.Machine

end

section
/-! A partition handed over and dissolved (R161–R163, R337): registers of its cores, and what the cores hold. -/

namespace Sys2Proof.Machine

variable {s t u : State} {c d p : Nat} {l : List Nat}

/-- From `s` to `t` cores have been handed over: no register of a core or partition has changed, and with no entry left no other core. -/
structure PartCleared (s t : State) (l : List Nat) : Prop where
  obj   : ∀ i k, 0x3000 ≤ i → i < 0x3400 → k < 256 → t.obj i k = s.obj i k
  quiet : Quiet s → Quiet t ∧ (∀ c ∈ l, HandedOver t c) ∧ ∀ d, d ∉ l → t.core d = s.core d

theorem PartCleared.trans (h : PartCleared s t l) (hl : ∀ c ∈ l, c < 16) (g : ControlStays t u) (hq : Quiet t → QuietStays t u) :
    PartCleared s u l where
  obj i k h1 h2 hk := (g.obj i k h1 h2 hk).trans (h.obj i k h1 h2 hk)
  quiet hs := by
    obtain ⟨ht, hdone, hother⟩ := h.quiet hs
    have hu := hq ht
    exact ⟨hu.quiet, fun c hc => hu.handedOver (hdone c hc) (hl c hc),
      fun d hd => (State.core_congr hu.cores d).trans (hother d hd)⟩

theorem State.handOver_cleared (s : State) (p : Nat) (tr : Option WipeTrigger) (hl : ∀ c ∈ l, c < 16) :
    PartCleared s (s.handOver p l tr) l := by
  unfold State.handOver
  extract_lets u v w x
  have hu : CoresCleared s u l := s.each_handOverCore_cleared tr l hl
  clear_value u
  have hv : PartCleared s v l := ⟨hu.obj, fun hs => ⟨fun c => by rw [State.conn, show v.conns = s.conns from hu.conns]; exact hs c,
    hu.done, hu.other⟩⟩
  clear_value v
  have hw : PartCleared s w l := hv.trans hl (.foldl _ fun t c _ => .ite (fun _ => t.connHandOver_controlStays c) fun _ => .refl t)
    fun hq => .foldl hq _ fun t ht c _ => .ite (fun _ => ht.connHandOver c) fun _ => .refl ht
  clear_value w
  have hx : ∀ y, PartCleared s (w.setPart p y) l := fun y => hw.trans hl (.of_same rfl rfl) fun hq => .of_same hq rfl rfl rfl
  exact (hx _).trans hl (State.settlePower_controlStays _) Quiet.settlePower

/-! ### Cores assigned (R161, R212) -/

theorem State.assignCore_sameObjs (s : State) (c st p : Nat) :
    SameObjs s (s.assignCore c st p) [(0x3010 + c, 1), (0x3010 + c, 2), (0x3010 + c, 3)] := by
  have h1 : SameObjs s (s.setObj (0x3010 + c) 1 st) [(0x3010 + c, 1)] := State.setObj_sameObjs (by decide)
  have h2 := h1.append (State.setObj_sameObjs (i := 0x3010 + c) (k := 2) (v := p) (by decide))
  exact h2.append (State.setObj_sameObjs (by decide))

theorem State.assignCore_self (s : State) (c st p : Nat) : (s.assignCore c st p).cstate c = st ∧ (s.assignCore c st p).obj (0x3010 + c) 2 = p := by
  unfold State.assignCore State.cstate
  simp [State.setObj_obj_eq]

/-- From `s` to `t` the registers of the cores of a list have been written: their state and their partition. -/
structure CoresAssigned (s t : State) (l : List Nat) (st p : Nat) : Prop where
  frame : OnlyRegs s t
  self  : ∀ c ∈ l, t.cstate c = st ∧ t.obj (0x3010 + c) 2 = p
  other : ∀ i k, k < 256 → (∀ c ∈ l, i ≠ 0x3010 + c) → t.obj i k = s.obj i k

theorem State.each_assignCore (s : State) (l : List Nat) (st p : Nat) :
    CoresAssigned s (s.each l fun s c => s.assignCore c st p) l st p := by
  induction l using List.reverseRecOn with
  | nil => exact ⟨rfl, fun _ h => absurd h List.not_mem_nil, fun _ _ _ _ => rfl⟩
  | append_singleton l c ih =>
    rw [State.each, List.foldl_append]
    change CoresAssigned s ((s.each l fun s c => s.assignCore c st p).assignCore c st p) (l ++ [c]) st p
    generalize (s.each l fun s c => s.assignCore c st p) = t at *
    have hregs := t.assignCore_sameObjs c st p
    have hne : ∀ i k, k < 256 → i ≠ 0x3010 + c → (t.assignCore c st p).obj i k = t.obj i k := fun i k hk hi =>
      hregs i k hk (by simp [hi])
    refine ⟨((ih.frame.setObj ..).setObj ..).setObj .., fun d hd => ?_, fun i k hk hi => ?_⟩
    · by_cases hdc : d = c
      · rw [hdc]
        exact t.assignCore_self c st p
      · have hd : d ∈ l := by simpa [hdc] using hd
        obtain ⟨h1, h2⟩ := ih.self d hd
        exact ⟨(hne _ 1 (by decide) (by omega)).trans h1, (hne _ 2 (by decide) (by omega)).trans h2⟩
    · exact (hne i k hk (hi c (by simp))).trans (ih.other i k hk fun d hd => hi d (List.mem_append_left _ hd))

theorem OnlyRegs.quietStays (h : OnlyRegs s t) (hs : Quiet s) : QuietStays s t :=
  .of_same hs (Eq.trans (congrArg State.cores h) rfl) (Eq.trans (congrArg State.mem h) rfl) (Eq.trans (congrArg State.conns h) rfl)

theorem State.partOf_of_obj (h : s.obj (0x3010 + c) 2 = p) : s.partOf c = if p < 4 then some p else none := by
  unfold State.partOf
  rw [h]

theorem State.lt_of_mem_coresOf (h : c ∈ s.coresOf p) : c < 16 := List.mem_range.1 (List.mem_of_mem_filter h)

/-- What a settled power state leaves of the registers of cores and partitions. -/
theorem State.settlePower_pstate (s : State) (q : Nat) : s.settlePower.pstate q = s.pstate q := s.settlePower_obj (by omega) (by decide)

/-- The registers of a partition that is freed, or defined over a mask (R164). -/
def State.partSet (s : State) (p mask st : Nat) : State := (s.setObj (0x3100 + p) 1 mask).setObj (0x3100 + p) 2 st

theorem State.partSet_spec (s : State) (p mask st : Nat) :
    (s.partSet p mask st).obj (0x3100 + p) 1 = mask ∧ (s.partSet p mask st).pstate p = st
      ∧ (∀ q, q ≠ p → (s.partSet p mask st).pstate q = s.pstate q)
      ∧ (∀ c < 16, ∀ k < 256, (s.partSet p mask st).obj (0x3010 + c) k = s.obj (0x3010 + c) k) ∧ OnlyRegs s (s.partSet p mask st) := by
  unfold State.partSet State.pstate
  refine ⟨by simp [State.setObj_obj_eq], by simp, fun q hq => ?_, fun c hc k hk => ?_, rfl⟩
  · simp [State.setObj_obj_eq, hq]
  · rw [State.setObj_obj_ne _ _ _ _ _ _ (by decide) hk (by simp; omega), State.setObj_obj_ne _ _ _ _ _ _ (by decide) hk (by simp; omega)]

/-! ### A partition dissolved (R162, R163) -/

theorem State.dissolvePart_dissolved (s : State) {p : Nat} (hp : p < 4) (tr : Option WipeTrigger) : Dissolved s (s.dissolvePart p tr) p := by
  have hl : ∀ c ∈ s.coresOf p, c < 16 := fun c => State.lt_of_mem_coresOf
  unfold State.dissolvePart
  extract_lets l t1 t2 t3
  have h1 : PartCleared s t1 l := s.handOver_cleared p tr hl
  clear_value t1
  have h2 : CoresAssigned t1 t2 l 3 0xFF := t1.each_assignCore l 3 0xFF
  clear_value t2
  have h3 : ControlStays t2 t3 := (t2.unseal_controlStays hp).trans (State.clearKeySlots_controlStays ..)
  have q3 : Quiet t2 → QuietStays t2 t3 := fun hq => (hq.unseal p).trans ((hq.unseal p).quiet.clearKeySlots _)
  clear_value t3
  obtain ⟨hmask, hst, hother, hregs, hset⟩ := t3.partSet_spec p 0 0
  change Dissolved s (t3.partSet p 0 0).settlePower p
  generalize t3.partSet p 0 0 = t4 at *
  have hreg : ∀ c ∈ l, ∀ k < 256, t4.settlePower.obj (0x3010 + c) k = t2.obj (0x3010 + c) k := fun c hc k hk =>
    (State.settlePower_obj _ (by omega) hk).trans ((hregs c (hl c hc) k hk).trans (h3.obj _ k (by omega) (by have := hl c hc; omega) hk))
  have hquiet : Quiet s → QuietStays t1 t4.settlePower := fun hs =>
    have q2 := h2.frame.quietStays (h1.quiet hs).1
    have q4 := hset.quietStays (q3 q2.quiet).quiet
    ((q2.trans (q3 q2.quiet)).trans q4).trans q4.quiet.settlePower
  refine ⟨(State.settlePower_pstate ..).trans hst, (State.settlePower_obj _ (by omega) (by decide)).trans hmask,
    fun c hc => ⟨?_, ?_, fun hs => ?_⟩, fun hs c hc => ?_, fun q hq hne => ?_⟩
  · exact (hreg c hc 1 (by decide)).trans (h2.self c hc).1
  · exact State.partOf_of_obj ((hreg c hc 2 (by decide)).trans (h2.self c hc).2)
  · exact (hquiet hs).handedOver ((h1.quiet hs).2.1 c hc) (hl c hc)
  · exact (State.core_congr (hquiet hs).cores c).trans ((h1.quiet hs).2.2 c hc)
  · have hq3 : t3.pstate q = s.pstate q := (h3.obj _ 2 (by omega) (by omega) (by decide)).trans
      ((h2.other _ 2 (by decide) fun c hc => by have := hl c hc; omega).trans (h1.obj _ 2 (by omega) (by omega) (by decide)))
    exact (State.settlePower_pstate ..).trans ((hother q hne).trans hq3)

/-! ### QMASK (R161–R163) -/

/-- A partition defined over the quadrants of a mask: its cores of before and of now handed over, and each assigned anew. -/
def State.defined (s : State) (p v : Nat) : State :=
  let old := s.coresOf p
  let new := quadCores v
  let u := s.handOver p (old ++ new.filter (· ∉ old)) (some .handOver)
  let w := u.each (old.filter (· ∉ new)) fun s c => s.assignCore c 3 0xFF
  (w.each new fun s c => s.assignCore c 0 p).partSet p v 1

theorem mem_quadCores {v c : Nat} : c ∈ quadCores v ↔ c < 16 ∧ bitAt v (c / 4) = true := by
  unfold quadCores
  rw [List.mem_filter, List.mem_range]

theorem qmaskAct_of_free {p v : Nat} (hst : s.pstate p ≤ 1) (h0 : 0 < v) (h15 : v ≤ 15)
    (hfree : ∀ q, q < 4 → q ≠ p → ∀ b, b < 4 → ¬ (bitAt v b = true ∧ bitAt (s.obj (0x3100 + q) 1) b = true)) :
    qmaskAct p v s = (s.defined p v, stOk) := by
  have hnone : (List.range 4).any (fun q => q != p && (List.range 4).any fun b => bitAt v b && bitAt (s.obj (0x3100 + q) 1) b) = false := by
    rw [Bool.eq_false_iff]
    intro h
    simp only [List.any_eq_true, List.mem_range, Bool.and_eq_true, bne_iff_ne] at h
    obtain ⟨q, hq, hne, b, hb, hboth⟩ := h
    exact hfree q hq hne b hb hboth
  unfold qmaskAct
  rw [hnone, if_neg (by omega), if_neg (by simp; omega), if_neg (by omega)]
  rfl

/-- A write of 0 dissolves a DEFINED partition. -/
theorem qmaskAct_of_zero (hst : s.pstate p = 1) : qmaskAct p 0 s = (s.dissolvePart p (some .handOver), stOk) := by
  have hbit : ∀ b, bitAt 0 b = false := fun b => by
    unfold bitAt
    rw [Nat.zero_div]
    rfl
  unfold qmaskAct
  rw [if_neg (by omega), if_neg (by simp [hbit]), if_pos rfl, if_neg (by omega)]

/-- A partition defined over a mask: its cores LIVE and handed over, those that it has left UNASSIGNED, no other touched. -/
def PartDefined (s t : State) (p v : Nat) : Prop :=
  t.obj (0x3100 + p) 1 = v ∧ t.pstate p = 1
    ∧ (∀ c, c < 16 → bitAt v (c / 4) = true → t.cstate c = 0 ∧ t.partOf c = some p ∧ (Quiet s → HandedOver t c))
    ∧ (∀ c ∈ s.coresOf p, bitAt v (c / 4) = false → t.cstate c = 3 ∧ t.partOf c = none ∧ (Quiet s → HandedOver t c))
    ∧ (Quiet s → ∀ c, c ∉ s.coresOf p → (c < 16 → bitAt v (c / 4) = false) → t.core c = s.core c)
    ∧ (∀ q, q < 4 → q ≠ p → t.pstate q = s.pstate q)

theorem State.defined_partDefined (s : State) {p v : Nat} (hp : p < 4) : PartDefined s (s.defined p v) p v := by
  have hold : ∀ c ∈ s.coresOf p, c < 16 := fun c => State.lt_of_mem_coresOf
  have hnew : ∀ c ∈ quadCores v, c < 16 := fun c hc => (mem_quadCores.1 hc).1
  unfold State.defined
  extract_lets old new t1 t2
  have hl : ∀ c ∈ old ++ new.filter (· ∉ old), c < 16 := fun c hc => by
    obtain h | h := List.mem_append.1 hc
    · exact hold c h
    · exact hnew c (List.mem_of_mem_filter h)
  have h1 : PartCleared s t1 (old ++ new.filter (· ∉ old)) := s.handOver_cleared p _ hl
  clear_value t1
  have h2 : CoresAssigned t1 t2 (old.filter (· ∉ new)) 3 0xFF := t1.each_assignCore ..
  clear_value t2
  have h3 := t2.each_assignCore new 0 p
  generalize (t2.each new fun s c => s.assignCore c 0 p) = t3 at *
  obtain ⟨hmask, hst, hother, hregs, hset⟩ := t3.partSet_spec p v 1
  generalize t3.partSet p v 1 = t4 at *
  have hquiet : Quiet s → QuietStays t1 t4 := fun hs =>
    have q2 := h2.frame.quietStays (h1.quiet hs).1
    have q3 := h3.frame.quietStays q2.quiet
    (q2.trans q3).trans (hset.quietStays q3.quiet)
  have hdone : ∀ c ∈ old ++ new.filter (· ∉ old), Quiet s → HandedOver t4 c := fun c hc hs =>
    (hquiet hs).handedOver ((h1.quiet hs).2.1 c hc) (hl c hc)
  refine ⟨hmask, hst, fun c hc hb => ?_, fun c hc hb => ?_, fun hs c hc hb => ?_, fun q hq hne => ?_⟩
  · have hmem : c ∈ new := mem_quadCores.2 ⟨hc, hb⟩
    obtain ⟨hstate, hpart⟩ := h3.self c hmem
    refine ⟨(hregs c hc 1 (by decide)).trans hstate, ?_, hdone c ?_⟩
    · rw [State.partOf_of_obj ((hregs c hc 2 (by decide)).trans hpart), if_pos hp]
    · by_cases ho : c ∈ old
      · exact List.mem_append_left _ ho
      · exact List.mem_append_right _ (List.mem_filter.2 ⟨hmem, decide_eq_true ho⟩)
  · have hnot : c ∉ new := fun h => by
      rw [(mem_quadCores.1 h).2] at hb
      cases hb
    obtain ⟨hstate, hpart⟩ := h2.self c (List.mem_filter.2 ⟨hc, decide_eq_true hnot⟩)
    have hreg : ∀ k < 256, t4.obj (0x3010 + c) k = t2.obj (0x3010 + c) k := fun k hk =>
      (hregs c (hold c hc) k hk).trans (h3.other _ k hk fun d hd he => hnot (by rwa [Nat.add_left_cancel he]))
    exact ⟨(hreg 1 (by decide)).trans hstate, State.partOf_of_obj ((hreg 2 (by decide)).trans hpart), hdone c (List.mem_append_left _ hc)⟩
  · refine (State.core_congr (hquiet hs).cores c).trans ((h1.quiet hs).2.2 c fun h => ?_)
    obtain h | h := List.mem_append.1 h
    · exact hc h
    · obtain ⟨hlt, hbit⟩ := mem_quadCores.1 (List.mem_of_mem_filter h)
      rw [hb hlt] at hbit
      cases hbit
  · have hne3 : t3.pstate q = t2.pstate q := h3.other _ 2 (by decide) fun c hc => by have := hnew c hc; omega
    have hne2 : t2.pstate q = t1.pstate q := h2.other _ 2 (by decide) fun c hc => by
      have := hold c (List.mem_of_mem_filter hc)
      omega
    exact (hother q hne).trans (hne3.trans (hne2.trans (h1.obj _ 2 (by omega) (by omega) (by decide))))

end Sys2Proof.Machine

end

section
/-! CONTROL writes other than DISSOLVE (R162, R167): START, STOP, ABORT, LOAD and RESUME, and what each leaves alone. -/

namespace Sys2Proof.Machine

variable {s t u : State} {c d p : Nat}

/-! ### START (R162, R385) -/

/-- The record of a partition that starts, without job and keep pool. -/
def State.startedPart (s : State) (p : Nat) : Part :=
  { s.part p with stopReq := false, stepsRun := 0, inStep := false, phaseWords := [], groups := [], poolOff := 0, poolSize := 0, keepTabs := [] }

/-- The PLLs of a partition's cores start. -/
def State.pllsStarted (s : State) (p : Nat) : State := s.each (s.coresOf p) fun s c => s.setCore c (s.core c).woken

/-- The registers that START sets: STATE RUNNING, STEP from FIRST_STEP, PHASE 0. -/
def State.startedRegs (s : State) (p : Nat) : State :=
  ((s.setObj (0x3100 + p) 2 3).setObj (0x3100 + p) 6 (s.obj (0x3100 + p) 8)).setObj (0x3100 + p) 7 0

theorem startAct_of_alone (hst : s.pstate p = 2) (hj : s.jobPart p = false) :
    startAct p s = ((((s.setPart p (s.startedPart p)).pllsStarted p).startedRegs p).settlePower, stOk) := by
  have hphase : s.phasesFor p = [] := by
    unfold State.phasesFor
    rw [hj]
    rfl
  have hkeep : s.keepFor p = none := by
    unfold State.keepFor
    rw [hj]
    rfl
  unfold startAct
  rw [if_neg (not_not.2 hst), hj, hkeep, hphase]
  rfl

theorem State.coresOf_nodup (s : State) (p : Nat) : (s.coresOf p).Nodup := List.nodup_range.filter _

theorem State.coresOf_congr (h : t.objs = s.objs) (p : Nat) : t.coresOf p = s.coresOf p := by
  unfold State.coresOf State.partOf
  simp only [State.obj_congr h]

theorem State.pllsStarted_core (s : State) (p d : Nat) :
    (s.pllsStarted p).core d = if d ∈ s.coresOf p then (s.core d).woken else s.core d :=
  State.each_setCore_core Core.woken (s.coresOf_nodup p) s d

theorem State.startedRegs_spec (s : State) (p : Nat) :
    (s.startedRegs p).pstate p = 3 ∧ (s.startedRegs p).obj (0x3100 + p) 6 = s.obj (0x3100 + p) 8
      ∧ (s.startedRegs p).obj (0x3100 + p) 7 = 0 ∧ OnlyRegs s (s.startedRegs p)
      ∧ SameObjs s (s.startedRegs p) [(0x3100 + p, 2), (0x3100 + p, 6), (0x3100 + p, 7)] := by
  have h2 : SameObjs s (s.setObj (0x3100 + p) 2 3) [(0x3100 + p, 2)] := State.setObj_sameObjs (by decide)
  have h6 := h2.append (State.setObj_sameObjs (i := 0x3100 + p) (k := 6) (v := s.obj (0x3100 + p) 8) (by decide))
  have h7 := h6.append (State.setObj_sameObjs (i := 0x3100 + p) (k := 7) (v := 0) (by decide))
  unfold State.startedRegs State.pstate
  exact ⟨by simp [State.setObj_obj_eq], by simp [State.setObj_obj_eq], by simp, rfl, h7⟩

/-- A partition started: RUNNING from FIRST_STEP, the PLLs of its cores starting, and nothing else (R162, R385). -/
def PartStarted (s t : State) (p : Nat) : Prop :=
  t.pstate p = 3 ∧ t.obj (0x3100 + p) 6 = s.obj (0x3100 + p) 8 ∧ t.obj (0x3100 + p) 7 = 0
    ∧ (t.part p).inStep = false ∧ (t.part p).stepsRun = 0 ∧ (t.part p).stopReq = false
    ∧ (∀ c ∈ s.coresOf p, t.core c = { s.core c with pllStarting := !(s.core c).pll })
    ∧ (∀ c, c ∉ s.coresOf p → t.core c = s.core c) ∧ (∀ q : Nat, q ≠ p → t.part q = s.part q) ∧ t.mem = s.mem
    ∧ SameObjs s t [(0x3100 + p, 2), (0x3100 + p, 6), (0x3100 + p, 7), (0x2000, 1), (0x2400, 5)]

theorem State.started_partStarted (s : State) (p : Nat) :
    PartStarted s (((s.setPart p (s.startedPart p)).pllsStarted p).startedRegs p).settlePower p := by
  have hcore := (s.setPart p (s.startedPart p)).pllsStarted_core p
  have hplls : OnlyRegsCores (s.setPart p (s.startedPart p)) ((s.setPart p (s.startedPart p)).pllsStarted p) :=
    State.each_setCore_onlyRegsCores ..
  have hobj : ∀ i k, ((s.setPart p (s.startedPart p)).pllsStarted p).obj i k = s.obj i k := State.each_setCore_obj Core.woken _ _
  generalize (s.setPart p (s.startedPart p)).pllsStarted p = v at *
  have hparts : ∀ q, v.part q = if q = p then s.startedPart p else s.part q := fun q => by
    rw [State.part, hplls.parts]
    exact State.setPart_part_eq ..
  have hmem : v.mem = s.mem := Eq.trans (congrArg State.mem hplls) rfl
  obtain ⟨hst, hstep, hphase, hregs, hsame⟩ := v.startedRegs_spec p
  generalize v.startedRegs p = w at *
  obtain ⟨hcores, -, hps, hm⟩ := settlePower_lists w
  have hcore' : ∀ d, w.settlePower.core d = v.core d := fun d =>
    (State.core_congr hcores d).trans (State.core_congr (Eq.trans (congrArg State.cores hregs) rfl) d)
  have hpart' : ∀ q, w.settlePower.part q = v.part q := fun q => by
    rw [State.part, hps]
    exact congrArg (fun x : Tab partReset => x.get q) (Eq.trans (congrArg State.parts hregs) rfl)
  have hself : w.settlePower.part p = s.startedPart p := by rw [hpart', hparts, if_pos rfl]
  refine ⟨(State.settlePower_pstate ..).trans hst, ?_, ?_, by rw [hself]; rfl, by rw [hself]; rfl, by rw [hself]; rfl,
    fun c hc => ?_, fun c hc => ?_, fun q hq => ?_, hm.trans ((Eq.trans (congrArg State.mem hregs) rfl).trans hmem), ?_⟩
  · rw [State.settlePower_obj _ (by omega) (by decide), hstep, hobj]
  · rw [State.settlePower_obj _ (by omega) (by decide), hphase]
  · rw [hcore', hcore]
    exact if_pos hc
  · rw [hcore', hcore]
    exact if_neg hc
  · rw [hpart', hparts, if_neg hq]
  · exact ((SameObjs.of_obj hobj).append (hsame.append w.settlePower_sameObjs)).mono (by simp)

/-! ### STOP and ABORT (R162) -/

theorem stopAct_of_running (h : s.pstate p = 3) : stopAct p s = (s.setPart p { s.part p with stopReq := true }, stOk) :=
  if_neg (not_not.2 h)

theorem abortAct_of_running (h : s.pstate p = 3) : abortAct p s = (s.enterHeld p 0, stOk) := if_neg (not_not.2 h)

theorem State.enterHeld_inStep (s : State) (p cause : Nat) : ((s.enterHeld p cause).part p).inStep = false := by
  rw [State.enterHeld_eq, State.part, (settlePower_lists _).2.2.1]
  exact congrArg Part.inStep (State.setPart_part_self ..)

/-! ### Queues copied (R167, R208) -/

/-- Of the state only what a store changes has changed. -/
def OnlyStored (s u : State) : Prop :=
  u = { s with
    objs := u.objs, mem := u.mem, sramBad := u.sramBad, bulkBad := u.bulkBad, cores := u.cores, freeCtr := u.freeCtr, out := u.out }

theorem OnlyStored.refl (s : State) : OnlyStored s s := rfl

theorem OnlyStored.trans (h : OnlyStored s t) (g : OnlyStored t u) : OnlyStored s u :=
  Eq.trans g (congrArg (fun x : State => { x with
    objs := u.objs, mem := u.mem, sramBad := u.sramBad, bulkBad := u.bulkBad, cores := u.cores, freeCtr := u.freeCtr, out := u.out }) h)

theorem OnlyStored.foldl {α : Type} {f : State → α → State} (xs : List α) (hf : ∀ t, ∀ y ∈ xs, OnlyStored t (f t y)) :
    OnlyStored s (xs.foldl f s) :=
  List.foldlRecOn xs f (motive := OnlyStored s) (.refl s) fun t h y hy => OnlyStored.trans h (hf t y hy)

theorem OnlyStored.parts (h : OnlyStored s t) : t.parts = s.parts := Eq.trans (congrArg State.parts h) rfl
theorem OnlyStored.syncs (h : OnlyStored s t) : t.syncs = s.syncs := Eq.trans (congrArg State.syncs h) rfl
theorem OnlyStored.conns (h : OnlyStored s t) : t.conns = s.conns := Eq.trans (congrArg State.conns h) rfl
theorem OnlyStored.engines (h : OnlyStored s t) : t.engines = s.engines := Eq.trans (congrArg State.engines h) rfl
theorem OnlyStored.redirects (h : OnlyStored s t) : t.redirects = s.redirects := Eq.trans (congrArg State.redirects h) rfl

theorem State.setCore_onlyStored (s : State) (c : Nat) (x : Core) : OnlyStored s (s.setCore c x) := rfl

theorem State.copyQueues_onlyStored (s : State) (i : Image) (c : Nat) (x : CoreSec) : OnlyStored s (s.copyQueues i c x) :=
  .foldl _ fun _ _ _ => State.putBytes_frame ..

theorem State.copyQueues_coresStored (s : State) (i : Image) (c : Nat) (x : CoreSec) : CoresStored s (s.copyQueues i c x) :=
  List.foldlRecOn _ _ (motive := CoresStored s) (.of_core fun _ => rfl) fun t h _ _ => h.trans (t.putBytes_coresStored _ _)

theorem State.copyQueues_controlStays (s : State) (i : Image) (c : Nat) (x : CoreSec) : ControlStays s (s.copyQueues i c x) :=
  .foldl _ fun t _ _ => t.writeAt_controlStays ..

/-- A property of cores that a step brings about for one core and keeps for all holds of each core of the list. -/
theorem core_of_foldl {P : Core → Prop} {f : State → Nat × Nat → State} (hself : ∀ t x, P ((f t x).core x.1))
    (hkeep : ∀ t x d, P (t.core d) → P ((f t x).core d)) (xs : List (Nat × Nat)) (s : State) :
    ∀ x ∈ xs, P ((xs.foldl f s).core x.1) := by
  induction xs generalizing s with
  | nil => exact fun _ h => absurd h List.not_mem_nil
  | cons y ys ih =>
    intro x hx
    obtain rfl | hx := List.mem_cons.1 hx
    · exact List.foldlRecOn ys f (motive := fun t => P (t.core x.1)) (hself s x) fun t h z _ => hkeep t z x.1 h
    · exact ih (f s y) x hx

theorem mem_zipIdx_of_mem {l : List Nat} (h : c ∈ l) : ∃ n, (c, n) ∈ l.zipIdx := by
  rw [← List.zipIdx_map_fst 0 l] at h
  obtain ⟨x, hx, rfl⟩ := List.mem_map.1 h
  exact ⟨x.2, hx⟩

/-- A core without a command outstanding or a live context. -/
def Core.AtRest (c : Core) : Prop := c.outst = [] ∧ ∀ k, (c.ctxs.get k).live = false

/-- Contexts set that are not live leave none live. -/
theorem live_of_foldl_set {f : Nat → QCtx} (g : Nat → Nat) (hf : ∀ k, (f k).live = false) {t : Tab qctxReset}
    (ht : ∀ k, (t.get k).live = false) (ks : List Nat) (k : Nat) : ((ks.foldl (fun t n => t.set (g n) (f n)) t).get k).live = false := by
  refine List.foldlRecOn ks _ (motive := fun t : Tab qctxReset => (t.get k).live = false) (ht k) fun t h n _ => ?_
  rw [Tab.get_set]
  split
  · exact hf n
  · exact h

/-! ### LOAD (R167) -/

/-- A core as an image leaves it: its shadow copy is its slot table, and it is at rest. -/
def Core.Loaded (c : Core) : Prop := c.shadow = c.slots ∧ c.AtRest

theorem CoresStored.loaded (h : CoresStored s t) (hd : (s.core d).Loaded) : (t.core d).Loaded := by
  rw [h d]
  exact hd

/-- The record of a core as its section gives it. -/
def State.coreLoaded (s : State) (i : Image) (core n : Nat) : Core :=
  let c := s.coreSec i n
  { s.core core with
    wrLo := c.wrLo, wrHi := c.wrHi, logical := n, slots := s.slotTable i c, shadow := s.slotTable i c
    ctxs := c.contexts 0 false .empty, queues := (List.range 4).map fun q => (q, c.qbase.getD q 0, c.qlen.getD q 0)
    outst := [], panel0 := none, panel1 := none, mqCtx := none, undrained0 := none, undrained1 := none, vec := {} }

theorem State.loadCore_eq (s : State) (i : Image) (core n : Nat) :
    s.loadCore i core n = (s.setCore core (s.coreLoaded i core n)).copyQueues i core (s.coreSec i n) := rfl

theorem State.coreLoaded_loaded (s : State) (i : Image) (core n : Nat) : (s.coreLoaded i core n).Loaded :=
  ⟨rfl, rfl, live_of_foldl_set _ (fun _ => rfl) (fun _ => rfl) _⟩

theorem State.loadCore_onlyStored (s : State) (i : Image) (core n : Nat) : OnlyStored s (s.loadCore i core n) :=
  (s.setCore_onlyStored core _).trans (State.copyQueues_onlyStored ..)

theorem State.loadCore_loaded (s : State) (i : Image) (core n : Nat) : ((s.loadCore i core n).core core).Loaded := by
  rw [State.loadCore_eq]
  refine (State.copyQueues_coresStored _ _ _ _).loaded ?_
  rw [State.setCore_core_self]
  exact s.coreLoaded_loaded ..

theorem State.loadCore_keeps_loaded (s : State) (i : Image) (core n : Nat) (h : (s.core d).Loaded) :
    ((s.loadCore i core n).core d).Loaded := by
  by_cases hd : d = core
  · rw [hd]
    exact s.loadCore_loaded ..
  · rw [State.loadCore_eq]
    refine (State.copyQueues_coresStored _ _ _ _).loaded ?_
    rwa [State.setCore_core_ne _ _ _ _ hd]

/-- Binding sync objects writes them and their partition's record. -/
theorem State.bindSyncs_frame (s : State) (p : Nat) (i : Image) :
    (s.bindSyncs p i).objs = s.objs ∧ (s.bindSyncs p i).conns = s.conns ∧ (s.bindSyncs p i).engines = s.engines
      ∧ ∀ q, q ≠ p → (s.bindSyncs p i).part q = s.part q := by
  unfold State.bindSyncs
  extract_lets u l v
  have hv : v = { s with syncs := v.syncs } :=
    List.foldlRecOn _ _ (motive := fun t : State => t = { s with syncs := t.syncs }) rfl fun t h x _ =>
      Eq.trans (congrArg (fun y : State => y.setSync x.1 (syncOfEntry p (t.syncEntry i x.2))) h) rfl
  clear_value v
  have hparts : v.parts = s.parts := Eq.trans (congrArg State.parts hv) rfl
  have hobjs : v.objs = s.objs := Eq.trans (congrArg State.objs hv) rfl
  have hconns : v.conns = s.conns := Eq.trans (congrArg State.conns hv) rfl
  have hengines : v.engines = s.engines := Eq.trans (congrArg State.engines hv) rfl
  refine ⟨hobjs, hconns, hengines,
    fun q hq => (State.setPart_part_ne _ _ _ _ hq).trans (congrArg (fun x : Tab partReset => x.get q) hparts)⟩

/-- An accepted image loaded: its cores loaded, the partition LOADED, and no other partition, connection or engine touched (R167). -/
def ImageLoaded (s t : State) (p : Nat) : Prop :=
  t.pstate p = 2 ∧ t.obj (0x3100 + p) 5 = 0 ∧ (t.part p).imageAt = s.obj (0x3100 + p) 3
    ∧ (∀ c ∈ s.coresOf p, (t.core c).shadow = (t.core c).slots ∧ (t.core c).outst = []
        ∧ ∀ k, ((t.core c).ctxs.get k).live = false)
    ∧ (∀ q : Nat, q ≠ p → t.part q = s.part q) ∧ t.conns = s.conns ∧ t.engines = s.engines

theorem State.loadImage_imageLoaded (s : State) (p : Nat) : ImageLoaded s (s.loadImage p) p := by
  unfold State.loadImage
  extract_lets i u v w
  obtain ⟨hobjs, hconns, hengines, hparts⟩ := s.bindSyncs_frame p i
  have hcores : u.coresOf p = s.coresOf p := State.coresOf_congr hobjs p
  have hv : OnlyStored u v := .foldl _ fun t x _ => t.loadCore_onlyStored i x.1 x.2
  have hloaded : ∀ c ∈ s.coresOf p, (v.core c).Loaded := fun c hc => by
    obtain ⟨n, hn⟩ := mem_zipIdx_of_mem (hcores ▸ hc)
    exact core_of_foldl (fun t x => t.loadCore_loaded i x.1 x.2) (fun t x _ => t.loadCore_keeps_loaded i x.1 x.2) _ u (c, n) hn
  clear_value v
  have hpart : ∀ q, q ≠ p → v.part q = s.part q := fun q hq =>
    (congrArg (fun x : Tab partReset => x.get q) hv.parts).trans (hparts q hq)
  refine ⟨State.setObj_obj_self .., ?_, ?_, hloaded, fun q hq => (State.setPart_part_ne _ _ _ _ hq).trans (hpart q hq),
    hv.conns.trans hconns, hv.engines.trans hengines⟩
  · rw [State.setObj_obj_ne _ _ _ _ _ _ (by decide) (by decide) (by simp), State.setObj_obj_self]
  · exact congrArg Part.imageAt (State.setPart_part_self ..)

theorem loadAct_of_accepted (hst : s.pstate p = 1 ∨ s.pstate p = 2) (h : s.imageResult p = 0) : loadAct p s = (s.loadImage p, stOk) := by
  unfold loadAct
  rw [if_neg (by omega), h]
  rfl

theorem loadAct_of_refused (hst : s.pstate p = 1 ∨ s.pstate p = 2) (h0 : s.imageResult p ≠ 0) (h7 : s.imageResult p ≠ 7) :
    loadAct p s = (s.setObj (0x3100 + p) 5 (s.imageResult p), stOk) := by
  unfold loadAct
  rw [if_neg (by omega)]
  dsimp only
  rw [if_neg h0, if_neg h7]

/-! ### RESUME (R162, R194) -/

theorem Core.rewind_atRest (c : Core) (f : Option Core) : (c.rewind false f).AtRest := by
  have ht := live_of_foldl_set (f := fun k => (c.ctxs.get k).rewound (c.ctxs.get k) false) id (fun _ => rfl) (t := .empty)
    (fun _ => rfl) (List.range 4)
  cases f with
  | none => exact ⟨rfl, ht⟩
  | some x => exact ⟨rfl, live_of_foldl_set (4 + ·) (fun _ => rfl) ht _⟩

theorem CoresStored.atRest (h : CoresStored s t) (hd : (s.core d).AtRest) : (t.core d).AtRest := by
  rw [h d]
  exact hd

/-- A core put back to its image's start. -/
def State.coreResumed (s : State) (i : Image) (core n : Nat) : State :=
  (s.setCore core ((s.core core).rewind false (s.carried core))).copyQueues i core (s.coreSec i n)

theorem State.coreResumed_onlyStored (s : State) (i : Image) (core n : Nat) : OnlyStored s (s.coreResumed i core n) :=
  (s.setCore_onlyStored core _).trans (State.copyQueues_onlyStored ..)

theorem State.coreResumed_atRest (s : State) (i : Image) (core n : Nat) : ((s.coreResumed i core n).core core).AtRest := by
  refine (State.copyQueues_coresStored _ _ _ _).atRest ?_
  rw [State.setCore_core_self]
  exact Core.rewind_atRest ..

theorem State.coreResumed_keeps_atRest (s : State) (i : Image) (core n : Nat) (h : (s.core d).AtRest) :
    ((s.coreResumed i core n).core d).AtRest := by
  by_cases hd : d = core
  · rw [hd]
    exact s.coreResumed_atRest ..
  · refine (State.copyQueues_coresStored _ _ _ _).atRest ?_
    rwa [State.setCore_core_ne _ _ _ _ hd]

/-- A sync object back at its initial count. -/
def Sync.AtStart (x : Sync) : Prop := x.count = x.init ∧ x.gen = 0

theorem State.resetSyncs_frame (s : State) (p : Nat) : s.resetSyncs p = { s with syncs := (s.resetSyncs p).syncs } := by
  refine List.foldlRecOn _ _ (motive := fun t : State => t = { s with syncs := t.syncs }) rfl fun t h n _ => ?_
  exact Eq.trans (congrArg (fun y : State => y.setSync n { t.sync n with
    count := (t.sync n).init, gen := 0, arrivals := 0, sentUp := false, children := [], nextGen := [] }) h) rfl

theorem State.resetSyncs_atStart (s : State) (p : Nat) : ∀ n ∈ (s.part p).syncMap, ((s.resetSyncs p).sync n).AtStart := by
  unfold State.resetSyncs State.each
  generalize (s.part p).syncMap = l
  intro n hn
  induction l using List.reverseRecOn with
  | nil => exact absurd hn List.not_mem_nil
  | append_singleton l m ih =>
    rw [List.foldl_append]
    dsimp only [List.foldl]
    rw [State.setSync_sync_eq]
    split
    · exact ⟨rfl, rfl⟩
    · next h => exact ih (by simpa [h] using hn)

/-- A partition resumed: its cores at rest, its sync objects at their start, and no other partition, connection or engine touched. -/
def PartResumed (s t : State) (p : Nat) : Prop :=
  t.pstate p = 2 ∧ (∀ c ∈ s.coresOf p, (t.core c).outst = [] ∧ ∀ k, ((t.core c).ctxs.get k).live = false)
    ∧ (∀ n ∈ (s.part p).syncMap, (t.sync n).count = (t.sync n).init ∧ (t.sync n).gen = 0)
    ∧ (∀ q : Nat, q ≠ p → t.part q = s.part q) ∧ t.conns = s.conns ∧ t.engines = s.engines

theorem resumeAct_of_held (hst : s.pstate p = 4) (hs : s.isSealed p = false) : ∃ t, resumeAct p s = (t, stOk) ∧ PartResumed s t p := by
  unfold resumeAct
  rw [if_neg (by simp [hst, hs])]
  extract_lets i u v v' x w
  have hu : OnlyStored s u := .foldl _ fun t x _ => t.coreResumed_onlyStored i x.1 x.2
  have hrest : ∀ c ∈ s.coresOf p, (u.core c).AtRest := fun c hc => by
    obtain ⟨n, hn⟩ := mem_zipIdx_of_mem hc
    exact core_of_foldl (fun t x => t.coreResumed_atRest i x.1 x.2) (fun t x _ => t.coreResumed_keeps_atRest i x.1 x.2) _ s (c, n) hn
  clear_value u
  have hmap : (u.part p).syncMap = (s.part p).syncMap := congrArg (fun x : Tab partReset => (x.get p).syncMap) hu.parts
  have hsyncs : ∀ n ∈ (s.part p).syncMap, (v.sync n).AtStart := hmap ▸ u.resetSyncs_atStart p
  have hv : v.parts = s.parts ∧ v.conns = s.conns ∧ v.engines = s.engines ∧ v.cores = u.cores := by
    have hframe := u.resetSyncs_frame p
    exact ⟨(Eq.trans (congrArg State.parts hframe) rfl).trans hu.parts, (Eq.trans (congrArg State.conns hframe) rfl).trans hu.conns,
      (Eq.trans (congrArg State.engines hframe) rfl).trans hu.engines, Eq.trans (congrArg State.cores hframe) rfl⟩
  clear_value v
  obtain ⟨hparts, hconns, hengines, hcores⟩ := hv
  have hw : w.parts = v.parts ∧ w.conns = v.conns ∧ w.engines = v.engines ∧ w.cores = v.cores ∧ w.syncs = v.syncs := by
    unfold w x v'
    split <;> exact ⟨rfl, rfl, rfl, rfl, rfl⟩
  clear_value w
  obtain ⟨hparts', hconns', hengines', hcores', hsyncs'⟩ := hw
  refine ⟨_, rfl, State.setObj_obj_self .., fun c hc => ?_, fun n hn => ?_, fun q _ => ?_, hconns'.trans hconns, hengines'.trans hengines⟩
  · rw [State.setObj_core, State.core_congr hcores', State.core_congr hcores]
    exact hrest c hc
  · rw [show (w.setObj (0x3100 + p) 2 2).sync n = v.sync n from congrArg (fun x : Tab syncReset => x.get n) hsyncs']
    exact hsyncs n hn
  · exact congrArg (fun x : Tab partReset => x.get q) (hparts'.trans hparts)

end Sys2Proof.Machine

open Sys2Proof.Machine

/-- Settles O44: each write takes, and what it leaves is said above. -/
theorem partitionControlMovesStates : Obligations.PartitionControlMovesStates := by
  refine ⟨?define, ?free, ?dissolve, ?load, ?refuse, ?start, ?stop, ?abort, ?resume⟩
  case define =>
    refine fun p v => takes_of_act (fun _ _ => rfl) ?_
    rintro u ⟨hst, h0, h15, hfree⟩
    refine ⟨_, qmaskAct_of_free hst h0 h15 hfree, fun _ => ?_⟩
    have h := u.defined_partDefined (v := v.toNat) p.isLt
    generalize u.defined p v.toNat = t at h ⊢
    exact h
  case free =>
    refine fun p => takes_of_act (fun _ _ => rfl) fun u hst => ?_
    refine ⟨_, qmaskAct_of_zero hst, fun _ => ?_⟩
    have h := u.dissolvePart_dissolved p.isLt (some .handOver)
    generalize u.dissolvePart p (some .handOver) = t at h ⊢
    exact h
  case dissolve =>
    refine fun p => takes_of_act (fun _ _ => rfl) fun u hst => ⟨_, if_pos hst, fun _ => ?_⟩
    have h := u.dissolvePart_dissolved p.isLt (some .handOver)
    generalize u.dissolvePart p (some .handOver) = t at h ⊢
    exact h
  case load =>
    refine fun p => takes_of_act (fun _ _ => rfl) ?_
    rintro u ⟨hst, hok⟩
    refine ⟨_, loadAct_of_accepted hst hok, fun _ => ?_⟩
    have h := u.loadImage_imageLoaded p
    generalize u.loadImage p = t at h ⊢
    exact h
  case refuse =>
    refine fun p => takes_of_act (fun _ _ => rfl) ?_
    rintro u ⟨hst, h0, h7⟩
    exact ⟨_, loadAct_of_refused hst h0 h7, fun _ => ⟨State.setObj_sameObjs (by decide), State.setObj_obj_self .., rfl⟩⟩
  case start =>
    refine fun p => takes_of_act (fun _ _ => rfl) ?_
    rintro u ⟨hst, hj⟩
    refine ⟨_, startAct_of_alone hst hj, fun _ => ?_⟩
    have h := u.started_partStarted p
    generalize (((u.setPart p (u.startedPart p)).pllsStarted p).startedRegs p).settlePower = t at h ⊢
    exact h
  case stop =>
    refine fun p => takes_of_act (fun _ _ => rfl) fun u hst => ⟨_, stopAct_of_running hst, fun _ => ⟨?_, rfl⟩⟩
    exact congrArg Part.stopReq (State.setPart_part_self ..)
  case abort =>
    refine fun p => takes_of_act (fun _ _ => rfl) fun u hst => ⟨_, abortAct_of_running hst, fun _ => ?_⟩
    obtain ⟨hstate, hcause, hstep⟩ := u.enterHeld_obj p 0
    have hframe := u.enterHeld_onlyNotesParts p 0
    have hidle := u.enterHeld_inStep p 0
    have hsame := u.enterHeld_sameObjs p 0
    generalize u.enterHeld p 0 = t at *
    exact ⟨hstate, hcause, hstep, hidle, hframe.cores, hframe.mem, hframe.syncs, hsame⟩
  case resume =>
    refine fun p => takes_of_act (fun _ _ => rfl) ?_
    rintro u ⟨hst, hs⟩
    obtain ⟨t, ht, h⟩ := resumeAct_of_held hst hs
    exact ⟨t, ht, fun _ => h⟩

end

section
/-! Cores that fail and return (R202, R206–R211): what fencing a core leaves of it, and what a takeover core is armed with. -/

namespace Sys2Proof.Machine

variable {s t u : State} {core d p : Nat}

/-! ### Fencing (R206) -/

/-- From `s` to `t` this core has been fenced: FENCED, its commands gone, its clock stopped, and, with no Bore entry left whose
completion is still written, its vault zero and every other byte of a scratchpad as before. -/
structure CoreStopped (s t : State) (core : Nat) : Prop where
  state : t.cstate core = 1
  outst : (t.core core).outst = []
  clock : (t.core core).clock = false
  bytes : Quiet s → Quiet t ∧ ∀ x < 0x80000000,
    t.rawByte x = if winOf core + vaultOff ≤ x ∧ x < winOf core + scratchSize then 0 else s.rawByte x

theorem CoreStopped.trans (h : CoreStopped s t core) (hc : core < 16) (g : ControlStays t u) (hq : Quiet t → QuietStays t u) :
    CoreStopped s u core where
  state := (g.obj _ 1 (by omega) (by omega) (by decide)).trans h.state
  outst := by
    rw [g.core core]
    exact h.outst
  clock := by
    rw [g.core core]
    exact h.clock
  bytes hs := by
    obtain ⟨ht, hbytes⟩ := h.bytes hs
    have hu := hq ht
    exact ⟨hu.quiet, fun x hx => (hu.scratch x hx).trans (hbytes x hx)⟩

/-- The core's vault wiped, its state FENCED and its clock stopped. -/
def State.stopped (s : State) (core : Nat) : State :=
  let u := (s.wipeVault core .fenced).setObj (0x3010 + core) 1 1
  u.setCore core { u.core core with clock := false, gated := false, kept := [] }

theorem State.stopped_coreStopped (s : State) (hc : core < 16) : CoreStopped s (s.stopped core) core := by
  obtain ⟨hraw, hout, -⟩ := s.wipeVault_spec .fenced hc
  obtain ⟨-, hconns, -⟩ := s.wipeVault_rest .fenced hc
  unfold State.stopped
  generalize s.wipeVault core .fenced = w at *
  dsimp only
  rw [State.setObj_core]
  refine ⟨State.setObj_obj_self .., ?_, ?_, fun hs => ⟨fun c => ?_, fun x _ => ?_⟩⟩
  · rw [State.setCore_core_self]
    exact hout
  · rw [State.setCore_core_self]
  · rw [State.conn, State.setCore_conns, State.setObj_conns, hconns]
    exact hs c
  · refine (State.rawByte_congr (s := w) (State.setCore_mem ..) (fun c => ?_) x).trans (hraw x)
    rw [State.setCore_core_eq]
    split
    · next h => rw [h]
    · rfl

theorem CoreStopped.of_quiet (h : CoreStopped t u core) (hq : Quiet s → QuietStays s t) : CoreStopped s u core :=
  { h with
    bytes := fun hs =>
      have ⟨hu, hbytes⟩ := h.bytes (hq hs).quiet
      ⟨hu, fun x hx => by rw [hbytes x hx, (hq hs).scratch x hx]⟩ }

/-- What the core posted withdrawn, its collectives dropped, and the lead informed. -/
def State.cleanedUp (s : State) (core code : Nat) : State :=
  let u := s.withdraw core
  (State.tellLead { u with colls := u.colls.filter fun x => x.core != core || x.done } code core).settlePower

theorem State.cleanedUp_controlStays (s : State) (core code : Nat) : ControlStays s (s.cleanedUp core code) := by
  have hw := s.withdraw_controlStays core
  unfold State.cleanedUp
  generalize s.withdraw core = u at *
  have htold : ControlStays u (State.tellLead { u with colls := u.colls.filter fun x => x.core != core || x.done } code core) :=
    .of_same rfl rfl
  exact (hw.trans htold).trans (State.settlePower_controlStays _)

theorem Quiet.cleanedUp (h : Quiet s) (core code : Nat) : QuietStays s (s.cleanedUp core code) := by
  have htold : QuietStays s (State.tellLead { s with colls := s.colls.filter fun x => x.core != core || x.done } code core) :=
    .of_same h rfl rfl rfl
  unfold State.cleanedUp
  rw [h.withdraw]
  exact htold.trans htold.quiet.settlePower

/-- A core fenced and cleaned up after, before its work goes to another (R206). -/
def State.fenced (s : State) (core ctx slot index : Nat) (cause : HwFault) (info : Nat) : State :=
  ((s.faultNoted core ctx slot index (hwCode cause) info).stopped core).cleanedUp core (hwCode cause)

theorem State.fenced_coreStopped (s : State) (hc : core < 16) (ctx slot index : Nat) (cause : HwFault) (info : Nat) :
    CoreStopped s (s.fenced core ctx slot index cause info) core := by
  have hnoted : Quiet s → QuietStays s (s.faultNoted core ctx slot index (hwCode cause) info) := fun hs =>
    have hset : QuietStays s (s.setObj (0x3010 + core) 4 (hwCode cause)) := hs.of_onlyCounts rfl
    hset.trans (hset.quiet.logEvent ..)
  exact ((State.stopped_coreStopped _ hc).trans hc (State.cleanedUp_controlStays ..) fun hq => hq.cleanedUp ..).of_quiet hnoted

/-- The work of a fenced core goes to a takeover core, or is lost and its partition HELD; `refused` says why it is (R207). -/
def State.workHandedOn (s : State) (core ctx index refused : Nat) : State :=
  match s.partOf core with
  | none => s
  | some p =>
    if refused ≠ 0 then s.programFault core ctx 0 index fCoreLost (core + refused * 256)
    else match s.takeover p core with
      | none => s
      | some d => (s.setCore d { s.core d with carries := some core }).setObj (0x3010 + core) 3 d

theorem State.fenceCore_eq (s : State) (core ctx slot index : Nat) (cause : HwFault) (info : Nat) :
    ∃ refused, s.fenceCore core ctx slot index cause info
      = (s.fenced core ctx slot index cause info).workHandedOn core ctx index refused := by
  unfold State.fenceCore
  extract_lets code s1 refused s2 x s3 s4 s5 s6
  have h6 : s6 = s.fenced core ctx slot index cause info := rfl
  rw [← h6]
  clear_value s6 refused
  exact ⟨refused, rfl⟩

/-- A core takes over another's work, never its own (R207). -/
theorem State.takeover_ne (h : s.takeover p core = some d) : d ≠ core := by
  have hfree : d ∈ (s.coresOf p).filter fun d => d != core && s.cstate d == 0 && (s.core d).carries.isNone := by
    unfold State.takeover at h
    dsimp only at h
    split at h
    · next hf =>
      cases h
      exact List.mem_of_find?_eq_some hf
    · exact List.mem_of_head? h
  have hp := (List.mem_filter.1 hfree).2
  simp only [Bool.and_eq_true, bne_iff_ne] at hp
  exact hp.1.1

theorem OnlyNotesParts.quietStays (h : OnlyNotesParts s t) (hs : Quiet s) : QuietStays s t :=
  .of_same hs h.cores h.mem (Eq.trans (congrArg State.conns h) rfl)

theorem CoreStopped.workHandedOn (h : CoreStopped s t core) (hc : core < 16) (ctx index refused : Nat) :
    CoreStopped s (t.workHandedOn core ctx index refused) core := by
  unfold State.workHandedOn
  split
  · exact h
  · next p hp =>
    split
    · obtain ⟨hframe, -, -, hregs, -⟩ :=
        State.programFault_spec (ctx := ctx) (slot := 0) (index := index) (info := core + refused * 256) hp
          (show fCoreLost ≠ fAddress by decide)
      generalize t.programFault core ctx 0 index fCoreLost (core + refused * 256) = u at *
      exact {
        state := (hregs _ 1 (by decide) (by simp [heldRegs]; omega)).trans h.state
        outst := (congrArg Core.outst (State.core_congr hframe.cores core)).trans h.outst
        clock := (congrArg Core.clock (State.core_congr hframe.cores core)).trans h.clock
        bytes := fun hs =>
          have ⟨ht, hbytes⟩ := h.bytes hs
          have hu := hframe.quietStays ht
          ⟨hu.quiet, fun x hx => (hu.scratch x hx).trans (hbytes x hx)⟩ }
    · split
      · exact h
      · next d hd =>
        have hne := State.takeover_ne hd
        have hself : ((t.setCore d { t.core d with carries := some core }).setObj (0x3010 + core) 3 d).core core = t.core core :=
          (State.setObj_core ..).trans (State.setCore_core_ne _ _ _ _ hne.symm)
        refine ⟨?_, by rw [hself]; exact h.outst, by rw [hself]; exact h.clock, fun hs => ⟨(h.bytes hs).1, fun x hx => ?_⟩⟩
        · exact (State.setObj_obj_ne _ _ _ _ _ _ (by decide) (by decide) (by simp)).trans h.state
        · refine (State.rawByte_congr (s := t) (State.setCore_mem ..) (fun c => ?_) x).trans ((h.bytes hs).2 x hx)
          rw [State.setCore_core_eq]
          split
          · next hcd => rw [hcd]
          · rfl

theorem State.fenceCore_coreStopped (s : State) (hc : core < 16) (ctx slot index : Nat) (cause : HwFault) (info : Nat) :
    CoreStopped s (s.fenceCore core ctx slot index cause info) core := by
  obtain ⟨refused, ht⟩ := s.fenceCore_eq core ctx slot index cause info
  rw [ht]
  exact (s.fenced_coreStopped hc ctx slot index cause info).workHandedOn hc ctx index refused

theorem CoreStopped.vault_zero (h : CoreStopped s t core) (hc : core < 16) (hs : Quiet s) {o : Nat} (hlo : vaultOff ≤ o)
    (hhi : o < scratchSize) : t.rawByte (winOf core + o) = 0 := by
  obtain ⟨-, hbytes⟩ := h.bytes hs
  have hlt : winOf core + o < 0x80000000 := by
    simp only [winOf, scratchSize] at hhi ⊢
    omega
  rw [hbytes _ hlt, if_pos ⟨by omega, by omega⟩]

theorem CoreStopped.below_vault (h : CoreStopped s t core) (hc : core < 16) (hs : Quiet s) {o : Nat} (ho : o < vaultOff) :
    t.rawByte (winOf core + o) = s.rawByte (winOf core + o) := by
  obtain ⟨-, hbytes⟩ := h.bytes hs
  have hlt : winOf core + o < 0x80000000 := by
    simp only [winOf, vaultOff] at ho ⊢
    omega
  rw [hbytes _ hlt, if_neg fun hin => by omega]

theorem State.hungCore_of_busy {ctx : Nat} (hst : s.cstate core = 0) (hb : s.ctxBusy core ctx = true) :
    ∃ o : Outst, s.hungCore core ctx
      = { s with freeCtr := s.freeCtr + 1 }.fenceCore core ctx 0 o.index .hung (Config.openValue s.freeCtr) := by
  unfold State.hungCore
  cases ho : (s.core core).outst.find? (·.ctx == ctx) with
  | some o => exact ⟨o, if_pos hst⟩
  | none =>
    obtain ⟨o, hmem, hctx⟩ := List.any_eq_true.1 hb
    exact absurd hctx (List.find?_eq_none.1 ho o hmem)

/-! ### Re-runs (R208, R209) -/

/-- A takeover core armed: contexts 4 to 7 at the failed core's starts, with its records to skip, and its slots behind them. -/
def Core.armed (c x : Core) (live : Bool) : Core :=
  Core.restart { c with
    slots := c.slots.fill 256 256 x.shadow.get, ctxs := rerunContexts x live c.ctxs, rerunLeft := rerunRecords x }

theorem Core.armed_ctxs (c x : Core) (live : Bool) : (c.armed x live).ctxs = rerunContexts x live c.ctxs := by
  unfold Core.armed Core.restart
  split <;> rfl

theorem rerunContexts_eq (x : Core) (live : Bool) (t : Tab qctxReset) :
    let q := fun k => { (x.ctxs.get k).restart live with skip := (x.ctxs.get k).effects }
    rerunContexts x live t = (((t.set 4 (q 0)).set 5 (q 1)).set 6 (q 2)).set 7 (q 3) := rfl

theorem rerunContexts_get_armed (x : Core) (live : Bool) (t : Tab qctxReset) {k : Nat} (hk : k < 4) :
    (rerunContexts x live t).get (4 + k) = { (x.ctxs.get k).restart live with skip := (x.ctxs.get k).effects } := by
  rw [rerunContexts_eq]
  obtain rfl | rfl | rfl | rfl : k = 0 ∨ k = 1 ∨ k = 2 ∨ k = 3 := by omega
  all_goals simp [Tab.get_set]

theorem rerunContexts_get_own (x : Core) (live : Bool) (t : Tab qctxReset) {k : Nat} (hk : k < 4) :
    (rerunContexts x live t).get k = t.get k := by
  rw [rerunContexts_eq]
  simp only [Tab.get_set, if_neg (show k ≠ 4 by omega), if_neg (show k ≠ 5 by omega), if_neg (show k ≠ 6 by omega),
    if_neg (show k ≠ 7 by omega)]

/-- The redirect installed and the failed core's queues copied, before the takeover core is armed. -/
def State.redirected (s : State) (core f p : Nat) : State :=
  let u := { s with redirects := ⟨f, core, (s.core f).wrLo, (s.core f).wrHi, (s.part p).rrOff⟩ :: s.redirects }
  let i := u.imageOf (u.part p).imageAt
  u.copyQueues i f (u.coreSec i (s.core f).logical)

/-- The takeover core written, and the re-run counted. -/
def State.rearmed (s : State) (core p : Nat) (x : Core) : State := ((s.setCore core x).count (0x3100 + p) 0x0C 32 1).settlePower

theorem State.rearmed_spec (s : State) (core p : Nat) (x : Core) :
    ((s.rearmed core p x).redirects = s.redirects ∧ (s.rearmed core p x).syncs = s.syncs) ∧ (s.rearmed core p x).core core = x
      ∧ (s.rearmed core p x).obj (0x3100 + p) 0x0C = counterAt 32 (s.obj (0x3100 + p) 0x0C + 1) := by
  have hframe := State.settlePower_noting ((s.setCore core x).count (0x3100 + p) 0x0C 32 1)
  refine ⟨⟨Eq.trans (congrArg State.redirects hframe) rfl, Eq.trans (congrArg State.syncs hframe) rfl⟩, ?_, ?_⟩
  · exact (State.core_congr (Eq.trans (congrArg State.cores hframe) rfl) core).trans (State.setCore_core_self s core x)
  · exact (State.settlePower_obj _ (by omega) (by decide)).trans (State.count_obj_self ..)

theorem State.rerunStart_eq {f : Nat} (hf : (s.core core).carries = some f) (hp : s.partOf core = some p) (hst : s.cstate core = 0)
    (hr : s.redirects.any (fun r => r.failed == f) = false) :
    s.rerunStart core = (s.redirected core f p).rearmed core p
      (((s.redirected core f p).core core).armed (s.core f) ((s.redirected core f p).part p).inStep) := by
  unfold State.rerunStart
  rw [hf, hp]
  exact if_neg (by rw [hr, hst]; simp)

/-- The redirect of a failed core's working range to a takeover core's reserve (R208). -/
def State.withRedirect (s : State) (core f p : Nat) : State :=
  { s with redirects := ⟨f, core, (s.core f).wrLo, (s.core f).wrHi, (s.part p).rrOff⟩ :: s.redirects }

theorem State.redirected_eq (s : State) (core f p : Nat) : ∃ i x, s.redirected core f p = (s.withRedirect core f p).copyQueues i f x :=
  ⟨_, _, rfl⟩

/-- The redirect is installed; no sync object, partition or register of one has changed, and no core beside what a store touches. -/
theorem State.redirected_spec (s : State) (core f p : Nat) :
    (s.redirected core f p).redirects = ⟨f, core, (s.core f).wrLo, (s.core f).wrHi, (s.part p).rrOff⟩ :: s.redirects
      ∧ (s.redirected core f p).syncs = s.syncs ∧ (s.redirected core f p).parts = s.parts
      ∧ CoresStored s (s.redirected core f p) ∧ ControlStays s (s.redirected core f p) := by
  obtain ⟨i, x, ht⟩ := s.redirected_eq core f p
  have hstored := (s.withRedirect core f p).copyQueues_onlyStored i f x
  have hcores : CoresStored s (s.withRedirect core f p) := .of_core fun _ => rfl
  have hstay : ControlStays s (s.withRedirect core f p) := .of_same rfl rfl
  rw [ht]
  exact ⟨hstored.redirects, hstored.syncs, hstored.parts, hcores.trans (State.copyQueues_coresStored _ i f x),
    hstay.trans (State.copyQueues_controlStays ..)⟩

theorem State.partOf_lt (h : s.partOf core = some p) : p < 4 := by
  unfold State.partOf at h
  dsimp only at h
  split at h
  · cases h
    assumption
  · cases h

/-! ### RETURN (R211) -/

/-- A core marked to rejoin. -/
def State.markedForReturn (s : State) (core : Nat) : State := (s.setObj (0x3010 + core) 1 2).setObj (0x3010 + core) 9 1

theorem returnAct_of_fenced (h : s.cstate core = 1) : returnAct core 1 s = (s.markedForReturn core, stOk) := if_neg (not_not.2 h)

theorem State.markedForReturn_spec (s : State) (core : Nat) :
    (s.markedForReturn core).cstate core = 2 ∧ (s.markedForReturn core).obj (0x3010 + core) 9 = 1
      ∧ SameObjs s (s.markedForReturn core) [(0x3010 + core, 1), (0x3010 + core, 9)] ∧ OnlyRegs s (s.markedForReturn core) := by
  have h1 : SameObjs s (s.setObj (0x3010 + core) 1 2) [(0x3010 + core, 1)] := State.setObj_sameObjs (by decide)
  refine ⟨?_, State.setObj_obj_self .., h1.append (State.setObj_sameObjs (by decide)), rfl⟩
  exact (State.setObj_obj_ne _ _ _ _ _ _ (by decide) (by decide) (by simp)).trans (State.setObj_obj_self ..)

end Sys2Proof.Machine

open Sys2Proof.Machine

/-- Settles O46: a fenced core is stopped, a takeover core armed, and a returning core marked. -/
theorem coresFailAndReturn : Obligations.CoresFailAndReturn := by
  refine ⟨?fence, ?hung, ?rerun, ?back⟩
  case fence =>
    intro core ctx cause info s hst
    have h := s.fenceCore_coreStopped core.isLt ctx 0 ((s.core core).ctxs.get ctx).ptr cause info.toNat
    exact ⟨_, congrArg Host.Outcome.next (if_pos hst), h.state, h.outst, h.clock,
      fun hs => ⟨fun o hlo hhi => h.vault_zero core.isLt hs hlo hhi, fun o ho => h.below_vault core.isLt hs ho⟩⟩
  case hung =>
    intro core ctx s hst hb
    obtain ⟨o, ht⟩ := State.hungCore_of_busy hst hb
    have hcounted : Quiet s → QuietStays s { s with freeCtr := s.freeCtr + 1 } := fun hs => .of_same hs rfl rfl rfl
    have h := (State.fenceCore_coreStopped { s with freeCtr := s.freeCtr + 1 } core.isLt ctx 0 o.index .hung
      (Sys2Proof.Config.openValue s.freeCtr)).of_quiet hcounted
    exact ⟨_, congrArg Host.Outcome.next ht, h.state, h.outst, h.clock, fun hs o hlo hhi => h.vault_zero core.isLt hs hlo hhi⟩
  case rerun =>
    intro core f p s hf hp hst hr
    have ht := State.rerunStart_eq hf hp hst hr
    obtain ⟨hredir, hsyncs, hparts, hcores, hstay⟩ := s.redirected_spec core f p
    have hlt := State.partOf_lt hp
    generalize s.redirected core f p = u at *
    have hpart : u.part p = s.part p := congrArg (fun x : Tab partReset => x.get p) hparts
    have hown : (u.core core).ctxs = (s.core core).ctxs :=
      Eq.trans (congrArg Core.ctxs (hcores core)) rfl
    have hobj : u.obj (0x3100 + p) 0x0C = s.obj (0x3100 + p) 0x0C := hstay.obj _ _ (by omega) (by omega) (by decide)
    obtain ⟨hframe, hself, hcount⟩ := u.rearmed_spec core p ((u.core core).armed (s.core f) (u.part p).inStep)
    generalize u.rearmed core p ((u.core core).armed (s.core f) (u.part p).inStep) = t at *
    have hctxs : (t.core core).ctxs = rerunContexts (s.core f) (s.part p).inStep (s.core core).ctxs := by
      rw [hself, Core.armed_ctxs, hpart, hown]
    refine ⟨t, congrArg Host.Outcome.next ht, hframe.1.trans hredir, fun k hk => ?_, hcount.trans (by rw [hobj]), fun k hk => ?_,
      hframe.2.trans hsyncs⟩
    · rw [hctxs, rerunContexts_get_armed _ _ _ hk]
      exact ⟨rfl, rfl, rfl⟩
    · rw [hctxs, rerunContexts_get_own _ _ _ hk]
  case back =>
    refine fun core => takes_of_act (fun _ _ => rfl) fun u hst => ⟨_, returnAct_of_fenced hst, fun o => ?_⟩
    obtain ⟨hstate, hmark, hsame, hregs⟩ := u.markedForReturn_spec core
    generalize u.markedForReturn core = t at *
    exact ⟨hstate, hmark, hsame, congrArg (fun x : State => { x with out := (t.emit o).out }) hregs⟩

end

section
/-! Microcode (R201, R220, R222): what one instruction leaves, and what the refusal of one leaves. -/

namespace Sys2Proof.Machine

variable {s t u : State} {p q opc : Nat} {o : UpdOps}

/-! ### An update phase that faults (R243, R425) -/

/-- A refusal is logged at the engine, and ends the phase. -/
def State.updateFaulted (s : State) (p q gid block : Nat) : State :=
  let u := s.logEvent (0x50 + q) 0x0501 (gid + block % 2 ^ 32 * 2 ^ 16 + 1 * 2 ^ 48)
  u.setPart p { u.part p with upd := .faulted }

theorem State.updateFault_refusal (s : State) (p q gid block : Nat) :
    s.updateFault p q gid block 1 = ((s.updateFaulted p q gid block).hold p fParameter).reportFailure .updateParameter := rfl

theorem State.updateFault_onlyNotesParts (s : State) (p q gid block : Nat) : OnlyNotesParts s (s.updateFault p q gid block 1) := by
  have hlogged : OnlyNotesParts s (s.updateFaulted p q gid block) :=
    (OnlyNotesParts.of_noting (State.logEvent_noting ..)).trans (State.setPart_onlyNotesParts ..)
  rw [State.updateFault_refusal]
  exact (hlogged.trans (State.hold_onlyNotesParts ..)).trans (State.emit_onlyNotesParts ..)

theorem State.hold_pstate (s : State) (p cause : Nat) : (s.hold p cause).pstate p = 4 := (s.enterHeld_obj p cause).1

theorem State.reportFailure_pstate (s : State) (cause : FailCause) (p : Nat) : (s.reportFailure cause).pstate p = s.pstate p := rfl

/-- The PARAMETER refusal holds the partition. -/
theorem State.updateFault_pstate (s : State) (p q gid block : Nat) : (s.updateFault p q gid block 1).pstate p = 4 := by
  rw [State.updateFault_refusal, State.reportFailure_pstate, State.hold_pstate]

theorem OnlyNotesParts.engines (h : OnlyNotesParts s u) : u.engines = s.engines := Eq.trans (congrArg State.engines h) rfl

/-! ### Instructions (R222) -/

/-- A register of an engine written. -/
def State.engineWrote (s : State) (q d : Nat) (v : Word) : State :=
  { s with engines := s.engines.set q { s.engines.get q with regs := (s.engines.get q).regs.set d v } }

theorem State.updInstr_of_dest {v : Word} (h1 : 1 ≤ o.d.toNat) (h2 : o.d.toNat ≤ 15)
    (hv : updOp opc (s.updReg q o.a.toNat) (s.updReg q o.b.toNat) (s.updReg q o.c.toNat) = some v) :
    s.updInstr q opc o = s.engineWrote q o.d.toNat v := by
  unfold State.updInstr
  dsimp only
  rw [if_neg (by omega), hv]
  rfl

theorem State.updInstr_of_refused (hd : o.d.toNat = 0 ∨ 16 ≤ o.d.toNat) (hrun : (s.part (s.engines.get q).part).upd = .running) :
    s.updInstr q opc o = s.updateFault (s.engines.get q).part q 0 0 1 := (if_pos hd).trans (if_pos hrun)

theorem State.engineWrote_spec (s : State) (q d : Nat) (v : Word) :
    ((s.engineWrote q d v).engines.get q).regs.get d = v
      ∧ (∀ r, r ≠ d → ((s.engineWrote q d v).engines.get q).regs.get r = (s.engines.get q).regs.get r)
      ∧ ∀ e, e ≠ q → (s.engineWrote q d v).engines.get e = s.engines.get e := by
  unfold State.engineWrote
  dsimp only
  rw [Tab.get_set_self]
  exact ⟨Tab.get_set_self .., fun r hr => Tab.get_set_of_ne _ _ hr, fun e he => Tab.get_set_of_ne _ _ he⟩

/-- What an instruction computes from its three sources, on every engine. -/
def MicroOp (i : QuadId → UpdOps → Instr) (f : Word → Word → Word → Word) : Prop :=
  ∃ opc, (∀ q o s, exec (i q o) s = .next (s.updInstr q opc o)) ∧ ∀ a b c, updOp opc a b c = some (f a b c)

theorem updOp_lt (a b : Word) :
    (if !isNan32 a && !isNan32 b && decide (fcmp a b < 0) then one32 else 0)
      = if isNan32 a = false ∧ isNan32 b = false ∧ fcmp a b < 0 then 0x3F800000 else 0 := by
  simp only [one32, Bool.and_eq_true, Bool.not_eq_true', decide_eq_true_eq, and_assoc]

/-- The sign does not count where SEL asks for zero. -/
theorem Word.magnitude_eq_zero_iff (c : Word) : c &&& 0x7FFFFFFF = 0 ↔ c.toNat % 2 ^ 31 = 0 := by
  rw [← BitVec.toNat_inj, BitVec.toNat_and]
  exact Eq.congr_left (Nat.and_two_pow_sub_one_eq_mod c.toNat 31)

theorem updOp_sel (a b c : Word) :
    canon32 (if c &&& 0x7FFFFFFF = 0 then b else a) = canon32 (if c.toNat % 2 ^ 31 = 0 then b else a) :=
  congrArg canon32 (if_congr (Word.magnitude_eq_zero_iff c) rfl rfl)

end Sys2Proof.Machine

open Sys2Proof.Machine

/-- Settles O41: every instruction writes the result of its operation to a register that it may name, and is refused at any other. -/
theorem microcodeWritesRegister : Obligations.MicrocodeWritesRegister := by
  intro x hx
  have hop : MicroOp x.1 x.2 := by
    revert x
    simp only [List.forall_mem_cons, List.not_mem_nil, false_implies, implies_true, and_true]
    exact ⟨⟨0x01, fun _ _ _ => rfl, fun _ _ _ => rfl⟩, ⟨0x02, fun _ _ _ => rfl, fun _ _ _ => rfl⟩,
      ⟨0x03, fun _ _ _ => rfl, fun _ _ _ => rfl⟩, ⟨0x04, fun _ _ _ => rfl, fun _ _ _ => rfl⟩,
      ⟨0x05, fun _ _ _ => rfl, fun _ _ _ => rfl⟩, ⟨0x06, fun _ _ _ => rfl, fun _ _ _ => rfl⟩,
      ⟨0x07, fun _ _ _ => rfl, fun _ _ _ => rfl⟩, ⟨0x08, fun _ _ _ => rfl, fun _ _ _ => rfl⟩,
      ⟨0x09, fun _ _ _ => rfl, fun _ _ _ => rfl⟩, ⟨0x0A, fun _ _ _ => rfl, fun _ _ _ => rfl⟩,
      ⟨0x0B, fun _ _ _ => rfl, fun a b _ => congrArg some (updOp_lt a b)⟩,
      ⟨0x0C, fun _ _ _ => rfl, fun a b c => congrArg some (updOp_sel a b c)⟩,
      ⟨0x0D, fun _ _ _ => rfl, fun _ _ _ => rfl⟩⟩
  intro q o s
  obtain ⟨opc, hexec, hres⟩ := hop
  refine ⟨fun h1 h2 => ?written, fun hd hrun => ?refused⟩
  case written =>
    obtain ⟨hself, hregs, hother⟩ := s.engineWrote_spec q o.d.toNat
      (x.2 (s.updReg q o.a.toNat) (s.updReg q o.b.toNat) (s.updReg q o.c.toNat))
    exact ⟨_, (hexec q o s).trans (congrArg _ (State.updInstr_of_dest h1 h2 (hres ..))), hself, hregs, hother, rfl⟩
  case refused =>
    exact ⟨_, (hexec q o s).trans (congrArg _ (State.updInstr_of_refused hd hrun)),
      (s.updateFault_onlyNotesParts _ _ 0 0).engines, s.updateFault_pstate _ _ 0 0⟩

end

section
/-! Bytes stored in bulk memory (R139, R160): they read as written, and beside memory only counts and error marks change. -/

namespace Sys2Proof.Machine

variable {s t u : State} {a : Nat} {bs : List Byte}

/-- Only memory, its error marks, registers, the model's counter of free values and the outputs have changed. -/
def OnlyBulk (s u : State) : Prop :=
  u = { s with objs := u.objs, mem := u.mem, sramBad := u.sramBad, bulkBad := u.bulkBad, freeCtr := u.freeCtr, out := u.out }

theorem OnlyBulk.cores (h : OnlyBulk s u) : u.cores = s.cores := Eq.trans (congrArg State.cores h) rfl
theorem OnlyBulk.parts (h : OnlyBulk s u) : u.parts = s.parts := Eq.trans (congrArg State.parts h) rfl
theorem OnlyBulk.job (h : OnlyBulk s u) : u.job = s.job := Eq.trans (congrArg State.job h) rfl

theorem not_scratch_of_bulk (ha : bulkBase ≤ a) : ¬ a < 0x80000000 := by
  simp only [bulkBase] at ha
  omega

theorem State.putBytes_bulk (ha : bulkBase ≤ a) (hbs : bs ≠ []) :
    s.putBytes a bs = { s.countBulk 2 a bs.length with
      mem := s.mem.fill a bs.length fun i => bs.getD i 0
      bulkBad := clearBad s.bulkBad 64 a bs.length } := by
  have hlow := not_scratch_of_bulk ha
  unfold State.putBytes
  dsimp only
  rw [if_neg (by simpa using hbs), if_neg hlow, if_neg hlow, if_neg hlow, State.countBulk_frame]

theorem State.putBytes_nil (s : State) (a : Nat) : s.putBytes a [] = s := rfl

theorem State.putBytes_onlyBulk (s : State) (bs : List Byte) (ha : bulkBase ≤ a) : OnlyBulk s (s.putBytes a bs) := by
  by_cases hbs : bs = []
  · rw [hbs, State.putBytes_nil]
    rfl
  · rw [State.putBytes_bulk ha hbs, State.countBulk_frame]
    rfl

/-- Memory need not be canonical here: nothing of bulk memory stands in a holding buffer (R127). -/
theorem State.putBytes_rawWritten (s : State) (bs : List Byte) (ha : bulkBase ≤ a) : RawWritten s (s.putBytes a bs) a bs := by
  intro x
  by_cases hbs : bs = []
  · rw [hbs, State.putBytes_nil, if_neg (by simp)]
  · have hfill := State.rawByte_filled s a bs.length (fun i => bs.getD i 0) (s.putBytes a bs).sramBad (s.putBytes a bs).bulkBad
      (fun y h1 _ h2 => absurd h2 (Nat.not_lt.2 (le_trans (Nat.not_lt.1 (not_scratch_of_bulk ha)) h1))) x
    have hmem : (s.putBytes a bs).mem = s.mem.fill a bs.length fun i => bs.getD i 0 := by rw [State.putBytes_bulk ha hbs]
    refine (State.rawByte_congr ?_ ?_ x).trans hfill
    · exact hmem
    · exact fun d => congrArg Core.held (State.core_congr (s.putBytes_onlyBulk bs ha).cores d)

end Sys2Proof.Machine

end

section
/-! The update phase (R218, R219, R229, R238): what its start and its end leave. -/

namespace Sys2Proof.Machine

variable {s t u : State} {p : Nat} {l : List UpdEntry}

/-! ### The start (R218) -/

/-- The list of a due phase can be read whole (R155, R218). -/
structure ListReadable (s : State) (p : Nat) : Prop where
  due   : s.updateDue p = true
  job   : s.jobPart p = true
  some  : 0 < s.obj 0x3500 0x0B
  boot  : s.inBoot p (s.obj 0x3500 0x0A) (64 * s.obj 0x3500 0x0B) = true
  ready : s.bulkReady (s.obj 0x3500 0x0A - bulkBase) (64 * s.obj 0x3500 0x0B) = true
  sound : s.bulkError (s.obj 0x3500 0x0A) (64 * s.obj 0x3500 0x0B) = false

/-- From `s` to `t` partition `p` has begun to update a list: nothing is done yet; no other partition, no core and no byte has
changed. -/
structure PhaseBegun (s t : State) (p : Nat) (l : List UpdEntry) : Prop where
  upd       : (t.part p).upd = .running
  updList   : (t.part p).updList = l
  updDone   : (t.part p).updDone = .empty
  peerTiles : (t.part p).peerTiles = .empty
  other     : ∀ q, q ≠ p → t.part q = s.part q
  mem       : t.mem = s.mem
  cores     : t.cores = s.cores

theorem PhaseBegun.of_same (h : PhaseBegun s t p l) (hp : u.parts = t.parts) (hm : u.mem = t.mem) (hc : u.cores = t.cores) :
    PhaseBegun s u p l := by
  have hpart : ∀ q, u.part q = t.part q := fun q => congrArg (fun x : Tab partReset => x.get q) hp
  obtain ⟨h1, h2, h3, h4, h5, h6, h7⟩ := h
  refine ⟨?_, ?_, ?_, ?_, fun q hq => (hpart q).trans (h5 q hq), hm.trans h6, hc.trans h7⟩
  all_goals rw [hpart]; assumption

/-- The regions that the phase writes are noted beside the list (R146). -/
theorem PhaseBegun.noted (h : PhaseBegun s t p l) (regions : List Nat) :
    PhaseBegun s (t.setPart p { t.part p with updated := regions }) p l := by
  obtain ⟨h1, h2, h3, h4, h5, h6, h7⟩ := h
  refine ⟨?_, ?_, ?_, ?_, fun q hq => (State.setPart_part_ne _ _ _ _ hq).trans (h5 q hq), h6, h7⟩
  all_goals rw [State.setPart_part_self]; assumption

theorem PhaseBegun.begin (s : State) (p : Nat) (l : List UpdEntry) :
    PhaseBegun s (s.setPart p { s.part p with upd := .running, updList := l, updDone := .empty, peerTiles := .empty }) p l := by
  refine ⟨?_, ?_, ?_, ?_, fun q hq => State.setPart_part_ne _ _ _ _ hq, rfl, rfl⟩
  all_goals rw [State.setPart_part_self]

/-- A checkpoint that is due: its slot and the job's record of it (R238). -/
theorem State.startCapture_frame (s : State) (p : Nat) :
    s.startCapture p = { s with objs := (s.startCapture p).objs, job := (s.startCapture p).job } := by
  unfold State.startCapture
  dsimp only
  split_ifs <;> rfl

theorem PhaseBegun.startCapture (h : PhaseBegun s t p l) : PhaseBegun s (t.startCapture p) p l :=
  have hframe := t.startCapture_frame p
  h.of_same (Eq.trans (congrArg State.parts hframe) rfl) (Eq.trans (congrArg State.mem hframe) rfl)
    (Eq.trans (congrArg State.cores hframe) rfl)

/-- The list is checked before anything is written: an entry that does not pass faults the phase, or the phase begins. -/
theorem ListReadable.updateStart_cases (h : ListReadable s p) :
    (∃ w ∈ s.updWords p, s.updEntryOk p w = false
        ∧ s.updateStart p = s.updateFault p (s.engineOf (updEntryOf w)) (fieldAt w 256 16) (fieldAt w 288 32) 1)
      ∨ (∀ w ∈ s.updWords p, s.updEntryOk p w = true) ∧ PhaseBegun s (s.updateStart p) p ((s.updWords p).map updEntryOf) := by
  obtain ⟨hdue, hjob, hsome, hboot, hready, hsound⟩ := h
  unfold State.updateStart
  simp only [hdue, hjob, hboot, hready, hsound, Nat.ne_of_gt hsome, Bool.not_true, Bool.false_eq_true, if_false, if_true, Bool.or_false]
  cases hfind : (s.updWords p).find? fun w => !s.updEntryOk p w with
  | some w =>
    have hbad := List.find?_some hfind
    exact .inl ⟨w, List.mem_of_find?_eq_some hfind, by simpa using hbad, rfl⟩
  | none =>
    refine .inr ⟨fun w hw => by simpa using List.find?_eq_none.1 hfind w hw, PhaseBegun.startCapture ?_⟩
    refine List.foldlRecOn _ _ (motive := fun t => PhaseBegun s t p _) (.begin ..) fun t ht e _ => ?_
    split
    · split
      · exact ht.noted _
      · exact ht
    · exact ht

/-! ### The end (R229, R237, R239) -/

theorem State.digestPass_frame (s : State) (p : Nat) : s.digestPass p = { s with out := (s.digestPass p).out } := by
  unfold State.digestPass
  dsimp only
  split_ifs <;> rfl

theorem State.bulkBase_le_homeAddr (s : State) (k : Bool) : bulkBase ≤ s.homeAddr k := Nat.le_add_right ..

/-- A capture that ends writes the header of its slot, and nothing of a partition or a core. -/
theorem State.endCapture_lists (s : State) (p : Nat) : (s.endCapture p).parts = s.parts ∧ (s.endCapture p).cores = s.cores := by
  unfold State.endCapture
  split
  · exact ⟨rfl, rfl⟩
  · next k _ =>
    split
    · exact ⟨rfl, rfl⟩
    · extract_lets l d _ x u v
      have hu : u.parts = s.parts ∧ u.cores = s.cores := ⟨rfl, rfl⟩
      have hv : v.parts = u.parts ∧ v.cores = u.cores := by
        unfold v
        split
        · have hput := u.putBytes_onlyBulk (slotHeader x) (u.bulkBase_le_homeAddr k)
          exact ⟨hput.parts, hput.cores⟩
        · exact ⟨rfl, rfl⟩
      exact ⟨hv.1.trans hu.1, hv.2.trans hu.2⟩

/-- The digests sent and the capture ended. -/
def State.updateEnded (s : State) (p : Nat) : State := (s.digestPass p).endCapture p

theorem State.updateEnded_lists (s : State) (p : Nat) : (s.updateEnded p).parts = s.parts ∧ (s.updateEnded p).cores = s.cores := by
  have hpass := s.digestPass_frame p
  obtain ⟨hparts, hcores⟩ := (s.digestPass p).endCapture_lists p
  exact ⟨hparts.trans (Eq.trans (congrArg State.parts hpass) rfl), hcores.trans (Eq.trans (congrArg State.cores hpass) rfl)⟩

theorem State.updateComplete_of_done (hst : s.pstate p = 3) (hrun : (s.part p).upd = .running) (hall : s.updateAll p = true) :
    s.updateComplete p = (s.updateEnded p).setPart p { s.part p with upd := .complete } := if_pos ⟨hst, hrun, hall⟩

end Sys2Proof.Machine

open Sys2Proof.Machine

/-- Settles O42: the check of the list decides between a fault and the start, and the end marks the phase complete. -/
theorem updatePhaseStartsAndCompletes : Obligations.UpdatePhaseStartsAndCompletes := by
  refine ⟨?begins, ?refuses, ?completes⟩
  case begins =>
    intro p s hdue hjob hsome hboot hready hsound hok
    obtain ⟨w, hw, hbad, -⟩ | ⟨-, hbegun⟩ := ListReadable.updateStart_cases ⟨hdue, hjob, hsome, hboot, hready, hsound⟩
    · rw [hok w hw] at hbad
      cases hbad
    · exact ⟨_, rfl, hbegun.upd, hbegun.updList, hbegun.updDone, hbegun.peerTiles, hbegun.other, hbegun.mem, hbegun.cores⟩
  case refuses =>
    intro p w s hdue hjob hsome hboot hready hsound hw hbad
    obtain ⟨v, -, -, hfault⟩ | ⟨hok, -⟩ := ListReadable.updateStart_cases ⟨hdue, hjob, hsome, hboot, hready, hsound⟩
    · refine ⟨_, congrArg Host.Outcome.next hfault, State.updateFault_pstate .., (State.updateFault_onlyNotesParts ..).mem⟩
    · rw [hok w hw] at hbad
      cases hbad
  case completes =>
    intro p s hst hrun hall
    obtain ⟨hparts, hcores⟩ := s.updateEnded_lists p
    have hpart : ∀ q, (s.updateEnded p).part q = s.part q := fun q => congrArg (fun x : Tab partReset => x.get q) hparts
    refine ⟨_, congrArg Host.Outcome.next (State.updateComplete_of_done hst hrun hall), ?_, ?_, fun q hq => ?_, hcores⟩
    · rw [State.setPart_part_self]
    · rw [State.setPart_part_self]
    · rw [State.setPart_part_ne _ _ _ _ hq, hpart]

end

section
/-! Checkpoints of a job (R239–R241): a ward's on its buddy, the home slot streamed, the report that completes one. -/

namespace Sys2Proof.Machine

variable {s t u : State} {k : Bool} {x : CkSlot} {n m r : Nat} {step : Word}

theorem RawWritten.of_same {a : Nat} {bs : List Byte} (h : RawWritten s t a bs) (hm : u.mem = t.mem) (hc : u.cores = t.cores) :
    RawWritten s u a bs := fun y => (State.rawByte_congr hm (fun d => by rw [State.core_congr hc]) y).trans (h y)

/-! ### The slots of a ward (R239, R240) -/

/-- What the buddy tracks of a ward slot, without the slot's header. -/
def State.wardTracked (s : State) (k : Bool) (x : CkSlot) : State :=
  { s with job := if k then { s.job with ward1 := x } else { s.job with ward0 := x } }

theorem State.wardTracked_ward (s : State) (k : Bool) (x : CkSlot) :
    (s.wardTracked k x).job.ward k = x ∧ (s.wardTracked k x).job.ward (!k) = s.job.ward (!k) := by
  cases k <;> exact ⟨rfl, rfl⟩

theorem State.bulkBase_le_wardAddr (s : State) (k : Bool) : bulkBase ≤ s.wardAddr k :=
  le_trans (Nat.le_add_right ..) (Nat.le_add_right ..)

theorem State.setWard_eq (s : State) (k : Bool) (x : CkSlot) :
    s.setWard k x = if s.wardOk x.len then (s.wardTracked k x).putBytes (s.wardAddr k) (slotHeader x) else s.wardTracked k x := rfl

/-- From `s` to `t` the buddy has set ward slot `k`, and its header where the slot fits. -/
structure WardSet (s t : State) (k : Bool) (x : CkSlot) : Prop where
  ward  : t.job.ward k = x
  other : t.job.ward (!k) = s.job.ward (!k)
  bytes : s.wardOk x.len = true → RawWritten s t (s.wardAddr k) (slotHeader x)
  cores : t.cores = s.cores
  parts : t.parts = s.parts

theorem State.setWard_wardSet (s : State) (k : Bool) (x : CkSlot) : WardSet s (s.setWard k x) k x := by
  obtain ⟨hward, hother⟩ := s.wardTracked_ward k x
  rw [State.setWard_eq]
  split
  · have hput := (s.wardTracked k x).putBytes_onlyBulk (slotHeader x) (s.bulkBase_le_wardAddr k)
    have hbytes := (s.wardTracked k x).putBytes_rawWritten (slotHeader x) (s.bulkBase_le_wardAddr k)
    exact ⟨by rw [hput.job]; exact hward, by rw [hput.job]; exact hother, fun _ => hbytes, hput.cores, hput.parts⟩
  · next hok => exact ⟨hward, hother, fun h => absurd h hok, rfl, rfl⟩

theorem State.ckptBegin_of_free (hkept : s.wardKept k = false) (hok : s.wardOk x.len = true) : s.ckptBegin k x = s.setWard k x :=
  if_neg (by rw [hkept, hok]; decide)

theorem State.ckptBegin_of_refused (h : s.wardKept k = true ∨ s.wardOk x.len = false) :
    s.ckptBegin k x = s.emit (.ckptAnswer false x.step) := if_pos (by obtain h | h := h <;> simp [h])

theorem State.ckptRecords_of_next {data : List Byte} (hst : (s.job.ward k).st = .filling)
    (hlen : (s.job.ward k).got + data.length ≤ (s.job.ward k).len) (hok : s.wardOk (s.job.ward k).len = true)
    (hready : s.bulkReady (s.wardAddr k + (64 + (s.job.ward k).got) - bulkBase) data.length = true) :
    s.ckptRecords k (64 + (s.job.ward k).got) data
      = (s.putBytes (s.wardAddr k + (64 + (s.job.ward k).got)) data).wardTracked k
        { s.job.ward k with got := (s.job.ward k).got + data.length } := by
  unfold State.ckptRecords
  dsimp only
  rw [hst, hok, hready, if_neg (by simp; omega)]
  rfl

/-- Does a slot hold all of a checkpoint, and the digest that its owner names? -/
def State.wardGood (s : State) (k : Bool) (d : BitVec 64) : Bool :=
  decide ((s.job.ward k).got = (s.job.ward k).len) && decide (s.slotDigest (s.wardAddr k) = d)

/-- A FILLING slot is COMPLETE at its end, or EMPTY, and the owner is told which. -/
theorem State.ckptEnd_of_filling (d : BitVec 64) (hst : (s.job.ward k).st = .filling) :
    ∃ x : CkSlot, x.st = (if s.wardGood k d then .complete else .empty) ∧ x.len = (s.job.ward k).len
      ∧ s.ckptEnd k d = (s.setWard k x).emit (.ckptAnswer (s.wardGood k d) (s.job.ward k).step) := by
  have hgood : s.wardGood k d = true ↔ (s.job.ward k).got = (s.job.ward k).len ∧ s.slotDigest (s.wardAddr k) = d := by
    simp only [State.wardGood, Bool.and_eq_true, decide_eq_true_eq]
  unfold State.ckptEnd
  dsimp only
  rw [if_neg (not_not.2 hst)]
  by_cases h : s.wardGood k d = true
  · rw [if_pos (hgood.1 h), h]
    exact ⟨{ s.job.ward k with st := .complete, digest := d }, rfl, rfl, rfl⟩
  · rw [if_neg (mt hgood.2 h), Bool.eq_false_of_not_eq_true h]
    exact ⟨{ s.job.ward k with st := .empty }, rfl, rfl, rfl⟩

/-! ### The home slot streamed (R240) -/

/-- The job's records replaced. -/
def State.withJob (s : State) (j : Job) : State := { s with job := j }

/-- `n` bytes of the home slot are sent. -/
def State.homeSent (s : State) (k : Bool) (off n : Nat) : State :=
  (s.countBulk 1 (s.homeAddr k + off) n).emit (.ckptBytes k off (s.bytesAt (s.homeAddr k + off) n))

theorem OnlyCounts.emit (h : OnlyCounts s u) (o : Output) : OnlyCounts s (u.emit o) :=
  Eq.trans (congrArg (fun x : State => x.emit o) h) rfl

theorem State.mem_emit_out (s : State) (o : Output) : o ∈ (s.emit o).out := List.mem_cons_self

theorem State.homeSent_onlyCounts (s : State) (k : Bool) (off n : Nat) : OnlyCounts s (s.homeSent k off n) :=
  ((OnlyCounts.refl s).countBulk ..).emit _

theorem State.homeSent_out (s : State) (k : Bool) (off n : Nat) :
    .ckptBytes k off (s.bytesAt (s.homeAddr k + off) n) ∈ (s.homeSent k off n).out := State.mem_emit_out ..

theorem OnlyCounts.parts (h : OnlyCounts s u) : u.parts = s.parts := Eq.trans (congrArg State.parts h) rfl

/-- The progress of a stream noted: the bytes still to send, and what the register shows (R240, R242). -/
def State.streamNoted (s : State) (k : Bool) (left shown : Nat) : State :=
  (s.withJob { s.job with stream := some (k, left) }).setObj 0x3520 4 shown

/-- Where in a home slot its last `m` bytes begin. -/
def State.streamAt (s : State) (k : Bool) (m : Nat) : Nat := 64 + (s.job.home k).len - m

/-- The `n` bytes that come before the last `m - n` of the home slot are sent, and the progress noted. -/
def State.streamed (s : State) (k : Bool) (m n : Nat) : State :=
  (s.homeSent k (s.streamAt k m) n).streamNoted k (m - n) ((s.streamAt k m + n) / 65536)

/-- What streaming `n` bytes leaves; `t` may have sent more than the bytes. -/
structure HomeStreamed (s t : State) (k : Bool) (m n : Nat) : Prop where
  stream : t.job.stream = some (k, m - n)
  bytes  : .ckptBytes k (s.streamAt k m) (s.bytesAt (s.homeAddr k + s.streamAt k m) n) ∈ t.out
  shown  : t.obj 0x3520 4 = (s.streamAt k m + n) / 65536
  mem    : t.mem = s.mem
  cores  : t.cores = s.cores
  parts  : t.parts = s.parts

theorem HomeStreamed.of_noted (h : OnlyCounts s u)
    (hsent : .ckptBytes k (s.streamAt k m) (s.bytesAt (s.homeAddr k + s.streamAt k m) n) ∈ u.out) :
    HomeStreamed s (u.streamNoted k (m - n) ((s.streamAt k m + n) / 65536)) k m n :=
  ⟨rfl, hsent, State.setObj_obj_self .., h.mem, h.cores, h.parts⟩

theorem State.streamed_homeStreamed (s : State) (k : Bool) (m n : Nat) : HomeStreamed s (s.streamed k m n) k m n :=
  .of_noted (s.homeSent_onlyCounts ..) (s.homeSent_out ..)

theorem HomeStreamed.emit (h : HomeStreamed s t k m n) (o : Output) : HomeStreamed s (t.emit o) k m n :=
  ⟨h.stream, List.mem_cons_of_mem _ h.bytes, h.shown, h.mem, h.cores, h.parts⟩

theorem HomeStreamed.of_emit {o : Output} (h : HomeStreamed (s.emit o) t k m n) : HomeStreamed s t k m n :=
  ⟨h.stream, h.bytes, h.shown, h.mem, h.cores, h.parts⟩

/-- A stream goes on: a BEGIN before its first byte and an END after its last. -/
theorem State.streamOut_homeStreamed (hs : s.job.stream = some (k, m)) (hn : 0 < n) (hm : 0 < m) (hrun : s.suspended 3 = false)
    (hok : s.homeOk k = true) : HomeStreamed s (s.streamOut n) k m (min n m) := by
  have hbegun : ∀ o, HomeStreamed s ((s.emit o).streamed k m (min n m)) k m (min n m) := fun o => ((s.emit o).streamed_homeStreamed k m _).of_emit
  unfold State.streamOut
  rw [hs]
  dsimp only
  rw [if_neg (by rw [hrun, hok]; simp; omega), if_neg (Nat.ne_of_gt hm), if_neg (Nat.ne_of_gt hm)]
  by_cases h0 : 64 + (s.job.home k).len - m = 0
  · rw [if_pos h0]
    split
    · exact (hbegun _).emit _
    · exact hbegun _
  · rw [if_neg h0]
    split
    · exact (s.streamed_homeStreamed k m _).emit _
    · exact s.streamed_homeStreamed k m _

/-! ### A checkpoint is job-complete (R241) -/

/-- Only registers, the job's records and the outputs have changed. -/
def OnlyJob (s u : State) : Prop := u = { s with objs := u.objs, job := u.job, out := u.out }

theorem OnlyJob.trans (h : OnlyJob s t) (g : OnlyJob t u) : OnlyJob s u :=
  Eq.trans g (congrArg (fun x : State => { x with objs := u.objs, job := u.job, out := u.out }) h)

theorem State.withJob_onlyJob (s : State) (j : Job) : OnlyJob s (s.withJob j) := rfl

theorem State.each_emit (f : State → Nat → Output) (l : List Nat) (s : State) :
    s.each l (fun s n => s.emit (f s n)) = { s with out := (s.each l fun s n => s.emit (f s n)).out } :=
  List.foldlRecOn l _ (motive := fun t : State => t = { s with out := t.out }) rfl fun t h n _ =>
    congrArg (fun x : State => x.emit (f t n)) h

theorem State.tellMembers_frame (s : State) (what arg : Nat) :
    s.tellMembers what arg = { s with out := (s.tellMembers what arg).out } := State.each_emit ..

theorem State.tellMembers_onlyJob (s : State) (what arg : Nat) : OnlyJob s (s.tellMembers what arg) := by
  rw [State.tellMembers_frame]
  rfl

/-- The checkpoint of a step is noted as job-complete, and only that register has changed. -/
theorem State.setCkptStep_spec (s : State) (step : Word) :
    (s.setCkptStep step).obj 0x3500 0x14 = step.toNat ∧ (s.setCkptStep step).job = { s.job with jobDone := some step }
      ∧ SameObjs s (s.setCkptStep step) [(0x3500, 0x14)] :=
  ⟨State.setObj_obj_self .., rfl, State.setObj_sameObjs (s := s.withJob { s.job with jobDone := some step }) (by decide)⟩

theorem State.setCkptStep_onlyJob (s : State) (step : Word) : OnlyJob s (s.setCkptStep step) := rfl

theorem State.isLead_iff : s.isLead = true ↔ s.obj 0x3500 2 = 1 := beq_iff_eq

theorem State.inJob_of_lead (h : s.isLead = true) : s.inJob = true := by
  rw [State.inJob, State.isLead_iff.1 h]
  rfl

/-- The ranks that have reported, once `r` has. -/
def State.reportedWith (s : State) (r : Nat) : List Nat := if r ∈ s.job.reported then s.job.reported else r :: s.job.reported

/-- The last report noted, the step known, the reports gone, and the members told. -/
def State.jobCompleted (s : State) (r : Nat) (step : Word) : State :=
  let u := (s.withJob { s.job with reported := s.reportedWith r }).setCkptStep step
  (u.withJob { u.job with reported := [] }).tellMembers 0x500 step.toNat

theorem State.jobCompleted_spec (s : State) (r : Nat) (step : Word) :
    (s.jobCompleted r step).obj 0x3500 0x14 = step.toNat ∧ (s.jobCompleted r step).job.jobDone = some step
      ∧ (s.jobCompleted r step).job.reported = [] ∧ SameObjs s (s.jobCompleted r step) [(0x3500, 0x14)]
      ∧ OnlyJob s (s.jobCompleted r step) := by
  unfold State.jobCompleted
  extract_lets _ u
  obtain ⟨hshown, hjob, hregs⟩ := (s.withJob { s.job with reported := s.reportedWith r }).setCkptStep_spec step
  have hu : OnlyJob s u := (s.withJob_onlyJob _).trans (State.setCkptStep_onlyJob ..)
  have hall : OnlyJob s ((u.withJob { u.job with reported := [] }).tellMembers 0x500 step.toNat) :=
    (hu.trans (u.withJob_onlyJob _)).trans (State.tellMembers_onlyJob ..)
  refine ⟨?_, ?_, ?_, ?_, hall⟩ <;> rw [State.tellMembers_frame]
  · exact hshown
  · exact congrArg Job.jobDone hjob
  · rfl
  · exact hregs

/-- At the lead the last report makes the checkpoint job-complete, and the members are told. -/
theorem State.ckptComplete_of_last (hlead : s.isLead = true) (hr : r < s.jobReps) (hown : r ≠ s.ownRank) (hstep : step = s.job.capStep)
    (hall : ∀ j, j < s.jobReps → j = r ∨ j ∈ s.job.reported) :
    s.ckptComplete r step = s.jobCompleted r step := by
  have hreported : (List.range s.jobReps).all (· ∈ s.reportedWith r) = true := by
    refine List.all_eq_true.2 fun j hj => decide_eq_true ?_
    unfold State.reportedWith
    obtain rfl | hmem := hall j (List.mem_range.1 hj)
    · split
      · assumption
      · exact List.mem_cons_self
    · split
      · exact hmem
      · exact List.mem_cons_of_mem _ hmem
  unfold State.ckptComplete
  rw [if_neg (by simp [State.inJob_of_lead hlead, hr])]
  simp only [beq_eq_false_iff_ne.2 hown, Bool.false_and, Bool.false_eq_true, if_false]
  rw [if_neg (by rw [hlead]; decide), if_neg (not_not.2 hstep)]
  exact if_pos hreported

/-- At a member the lead's announcement is noted. -/
theorem State.ckptComplete_of_announced (hmember : s.obj 0x3500 2 = 2) (hr : r < s.jobReps) (hown : r ≠ s.ownRank) :
    s.ckptComplete r step = s.setCkptStep step := by
  have hjob : s.inJob = true := by rw [State.inJob, hmember]; rfl
  have hlead : s.isLead = false := by rw [State.isLead, hmember]; rfl
  unfold State.ckptComplete
  rw [if_neg (by simp [hjob, hr])]
  simp only [beq_eq_false_iff_ne.2 hown, Bool.false_and, Bool.false_eq_true, if_false]
  rw [if_pos (by rw [hlead]; decide)]

end Sys2Proof.Machine

open Sys2Proof.Machine

/-- Settles O53: each clause is what its operation leaves, by the lemmas above on it. -/
theorem checkpointsReachBuddy : Obligations.CheckpointsReachBuddy := by
  refine ⟨?begins, ?refused, ?records, ?ends, ?streams, ?completes, ?announced⟩
  case begins =>
    intro k step job rank len s hkept hok
    have hset := s.setWard_wardSet k { st := .filling, step := step, rank := rank.toNat, jobId := job, len := len.toNat }
    exact ⟨_, congrArg Host.Outcome.next (State.ckptBegin_of_free hkept hok), hset.ward, hset.other, hset.bytes hok, hset.cores, hset.parts⟩
  case refused => exact fun k step job rank len s h => ⟨_, rfl, State.ckptBegin_of_refused h⟩
  case records =>
    rintro k off data s hst rfl hlen hok hready
    have ha : bulkBase ≤ s.wardAddr k + (64 + (s.job.ward k).got) := le_trans (s.bulkBase_le_wardAddr k) (Nat.le_add_right ..)
    have hput := s.putBytes_onlyBulk data ha
    have hbytes := s.putBytes_rawWritten data ha
    have hnext := State.ckptRecords_of_next hst hlen hok hready
    generalize s.putBytes (s.wardAddr k + (64 + (s.job.ward k).got)) data = u at *
    obtain ⟨hward, hother⟩ := u.wardTracked_ward k { s.job.ward k with got := (s.job.ward k).got + data.length }
    exact ⟨_, congrArg Host.Outcome.next hnext, hbytes, hward, hother.trans (by rw [hput.job]), hput.cores, hput.parts⟩
  case ends =>
    intro k d s hst
    obtain ⟨x, hx, hlen, heq⟩ := State.ckptEnd_of_filling d hst
    have hset := s.setWard_wardSet k x
    refine ⟨_, congrArg Host.Outcome.next heq, (congrArg CkSlot.st hset.ward).trans hx, rfl, hset.other, fun hok => ?_, hset.cores⟩
    rw [show ((s.setWard k x).emit _).job.ward k = x from hset.ward]
    exact hset.bytes (by rw [hlen]; exact hok)
  case streams =>
    intro n m k s hs hn hm _ hrun hok
    have h := State.streamOut_homeStreamed hs hn hm hrun hok
    exact ⟨_, rfl, h.stream, h.bytes, h.shown, h.mem, h.cores, h.parts⟩
  case completes =>
    intro r step s hlead hr hown hstep hall
    obtain ⟨hshown, hdone, hreported, hregs, hframe⟩ := s.jobCompleted_spec r step
    exact ⟨_, congrArg Host.Outcome.next (State.ckptComplete_of_last hlead hr hown hstep hall), hshown, hdone, hreported, hregs, hframe⟩
  case announced =>
    intro r step s hmember hr hown
    obtain ⟨hshown, hjob, hregs⟩ := s.setCkptStep_spec step
    exact ⟨_, congrArg Host.Outcome.next (State.ckptComplete_of_announced hmember hr hown), hshown, congrArg Job.jobDone hjob, hregs, rfl⟩

end

section
/-! Bore's answers (R281, R291, R294, R295): a packet that is met, the packets that answer it, and what they leave. -/

namespace Sys2Proof.Machine

variable {s t u v : State} {p q : Packet} {c n : Nat}

theorem OnlyCounts.conns (h : OnlyCounts s u) : u.conns = s.conns := Eq.trans (congrArg State.conns h) rfl
theorem OnlyCounts.syncs (h : OnlyCounts s u) : u.syncs = s.syncs := Eq.trans (congrArg State.syncs h) rfl
theorem OnlyCounts.conn (h : OnlyCounts s u) (d : Nat) : u.conn d = s.conn d := congrArg (fun x : Tab connReset => x.get d) h.conns

/-! ### Packets that are met (R291, R294) -/

/-- A packet that passes checks 1 and 2 is counted and opened. -/
theorem State.admitPacket_of_some (h : s.admitPacket p = (u, some q)) :
    u = (s.received p).authPass p.dconn.toNat ∧ ∃ bs, q = { p with payload := bs } := by
  unfold State.admitPacket at h
  dsimp only at h
  split at h
  · simp at h
  · split at h
    · simp at h
    · next bs _ =>
      obtain ⟨rfl, hq⟩ := Prod.mk.inj h
      exact ⟨rfl, bs, (Option.some.inj hq).symm⟩

theorem State.admitPacket_mem (h : s.admitPacket p = (u, some q)) : u.mem = s.mem := by
  rw [(State.admitPacket_of_some h).1]
  rfl

/-- The packet that is expected goes to the body of its kind. -/
theorem State.rxData_of_expected {k : PktKind} (h : Expected s p k q v) (body : State → Packet → Option State)
    (again : State → Packet → State) : s.rxData p k body again = (body v q).getD s := by
  obtain ⟨hk, u, hadmit, rfl, hpsn⟩ := h
  obtain ⟨-, bs, rfl⟩ := State.admitPacket_of_some hadmit
  unfold State.rxData
  rw [if_neg (not_not.2 hk), hadmit]
  dsimp only at hpsn ⊢
  rw [if_pos (by rw [hpsn]; simp)]

theorem Expected.dconn {k : PktKind} (h : Expected s p k q v) : q.dconn = p.dconn := by
  obtain ⟨-, u, hadmit, -, -⟩ := h
  obtain ⟨-, bs, rfl⟩ := State.admitPacket_of_some hadmit
  rfl

/-! ### Packets sent (R279, R304, R306) -/

/-- A seal changes the payload and the tag of a packet only. -/
theorem State.sendPacket_out (s : State) (c : Nat) (p : Packet) :
    ∃ a, (s.sendPacket c p).out = .packet c a :: s.out ∧ a.kind = p.kind ∧ a.psn = p.psn ∧ a.offset = p.offset := by
  have hframe : ∀ (u : State) (l : Nat) (a : Packet), (u.countFrame l a).out = u.out := fun u l a => by
    unfold State.countFrame
    split <;> rfl
  unfold State.sendPacket
  dsimp only
  rw [State.emit_out, hframe]
  refine ⟨_, rfl, ?_⟩
  split <;> exact ⟨rfl, rfl, rfl⟩

/-- Frames and packets are counted in subindexes 1 to 3. -/
theorem State.sendPacket_obj (s : State) (c : Nat) (p : Packet) (i : Nat) {k : Nat} (hk : k < 256) (h3 : 3 < k) :
    (s.sendPacket c p).obj i k = s.obj i k := by
  have hcount : ∀ (u : State) (j : Nat) {m : Nat} (w x : Nat), m ≤ 3 → (u.count j m w x).obj i k = u.obj i k := fun u j m w x hm =>
    State.setObj_obj_ne _ _ _ _ _ _ (by omega) hk (by simp; omega)
  have hframe : ∀ (u : State) (l : Nat) (a : Packet), (u.countFrame l a).obj i k = u.obj i k := fun u l a => by
    unfold State.countFrame
    split
    · rw [hcount _ _ _ _ (by decide), hcount _ _ _ _ (by decide)]
    · rfl
  unfold State.sendPacket
  dsimp only
  rw [State.emit_obj, hframe, hcount _ _ _ _ (by decide), hcount _ _ _ _ (by decide)]

/-- A NAK is sent, and the connection's mark of congestion goes. -/
theorem State.sendNak_spec (s : State) (c : Nat) (psn : BitVec 24) (syndrome acc : Nat) :
    let t := s.sendNak c psn syndrome acc
    (∃ a, Output.packet c a ∈ t.out ∧ a.kind = .nak ∧ a.psn = psn ∧ a.offset = BitVec.ofNat 31 (syndrome + acc * 256))
      ∧ (t.conn c).epsn = (s.conn c).epsn ∧ t.mem = s.mem ∧ ∀ i k, k < 256 → 3 < k → t.obj i k = s.obj i k := by
  unfold State.sendNak
  extract_lets _ u
  obtain ⟨a, hout, hkind, hpsn, hoff⟩ := s.sendPacket_out c
    { blankPacket s c .nak psn with offset := BitVec.ofNat 31 (syndrome + acc * 256), ece := (s.conn c).ceSeen }
  have hcounts : OnlyCounts s u := s.sendPacket_onlyCounts ..
  have hobj : ∀ i k, k < 256 → 3 < k → u.obj i k = s.obj i k := fun i k => s.sendPacket_obj c _ i
  change u.out = _ at hout
  clear_value u
  refine ⟨⟨a, ?_, hkind, hpsn, hoff⟩, ?_, hcounts.mem, hobj⟩
  · rw [State.setConn_out, hout]
    exact List.mem_cons_self
  · rw [State.setConn_conn_self, ← hcounts.conn]

/-! ### What a connection expects (R294, R295) -/

/-- From `s` to `t` no connection expects another PSN, and no sync object has changed. -/
structure AwaitsSame (s t : State) : Prop where
  epsn  : ∀ d, (t.conn d).epsn = (s.conn d).epsn
  syncs : t.syncs = s.syncs

theorem AwaitsSame.refl (s : State) : AwaitsSame s s := ⟨fun _ => rfl, rfl⟩

theorem AwaitsSame.trans (h : AwaitsSame s t) (g : AwaitsSame t u) : AwaitsSame s u :=
  ⟨fun d => (g.epsn d).trans (h.epsn d), g.syncs.trans h.syncs⟩

theorem AwaitsSame.foldl {α : Type} {f : State → α → State} (l : List α) (hf : ∀ t y, AwaitsSame t (f t y)) :
    AwaitsSame s (l.foldl f s) := List.foldlRecOn l f (motive := AwaitsSame s) (.refl s) fun t h y _ => h.trans (hf t y)

theorem OnlyCounts.awaitsSame (h : OnlyCounts s t) : AwaitsSame s t := ⟨fun d => by rw [h.conn], h.syncs⟩

theorem State.setConn_awaitsSame (s : State) {x : Conn} (h : x.epsn = (s.conn c).epsn) : AwaitsSame s (s.setConn c x) := by
  refine ⟨fun d => ?_, rfl⟩
  rw [State.setConn_conn_eq]
  split
  · next hd => rw [hd, h]
  · rfl

theorem State.sendPacket_awaitsSame (s : State) (c : Nat) (p : Packet) : AwaitsSame s (s.sendPacket c p) :=
  (s.sendPacket_onlyCounts c p).awaitsSame

theorem State.sendAck_awaitsSame (s : State) (c syndrome : Nat) : AwaitsSame s (s.sendAck c syndrome) :=
  (s.sendPacket_awaitsSame ..).trans (State.setConn_awaitsSame _ rfl)

/-- A packet that is taken: the next one is expected after its `k` PSNs. -/
theorem State.taken_spec (s : State) (c : Nat) (p : Packet) (k syndrome : Nat) :
    ((s.taken c p k syndrome).conn c).epsn = (s.conn c).epsn + BitVec.ofNat 24 k ∧ (s.taken c p k syndrome).syncs = s.syncs := by
  have hset : ∀ x : Conn, ((s.setConn c x).conn c).epsn = x.epsn := fun x => by rw [State.setConn_conn_self]
  unfold State.taken
  dsimp only
  split
  · have hack := State.sendAck_awaitsSame (s.setConn c { (s.conn c).expect k with unacked := ((s.conn c).expect k).unacked + 1 }) c syndrome
    exact ⟨(hack.epsn c).trans (hset _), hack.syncs⟩
  · exact ⟨hset _, rfl⟩

end Sys2Proof.Machine

end

section
/-! Fabric barriers (R302, R303): a child's arrival, and the release of a generation. -/

namespace Sys2Proof.Machine

variable {s t u v : State} {p q : Packet} {c n i : Nat} {b : BarrierGroup}

theorem State.transmit_awaitsSame (s : State) (c : Nat) (e : WorkEntry) (n : Nat) : AwaitsSame s (s.transmit c e n) := by
  unfold State.transmit
  extract_lets x e' u bytes y
  have hu : AwaitsSame s u := .foldl _ fun t i =>
    OnlyCounts.awaitsSame (((OnlyCounts.refl t).countBulk ..).trans (State.sendPacket_onlyCounts ..))
  exact hu.trans (u.setConn_awaitsSame rfl)

theorem State.pumpBarrier_awaitsSame (s : State) (c : Nat) : AwaitsSame s (s.pumpBarrier c) := by
  refine .foldl _ fun t _ => ?_
  split
  · split
    · exact t.transmit_awaitsSame ..
    · exact .refl t
  · exact .refl t

/-- A barrier packet on the send queue of a connection, behind what it holds (R303). -/
def State.barrierQueued (s : State) (c : Nat) (e : WorkEntry) : State :=
  { s.setConn c { s.conn c with sendQ := (s.conn c).sendQ ++ [e] } with entryNext := s.entryNext + 1 }

theorem State.barrierQueued_awaitsSame (s : State) (c : Nat) (e : WorkEntry) : AwaitsSame s (s.barrierQueued c e) :=
  have hset : AwaitsSame s (s.setConn c { s.conn c with sendQ := (s.conn c).sendQ ++ [e] }) := s.setConn_awaitsSame rfl
  ⟨hset.epsn, hset.syncs⟩

theorem State.sendBarrier_eq (s : State) (c : Nat) (k : PktKind) (group gen : Nat) :
    s.sendBarrier c k group gen = if (s.conn c).st = .isOpen then
      (s.barrierQueued c (barrierEntry s.entryNext (kindCode k) group gen)).pumpBarrier c else s := rfl

theorem State.sendBarrier_awaitsSame (s : State) (c : Nat) (k : PktKind) (group gen : Nat) :
    AwaitsSame s (s.sendBarrier c k group gen) := by
  rw [State.sendBarrier_eq]
  split
  · exact (s.barrierQueued_awaitsSame ..).trans (State.pumpBarrier_awaitsSame ..)
  · exact .refl s

/-- The next generation of a barrier: the arrivals beyond those needed count for it (R303). -/
def Sync.advanced (x : Sync) : Sync :=
  { x with gen := (x.gen + 1) % 2 ^ 16, arrivals := x.arrivals - x.need, sentUp := false, children := x.nextGen, nextGen := [] }

theorem State.barrierDone_spec (s : State) (n : Nat) (b : BarrierGroup) (i : Nat) :
    (s.barrierDone n b i).sync n = (s.sync n).advanced ∧ ∀ d, ((s.barrierDone n b i).conn d).epsn = (s.conn d).epsn := by
  have hsent : AwaitsSame s ((List.range (b.kids i)).foldl
      (fun t j => t.sendBarrier (b.conn0 + 1 + j) .barrierRelease (s.sync n).grp (s.sync n).gen) s) :=
    .foldl _ fun t j => t.sendBarrier_awaitsSame ..
  exact ⟨State.setSync_sync_self .., hsent.epsn⟩

/-- Nothing is sent up while local arrivals are missing (R303). -/
theorem State.barrierTry_of_few (h : (s.sync n).arrivals < (s.sync n).need) : s.barrierTry n = s := by
  unfold State.barrierTry
  dsimp only
  split
  · rfl
  · split
    · rfl
    · exact if_pos (by simp [h])

theorem State.childArrives_of_held (hgen : q.gen.toNat = (s.sync n).gen) (hgroup : s.barrierGroup (s.sync n).grp = some b)
    (hfew : (s.sync n).arrivals < (s.sync n).need) :
    s.childArrives c q n = s.setSync n { s.sync n with children := (c - b.conn0 - 1) :: (s.sync n).children } := by
  have hstill : ∀ l : List Nat, (s.setSync n { s.sync n with children := l }).barrierTry n = s.setSync n { s.sync n with children := l } :=
    fun l => State.barrierTry_of_few (by rw [State.setSync_sync_self]; exact hfew)
  unfold State.childArrives
  dsimp only
  rw [if_pos hgen, hgroup]
  dsimp only
  rw [hstill, hstill]

theorem State.takeArrive_of_held (hb : s.barriersOf (s.conn q.dconn.toNat).part q.group.toNat = [n])
    (hgen : q.gen.toNat = (s.sync n).gen) (hgroup : s.barrierGroup (s.sync n).grp = some b)
    (hfew : (s.sync n).arrivals < (s.sync n).need) :
    s.takeArrive q = some ((s.setSync n { s.sync n with
      children := (q.dconn.toNat - b.conn0 - 1) :: (s.sync n).children }).taken q.dconn.toNat q 1 0) := by
  unfold State.takeArrive
  dsimp only
  rw [hb, List.foldl_cons, List.foldl_nil, State.childArrives_of_held hgen hgroup hfew]

theorem State.takeRelease_of_held (hb : s.barriersOf (s.conn q.dconn.toNat).part q.group.toNat = [n])
    (hgen : q.gen.toNat = (s.sync n).gen) (hsent : (s.sync n).sentUp = true) (hgroup : s.barrierGroup (s.sync n).grp = some b)
    (hindex : s.barrierIndex b = some i) (hfew : (s.sync n).arrivals - (s.sync n).need < (s.sync n).need) :
    s.takeRelease q = some ((s.barrierDone n b i).taken q.dconn.toNat q 1 0) := by
  have hstill : (s.barrierDone n b i).barrierTry n = s.barrierDone n b i :=
    State.barrierTry_of_few (by rw [(s.barrierDone_spec n b i).1]; exact hfew)
  unfold State.takeRelease
  dsimp only
  rw [hb, List.foldl_cons, List.foldl_nil, hgroup]
  dsimp only
  rw [hindex]
  dsimp only
  rw [if_pos ⟨hgen, hsent⟩, hstill]

end Sys2Proof.Machine

end

section
/-! Placements that start late, and fetches that waited (R230, R298). -/

namespace Sys2Proof.Machine

variable {s t u : State} {p q : Packet} {c n : Nat}

theorem State.placementTimeout_of_late (hdata : dataKind p.kind = true) (hask : answerKind p.kind = false)
    (hadmit : s.admitPacket p = (u, some q)) (hpsn : q.psn = (u.conn p.dconn.toNat).epsn) :
    s.placementTimeout p = (u.sendNak p.dconn.toNat q.psn 3 0).count 0x4201 8 32 1 := by
  obtain ⟨-, bs, rfl⟩ := State.admitPacket_of_some hadmit
  unfold State.placementTimeout
  rw [if_neg (by rw [hdata, hask]; decide), hadmit]
  exact if_pos hpsn

/-- What is sent while an operation runs over a list is sent when it ends. -/
theorem mem_out_of_foldl {f : State → Nat → State} {P : Nat → Output → Prop} (hgrow : ∀ s i, ∀ o ∈ s.out, o ∈ (f s i).out)
    (hsend : ∀ s i, ∃ o ∈ (f s i).out, P i o) (l : List Nat) (s : State) : ∀ i ∈ l, ∃ o ∈ (l.foldl f s).out, P i o := by
  induction l generalizing s with
  | nil => exact fun _ h => absurd h List.not_mem_nil
  | cons j l ih =>
    intro i hi
    obtain rfl | hi := List.mem_cons.1 hi
    · obtain ⟨o, ho, hP⟩ := hsend s i
      exact ⟨o, List.foldlRecOn l f (motive := fun t => o ∈ t.out) ho fun t h k _ => hgrow t k o h, hP⟩
    · exact ih (f s j) i hi

/-- Responses are sent on the PSNs of the request, and beside counts nothing changes. -/
theorem State.sendResponses_spec (s : State) (c : Nat) (p : Packet) (a : Nat) :
    OnlyCounts s (s.sendResponses c p a)
      ∧ ∀ i, i < packetsOf p.len.toNat → ∃ r, Output.packet c r ∈ (s.sendResponses c p a).out ∧ r.kind = .readResp
        ∧ r.psn = p.psn + BitVec.ofNat 24 i := by
  unfold State.sendResponses
  refine ⟨List.foldlRecOn _ _ (motive := OnlyCounts s) (.refl s) fun t h i _ => h.trans (t.sendPacket_onlyCounts ..), fun i hi => ?_⟩
  have hall := mem_out_of_foldl (P := fun i o => ∃ r, o = .packet c r ∧ r.kind = .readResp ∧ r.psn = p.psn + BitVec.ofNat 24 i)
    (f := fun s i => s.sendPacket c { blankPacket s c .readResp (p.psn + BitVec.ofNat 24 i) with
      first := i == 0, last := i + 1 == packetsOf p.len.toNat, offset := BitVec.ofNat 31 (4096 * i), rkey := p.rkey, raddr := p.raddr
      len := p.len, payload := (List.range (min 4096 (p.len.toNat - 4096 * i))).map fun j => s.fetchByte (a + 4096 * i + j) })
    (fun t i o ho => ?grow) (fun t i => ?send) (List.range (packetsOf p.len.toNat)) s i (List.mem_range.2 hi)
  case grow =>
    obtain ⟨r, hout, -⟩ := t.sendPacket_out c _
    rw [hout]
    exact List.mem_cons_of_mem _ ho
  case send =>
    obtain ⟨r, hout, hkind, hpsn, -⟩ := t.sendPacket_out c _
    rw [hout]
    exact ⟨_, List.mem_cons_self, r, rfl, hkind, hpsn⟩
  obtain ⟨_, ho, r, rfl, hkind, hpsn⟩ := hall
  exact ⟨r, ho, hkind, hpsn⟩

theorem State.answerRead_of_clean {add : Nat} (hsram : s.sramError (p.raddr.toNat + add) p.len.toNat = false)
    (hbulk : s.bulkError (p.raddr.toNat + add) p.len.toNat = false) :
    s.answerRead c p (.serve add)
      = ((s.touch (p.raddr.toNat + add)).countBulk 1 (p.raddr.toNat + add) p.len.toNat).sendResponses c p (p.raddr.toNat + add) := by
  unfold State.answerRead
  dsimp only
  rw [if_neg (by rw [hsram]; decide), if_neg (by rw [hbulk]; decide)]

/-- The fetches of a connection taken off its list. -/
def State.fetchesTaken (s : State) (c : Nat) : State := s.setConn c { s.conn c with fetches := [] }

theorem State.serveFetches_of_one (h : (s.conn c).fetches = [p]) :
    s.serveFetches c = (s.fetchesTaken c).answerRead c p (s.readState p) := by
  unfold State.serveFetches
  dsimp only
  rw [h]
  rfl

/-- What a read is counted for and wakes leaves memory and the connections. -/
theorem State.readCounted_spec (s : State) (a n : Nat) :
    ((s.touch a).countBulk 1 a n).mem = s.mem ∧ ((s.touch a).countBulk 1 a n).conns = s.conns := by
  have hcount : OnlyCounts (s.touch a) ((s.touch a).countBulk 1 a n) := State.countBulk_frame ..
  have htouch := s.touch_frame a
  exact ⟨hcount.mem.trans (Eq.trans (congrArg State.mem htouch) rfl), hcount.conns.trans (Eq.trans (congrArg State.conns htouch) rfl)⟩

end Sys2Proof.Machine

open Sys2Proof.Machine

/-- Settles O40: the barrier packets are taken by their bodies, and the other two events answer what the lemmas above say. -/
theorem barriersAndLatePlacement : Obligations.BarriersAndLatePlacement := by
  refine ⟨?arrive, ?release, ?late, ?fetch⟩
  case arrive =>
    intro p q n b s v hexp hb hgen hgroup hfew
    have htake := State.rxData_of_expected hexp State.takeArrive State.ackAgain
    have hpsn : q.psn = (v.conn p.dconn.toNat).epsn := hexp.2.choose_spec.2.2
    rw [← hexp.dconn] at hb hpsn ⊢
    rw [State.takeArrive_of_held hb hgen hgroup hfew] at htake
    obtain ⟨hepsn, hsyncs⟩ := (v.setSync n { v.sync n with
      children := (q.dconn.toNat - b.conn0 - 1) :: (v.sync n).children }).taken_spec q.dconn.toNat q 1 0
    refine ⟨_, congrArg Host.Outcome.next htake, hepsn.trans (by rw [hpsn]; rfl), ?_⟩
    exact (congrArg (fun x : Tab syncReset => x.get n) hsyncs).trans (State.setSync_sync_self ..)
  case release =>
    intro p q n i b s v hexp hb hgen hsent hgroup hindex hfew
    have htake := State.rxData_of_expected hexp State.takeRelease State.ackAgain
    have hpsn : q.psn = (v.conn p.dconn.toNat).epsn := hexp.2.choose_spec.2.2
    rw [← hexp.dconn] at hb hpsn ⊢
    rw [State.takeRelease_of_held hb hgen hsent hgroup hindex hfew] at htake
    obtain ⟨hdone, hstill⟩ := v.barrierDone_spec n b i
    obtain ⟨hepsn, hsyncs⟩ := (v.barrierDone n b i).taken_spec q.dconn.toNat q 1 0
    have hsync : ((v.barrierDone n b i).taken q.dconn.toNat q 1 0).sync n = (v.sync n).advanced :=
      (congrArg (fun x : Tab syncReset => x.get n) hsyncs).trans hdone
    refine ⟨_, congrArg Host.Outcome.next htake, hepsn.trans (by rw [hstill, hpsn]; rfl), ?_⟩
    rw [Option.getD_some, hsync]
    exact ⟨rfl, rfl, rfl⟩
  case late =>
    intro p q u s hdata hask hadmit hpsn
    obtain ⟨⟨a, hout, hkind, hapsn, hoff⟩, hepsn, hmem, hobj⟩ := u.sendNak_spec p.dconn.toNat q.psn 3 0
    refine ⟨_, congrArg Host.Outcome.next (State.placementTimeout_of_late hdata hask hadmit hpsn), hepsn.trans hpsn.symm,
      hmem.trans (State.admitPacket_mem hadmit), ?_, a, hout, hkind, hapsn, by rw [hoff]; rfl⟩
    rw [State.count_obj_self, hobj _ _ (by decide) (by decide)]
  case fetch =>
    intro c p add s hone hread hsram hbulk
    have hserve := State.serveFetches_of_one hone
    rw [hread, State.answerRead_of_clean (s := s.fetchesTaken c) hsram hbulk] at hserve
    obtain ⟨hmem, hconns⟩ := (s.fetchesTaken c).readCounted_spec (p.raddr.toNat + add) p.len.toNat
    obtain ⟨hcounts, hsent⟩ := State.sendResponses_spec (((s.fetchesTaken c).touch (p.raddr.toNat + add)).countBulk 1
      (p.raddr.toNat + add) p.len.toNat) c p (p.raddr.toNat + add)
    refine ⟨_, congrArg Host.Outcome.next hserve, ?_, hcounts.mem.trans hmem, hsent⟩
    rw [hcounts.conn, State.conn, hconns]
    exact congrArg Conn.fetches (State.setConn_conn_self ..)

end

section
/-! Why UPDATE_ELEMENT does not always write the optimiser's result (R215, R220): the words read of a gradient are counted in the registers
of a core, by the address of the gradient, and a shard whose gradients run past the cores' windows counts in an optimiser register. -/

namespace Sys2Proof.Machine

/-- An entry of optimiser set 0 with 8,912,897 blocks, of FP32 working copies, whose gradients begin at address 0: its element `farElem`
has its gradient 0x110 core windows above them, where the place of core n's registers, 0x3400 + n, is that of the set's. -/
def farEntry : UpdEntry where
  wc := BitVec.ofNat 256 (2 ^ 16 + 1024 * 2 ^ 32 + (2 ^ 24 - 1) * 2 ^ 56)
  gid := 0
  opt := 0
  decay := false
  skipnf := false
  sharded := true
  first := 0
  nblk := 8912897
  mbase := bulkBase
  gbase := 0
  agrp := 0

def farElem : Nat := 0x110 * 2 ^ 25

/-- Momentum SGD with learning rate and momentum 1.0 runs on it in partition 0: M of the element is 1.0, all else is 0. -/
def farState : State :=
  let s := State.reset.setPart 0 { upd := .running, updList := [farEntry] }
  let s := ((s.setObj 0x3510 1 2).setObj 0x3510 2 0x3F800000).setObj 0x3510 3 0x3F800000
  let s := (List.range 16).foldl (fun s m => s.setObj 0x3460 (m + 1) 4096) s
  { s with mem := s.mem.setList (recAddr bulkBase farElem 1) [0x00, 0x00, 0x80, 0x3F] }

/-- What the clause asks of the state: the element is not yet updated, and its words are there to read. -/
theorem farState_premises :
    (farState.part 0).updList[0]? = some farEntry ∧ (farState.part 0).upd = .running ∧ farElem < 1024 * farEntry.nblk
      ∧ (farState.part 0).updDone.get (updKey 0 farElem) ≠ 1 ∧ farState.sramError (farEntry.gbase + 4 * farElem) 4 = false
      ∧ (∀ a, a < 3 → farState.bulkError (recAddr farEntry.mbase farElem a) 4 = false
        ∧ farState.bulkReady (recAddr farEntry.mbase farElem a - bulkBase) 4 = true)
      ∧ farState.redirectBusy (farEntry.gbase + 4 * farElem) 4 = none := by decide +kernel

/-- Its places: records in bulk memory, gradients below it, working copies that are not compressed, and a tile with elements left. -/
theorem farState_places :
    bulkBase ≤ farEntry.mbase ∧ farEntry.mbase + 12288 * farEntry.nblk ≤ hostBase ∧ farEntry.gbase < 0x80000000
      ∧ farState.obj (0x3510 + farEntry.opt) 1 < 3 ∧ inCompressed farState farEntry.tensor.base = false
      ∧ (farState.setPart 0 { farState.part 0 with updDone := (farState.part 0).updDone.set (updKey 0 farElem) 1 }).tileDone 0 0 farEntry
        ((farEntry.first + farElem / 1024) / 32) = false := by decide +kernel

/-- The counter of words read is the learning rate, which has become 1 + 2^-23. -/
theorem farState_updated :
    (farState.updateElement 0 0 farElem).recAt bulkBase farElem = ⟨0xBF800001, 0x3F800000, 0⟩ := by decide +kernel

/-- The working copy lies apart: its cells are those of core 0. -/
theorem farEntry_cells (v : State) : ∀ x ∈ v.emitCells 0 farEntry (farState.wcBack farEntry.tensor)
      ((farState.wcBack farEntry.tensor).elemPos (farEntry.first + farElem / 1024) (farElem % 1024)).1
      ((farState.wcBack farEntry.tensor).elemPos (farEntry.first + farElem / 1024) (farElem % 1024)).2,
    x.1 < farEntry.mbase ∨ farEntry.mbase + 12288 * farEntry.nblk ≤ x.1 := by
  intro x hx
  rw [State.emitCells, if_neg (by decide +kernel)] at hx
  have hlast := (Sys2Proof.Tests.mem_codeCells hx).2
  rw [show Tensor.codeAddr _ _ _ = 4194304 from by decide +kernel, show elemSize _ = 4 from by decide +kernel] at hlast
  exact .inl (Nat.lt_trans hlast (by decide +kernel))

end Sys2Proof.Machine

open Sys2Proof.Machine

/-- Refutes O43: the clause on an element takes the learning rate as it stands before the gradient's words are counted, and in `farState`
the count changes it. The check of the list (R216) would refuse `farEntry`, whose gradients reach past the vaults, but the clause
does not ask that the list has passed it. -/
theorem not_updateWritesRecordsAndTiles : ¬ Obligations.UpdateWritesRecordsAndTiles := by
  rintro ⟨hupdate, -⟩
  obtain ⟨hentry, hrun, hlt, hnew, hsram, hbulk, hfree⟩ := farState_premises
  obtain ⟨hlo, hhi, hgrad, hkind, hplain, htile⟩ := farState_places
  obtain ⟨t, ht, hrec, -⟩ := hupdate 0 0 farElem farEntry farState hentry hrun hlt hnew hsram hbulk hfree rfl rfl hlo hhi hgrad hkind
    hplain htile farEntry_cells
  have hstep : farState.updateElement 0 0 farElem = t := Host.Outcome.next.inj ht
  have hclaim : t.recAt bulkBase farElem = ⟨0xBF800000, 0x3F800000, 0⟩ := hrec.trans (by decide +kernel)
  rw [← hstep, farState_updated] at hclaim
  exact absurd hclaim (by decide)

end

section
/-! Members of a job (R235, R236, R243, R244): heartbeats, failed ranks, a lead taken over, a job held, a spare that takes a rank. -/

namespace Sys2Proof.Machine

variable {s t u : State} {n r old : Nat} {c : FailCause}

/-! ### Ranks and roles (R234) -/

theorem State.inJob_of_member (h : s.obj 0x3500 2 = 2) : s.inJob = true := by
  rw [State.inJob, h]
  rfl

theorem State.isLead_of_member (h : s.obj 0x3500 2 = 2) : s.isLead = false := by
  rw [State.isLead, h]
  rfl

theorem State.lt_of_rankOfNode (h : s.rankOfNode n = some r) : r < s.jobReps := List.mem_range.1 (List.mem_of_find?_eq_some h)

theorem State.nodeOfRank_congr (hg : t.job.given = s.job.given) (ho : t.obj 0x3500 6 = s.obj 0x3500 6)
    (hm : ∀ a k, t.natAt a k = s.natAt a k) (r : Nat) : t.nodeOfRank r = s.nodeOfRank r := by
  unfold State.nodeOfRank
  rw [hg, ho, hm]

/-- ROLE and the membership record are set, and nothing else (R414). -/
theorem State.setRole_spec (s : State) (r : Nat) :
    (s.setRole r).obj 0x3500 2 = r ∧ SameObjs s (s.setRole r) [(0x3500, 2)]
      ∧ (s.setRole r).member = (if r = 0 then none else if r ≤ 3 then some (BitVec.ofNat 32 (s.obj 0x3500 1), r) else s.member)
      ∧ s.setRole r = { s with objs := (s.setRole r).objs, member := (s.setRole r).member } := by
  have hid : (s.setObj 0x3500 2 r).obj 0x3500 1 = s.obj 0x3500 1 := State.setObj_obj_ne _ _ _ _ _ _ (by decide) (by decide) (by decide)
  refine ⟨State.setObj_obj_self .., State.setObj_sameObjs (by decide), ?_, rfl⟩
  rw [← hid]
  rfl

/-! ### Heartbeats (R235) -/

theorem State.heartbeat_of_other (hup : s.spDown0 = false) (hjob : s.inJob = true) (hn : n ≠ s.ownNode) :
    s.heartbeat n = s.withJob { s.job with missed := s.job.missed.set n 0 } := by
  unfold State.heartbeat
  rw [if_neg (by rw [hup, hjob]; decide), if_neg hn]
  rfl

theorem State.heartbeat_of_own (hup : s.spDown0 = false) (hrole : s.obj 0x3500 2 = 2) (hn : n = s.ownNode) :
    s.heartbeat n = s.emit (.jobMessage (s.obj 0x3500 3) 0x405 s.ownRank) := by
  unfold State.heartbeat
  rw [if_neg (by rw [hup, State.inJob_of_member hrole]; decide), if_pos hn, if_neg (by rw [State.isLead_of_member hrole]; decide)]
  rfl

/-! ### Failures (R235, R243) -/

/-- A rank fails for the first time outside a recovery. -/
def State.firstFailed (s : State) (r : Nat) : State :=
  s.withJob { s.job with
    failed := s.job.failed ++ [(r, s.nodeOfRank r)]
    declared := if s.job.failed.isEmpty then s.now else s.job.declared }

theorem State.declareFailed_of_first (hlead : s.isLead = true) (hr : r < s.jobReps) (hown : r ≠ s.ownRank)
    (hrec : s.recoveringJob = false) (hfirst : ∀ f ∈ s.job.failed, f.1 ≠ r) : s.declareFailed r = s.firstFailed r := by
  have hnew : ¬ (s.job.failed.any fun f => f.1 == r) = true := by
    rw [List.any_eq_true]
    rintro ⟨f, hf, he⟩
    exact hfirst f hf (beq_iff_eq.1 he)
  unfold State.declareFailed
  rw [if_neg (by simp [hlead, hr, hown]), if_pos (by rw [hrec]; rfl), if_neg hnew]
  rfl

/-- A node's heartbeats are lost. -/
def State.lossNoted (s : State) (n : Nat) : State := s.withJob { s.job with missed := s.job.missed.set n 3 }

theorem State.heartbeatLoss_at_lead (hup : s.spDown0 = false) (hlead : s.isLead = true) (hn : s.rankOfNode n = some r) :
    s.heartbeatLoss n = (s.lossNoted n).declareFailed r := by
  have hrank : (s.lossNoted n).rankOfNode n = some r := hn
  have hrole : (s.lossNoted n).isLead = true := hlead
  unfold State.heartbeatLoss
  rw [if_neg (by rw [hup, State.inJob_of_lead hlead]; decide)]
  change (match (s.lossNoted n).rankOfNode n with
    | none => s.lossNoted n
    | some r => if (s.lossNoted n).isLead then (s.lossNoted n).declareFailed r else _) = _
  rw [hrank]
  exact if_pos hrole

/-- A fault that a repeat would meet again holds the job. -/
theorem State.failureReport_of_fault (hlead : s.isLead = true) (hr : r < s.jobReps) (hc : c = .programFault ∨ c = .updateParameter) :
    s.failureReport r c = s.holdJob := by
  unfold State.failureReport
  rw [if_neg (by simp [hlead, hr])]
  obtain rfl | rfl := hc <;> rfl

theorem State.failureReport_of_device (hlead : s.isLead = true) (hr : r < s.jobReps) (hp : c ≠ .programFault) (hu : c ≠ .updateParameter) :
    s.failureReport r c = s.declareFailed r := by
  unfold State.failureReport
  rw [if_neg (by simp [hlead, hr])]
  split
  · exact absurd rfl hp
  · exact absurd rfl hu
  · rfl

/-! ### The lead taken over (R236) -/

/-- This device is the lead, and the members are told. -/
def State.leadTaken (s : State) : State := ((s.setRole 1).setObj 0x3500 3 s.ownNode).tellMembers 0x407 s.ownNode

/-- From `s` to `t` this device has become the lead: only its role, the lead's node and the membership record have changed. -/
structure LeadTaken (s t : State) : Prop where
  role   : t.obj 0x3500 2 = 1
  lead   : t.obj 0x3500 3 = s.ownNode
  member : t.member = some (BitVec.ofNat 32 (s.obj 0x3500 1), 1)
  regs   : SameObjs s t [(0x3500, 2), (0x3500, 3)]
  job    : t.job = s.job
  mem    : ∀ a k, t.natAt a k = s.natAt a k
  frame  : t = { s with objs := t.objs, job := t.job, member := t.member, out := t.out }

theorem State.leadTaken_spec (s : State) : LeadTaken s s.leadTaken := by
  obtain ⟨hrole, hregs, hmember, -⟩ := s.setRole_spec 1
  unfold State.leadTaken
  rw [State.tellMembers_frame]
  exact {
    role := (State.setObj_obj_ne _ _ _ _ _ _ (by decide) (by decide) (by decide)).trans hrole
    lead := State.setObj_obj_self ..
    member := hmember
    regs := hregs.append (State.setObj_sameObjs (by decide))
    job := rfl
    mem := fun _ _ => rfl
    frame := rfl }

theorem State.deputyTakeover_of_silent (hold : s.rankOfNode (s.obj 0x3500 3) = some old) (hrole : s.obj 0x3500 2 = 2)
    (hdep : s.deputyRank old = s.ownRank) : s.deputyTakeover false = s.leadTaken.declareFailed old := by
  have hown : ((s.setRole 1).setObj 0x3500 3 s.ownNode).ownNode = s.ownNode :=
    (State.setObj_obj_ne _ _ _ _ _ _ (by decide) (by decide) (by decide)).trans
      (State.setObj_obj_ne _ _ _ _ _ _ (by decide) (by decide) (by decide))
  unfold State.deputyTakeover
  rw [hold]
  dsimp only
  rw [if_neg (by simp [hrole, hdep]), hown]
  rfl

theorem State.deputyTakeover_spec (hold : s.rankOfNode (s.obj 0x3500 3) = some old) (hrole : s.obj 0x3500 2 = 2)
    (hdep : s.deputyRank old = s.ownRank) (hne : old ≠ s.ownRank) (hrec : s.recoveringJob = false) (hfirst : ∀ f ∈ s.job.failed, f.1 ≠ old) :
    ∃ t, LeadTaken s t ∧ s.deputyTakeover false = t.firstFailed old ∧ t.nodeOfRank old = s.nodeOfRank old := by
  have h := s.leadTaken_spec
  have hreg : ∀ k, k < 256 → k ≠ 2 → k ≠ 3 → s.leadTaken.obj 0x3500 k = s.obj 0x3500 k := fun k hk h2 h3 =>
    h.regs _ k hk (by simp [h2, h3])
  have hreps : s.leadTaken.jobReps = s.jobReps := hreg 5 (by decide) (by decide) (by decide)
  have hrank : s.leadTaken.ownRank = s.ownRank := hreg 4 (by decide) (by decide) (by decide)
  have hst : s.leadTaken.recoveringJob = s.recoveringJob :=
    congrArg (· == 2) (hreg 0x13 (by decide) (by decide) (by decide))
  have hnode := State.nodeOfRank_congr (congrArg Job.given h.job) (hreg 6 (by decide) (by decide) (by decide)) h.mem old
  refine ⟨s.leadTaken, h, ?_, hnode⟩
  rw [State.deputyTakeover_of_silent hold hrole hdep]
  refine State.declareFailed_of_first (State.isLead_iff.2 h.role) ?_ ?_ (hst.trans hrec) (by rw [h.job]; exact hfirst)
  · rw [hreps]
    exact State.lt_of_rankOfNode hold
  · rw [hrank]
    exact hne

/-! ### A job held (R243) -/

theorem OnlyNotesParts.job (h : OnlyNotesParts s u) : u.job = s.job := Eq.trans (congrArg State.job h) rfl

/-- The job's partition, HELD if it ran, with the job's state cleared. -/
def State.jobHeld (s : State) : State := (if s.pstate s.jobP = 3 then s.enterHeld s.jobP 0 else s).setObj 0x3500 0x13 0

theorem State.jobHeld_spec (s : State) :
    s.jobHeld.obj 0x3500 0x13 = 0 ∧ (s.pstate s.jobP = 3 → s.jobHeld.pstate s.jobP = 4) ∧ OnlyNotesParts s s.jobHeld := by
  unfold State.jobHeld
  refine ⟨State.setObj_obj_self .., fun h => ?_, ?_⟩
  · rw [if_pos h]
    exact (State.setObj_obj_ne _ _ _ _ _ _ (by decide) (by decide) (by simp)).trans (s.enterHeld_obj s.jobP 0).1
  · split
    · exact (s.enterHeld_onlyNotesParts _ _).trans (State.setObj_onlyNotesParts ..)
    · exact s.setObj_onlyNotesParts ..

theorem State.holdJob_eq (s : State) :
    s.holdJob = s.jobHeld ∨ s.holdJob = { s.jobHeld with out := (s.jobHeld.tellMembers 0x404 0).out } := by
  have heq : s.holdJob = if s.jobHeld.isLead then s.jobHeld.tellMembers 0x404 0 else s.jobHeld := rfl
  rw [heq]
  split
  · exact .inr (State.tellMembers_frame ..)
  · exact .inl rfl

theorem State.holdJob_spec (s : State) :
    s.holdJob.obj 0x3500 0x13 = 0 ∧ (s.pstate s.jobP = 3 → s.holdJob.pstate s.jobP = 4)
      ∧ s.holdJob.job = s.job ∧ s.holdJob.cores = s.cores ∧ s.holdJob.mem = s.mem := by
  obtain ⟨hst, hheld, hframe⟩ := s.jobHeld_spec
  obtain h | h := s.holdJob_eq <;> rw [h] <;> exact ⟨hst, hheld, hframe.job, hframe.cores, hframe.mem⟩

/-! ### A spare takes a rank (R244) -/

/-- A spare becomes a member under a rank, in a job that recovers. -/
def State.spareTaken (s : State) (r : Nat) : State := ((s.setRole 2).setObj 0x3500 4 r).setObj 0x3500 0x13 2

theorem State.spareTakeover_of_spare (h : s.obj 0x3500 2 = 3) : s.spareTakeover r = s.spareTaken r := if_pos h

theorem State.spareTaken_spec (s : State) (r : Nat) :
    (s.spareTaken r).obj 0x3500 2 = 2 ∧ (s.spareTaken r).obj 0x3500 4 = r ∧ (s.spareTaken r).obj 0x3500 0x13 = 2
      ∧ (s.spareTaken r).member = some (BitVec.ofNat 32 (s.obj 0x3500 1), 2)
      ∧ SameObjs s (s.spareTaken r) [(0x3500, 2), (0x3500, 4), (0x3500, 0x13)]
      ∧ s.spareTaken r = { s with objs := (s.spareTaken r).objs, member := (s.spareTaken r).member } := by
  obtain ⟨hrole, hregs, hmember, hframe⟩ := s.setRole_spec 2
  unfold State.spareTaken
  generalize s.setRole 2 = u at *
  refine ⟨?_, ?_, State.setObj_obj_self .., hmember, ?_, ?_⟩
  · simpa [State.setObj_obj_eq] using hrole
  · simp [State.setObj_obj_eq]
  · exact (hregs.append (State.setObj_sameObjs (i := 0x3500) (k := 4) (v := r) (by decide))).append (State.setObj_sameObjs (by decide))
  · exact congrArg (fun x : State => { x with objs := ((u.setObj 0x3500 4 r).setObj 0x3500 0x13 2).objs }) hframe

/-! ### Digests kept (R237) -/

/-- The digests of a step, with this rank's in place of one that it has reported before. -/
def State.digestsWith (s : State) (r : Nat) (step : Word) (wc d : BitVec 64) : List (Nat × BitVec 64 × BitVec 64) :=
  (if s.job.digStep = step then s.job.digests.filter fun x => x.1 != r else []) ++ [(r, wc, d)]

theorem State.eq_of_mem_digestsWith {step : Word} {wc d : BitVec 64} {x : Nat × BitVec 64 × BitVec 64}
    (hx : x ∈ s.digestsWith r step wc d) (hr : x.1 = r) : x = (r, wc, d) := by
  unfold State.digestsWith at hx
  obtain hold | hnew := List.mem_append.1 hx
  · split at hold
    · have hne := (List.mem_filter.1 hold).2
      rw [hr, bne_self_eq_false] at hne
      cases hne
    · cases hold
  · exact List.mem_singleton.1 hnew

def State.digestsNoted (s : State) (r : Nat) (step : Word) (wc d : BitVec 64) : State :=
  s.withJob { s.job with digests := s.digestsWith r step wc d, digStep := step }

/-- The master digest is compared with the one kept, and then the replicas' digests with each other. -/
theorem State.digestReport_of_lead (step : Word) (wc d : BitVec 64) (hlead : s.isLead = true) (hr : r < s.jobReps) :
    s.digestReport r step wc d =
      (let u := (s.digestsNoted r step wc d).keepDigest r step d
       if u.replicated && u.job.digests.length == u.jobReps then u.judgeDigests else u) := if_neg (by simp [hlead, hr])

theorem State.digestReport_of_kept (step : Word) (wc d : BitVec 64) (hlead : s.isLead = true) (hr : r < s.jobReps)
    (hrep : s.replicated = false) (hmode : s.obj (0x3050 + s.jobP) 1 ≠ 1) :
    s.digestReport r step wc d = s.digestsNoted r step wc d := by
  have hkeep : (s.digestsNoted r step wc d).keepDigest r step d = s.digestsNoted r step wc d := if_pos hmode
  have hjob : (s.digestsNoted r step wc d).replicated = false := hrep
  rw [State.digestReport_of_lead step wc d hlead hr, hkeep]
  dsimp only
  rw [hjob, Bool.false_and, if_neg Bool.false_ne_true]

end Sys2Proof.Machine
end

section
/-! The registers that a store counts in (R131, R139): those of scratchpads, bulk channels and quadrants. -/

namespace Sys2Proof.Machine

variable {s t u : State}

/-- From `s` to `t` no register has changed outside 0x3400 to 0x34FF, where those of scratchpads, channels and quadrants lie. -/
structure StoreRegs (s t : State) : Prop where
  same : ∀ i k, k < 256 → i < 0x3400 ∨ 0x3500 ≤ i → t.obj i k = s.obj i k

theorem StoreRegs.refl (s : State) : StoreRegs s s := ⟨fun _ _ _ _ => rfl⟩

theorem StoreRegs.trans (h : StoreRegs s t) (g : StoreRegs t u) : StoreRegs s u :=
  ⟨fun i k hk hi => (g.same i k hk hi).trans (h.same i k hk hi)⟩

theorem StoreRegs.of_same (h : t.objs = s.objs) : StoreRegs s t := ⟨fun _ _ _ _ => State.obj_congr h ..⟩

theorem StoreRegs.of_regs {l : List (Nat × Nat)} (h : SameObjs s t l) (hl : ∀ x ∈ l, 0x3400 ≤ x.1 ∧ x.1 < 0x3500) : StoreRegs s t :=
  ⟨fun i k hk hi => h i k hk fun hm => by
    have hx : 0x3400 ≤ i ∧ i < 0x3500 := hl _ hm
    omega⟩

theorem StoreRegs.ite {p : Prop} [Decidable p] (h : p → StoreRegs s t) (g : ¬ p → StoreRegs s u) : StoreRegs s (if p then t else u) := by
  split
  · next hp => exact h hp
  · next hp => exact g hp

/-- Bytes written through a channel are counted in the channel's registers. -/
theorem State.countBulk_storeRegs (s : State) (a n : Nat) : StoreRegs s (s.countBulk 2 a n) := by
  unfold State.countBulk
  refine .ite (fun _ => ?_) fun _ => ?_
  · refine List.foldlRecOn _ _ (motive := StoreRegs s) (.refl s) fun t h m hm => ?_
    have hm : m < 16 := List.mem_range.1 hm
    exact h.trans (.ite (fun _ => .refl t) fun _ => .of_regs (State.setObj_sameObjs (by decide)) (by simp; omega))
  · rw [if_neg fun h => absurd h.2.1 (by decide)]
    exact .refl s

theorem State.touch_storeRegs (s : State) (a : Nat) : StoreRegs s (s.touch a) :=
  .ite (fun _ => .of_regs (State.wakeQuad_sameObjs s _) (by simp; omega)) fun _ => .refl s

theorem State.putBytes_storeRegs (s : State) (a : Nat) (bs : List Byte) : StoreRegs s (s.putBytes a bs) := by
  unfold State.putBytes
  dsimp only
  refine .ite (fun _ => .refl s) fun _ => StoreRegs.trans (t := if a < 0x80000000 then
      (s.touch a).flushHeld (a / 0x8000000) (a % 0x8000000 / 64) ((a + bs.length - 1) % 0x8000000 / 64) else s.countBulk 2 a bs.length)
    ?_ (.of_same rfl)
  refine .ite (fun _ => (s.touch_storeRegs a).trans (.of_regs (State.flushHeld_sameObjs _ _ _ _) ?_)) fun _ => s.countBulk_storeRegs ..
  simp
  omega

end Sys2Proof.Machine

end

section
/-! A device that is not at REST stays out of it (R163, R244): what a partition's end and a hold write of the device state. Only where
the power state settles is the register written, and then with 2 or 3. -/

namespace Sys2Proof.Machine

variable {s t u : State} {c d p : Nat}

/-- From `s` to `t` a device that was not at REST is not at REST. -/
structure OutOfRest (s t : State) : Prop where
  up : s.obj 0x2000 1 ≠ 1 → t.obj 0x2000 1 ≠ 1

theorem OutOfRest.refl (s : State) : OutOfRest s s := ⟨id⟩

theorem OutOfRest.trans (h : OutOfRest s t) (g : OutOfRest t u) : OutOfRest s u := ⟨g.up ∘ h.up⟩

theorem OutOfRest.of_obj (h : t.obj 0x2000 1 = s.obj 0x2000 1) : OutOfRest s t := ⟨fun hs => h.trans_ne hs⟩

theorem OutOfRest.of_same (h : t.objs = s.objs) : OutOfRest s t := .of_obj (State.obj_congr h ..)

theorem OutOfRest.of_regs {l : List (Nat × Nat)} (h : SameObjs s t l) (hl : ∀ x ∈ l, x.1 ≠ 0x2000) : OutOfRest s t :=
  .of_obj (h _ _ (by decide) fun hm => hl _ hm rfl)

theorem OutOfRest.foldl {α : Type} {f : State → α → State} (xs : List α) (hf : ∀ t, ∀ y ∈ xs, OutOfRest t (f t y)) :
    OutOfRest s (xs.foldl f s) :=
  List.foldlRecOn xs f (motive := OutOfRest s) (.refl s) fun t h y hy => h.trans (hf t y hy)

theorem OutOfRest.ite {p : Prop} [Decidable p] (h : p → OutOfRest s t) (g : ¬ p → OutOfRest s u) :
    OutOfRest s (if p then t else u) := by
  split
  · next hp => exact h hp
  · next hp => exact g hp

theorem State.setObj_outOfRest (s : State) {i k : Nat} (v : Nat) (hk : k < 256) (hi : i ≠ 0x2000) : OutOfRest s (s.setObj i k v) :=
  .of_regs (State.setObj_sameObjs hk) (by simpa using hi)

theorem State.count_outOfRest (s : State) {i k : Nat} (w n : Nat) (hk : k < 256) (hi : i ≠ 0x2000) : OutOfRest s (s.count i k w n) :=
  s.setObj_outOfRest _ hk hi

theorem State.logEvent_outOfRest (s : State) (unit code detail : Nat) : OutOfRest s (s.logEvent unit code detail) :=
  .of_regs (s.logEvent_sameObjs unit code detail) (by simp)

/-- The power state that settles is 2 or 3. -/
theorem State.settlePower_outOfRest (s : State) : OutOfRest s s.settlePower := by
  have hset : ∀ v d, v ≠ 1 → OutOfRest s ((s.setObj 0x2000 1 v).logEvent 0x41 0x0C01 d) := fun v d hv =>
    ⟨fun _ => (State.logEvent_outOfRest ..).up (by rwa [State.setObj_obj_self])⟩
  unfold State.settlePower
  exact .ite (fun _ => hset 3 _ (by decide)) fun _ => .ite (fun _ => hset 2 _ (by decide)) fun _ => .refl s

theorem State.enterHeld_outOfRest (s : State) (p cause : Nat) : OutOfRest s (s.enterHeld p cause) :=
  OutOfRest.trans (.of_regs (s.heldMarked_sameObjs p cause) (by simp; omega)) (State.settlePower_outOfRest _)

/-! ### Stores -/

theorem State.putBytes_outOfRest (s : State) (a : Nat) (bs : List Byte) : OutOfRest s (s.putBytes a bs) :=
  .of_obj ((s.putBytes_storeRegs a bs).same _ _ (by decide) (.inl (by decide)))

theorem State.putHalves_outOfRest (s : State) (a n : Nat) (bs : List Byte) : OutOfRest s (s.putHalves a n bs) := by
  induction n generalizing s a bs with
  | zero => exact .refl s
  | succ n ih =>
    unfold State.putHalves
    exact .ite (fun _ => .refl s) fun _ => OutOfRest.trans (.ite (fun _ => .refl s) fun _ => s.putBytes_outOfRest ..) (ih ..)

theorem State.hostPart_outOfRest (s : State) (o : Output) {a : Nat} (n : Nat) (h : a < 2 ^ 44 + hostSize) :
    OutOfRest s ((s.emit o).countHost 4 a n) := by
  refine .ite (fun _ => .of_same rfl) fun _ => OutOfRest.trans (t := s.emit o) (.of_same rfl) (State.count_outOfRest _ _ _ (by decide) ?_)
  simp only [hostSize, hostBase] at *
  omega

theorem State.hostPut_outOfRest (s : State) {a : Nat} (bs : List Byte) (h : a < 2 ^ 44) : OutOfRest s (s.hostPut a bs) := by
  have hm : min bs.length (hostSize - (a - hostBase) % hostSize) ≤ hostSize := by omega
  unfold State.hostPut
  dsimp only
  refine .ite (fun _ => s.hostPart_outOfRest _ _ (by omega)) fun _ => ?_
  exact (s.hostPart_outOfRest _ _ (by omega)).trans (State.hostPart_outOfRest _ _ _ (by omega))

theorem State.boreStore_outOfRest (s : State) (p a : Nat) (bs : List Byte) : OutOfRest s (s.boreStore p a bs) := by
  unfold State.boreStore
  refine .ite (fun h => ?_) fun _ => .refl s
  unfold State.boreWrite
  refine .ite (fun _ => s.hostPut_outOfRest bs (lt_of_boreReach h)) fun _ => .ite (fun _ => s.putBytes_outOfRest a bs) fun _ => ?_
  exact (s.putHalves_outOfRest ..).trans (State.count_outOfRest _ _ _ (by decide) (by omega))

/-! ### Completions and connections (R283, R286) -/

theorem State.setConn_outOfRest (s : State) (c : Nat) (x : Conn) : OutOfRest s (s.setConn c x) := .of_same rfl

theorem State.finish_outOfRest (s : State) (c : Nat) (e : WorkEntry) (code : Nat) (recv immv : Bool) (bytes imm : Nat) :
    OutOfRest s (s.finish c e code recv immv bytes imm) := by
  unfold State.finish
  refine .ite (fun _ => .refl s) fun _ => ?_
  extract_lets s1 x s2 s3
  have h1 : OutOfRest s s1 := .ite (fun _ => (s.boreStore_outOfRest ..).trans (.of_same rfl)) fun _ => .refl s
  have h2 : OutOfRest s1 s2 := .ite (fun _ => .of_same rfl) fun _ => .refl s1
  have h3 : OutOfRest s2 s3 := by
    unfold s3
    split <;> exact .of_same rfl
  exact ((h1.trans h2).trans h3).trans (.ite (fun _ => .of_same rfl) fun _ => .refl s3)

theorem State.finishSend_outOfRest (s : State) (c : Nat) (e : WorkEntry) (code bytes imm : Nat) :
    OutOfRest s (s.finishSend c e code bytes imm) := (s.setConn_outOfRest ..).trans (State.finish_outOfRest ..)

theorem State.finishRecv_outOfRest (s : State) (c : Nat) (e : WorkEntry) (code bytes : Nat) (immv : Bool) (imm : Nat) :
    OutOfRest s (s.finishRecv c e code bytes immv imm) := (s.setConn_outOfRest ..).trans (State.finish_outOfRest ..)

theorem State.flushConn_outOfRest (s : State) (c : Nat) : OutOfRest s (s.flushConn c) :=
  OutOfRest.trans (.foldl _ fun t _ _ => t.finishSend_outOfRest ..) (.foldl _ fun t _ _ => t.finishRecv_outOfRest ..)

theorem State.breakChains_outOfRest (s : State) (c : Nat) : OutOfRest s (s.breakChains c) := by
  unfold State.breakChains
  refine .foldl _ fun t d _ => ?_
  split
  · exact .ite (fun _ => t.finishSend_outOfRest ..) fun _ => .refl t
  · exact .refl t

theorem State.countOpen_outOfRest (s : State) : OutOfRest s s.countOpen := s.setObj_outOfRest _ (by decide) (by decide)

theorem State.connError_outOfRest (s : State) (c err : Nat) : OutOfRest s (s.connError c err) :=
  (((s.setConn_outOfRest ..).trans (State.logEvent_outOfRest ..)).trans (State.flushConn_outOfRest ..)).trans
    ((State.breakChains_outOfRest ..).trans (State.countOpen_outOfRest _))

theorem State.countFrame_outOfRest (s : State) (link : Nat) (p : Packet) : OutOfRest s (s.countFrame link p) := by
  unfold State.countFrame
  split
  · exact (s.count_outOfRest _ _ (by decide) (by omega)).trans (State.count_outOfRest _ _ _ (by decide) (by omega))
  · exact .refl s

theorem State.sendPacket_outOfRest (s : State) (c : Nat) (p : Packet) : OutOfRest s (s.sendPacket c p) :=
  ((s.count_outOfRest _ _ (by decide) (by decide)).trans (State.count_outOfRest _ _ _ (by decide) (by decide))).trans
    ((State.countFrame_outOfRest ..).trans (.of_same rfl))

theorem State.connHandOver_outOfRest (s : State) (c : Nat) : OutOfRest s (s.connHandOver c) := by
  unfold State.connHandOver
  refine .ite (fun _ => .refl s) fun _ => ?_
  exact ((s.flushConn_outOfRest c).trans (State.sendPacket_outOfRest ..)).trans
    ((State.setConn_outOfRest ..).trans (State.countOpen_outOfRest _))

/-! ### A partition dissolved (R162, R163) -/

theorem State.handOverCore_outOfRest (s : State) (tr : Option WipeTrigger) (hc : c < 16) : OutOfRest s (State.handOverCore tr s c) := by
  obtain ⟨g, n, heq⟩ := s.handOverCore_eq tr c
  have hzero : ∀ u : State, OutOfRest u ((u.zeroScratch c).coreReset c g n) := fun u =>
    OutOfRest.trans (.of_regs (u.zeroScratch_sameObjs c) (by simp; omega)) (.of_same rfl)
  rw [heq]
  cases tr with
  | none => exact hzero s
  | some w =>
    obtain ⟨-, -, -, -, hregs⟩ := s.wipeVault_spec w hc
    exact OutOfRest.trans (.of_regs hregs (by simp; omega)) (hzero _)

theorem State.handOver_outOfRest (s : State) (p : Nat) {l : List Nat} (tr : Option WipeTrigger) (hl : ∀ c ∈ l, c < 16) :
    OutOfRest s (s.handOver p l tr) := by
  unfold State.handOver
  extract_lets u v w x
  have hu : OutOfRest s u := .foldl _ fun t c hc => t.handOverCore_outOfRest tr (hl c hc)
  have hv : OutOfRest u v := .of_same rfl
  have hw : OutOfRest v w := .foldl _ fun t c _ => .ite (fun _ => t.connHandOver_outOfRest c) fun _ => .refl t
  have hx : ∀ y, OutOfRest w (w.setPart p y) := fun y => .of_same rfl
  exact ((hu.trans hv).trans hw).trans ((hx _).trans (State.settlePower_outOfRest _))

theorem State.clearKeySlot_outOfRest (s : State) (k : Nat) (hk : k < 15) : OutOfRest s (s.clearKeySlot k) := by
  have hset : ∀ (t : State) (j v : Nat), j < 256 → OutOfRest t (t.setObj (0x1251 + k) j v) :=
    fun t j v hj => t.setObj_outOfRest v hj (by omega)
  unfold State.clearKeySlot
  extract_lets u v
  have hu : OutOfRest s u := .of_same rfl
  have hv : OutOfRest u v := ((hset u 1 _ (by decide)).trans (hset _ 2 _ (by decide))).trans
    ((hset _ 3 _ (by decide)).trans (hset _ 5 _ (by decide)))
  exact (hu.trans hv).trans (.foldl _ fun t c _ => .ite (fun _ => t.connError_outOfRest ..) fun _ => .refl t)

theorem State.dropRegions_outOfRest (s : State) (p : Nat) : OutOfRest s (s.dropRegions p) := by
  refine .foldl _ fun t r _ => .ite (fun _ => ?_) fun _ => .refl t
  refine (t.setObj_outOfRest _ (by decide) (by omega)).trans (.of_obj ((State.zeroSpan_obj _ _ _ _ (by decide)).trans (if_neg ?_)))
  omega

theorem State.unseal_outOfRest (s : State) (hp : p < 4) : OutOfRest s (s.unseal p) := by
  have hunbound : OutOfRest s (s.unbind p) := by
    unfold State.unbind
    split <;> exact .of_same rfl
  unfold State.unseal
  refine .ite (fun _ => .refl s) fun _ => ?_
  extract_lets u v w
  have hu : OutOfRest s u := hunbound.trans (State.dropRegions_outOfRest ..)
  clear_value u
  have hv : OutOfRest u v := .of_same rfl
  clear_value v
  have hw : OutOfRest v w := .foldl _ fun t k hk => t.setObj_outOfRest 0 (by simp at hk; omega) (by omega)
  exact (hu.trans hv).trans (hw.trans (.of_same rfl))

theorem State.dissolvePart_outOfRest (s : State) (hp : p < 4) (tr : Option WipeTrigger) : OutOfRest s (s.dissolvePart p tr) := by
  unfold State.dissolvePart
  extract_lets l t1 t2 t3
  have h1 : OutOfRest s t1 := s.handOver_outOfRest p tr fun c => State.lt_of_mem_coresOf
  have h2 : OutOfRest t1 t2 := .foldl _ fun t c hc => .of_regs (t.assignCore_sameObjs c 3 0xFF) (by
    have := State.lt_of_mem_coresOf hc
    simp
    omega)
  have h3 : OutOfRest t2 t3 := (t2.unseal_outOfRest hp).trans (.foldl _ fun t k hk =>
    t.clearKeySlot_outOfRest k (List.mem_range.1 (List.mem_of_mem_filter hk)))
  have h4 : OutOfRest t3 (t3.partSet p 0 0) :=
    (t3.setObj_outOfRest _ (by decide) (by omega)).trans (State.setObj_outOfRest _ _ (by decide) (by omega))
  exact ((h1.trans h2).trans h3).trans (h4.trans (State.settlePower_outOfRest _))

end Sys2Proof.Machine
end

section
/-! A device retired (R244): its partitions, its power state and its clocks. -/

namespace Sys2Proof.Machine

variable {s t u : State} {p q : Nat}

/-! ### States of partitions -/

/-- From `s` to `t` no partition has changed its state. -/
structure PartStates (s t : State) : Prop where
  same : ∀ q, q < 4 → t.pstate q = s.pstate q

theorem PartStates.refl (s : State) : PartStates s s := ⟨fun _ _ => rfl⟩

theorem PartStates.trans (h : PartStates s t) (g : PartStates t u) : PartStates s u := ⟨fun q hq => (g.same q hq).trans (h.same q hq)⟩

theorem PartStates.of_control (h : ControlStays s t) : PartStates s t := ⟨fun q hq => h.obj _ 2 (by omega) (by omega) (by decide)⟩

theorem PartStates.of_regs {l : List (Nat × Nat)} (h : SameObjs s t l) (hl : ∀ x ∈ l, x.1 < 0x3100 ∨ 0x3104 ≤ x.1) : PartStates s t :=
  ⟨fun q hq => h _ 2 (by decide) fun hm => by
    have hi : 0x3100 + q < 0x3100 ∨ 0x3104 ≤ 0x3100 + q := hl _ hm
    omega⟩

theorem PartStates.of_same (h : t.objs = s.objs) : PartStates s t := ⟨fun _ _ => State.obj_congr h ..⟩

theorem PartStates.foldl {α : Type} {f : State → α → State} (xs : List α) (hf : ∀ t, ∀ y ∈ xs, PartStates t (f t y)) :
    PartStates s (xs.foldl f s) :=
  List.foldlRecOn xs f (motive := PartStates s) (.refl s) fun t h y hy => h.trans (hf t y hy)

theorem State.setObj_partStates (s : State) {i k : Nat} (v : Nat) (hk : k < 256) (hi : i < 0x3100 ∨ 0x3104 ≤ i) :
    PartStates s (s.setObj i k v) := .of_regs (State.setObj_sameObjs hk) (by simpa using hi)

/-! ### REST (R131, R135, R394) -/

theorem State.wipeVault_partStates (s : State) {c : Nat} (tr : WipeTrigger) (hc : c < 16) : PartStates s (s.wipeVault c tr) := by
  obtain ⟨hregs, -⟩ := s.wipeVault_rest tr hc
  exact ⟨fun q hq => hregs _ 2 (by omega) (by omega) (by decide)⟩

theorem State.wipeAll_partStates (s : State) (tr : WipeTrigger) : PartStates s (s.wipeAll tr) := by
  refine .foldl _ fun t c hc => PartStates.trans (.of_regs (t.wakeQuad_sameObjs _) ?_) (State.wipeVault_partStates _ tr (List.mem_range.1 hc))
  simp
  omega

theorem State.setLink_controlStays (s : State) (l : Nat) (x : Link) : ControlStays s (s.setLink l x) := .of_same rfl rfl

theorem State.linkDown_controlStays (s : State) (l : Nat) : ControlStays s (s.linkDown l) := by
  unfold State.linkDown
  extract_lets _ u
  have hu : ControlStays s u :=
    ((s.setObj_controlStays _ (by decide) (.inr (by omega))).trans (State.setObj_controlStays _ _ (by decide) (.inr (by omega)))).trans
      (State.setLink_controlStays ..)
  exact .ite (fun _ => hu) fun _ => hu.trans (u.logEvent_controlStays ..)

/-- The lasers of a port are off. -/
theorem State.lasers_controlStays (s : State) (x : NatTab) : ControlStays s { s with lasers := x } := .of_same rfl rfl

theorem State.portOff_controlStays (s : State) (n : Nat) : ControlStays s (s.portOff n) := by
  unfold State.portOff
  extract_lets u v
  have hu : ControlStays s u := .foldl _ fun t k _ => t.setObj_controlStays _ (by decide) (.inr (by omega))
  have hv : ControlStays u v := .foldl _ fun t k _ => t.linkDown_controlStays k
  exact (hu.trans hv).trans (v.lasers_controlStays _)

theorem State.quadOff_partStates (s : State) (hq : q < 4) : PartStates s (s.quadOff q) := by
  refine PartStates.trans (.foldl _ fun t c hc => (t.wipeVault_partStates .off ?_).trans (.of_regs (State.zeroScratch_sameObjs _ c) ?_))
    (State.setObj_partStates _ _ (by decide) (by omega))
  · simp only [quadOf, List.mem_cons, List.not_mem_nil, or_false] at hc
    omega
  · simp
    omega

theorem State.quadRest_partStates (s : State) (hq : q < 4) : PartStates s (s.quadRest q) := by
  unfold State.quadRest
  split_ifs
  · exact .refl s
  · exact s.setObj_partStates _ (by decide) (by omega)
  · exact s.quadOff_partStates hq

/-- A device that goes to REST, with its clocks running still. -/
def State.restPrepared (s : State) : State :=
  let u := s.each s.connList State.connHandOver
  let v := u.each (List.range 8) State.portOff
  State.each { v with selfRefresh := true } (List.range 4) State.quadRest

theorem State.restPrepared_partStates (s : State) : PartStates s s.restPrepared := by
  unfold State.restPrepared
  extract_lets u v
  have hu : PartStates s u := .of_control (.foldl _ fun t c _ => t.connHandOver_controlStays c)
  have hv : PartStates u v := .of_control (.foldl _ fun t n _ => t.portOff_controlStays n)
  clear_value u v
  have hw : PartStates v { v with selfRefresh := true } := .of_same rfl
  exact ((hu.trans hv).trans hw).trans (.foldl _ fun t q hq => t.quadRest_partStates (List.mem_range.1 hq))

theorem State.enterRest_eq (s : State) :
    s.enterRest = s.restPrepared.each (List.range 16) fun s c => s.setCore c (s.core c).stopClock := by
  unfold State.enterRest State.restPrepared
  rfl

theorem State.enterRest_partStates (s : State) : PartStates s s.enterRest :=
  s.restPrepared_partStates.trans (.foldl _ fun _ _ _ => .of_same rfl)

theorem State.enterRest_core (s : State) {c : Nat} (hc : c < 16) : (s.enterRest.core c).clock = false := by
  rw [State.enterRest_eq, State.each_setCore_core Core.stopClock List.nodup_range, if_pos (List.mem_range.2 hc)]
  rfl

/-! ### The parts of a retirement -/

/-- The job's partition dissolved. -/
def State.jobDissolved (s : State) : State :=
  if s.jobP < 4 ∧ s.pstate s.jobP ≠ 0 then s.dissolvePart s.jobP (some .handOver) else s

/-- A partition HELD, if it ran. -/
def State.heldIfRunning (s : State) (q : Nat) : State := if s.pstate q = 3 then s.enterHeld q 0 else s

/-- The device at REST, if it was not: vaults wiped. -/
def State.restedForGood (s : State) : State :=
  if s.obj 0x2000 1 = 1 then s
  else (((s.wipeAll .handOver).enterRest.setObj 0x2000 1 1).setObj 0x2000 5 0).logEvent 0x41 0x0C01 (s.obj 0x2000 1 + 256)

theorem State.retireDevice_eq (s : State) :
    s.retireDevice =
      (let u := (s.jobDissolved.each (List.range 4) State.heldIfRunning).restedForGood
       u.withJob { u.job with retired := true }) := by
  unfold State.retireDevice State.restedForGood State.jobDissolved State.heldIfRunning
  rfl

theorem State.jobDissolved_pstate (hp : s.jobP < 4) : s.jobDissolved.pstate s.jobP = 0 := by
  unfold State.jobDissolved
  split
  · exact (s.dissolvePart_dissolved hp _).1.trans rfl
  · next h => exact of_not_not fun hne => h ⟨hp, hne⟩

theorem State.jobDissolved_outOfRest (s : State) : OutOfRest s s.jobDissolved :=
  .ite (fun h => s.dissolvePart_outOfRest h.1 _) fun _ => .refl s

theorem State.heldIfRunning_pstate (s : State) (q r : Nat) :
    (s.heldIfRunning q).pstate r = if r = q ∧ s.pstate q = 3 then 4 else s.pstate r := by
  unfold State.heldIfRunning
  by_cases h : s.pstate q = 3
  · rw [if_pos h]
    by_cases hr : r = q
    · rw [hr, if_pos ⟨rfl, h⟩]
      exact (s.enterHeld_obj q 0).1
    · rw [if_neg fun hn => hr hn.1]
      exact s.enterHeld_sameObjs q 0 _ 2 (by decide) (by simp [heldRegs]; omega)
  · rw [if_neg h, if_neg fun hn => h hn.2]

theorem State.each_heldIfRunning_pstate (s : State) (l : List Nat) (r : Nat) :
    (s.each l State.heldIfRunning).pstate r = if r ∈ l ∧ s.pstate r = 3 then 4 else s.pstate r := by
  induction l generalizing s with
  | nil => simp [State.each]
  | cons q l ih =>
    rw [State.each, List.foldl_cons]
    refine (ih (s.heldIfRunning q)).trans ?_
    rw [State.heldIfRunning_pstate]
    by_cases hr : r = q
    · subst hr
      by_cases h : s.pstate r = 3 <;> simp [h]
    · simp [hr]

theorem State.heldIfRunning_outOfRest (s : State) (q : Nat) : OutOfRest s (s.heldIfRunning q) :=
  .ite (fun _ => s.enterHeld_outOfRest q 0) fun _ => .refl s

theorem State.restedForGood_partStates (s : State) : PartStates s s.restedForGood := by
  unfold State.restedForGood
  split
  · exact .refl s
  · refine (((s.wipeAll_partStates _).trans (State.enterRest_partStates _)).trans (State.setObj_partStates _ _ (by decide) (by decide))).trans
      ((State.setObj_partStates _ _ (by decide) (by decide)).trans (.of_control (State.logEvent_controlStays ..)))

theorem State.restedForGood_state (s : State) : s.restedForGood.obj 0x2000 1 = 1 := by
  unfold State.restedForGood
  split
  · next h => exact h
  · refine (State.logEvent_sameObjs _ _ _ _ _ 1 (by decide) (by simp)).trans ?_
    exact (State.setObj_obj_ne _ _ _ _ _ _ (by decide) (by decide) (by decide)).trans (State.setObj_obj_self ..)

theorem State.restedForGood_clock (h : s.obj 0x2000 1 ≠ 1) {c : Nat} (hc : c < 16) : (s.restedForGood.core c).clock = false := by
  have hlog : ∀ (t : State) a b d, (t.logEvent a b d).core c = t.core c := fun t a b d => State.core_congr (t.logEvent_lists a b d).1 c
  unfold State.restedForGood
  rw [if_neg h, hlog, State.setObj_core, State.setObj_core]
  exact (s.wipeAll .handOver).enterRest_core hc

/-- A retired device: its job's partition dissolved, none running, and at REST with its clocks stopped. -/
structure Retired (s t : State) : Prop where
  freed   : t.pstate s.jobP = 0
  rest    : t.obj 0x2000 1 = 1
  retired : t.job.retired = true
  stopped : ∀ q, q < 4 → t.pstate q ≠ 3
  clocks  : s.obj 0x2000 1 ≠ 1 → ∀ c, c < 16 → (t.core c).clock = false

theorem State.retireDevice_retired (hp : s.jobP < 4) : Retired s s.retireDevice := by
  have hfree := State.jobDissolved_pstate hp
  have hout := s.jobDissolved_outOfRest.trans (.foldl (List.range 4) fun t q _ => t.heldIfRunning_outOfRest q)
  have hheld := s.jobDissolved.each_heldIfRunning_pstate (List.range 4)
  rw [State.retireDevice_eq]
  generalize s.jobDissolved = u at *
  rw [← State.each] at hout
  generalize u.each (List.range 4) State.heldIfRunning = v at *
  have hstates := v.restedForGood_partStates
  have hrest := v.restedForGood_state
  have hclock := fun h c => State.restedForGood_clock (s := v) h (c := c)
  generalize v.restedForGood = w at *
  refine ⟨(hstates.same _ hp).trans ?_, hrest, rfl, fun q hq => ?_, fun h c hc => hclock (hout.up h) c hc⟩
  · rw [hheld, hfree]
    exact if_neg (by simp)
  · refine Eq.trans_ne (hstates.same q hq) ?_
    rw [hheld]
    split
    · decide
    · next h => exact fun h3 => h ⟨List.mem_range.2 hq, h3⟩

end Sys2Proof.Machine
end

section
/-! This device's rank restored from its home slot (R229, R244): the list and the state of the update phase, and the rank itself, stand
while records and working copies are written. -/

namespace Sys2Proof.Machine

variable {s t u : State} {p n : Nat} {k : Bool}

/-- From `s` to `t` the phase of a partition has kept its state and list, and the job its records and this device's rank. -/
structure RestoreStays (s t : State) (p : Nat) : Prop where
  upd     : (t.part p).upd = (s.part p).upd
  updList : (t.part p).updList = (s.part p).updList
  job     : t.job = s.job
  rank    : t.ownRank = s.ownRank

theorem RestoreStays.refl (s : State) (p : Nat) : RestoreStays s s p := ⟨rfl, rfl, rfl, rfl⟩

theorem RestoreStays.trans (h : RestoreStays s t p) (g : RestoreStays t u p) : RestoreStays s u p :=
  ⟨g.upd.trans h.upd, g.updList.trans h.updList, g.job.trans h.job, g.rank.trans h.rank⟩

theorem RestoreStays.of_parts (hp : t.parts = s.parts) (hj : t.job = s.job) (hr : t.ownRank = s.ownRank) : RestoreStays s t p := by
  have hpart : t.part p = s.part p := congrArg (fun x : Tab partReset => x.get p) hp
  exact ⟨by rw [hpart], by rw [hpart], hj, hr⟩

theorem RestoreStays.of_store (hp : t.parts = s.parts) (hj : t.job = s.job) (hr : StoreRegs s t) : RestoreStays s t p :=
  .of_parts hp hj (hr.same 0x3500 4 (by decide) (.inr (by decide)))

theorem RestoreStays.of_same (hp : t.parts = s.parts) (hj : t.job = s.job) (ho : t.objs = s.objs) : RestoreStays s t p :=
  .of_store hp hj (.of_same ho)

theorem RestoreStays.foldl {α : Type} {f : State → α → State} (xs : List α) (hf : ∀ t, ∀ y ∈ xs, RestoreStays t (f t y) p) :
    RestoreStays s (xs.foldl f s) p :=
  List.foldlRecOn xs f (motive := fun t => RestoreStays s t p) (.refl s p) fun t h y hy => h.trans (hf t y hy)

theorem RestoreStays.ite {c : Prop} [Decidable c] (h : c → RestoreStays s t p) (g : ¬ c → RestoreStays s u p) :
    RestoreStays s (if c then t else u) p := by
  split
  · next hc => exact h hc
  · next hc => exact g hc

theorem State.setPart_restoreStays (s : State) {x : Part} (hu : x.upd = (s.part p).upd) (hl : x.updList = (s.part p).updList) :
    RestoreStays s (s.setPart p x) p where
  upd := by rw [State.setPart_part_self, hu]
  updList := by rw [State.setPart_part_self, hl]
  job := rfl
  rank := rfl

theorem State.setStep_restoreStays (s : State) (i v : Nat) : RestoreStays s (s.setObj i 6 v) p :=
  .of_parts rfl rfl (State.setObj_obj_ne _ _ _ _ _ _ (by decide) (by decide) (by simp))

/-! ### Records and working copies -/

theorem State.putBytes_restoreStays (s : State) (a : Nat) (bs : List Byte) : RestoreStays s (s.putBytes a bs) p :=
  have hframe := s.putBytes_frame a bs
  .of_store (OnlyStored.parts hframe) (Eq.trans (congrArg State.job hframe) rfl) (s.putBytes_storeRegs a bs)

theorem State.countBulk_restoreStays (s : State) (a n : Nat) : RestoreStays s (s.countBulk 2 a n) p :=
  have hframe := s.countBulk_frame 2 a n
  .of_store (Eq.trans (congrArg State.parts hframe) rfl) (Eq.trans (congrArg State.job hframe) rfl) (s.countBulk_storeRegs a n)

theorem State.putRec_restoreStays (s : State) (base i : Nat) (x : ParamRec) : RestoreStays s (s.putRec base i x) p :=
  ((s.putBytes_restoreStays ..).trans (State.putBytes_restoreStays ..)).trans (State.putBytes_restoreStays ..)

/-- The groups of a phase are installed. -/
theorem State.installPhase_restoreStays (s : State) (p n : Nat) : RestoreStays s (s.installPhase p n) p := s.setPart_restoreStays rfl rfl

theorem State.beginRegion_restoreStays (s : State) (p a : Nat) : RestoreStays s (s.beginRegion p a) p := by
  unfold State.beginRegion
  split
  · split
    · exact s.setPart_restoreStays rfl rfl
    · exact .refl s p
  · exact .refl s p

theorem State.putPacked_restoreStays (s : State) (t : Tensor) (tile : Nat) (blocks : List (List (List Byte))) :
    RestoreStays s (s.putPacked t tile blocks) p := (s.putBytes_restoreStays ..).trans (State.putBytes_restoreStays ..)

theorem State.emit_restoreStays (s : State) (o : Output) : RestoreStays s (s.emit o) p := .of_same rfl rfl rfl

theorem State.finishTile_restoreStays (s : State) (p entry : Nat) (u : UpdEntry) (tile : Nat) :
    RestoreStays s (s.finishTile p entry u tile) p := by
  unfold State.finishTile
  extract_lets bs v w
  have hv : RestoreStays s v p := .of_same rfl rfl rfl
  have hw : RestoreStays v w p :=
    .ite (fun _ => v.putPacked_restoreStays ..) fun _ => .foldl _ fun t x _ => t.countBulk_restoreStays ..
  split
  · exact hv.trans hw
  · exact (hv.trans hw).trans (w.emit_restoreStays _)

theorem State.restoreEntry_restoreStays (s : State) (p n : Nat) (u : UpdEntry) (src : Nat → ParamRec) :
    RestoreStays s (s.restoreEntry p n u src) p := by
  unfold State.restoreEntry
  extract_lets v w t blocks x
  have hv : RestoreStays s v p := .foldl _ fun y i _ => (y.putRec_restoreStays ..).trans (State.setPart_restoreStays _ rfl rfl)
  have hw : RestoreStays v w p := v.beginRegion_restoreStays ..
  have hx : RestoreStays w x p := .ite (fun _ => .refl w p) fun _ => .of_same rfl rfl rfl
  exact ((hv.trans hw).trans hx).trans (.foldl _ fun y tile _ => y.finishTile_restoreStays ..)

/-! ### The whole list -/

/-- The record of a partition whose list is restored from the start. -/
def State.restoringPart (s : State) (p : Nat) (l : List UpdEntry) : Part :=
  { s.part p with
    upd := .running, updList := l, updDone := .empty, peerTiles := .empty, updated := [], begun := [], phaseWords := s.phasesFor p }

theorem State.restoreAll_stays (s : State) (p : Nat) (l : List UpdEntry) (src : Nat → Nat → ParamRec) :
    RestoreStays (s.setPart p (s.restoringPart p l)) (s.restoreAll p l src) p := by
  unfold State.restoreAll
  extract_lets step _ v w
  have hw : RestoreStays v w p := (v.installPhase_restoreStays p 2).trans (State.setStep_restoreStays ..)
  exact (hw.trans (.foldl _ fun t x _ => t.restoreEntry_restoreStays ..)).trans (State.setStep_restoreStays ..)

theorem State.restoredOwn_spec (s : State) (k : Bool) :
    s.ownRank ∈ (s.restoredOwn k).job.restored ∧ (s.restoredOwn k).parts = s.parts := by
  unfold State.restoredOwn
  extract_lets streams _ u
  have hu : s.ownRank ∈ u.job.restored := List.mem_cons_self
  split
  · exact ⟨hu, rfl⟩
  · exact ⟨hu, rfl⟩

/-- May the own rank be restored: a job in recovery, its partition at rest, and a list that passes its check (R218, R244)? -/
structure Restorable (s : State) : Prop where
  job        : s.inJob = true
  recovering : s.recoveringJob = true
  still      : s.pstate s.jobP ≠ 3
  list       : ∀ w ∈ s.updWords s.jobP, s.updEntryOk s.jobP w = true

/-- Home slot `k` holds the latest job-complete checkpoint, with its digest (R240, R244). -/
structure HomeHolds (s : State) (k : Bool) : Prop where
  newest   : k = true ↔ s.job.home1.st = .complete ∧ s.job.home1.step.toNat = s.obj 0x3500 0x14
  complete : (s.job.home k).st = .complete
  step     : (s.job.home k).step.toNat = s.obj 0x3500 0x14
  ok       : s.homeOk k = true
  digest   : s.slotDigest (s.homeAddr k) = (s.job.home k).digest

theorem step_eq_iff {w : Word} (hn : n < 2 ^ 32) : w = BitVec.ofNat 32 n ↔ w.toNat = n := by
  rw [← BitVec.toNat_inj, BitVec.toNat_ofNat, Nat.mod_eq_of_lt hn]

theorem State.restoreOwn_of_home (h : Restorable s) (hk : HomeHolds s k) (hn : s.obj 0x3500 0x14 < 2 ^ 32) :
    s.restoreOwn false
      = (s.restoreAll s.jobP s.jobList fun e i => s.recAt (s.homeAddr k + slotOff s.jobList e) i).restoredOwn k := by
  obtain ⟨hjob, hrec, hstill, hlist⟩ := h
  obtain ⟨hnew, hst, hstep, hok, hdig⟩ := hk
  have hslot : (s.job.home1.st == .complete && s.job.home1.step == BitVec.ofNat 32 (s.obj 0x3500 0x14)) = k := by
    rw [Bool.eq_iff_iff, hnew, Bool.and_eq_true, beq_iff_eq, beq_iff_eq, step_eq_iff hn]
  have hall : (s.updWords s.jobP).all (s.updEntryOk s.jobP) = true := List.all_eq_true.2 hlist
  unfold State.restoreOwn
  dsimp only
  rw [if_neg (by simp [hjob, hrec, hstill, hall]), if_neg Bool.false_ne_true, hslot,
    if_neg (by simp [hst, (step_eq_iff hn).2 hstep, hok, hdig])]

theorem State.restoreOwn_spec (h : Restorable s) (hk : HomeHolds s k) (hn : s.obj 0x3500 0x14 < 2 ^ 32) :
    s.ownRank ∈ (s.restoreOwn false).job.restored ∧ ((s.restoreOwn false).part s.jobP).upd = .running
      ∧ ((s.restoreOwn false).part s.jobP).updList = s.jobList := by
  rw [State.restoreOwn_of_home h hk hn]
  have hstays := s.restoreAll_stays s.jobP s.jobList fun e i => s.recAt (s.homeAddr k + slotOff s.jobList e) i
  generalize (s.restoreAll s.jobP s.jobList fun e i => s.recAt (s.homeAddr k + slotOff s.jobList e) i) = t at *
  obtain ⟨hmem, hparts⟩ := t.restoredOwn_spec k
  have hpart : (t.restoredOwn k).part s.jobP = t.part s.jobP := congrArg (fun x : Tab partReset => x.get s.jobP) hparts
  rw [hpart, hstays.upd, hstays.updList, State.setPart_part_self]
  exact ⟨hstays.rank ▸ hmem, rfl, rfl⟩

end Sys2Proof.Machine

open Sys2Proof.Machine

/-- Settles O52: each message of a job leaves what the lemmas above say of it. -/
theorem jobFollowsMembers : Obligations.JobFollowsMembers := by
  refine ⟨?other, ?own, ?loss, ?deputy, ?fault, ?device, ?retires, ?spare, ?noted, ?restores, ?digests⟩
  case other =>
    intro n s hup hjob hn
    refine ⟨_, congrArg Host.Outcome.next (State.heartbeat_of_other hup hjob hn), ?_, fun k hk => ?_, rfl⟩
    · exact Tab.get_set_self ..
    · exact Tab.get_set_of_ne _ _ hk
  case own => exact fun n s hup hrole hn => ⟨_, rfl, State.heartbeat_of_own hup hrole hn⟩
  case loss =>
    intro n r s hup hlead hrank hown hrec hfirst
    have hfailed : (s.lossNoted n.toNat).declareFailed r = (s.lossNoted n.toNat).firstFailed r :=
      State.declareFailed_of_first hlead (State.lt_of_rankOfNode hrank) hown hrec hfirst
    refine ⟨_, congrArg Host.Outcome.next ((State.heartbeatLoss_at_lead hup hlead hrank).trans hfailed), ?_, rfl, rfl⟩
    exact Tab.get_set_self ..
  case deputy =>
    intro old s hold hrole hdep hne hrec hfirst
    obtain ⟨t, ht, heq, hnode⟩ := State.deputyTakeover_spec hold hrole hdep hne hrec hfirst
    obtain ⟨hlead, hshown, hmember, hregs, -, -, hframe⟩ := ht
    refine ⟨_, congrArg Host.Outcome.next heq, hlead, hshown, ?_, hmember, hregs, ?_⟩
    · rw [← hnode]
      exact List.mem_append_right _ (List.mem_singleton_self _)
    · exact congrArg (fun x : State => x.withJob (t.firstFailed old).job) hframe
  case fault =>
    intro r c s hlead hr hc
    exact ⟨_, congrArg Host.Outcome.next (State.failureReport_of_fault hlead hr hc), s.holdJob_spec⟩
  case device =>
    intro r c s hlead hr hp hu hown hrec hfirst
    have hfailed := (State.failureReport_of_device hlead hr hp hu).trans (State.declareFailed_of_first hlead hr hown hrec hfirst)
    exact ⟨_, congrArg Host.Outcome.next hfailed, rfl, rfl⟩
  case retires =>
    intro s hrun hp
    obtain ⟨hfreed, hrest, hretired, hstopped, hclocks⟩ := State.retireDevice_retired hp
    exact ⟨_, congrArg Host.Outcome.next (if_pos hrun), hfreed, hrest, hretired, hstopped, hclocks⟩
  case spare =>
    intro r s h
    exact ⟨_, congrArg Host.Outcome.next (State.spareTakeover_of_spare h), s.spareTaken_spec r⟩
  case noted =>
    intro r b s hown hlead hrec hr
    refine ⟨_, congrArg Host.Outcome.next ((if_neg hown).trans (if_pos (by simp [hlead, hrec, hr]))), ?_, fun k hk => ?_, rfl⟩
    · dsimp only
      split
      · assumption
      · exact List.mem_cons_self
    · dsimp only
      split
      · rfl
      · exact List.mem_cons.trans (or_iff_right hk)
  case restores =>
    intro k s hjob hrec hstill hlist hnew hn hst hstep hok hdig
    have hspec := State.restoreOwn_spec ⟨hjob, hrec, hstill, hlist⟩ ⟨hnew, hst, hstep, hok, hdig⟩ hn
    exact ⟨_, congrArg Host.Outcome.next (if_pos rfl), hspec⟩
  case digests =>
    intro r step wc d s hlead hr hrep hmode
    refine ⟨_, congrArg Host.Outcome.next (State.digestReport_of_kept step wc d hlead hr hrep hmode), ?_, rfl,
      fun x hx hxr => State.eq_of_mem_digestsWith hx hxr, rfl⟩
    exact List.mem_append_right _ (List.mem_singleton_self _)

end

section
/-! What an idle step leaves (R261; log 2): the device clock, and no other register. -/

namespace Sys2Proof.Machine

/-- A step with nothing waiting is an idle tick. -/
theorem step_of_idle {s : State} (h : s.pending = []) : step s = .next s.idleTick := by
  unfold step
  rw [h]

theorem State.idleTick_onlyRegs (s : State) : OnlyRegs s s.idleTick := by
  unfold State.idleTick
  split
  · exact (OnlyRegs.refl s).setObj ..
  · exact OnlyRegs.refl s

theorem State.idleTick_sameObjs (s : State) : SameObjs s s.idleTick [(0x40A0, 1)] := by
  unfold State.idleTick
  split
  · exact State.setObj_sameObjs (by decide)
  · exact (SameObjs.refl s).mono (by simp)

theorem State.idleTick_now (s : State) : s.idleTick.now = if s.clockRuns then (s.now + 1) % 2 ^ 64 else s.now := by
  unfold State.idleTick
  split
  · exact State.setObj_obj_self ..
  · rfl

end Sys2Proof.Machine

open Sys2Proof.Machine

/-- Settles O2: the step is an idle tick, which writes the clock while it runs. -/
theorem idleStepTicksClock : Obligations.IdleStepTicksClock := fun s h =>
  ⟨_, step_of_idle h, s.idleTick_onlyRegs, s.idleTick_sameObjs, s.idleTick_now⟩

end

section
/-! Lanes and links of the optical ports (R248–R255, R265): what setting lanes, an event of a port and a link that goes DOWN leave. -/

namespace Sys2Proof.Machine

variable {s t u : State} {m : List (Nat × Nat)}

/-! ### Registers, logs, outputs and links -/

/-- Of the state only registers, logs, outputs and links have changed. -/
def OnlyNotesLinks (s u : State) : Prop := u = { s.noting u with links := u.links }

theorem OnlyNotesLinks.trans (h : OnlyNotesLinks s t) (g : OnlyNotesLinks t u) : OnlyNotesLinks s u :=
  Eq.trans g (congrArg (fun x : State => { x.noting u with links := u.links }) h)

theorem OnlyNotesLinks.of_noting (h : u = s.noting u) : OnlyNotesLinks s u :=
  have hl : s.links = u.links := (Eq.trans (congrArg State.links h) rfl).symm
  Eq.trans h (congrArg (fun x : Tab linkReset => { s.noting u with links := x }) hl)

theorem OnlyRegs.onlyNotesLinks (h : OnlyRegs s u) : OnlyNotesLinks s u :=
  .of_noting (Eq.trans h (by rw [show u = _ from h]; rfl))

theorem State.setObj_onlyNotesLinks (s : State) (i k v : Nat) : OnlyNotesLinks s (s.setObj i k v) := rfl
theorem State.setLink_onlyNotesLinks (s : State) (l : Nat) (x : Link) : OnlyNotesLinks s (s.setLink l x) := rfl

theorem OnlyNotesLinks.each {f : State → Nat → State} (hf : ∀ s n, OnlyNotesLinks s (f s n)) (l : List Nat) (s : State) :
    OnlyNotesLinks s (s.each l f) :=
  List.foldlRecOn l f (motive := OnlyNotesLinks s) rfl fun t h n _ => h.trans (hf t n)

theorem State.portEvent_onlyNotesLinks (s : State) (code link lane more : Nat) : OnlyNotesLinks s (s.portEvent code link lane more) :=
  .of_noting (State.logEvent_noting ..)

theorem State.portEvent_sameObjs (s : State) (code link lane more : Nat) :
    SameObjs s (s.portEvent code link lane more) [(0x2400, 5)] := State.logEvent_sameObjs _ _ _ _

theorem OnlyNotesLinks.mem (h : OnlyNotesLinks s u) : u.mem = s.mem := Eq.trans (congrArg State.mem h) rfl
theorem OnlyNotesLinks.cores (h : OnlyNotesLinks s u) : u.cores = s.cores := Eq.trans (congrArg State.cores h) rfl
theorem OnlyNotesLinks.conns (h : OnlyNotesLinks s u) : u.conns = s.conns := Eq.trans (congrArg State.conns h) rfl
theorem OnlyNotesLinks.los (h : OnlyNotesLinks s u) : u.los = s.los := Eq.trans (congrArg State.los h) rfl

/-! ### What lanes and links are read from -/

/-- Modes of ports and states of lanes are registers of subindex 1. -/
theorem SameObjs.mode (h : SameObjs s t m) (hm : ∀ x ∈ m, x.2 ≠ 1) (p : Nat) : t.mode p = s.mode p :=
  h _ _ (by decide) fun hx => hm _ hx rfl

theorem SameObjs.laneSt (h : SameObjs s t m) (hm : ∀ x ∈ m, x.2 ≠ 1) (k : Nat) : t.laneSt k = s.laneSt k :=
  h _ _ (by decide) fun hx => hm _ hx rfl

theorem State.linkLanes_congr {l : Nat} (h : t.mode (l / 4) = s.mode (l / 4)) : t.linkLanes l = s.linkLanes l := by
  unfold State.linkLanes
  rw [h]

theorem SameObjs.linkLanes (h : SameObjs s t m) (hm : ∀ x ∈ m, x.2 ≠ 1) (l : Nat) : t.linkLanes l = s.linkLanes l :=
  State.linkLanes_congr (h.mode hm _)

theorem SameObjs.inService (h : SameObjs s t m) (hm : ∀ x ∈ m, x.2 ≠ 1) (l : Nat) : t.inService l = s.inService l := by
  unfold State.inService
  rw [h.linkLanes hm]
  exact List.filter_congr fun k _ => by rw [h.laneSt hm]

theorem State.lt_of_mem_linkLanes {l k : Nat} (h : k ∈ s.linkLanes l) : k < l + 4 := by
  unfold State.linkLanes at h
  split at h <;> simp only [List.mem_cons, List.not_mem_nil, or_false] at h <;> omega

theorem State.linkLanes_nodup (s : State) (l : Nat) : (s.linkLanes l).Nodup := by
  unfold State.linkLanes
  split <;> simp

theorem State.linkOfLane_le (s : State) (lane : Nat) : s.linkOfLane lane ≤ lane := by
  unfold State.linkOfLane
  split <;> omega

theorem mem_portFour {p k : Nat} : k ∈ portFour p ↔ k / 4 = p := by
  simp only [portFour, List.mem_cons, List.not_mem_nil, or_false]
  omega

theorem portFour_nodup (p : Nat) : (portFour p).Nodup := by simp [portFour]

/-! ### Lanes set -/

theorem State.setLane_laneSt (s : State) (k v j : Nat) : (s.setLane k v).laneSt j = if j = k then v else s.laneSt j := by
  unfold State.setLane State.laneSt
  rw [State.setObj_obj_eq _ _ _ _ _ _ (by decide) (by decide)]
  simp only [Nat.add_left_cancel_iff, and_true]

theorem State.setLane_sameObjs (s : State) (k v : Nat) : SameObjs s (s.setLane k v) [(0x4020 + k, 1)] := State.setObj_sameObjs (by decide)

/-- The registers of lanes lie above those of ports. -/
theorem State.setLane_mode (s : State) (k v : Nat) {p : Nat} (hp : p < 32) : (s.setLane k v).mode p = s.mode p :=
  s.setLane_sameObjs k v _ _ (by decide) (by simp; omega)

/-- All lanes of a list in one state. -/
def State.setLanes (s : State) (l : List Nat) (v : Nat) : State := s.each l fun s k => s.setLane k v

theorem State.setLanes_cons (s : State) (k : Nat) (l : List Nat) (v : Nat) :
    s.setLanes (k :: l) v = (s.setLane k v).setLanes l v := rfl

theorem State.setLanes_laneSt (s : State) (l : List Nat) (v j : Nat) :
    (s.setLanes l v).laneSt j = if j ∈ l then v else s.laneSt j := by
  induction l generalizing s with
  | nil => rfl
  | cons k l ih =>
    rw [State.setLanes_cons, ih, State.setLane_laneSt]
    by_cases hl : j ∈ l <;> by_cases hk : j = k <;> simp [hl, hk]

theorem State.setLanes_sameObjs (s : State) (l : List Nat) (v : Nat) : SameObjs s (s.setLanes l v) (l.map fun k => (0x4020 + k, 1)) := by
  induction l generalizing s with
  | nil => exact SameObjs.refl s
  | cons k l ih => exact (s.setLane_sameObjs k v).append (ih _)

theorem State.setLanes_onlyRegs (s : State) (l : List Nat) (v : Nat) : OnlyRegs s (s.setLanes l v) :=
  List.foldlRecOn l _ (motive := OnlyRegs s) (OnlyRegs.refl s) fun _ h _ _ => h.setObj ..

theorem State.setLanes_mode (s : State) (l : List Nat) (v : Nat) {p : Nat} (hp : p < 32) : (s.setLanes l v).mode p = s.mode p :=
  s.setLanes_sameObjs l v _ _ (by decide) (by simp; omega)

/-- Where no lane of a list changes what is asked of another, those to set can be chosen beforehand. -/
theorem State.each_setLane_if {P : State → Nat → Prop} [∀ t k, Decidable (P t k)] {l : List Nat} {v : Nat} (hl : l.Nodup)
    (hP : ∀ t, ∀ j ∈ l, ∀ k, k ≠ j → (P (t.setLane j v) k ↔ P t k)) (s : State) :
    (s.each l fun t k => if P t k then t.setLane k v else t) = s.setLanes (l.filter fun k => P s k) v := by
  induction l generalizing s with
  | nil => rfl
  | cons j l ih =>
    obtain ⟨hj, hl⟩ := List.nodup_cons.1 hl
    have hrest := ih hl fun t i hi => hP t i (List.mem_cons_of_mem _ hi)
    by_cases h : P s j
    · have hsame : (l.filter fun k => P (s.setLane j v) k) = l.filter fun k => P s k :=
        List.filter_congr fun k hk => by rw [decide_eq_decide]; exact hP s j List.mem_cons_self k fun e => hj (e ▸ hk)
      rw [List.filter_cons_of_pos (by simpa using h), State.setLanes_cons, ← hsame, ← hrest]
      exact congrArg (fun x => State.each x l fun t k => if P t k then t.setLane k v else t) (if_pos h)
    · rw [List.filter_cons_of_neg (by simpa using h), ← hrest]
      exact congrArg (fun x => State.each x l fun t k => if P t k then t.setLane k v else t) (if_neg h)

/-! ### A link goes DOWN (R253) -/

/-- The registers and the peer's status of a link cleared. -/
def State.linkEnded (s : State) (l : Nat) : State :=
  ((s.setObj (0x4040 + l) 8 0).setObj (0x4040 + l) 9 0).setLink l { s.link l with newPeer := false, peerStatus := 0 }

theorem State.linkDown_eq (s : State) (l : Nat) :
    s.linkDown l = if s.linkSt l = 0 then s.linkEnded l else (s.linkEnded l).portEvent 0x0802 l 0 0 := rfl

theorem State.linkEnded_sameObjs (s : State) (l : Nat) : SameObjs s (s.linkEnded l) [(0x4040 + l, 8), (0x4040 + l, 9)] := by
  have hregs := (State.setObj_sameObjs (s := s) (i := 0x4040 + l) (k := 8) (v := 0) (by decide)).append
    (State.setObj_sameObjs (i := 0x4040 + l) (k := 9) (v := 0) (by decide))
  exact fun i k hk hn => (State.setLink_obj ..).trans (hregs i k hk hn)

theorem State.linkEnded_linkSt (s : State) (l : Nat) : (s.linkEnded l).linkSt l = 0 := by
  unfold State.linkEnded State.linkSt
  rw [State.setLink_obj, State.setObj_obj_ne _ _ _ _ _ _ (by decide) (by decide) (by simp), State.setObj_obj_self]

theorem State.linkDown_sameObjs (s : State) (l : Nat) : SameObjs s (s.linkDown l) [(0x4040 + l, 8), (0x4040 + l, 9), (0x2400, 5)] := by
  rw [State.linkDown_eq]
  split
  · exact (s.linkEnded_sameObjs l).mono (by simp)
  · exact (s.linkEnded_sameObjs l).append (State.portEvent_sameObjs _ _ _ _ _)

theorem State.linkDown_onlyNotesLinks (s : State) (l : Nat) : OnlyNotesLinks s (s.linkDown l) := by
  have hclear : OnlyNotesLinks s (s.linkEnded l) := rfl
  rw [State.linkDown_eq]
  split
  · exact hclear
  · exact hclear.trans (State.portEvent_onlyNotesLinks _ _ _ _ _)

theorem State.linkDown_linkSt_self (s : State) (l : Nat) : (s.linkDown l).linkSt l = 0 := by
  rw [State.linkDown_eq]
  split
  · exact s.linkEnded_linkSt l
  · exact (State.portEvent_sameObjs _ _ _ _ _ _ _ (by decide) (by simp)).trans (s.linkEnded_linkSt l)

theorem State.linkDown_linkSt (s : State) (l j : Nat) : (s.linkDown l).linkSt j = if j = l then 0 else s.linkSt j := by
  split
  · next h => rw [h, State.linkDown_linkSt_self]
  · next h => exact s.linkDown_sameObjs l _ _ (by decide) (by simp; omega)

theorem State.each_linkDown_linkSt (s : State) {l : List Nat} {j : Nat} (hj : j ∈ l ∨ s.linkSt j = 0) :
    (s.each l State.linkDown).linkSt j = 0 := by
  induction l generalizing s with
  | nil => exact hj.resolve_left List.not_mem_nil
  | cons k l ih =>
    refine ih (s.linkDown k) ?_
    rw [State.linkDown_linkSt]
    by_cases hk : j = k
    · exact .inr (if_pos hk)
    · rw [if_neg hk]
      exact hj.imp_left fun h => (List.mem_cons.1 h).resolve_left hk

/-- A link that goes DOWN leaves every register but its own of subindexes 8 and 9. -/
theorem State.each_linkDown_obj (s : State) (l : List Nat) {i k : Nat} (hk : k < 256) (h8 : k ≠ 8) (h9 : k ≠ 9)
    (hlog : (i, k) ≠ (0x2400, 5)) : (s.each l State.linkDown).obj i k = s.obj i k :=
  List.foldlRecOn l _ (motive := fun t : State => t.obj i k = s.obj i k) rfl fun t h j _ =>
    (t.linkDown_sameObjs j i k hk (by simp [h8, h9] at hlog ⊢; exact hlog)).trans h

theorem LoggedWithin.linkDown {k unit code detail : Nat} (h : LoggedWithin k s t unit code detail) (hk : k < 4096) (l : Nat) :
    LoggedWithin (k + 1) s (t.linkDown l) unit code detail := by
  have hclear : LoggedWithin k s (t.linkEnded l) unit code detail := h
  rw [State.linkDown_eq]
  split
  · exact hclear.mono (Nat.le_succ k)
  · exact hclear.logEvent hk _ _ _

end Sys2Proof.Machine

end

section
/-! What the operations of optical ports leave (R250–R255, R265): ports enabled and disabled, lanes that become ready, join, leave
and return, and the width of a link. -/

namespace Sys2Proof.Machine

variable {s t u : State}

/-! ### Ports enabled and disabled (R250) -/

/-- A lane that starts with its port: OFF, in SERVICE and in no test (R250, R417). -/
abbrev State.laneStarts (s : State) (k : Nat) : Prop := s.laneSt k = 0 ∧ s.obj (0x4020 + k) 2 = 1 ∧ s.obj (0x5000 + k) 1 = 0

theorem State.laneStarts_iff (s : State) (k : Nat) :
    s.laneStarts k ↔ s.laneSt k = 0 ∧ s.obj (0x4020 + k) 2 = 1 ∧ s.obj (0x5000 + k) 1 = 0 := Iff.rfl

/-- A lane of a port that is set changes neither another lane's state nor a test. -/
theorem State.setLane_laneStarts (s : State) {j k v : Nat} (hj : j < 32) (hk : k ≠ j) : (s.setLane j v).laneStarts k ↔ s.laneStarts k := by
  rw [State.laneStarts_iff, State.laneStarts_iff, State.setLane_laneSt, if_neg hk,
    s.setLane_sameObjs j v _ _ (by decide) (by simp), s.setLane_sameObjs j v _ _ (by decide) (by simp; omega)]

/-- The laser of a port switched. -/
def State.withLaser (s : State) (p v : Nat) : State := { s with lasers := s.lasers.set p v }

/-- The lasers of a port on, and its lanes that start in TUNING. -/
def State.portStarted (s : State) (p : Nat) : State :=
  (s.withLaser p 1).setLanes ((portFour p).filter fun k => s.laneStarts k) 1

theorem State.portStart_of_lit {p : Nat} (hp : p < 8) (h : s.portLit p = true) : s.portStart p = s.portStarted p := by
  have hP : ∀ t : State, ∀ j ∈ portFour p, ∀ k, k ≠ j → ((t.setLane j 1).laneStarts k ↔ t.laneStarts k) := fun t j hj k hk =>
    t.setLane_laneStarts (by have := mem_portFour.1 hj; omega) hk
  unfold State.portStart
  rw [h, if_neg (by decide)]
  exact State.each_setLane_if (P := State.laneStarts) (portFour_nodup p) hP (s.withLaser p 1)

theorem State.portStarted_laneSt (s : State) {p k : Nat} (hk : k ∈ portFour p) :
    (s.portStarted p).laneSt k = if s.laneStarts k then 1 else s.laneSt k := by
  refine (State.setLanes_laneSt ..).trans (if_congr ?_ rfl rfl)
  rw [List.mem_filter, decide_eq_true_eq]
  exact and_iff_right hk

theorem State.portStarted_sameObjs (s : State) (p : Nat) : SameObjs s (s.portStarted p) ((portFour p).map fun k => (0x4020 + k, 1)) :=
  (State.setLanes_sameObjs (s.withLaser p 1) _ 1).mono fun x hx => by
    obtain ⟨k, hk, e⟩ := List.mem_map.1 hx
    exact List.mem_map.2 ⟨k, (List.mem_filter.1 hk).1, e⟩

theorem State.portStarted_onlyRegs (s : State) (p : Nat) : OnlyRegs (s.withLaser p 1) (s.portStarted p) := State.setLanes_onlyRegs ..

/-- ENABLE written 1. -/
def State.portEnabled (s : State) (p : Nat) : State := s.setObj (0x4000 + p) 2 1

theorem State.portEnabled_sameObjs (s : State) (p : Nat) : SameObjs s (s.portEnabled p) [(0x4000 + p, 2)] :=
  State.setObj_sameObjs (by decide)

theorem State.portEnabled_lit {p : Nat} (hmode : s.mode p ≠ 0) (hpow : 2 ≤ s.obj 0x2000 1) (hmove : s.obj 0x2000 5 = 0) :
    (s.portEnabled p).portLit p = true := by
  have hen : (s.portEnabled p).obj (0x4000 + p) 2 = 1 := State.setObj_obj_self ..
  unfold State.portLit
  rw [hen, (s.portEnabled_sameObjs p).mode (by simp), s.portEnabled_sameObjs p 0x2000 1 (by decide) (by simp),
    s.portEnabled_sameObjs p 0x2000 5 (by decide) (by simp)]
  simp [hmode, hpow, hmove]

theorem portEnableAct_of_lit {p : Nat} (hp : p < 8) (h : (u.portEnabled p).portLit p = true) :
    portEnableAct p 1 u = ((u.portEnabled p).portStarted p, stOk) :=
  congrArg (·, stOk) (State.portStart_of_lit hp h)

theorem State.portEnabled_laneStarts (s : State) {p : Nat} (hp : p < 8) (k : Nat) : (s.portEnabled p).laneStarts k ↔ s.laneStarts k := by
  have hset := s.portEnabled_sameObjs p
  rw [State.laneStarts_iff, State.laneStarts_iff, hset.laneSt (by simp), hset (0x4020 + k) 2 (by decide) (by simp; omega),
    hset (0x5000 + k) 1 (by decide) (by simp)]

/-- A port enabled: its register, its laser, its lanes. -/
theorem State.portEnabled_spec (s : State) {p : Nat} (hp : p < 8) :
    let t := (s.portEnabled p).portStarted p
    t.obj (0x4000 + p) 2 = 1 ∧ t.lasers.get p = 1
      ∧ (∀ k ∈ portFour p, t.laneSt k = if s.laneStarts k then 1 else s.laneSt k)
      ∧ SameObjs s t ([(0x4000 + p, 2)] ++ (portFour p).map fun k => (0x4020 + k, 1))
      ∧ t = { s with objs := t.objs, lasers := t.lasers, out := t.out } := by
  have hset := s.portEnabled_sameObjs p
  have hstart := (s.portEnabled p).portStarted_sameObjs p
  have honly := (s.portEnabled p).portStarted_onlyRegs p
  refine ⟨?_, ?_, fun k hk => ?_, hset.append hstart, ?_⟩
  · rw [hstart _ _ (by decide) (by simp)]
    exact State.setObj_obj_self ..
  · rw [show (State.portStarted _ p).lasers = _ from congrArg State.lasers honly]
    exact Tab.get_set_self ..
  · rw [State.portStarted_laneSt _ hk, if_congr (s.portEnabled_laneStarts hp k) rfl (hset.laneSt (by simp) k)]
  · rw [show (s.portEnabled p).portStarted p = _ from honly]
    rfl

/-- The lanes of a port OFF, its links DOWN. -/
def State.portDark (s : State) (p : Nat) : State := (s.setLanes (portFour p) 0).each (portFour p) State.linkDown

theorem State.portOff_eq (s : State) (p : Nat) : s.portOff p = { s.portDark p with lasers := (s.portDark p).lasers.set p 0 } := rfl

theorem State.portDark_obj (s : State) (p : Nat) {i k : Nat} (hk : k < 256) (h1 : k ≠ 1) (h8 : k ≠ 8) (h9 : k ≠ 9)
    (hlog : (i, k) ≠ (0x2400, 5)) : (s.portDark p).obj i k = s.obj i k :=
  (State.each_linkDown_obj _ _ hk h8 h9 hlog).trans (s.setLanes_sameObjs _ 0 _ _ hk (by simp [h1.symm]))

theorem State.portDark_laneSt (s : State) {p k : Nat} (h : k ∈ portFour p) : (s.portDark p).laneSt k = 0 :=
  (State.each_linkDown_obj _ _ (by decide) (by decide) (by decide) (by simp)).trans ((State.setLanes_laneSt ..).trans (if_pos h))

theorem State.portDark_linkSt (s : State) {p k : Nat} (h : k ∈ portFour p) : (s.portDark p).linkSt k = 0 :=
  State.each_linkDown_linkSt _ (.inl h)

theorem State.portDark_onlyNotesLinks (s : State) (p : Nat) : OnlyNotesLinks s (s.portDark p) :=
  (State.setLanes_onlyRegs ..).onlyNotesLinks.trans (.each State.linkDown_onlyNotesLinks _ _)

/-- A port disabled: its register, its laser, its lanes and links. -/
theorem State.portDisabled_spec (s : State) (p : Nat) :
    let t := (s.setObj (0x4000 + p) 2 0).portOff p
    t.obj (0x4000 + p) 2 = 0 ∧ t.lasers.get p = 0 ∧ (∀ k ∈ portFour p, t.laneSt k = 0 ∧ t.linkSt k = 0)
      ∧ t.mem = s.mem ∧ t.cores = s.cores ∧ t.conns = s.conns := by
  have hen := (s.setObj (0x4000 + p) 2 0).portDark_obj p (i := 0x4000 + p) (k := 2) (by decide) (by decide) (by decide) (by decide) (by simp)
  have hlanes := fun k (hk : k ∈ portFour p) => (s.setObj (0x4000 + p) 2 0).portDark_laneSt hk
  have hlinks := fun k (hk : k ∈ portFour p) => (s.setObj (0x4000 + p) 2 0).portDark_linkSt hk
  have hframe := (s.setObj_onlyNotesLinks (0x4000 + p) 2 0).trans (State.portDark_onlyNotesLinks _ p)
  rw [State.setObj_obj_self] at hen
  dsimp only
  rw [State.portOff_eq]
  generalize (s.setObj (0x4000 + p) 2 0).portDark p = u at hen hlanes hlinks hframe ⊢
  exact ⟨hen, Tab.get_set_self .., fun k hk => ⟨hlanes k hk, hlinks k hk⟩, hframe.mem, hframe.cores, hframe.conns⟩

/-! ### A lane becomes ready (R249, R250, R252) -/

/-- A lane that has trained, with its announce and its physical lane, before RX_MAP is looked at. -/
def State.laneTrained (s : State) (lane : Nat) (a : Option Announce) (phys : Nat) : State :=
  ((s.setLane lane 3).setLink (s.linkOfLane lane) ((s.link (s.linkOfLane lane)).setAnnounce (lane % 4) a)).setObj (0x4020 + lane) 7 phys

/-- RX_MAP and its event are all that is left to write. -/
theorem State.laneReady_of_trained {lane phys : Nat} {a : Option Announce} (hst : s.laneSt lane = 1 ∨ s.laneSt lane = 2)
    (hlos : s.los.get lane ≠ 1) (hord : s.orderOk lane a.isSome phys = true) :
    let t := s.laneReady lane a phys
    t = (s.laneTrained lane a phys).noting t ∧ SameObjs (s.laneTrained lane a phys) t [(0x4000 + lane / 4, 6), (0x2400, 5)] := by
  unfold State.laneReady
  dsimp only
  rw [if_neg (by simp [hst, hlos]), hord, if_neg (by decide)]
  split
  · exact ⟨State.noting_trans rfl (State.logEvent_noting ..),
      SameObjs.append (State.setObj_sameObjs (by decide)) (State.portEvent_sameObjs _ _ _ _ _)⟩
  · split
    · exact ⟨rfl, (State.setObj_sameObjs (by decide)).mono (by simp)⟩
    · exact ⟨rfl, (SameObjs.refl _).mono (by simp)⟩

theorem State.laneTrained_laneSt (s : State) (lane : Nat) (a : Option Announce) (phys k : Nat) :
    (s.laneTrained lane a phys).laneSt k = if k = lane then 3 else s.laneSt k :=
  (State.setObj_obj_ne _ _ _ _ _ _ (by decide) (by decide) (by simp)).trans ((State.setLink_obj ..).trans (s.setLane_laneSt lane 3 k))

theorem State.laneTrained_link (s : State) (lane : Nat) (a : Option Announce) (phys : Nat) :
    (s.laneTrained lane a phys).link (s.linkOfLane lane) = (s.link (s.linkOfLane lane)).setAnnounce (lane % 4) a :=
  State.setLink_link_self ..

theorem Link.setAnnounce_announce (x : Link) {i : Nat} (a : Option Announce) (hi : i < 4) : (x.setAnnounce i a).announce i = a := by
  simp [Link.announce, Link.setAnnounce, hi]

theorem State.laneReady_spec {lane phys : Nat} {a : Option Announce} (hst : s.laneSt lane = 1 ∨ s.laneSt lane = 2)
    (hlos : s.los.get lane ≠ 1) (hord : s.orderOk lane a.isSome phys = true) :
    let t := s.laneReady lane a phys
    t.laneSt lane = 3 ∧ t.obj (0x4020 + lane) 7 = phys ∧ (t.link (s.linkOfLane lane)).announce (lane % 4) = a
      ∧ (∀ k : Nat, k ≠ lane → t.laneSt k = s.laneSt k) ∧ OnlyNotesLinks s t := by
  obtain ⟨hnote, hregs⟩ := State.laneReady_of_trained hst hlos hord
  have hframe : OnlyNotesLinks s (s.laneTrained lane a phys) := rfl
  have hlinks : (s.laneReady lane a phys).links = (s.laneTrained lane a phys).links := Eq.trans (congrArg State.links hnote) rfl
  refine ⟨?_, ?_, ?_, fun k hk => ?_, hframe.trans (.of_noting hnote)⟩
  · rw [hregs.laneSt (by simp), State.laneTrained_laneSt, if_pos rfl]
  · exact (hregs _ _ (by decide) (by simp)).trans (State.setObj_obj_self ..)
  · rw [State.link, hlinks]
    exact (congrArg (Link.announce · (lane % 4)) (s.laneTrained_link lane a phys)).trans
      (Link.setAnnounce_announce _ _ (Nat.mod_lt _ (by decide)))
  · rw [hregs.laneSt (by simp), State.laneTrained_laneSt, if_neg hk]

/-! ### Alignment-marker boundaries (R253–R255) -/

/-- The lanes that the peer lost have left, and those that join are in service. -/
def State.lanesMoved (s : State) (l : Nat) : State :=
  (s.setLanes (if s.peerMode l then s.peerLost l else []) 2).setLanes (s.joining l (s.peerMode l)) 4

/-- The event of each lane that joins a link that was not DOWN. -/
def State.joinsNoted (s : State) (l old : Nat) (join : List Nat) : State :=
  let u := s.setLink l { s.link l with newPeer := false }
  if old = 0 then u else u.each join fun s k => s.portEvent 0x0804 l (k % 4) 0

/-- The state of a link written, and its mode. -/
def State.widthSet (s : State) (l : Nat) (peer : Bool) : State :=
  (s.setObj (0x4040 + l) 8 (s.linkWidth l peer)).setObj (0x4040 + l) 9 (if peer then 2 else 1)

/-- The state of a link by its lanes in service; `old` is what it was before the boundary. -/
def State.widthNoted (s : State) (l old : Nat) (peer : Bool) : State :=
  if s.linkWidth l peer = 0 then s.linkDown l
  else if old = 0 then (s.widthSet l peer).portEvent 0x0801 l 0 ((s.widthSet l peer).inService l).length else s.widthSet l peer

theorem State.amBoundary_of_defined {l : Nat} (h : s.linkDefined l = true) :
    s.amBoundary l
      = ((s.lanesMoved l).joinsNoted l (s.linkSt l) (s.joining l (s.peerMode l))).widthNoted l (s.linkSt l) (s.peerMode l) := by
  unfold State.amBoundary
  rw [h]
  rfl

theorem State.lanesMoved_onlyNotesLinks (s : State) (l : Nat) : OnlyNotesLinks s (s.lanesMoved l) :=
  (State.setLanes_onlyRegs ..).onlyNotesLinks.trans (State.setLanes_onlyRegs ..).onlyNotesLinks

theorem State.lanesMoved_mode (s : State) (l : Nat) {p : Nat} (hp : p < 32) : (s.lanesMoved l).mode p = s.mode p :=
  (State.setLanes_mode _ _ _ hp).trans (State.setLanes_mode _ _ _ hp)

theorem State.mem_joining {l k : Nat} {peer : Bool} (hk : k ∈ s.linkLanes l) :
    k ∈ s.joining l peer ↔ s.laneSt k = 3 ∧ (peer = true ∨ ∀ j ∈ s.linkLanes l, s.laneSt j = 3 ∨ s.laneSt j = 4) := by
  unfold State.joining
  dsimp only
  split
  · next h =>
    exact List.mem_filter.trans ⟨fun ⟨_, h3⟩ => ⟨by simpa using h3, by simpa using h⟩, fun ⟨h3, _⟩ => ⟨hk, by simpa using h3⟩⟩
  · next h => exact iff_of_false List.not_mem_nil fun ⟨_, hj⟩ => h (by simpa using hj)

theorem State.laneSt_of_peerLost {l k : Nat} (h : k ∈ s.peerLost l) : s.laneSt k = 4 := by
  unfold State.peerLost at h
  split at h
  · simpa using (List.mem_filter.1 (List.mem_filter.1 h).1).2
  · exact absurd h List.not_mem_nil

/-- A lane lost was in service, and does not join. -/
theorem State.lanesMoved_laneSt {l k : Nat} (hk : k ∈ s.linkLanes l) :
    (s.lanesMoved l).laneSt k = if k ∈ (if s.peerMode l then s.peerLost l else []) then 2
      else if s.laneSt k = 3 ∧ (s.peerMode l = true ∨ ∀ j ∈ s.linkLanes l, s.laneSt j = 3 ∨ s.laneSt j = 4) then 4 else s.laneSt k := by
  have hlost : k ∈ (if s.peerMode l then s.peerLost l else []) → s.laneSt k = 4 := fun h => by
    split at h
    · exact State.laneSt_of_peerLost h
    · exact absurd h List.not_mem_nil
  unfold State.lanesMoved
  rw [State.setLanes_laneSt, State.setLanes_laneSt, if_congr (State.mem_joining hk) rfl rfl]
  split
  · next hjoin =>
    rw [if_neg fun h => absurd (hjoin.1.symm.trans (hlost h)) (by decide)]
  · rfl

theorem State.joinsNoted_onlyNotesLinks (s : State) (l old : Nat) (join : List Nat) : OnlyNotesLinks s (s.joinsNoted l old join) := by
  unfold State.joinsNoted
  dsimp only
  split
  · rfl
  · exact OnlyNotesLinks.trans (s.setLink_onlyNotesLinks l _) (.each (fun t k => t.portEvent_onlyNotesLinks _ _ _ _) _ _)

theorem State.joinsNoted_sameObjs (s : State) (l old : Nat) (join : List Nat) : SameObjs s (s.joinsNoted l old join) [(0x2400, 5)] := by
  have hlink : SameObjs s (s.setLink l { s.link l with newPeer := false }) [(0x2400, 5)] := fun i k _ _ => State.setLink_obj ..
  unfold State.joinsNoted
  dsimp only
  split
  · exact hlink
  · refine List.foldlRecOn join _ (motive := fun t => SameObjs s t [(0x2400, 5)]) hlink fun t h k _ => ?_
    exact (h.append (t.portEvent_sameObjs _ _ _ _)).mono (by simp)

/-- Where the link was DOWN, nothing is logged of lanes. -/
theorem State.joinsNoted_logStays (s : State) (l : Nat) (join : List Nat) : LogStays s (s.joinsNoted l 0 join) := ⟨rfl, rfl, rfl, rfl⟩

theorem State.widthSet_sameObjs (s : State) (l : Nat) (peer : Bool) : SameObjs s (s.widthSet l peer) [(0x4040 + l, 8), (0x4040 + l, 9)] :=
  (State.setObj_sameObjs (by decide)).append (State.setObj_sameObjs (by decide))

theorem State.widthSet_linkSt (s : State) (l : Nat) (peer : Bool) : (s.widthSet l peer).linkSt l = s.linkWidth l peer :=
  (State.setObj_obj_ne _ _ _ _ _ _ (by decide) (by decide) (by simp)).trans (State.setObj_obj_self ..)

theorem State.widthSet_logStays (s : State) (l : Nat) (peer : Bool) : LogStays s (s.widthSet l peer) :=
  (s.setObj_logStays _ (by decide) (by simp)).trans (State.setObj_logStays _ _ (by decide) (by simp))

theorem State.widthNoted_sameObjs (s : State) (l old : Nat) (peer : Bool) :
    SameObjs s (s.widthNoted l old peer) [(0x4040 + l, 8), (0x4040 + l, 9), (0x2400, 5)] := by
  unfold State.widthNoted
  split
  · exact s.linkDown_sameObjs l
  · split
    · exact (s.widthSet_sameObjs l peer).append (State.portEvent_sameObjs _ _ _ _ _)
    · exact (s.widthSet_sameObjs l peer).mono (by simp)

theorem State.widthNoted_onlyNotesLinks (s : State) (l old : Nat) (peer : Bool) : OnlyNotesLinks s (s.widthNoted l old peer) := by
  have hset : OnlyNotesLinks s (s.widthSet l peer) := rfl
  unfold State.widthNoted
  split
  · exact s.linkDown_onlyNotesLinks l
  · split
    · exact hset.trans (State.portEvent_onlyNotesLinks _ _ _ _ _)
    · exact hset

theorem State.widthNoted_linkSt (s : State) (l old : Nat) (peer : Bool) : (s.widthNoted l old peer).linkSt l = s.linkWidth l peer := by
  unfold State.widthNoted
  split
  · next h => rw [h, State.linkDown_linkSt_self]
  · split
    · exact (State.portEvent_sameObjs _ _ _ _ _ _ _ (by decide) (by simp)).trans (s.widthSet_linkSt l peer)
    · exact s.widthSet_linkSt l peer

/-- A link that comes UP from DOWN is logged with its lanes in service. -/
theorem State.widthNoted_logged {l : Nat} {peer : Bool} (hw : s.linkWidth l peer ≠ 0) (hu : LogStays u s) (hr : u.logRoom) :
    Logged u (s.widthNoted l 0 peer) (0x30 + l / 4) 0x0801 (l + (s.inService l).length * 65536) := by
  have hev := (hu.trans (s.widthSet_logStays l peer)).logged (unit := 0x30 + l / 4) (code := 0x0801)
    (detail := l + 0 * 256 + ((s.widthSet l peer).inService l).length * 65536) hr
  unfold State.widthNoted
  rw [if_neg hw, if_pos rfl, ← (s.widthSet_sameObjs l peer).inService (by simp)]
  rwa [Nat.zero_mul, Nat.add_zero] at hev

theorem State.lt_of_mem_joining {l k : Nat} {peer : Bool} (h : k ∈ s.joining l peer) : k < l + 4 := by
  unfold State.joining at h
  dsimp only at h
  split at h
  · exact State.lt_of_mem_linkLanes (List.mem_filter.1 h).1
  · exact absurd h List.not_mem_nil

theorem State.lt_of_mem_peerLost {l k : Nat} (h : k ∈ s.peerLost l) : k < l + 4 := by
  unfold State.peerLost at h
  split at h
  · exact State.lt_of_mem_linkLanes (List.mem_filter.1 (List.mem_filter.1 h).1).1
  · exact absurd h List.not_mem_nil

/-- Lanes are below the place at which the clock's register would be one of a lane. -/
theorem State.setLanes_logStays (s : State) {l : List Nat} (v : Nat) (hl : ∀ k ∈ l, k < 36) : LogStays s (s.setLanes l v) := by
  refine OnlyRegsCores.logStays (Eq.trans (s.setLanes_onlyRegs l v) ?_) (s.setLanes_sameObjs l v _ _ (by decide) fun h => ?_)
  · rw [show s.setLanes l v = _ from s.setLanes_onlyRegs l v]
  · obtain ⟨k, hk, e⟩ := List.mem_map.1 h
    have := hl k hk
    simp only [Prod.mk.injEq] at e
    omega

theorem State.lanesMoved_logStays (s : State) {l : Nat} (hl : l < 32) : LogStays s (s.lanesMoved l) := by
  refine (s.setLanes_logStays 2 fun k hk => ?_).trans (State.setLanes_logStays _ 4 fun k hk => ?_)
  · split at hk
    · have := State.lt_of_mem_peerLost hk
      omega
    · exact absurd hk List.not_mem_nil
  · have := State.lt_of_mem_joining hk
    omega

/-- A boundary: the lanes moved, the width that the lanes in service give, and the event of a link that comes UP. -/
theorem State.amBoundary_spec {l : Nat} (hl : l < 32) (hdef : s.linkDefined l = true) :
    let t := s.amBoundary l
    (∀ k ∈ s.linkLanes l, t.laneSt k = if k ∈ (if s.peerMode l then s.peerLost l else []) then 2
        else if s.laneSt k = 3 ∧ (s.peerMode l = true ∨ ∀ j ∈ s.linkLanes l, s.laneSt j = 3 ∨ s.laneSt j = 4) then 4 else s.laneSt k)
      ∧ t.linkSt l = (if (t.inService l).length = (s.linkLanes l).length then 1
          else if s.peerMode l = true ∧ 0 < (t.inService l).length then 2 else 0)
      ∧ (s.linkSt l = 0 → t.linkSt l ≠ 0 → s.logRoom → Logged s t (0x30 + l / 4) 0x0801 (l + (t.inService l).length * 65536))
      ∧ OnlyNotesLinks s t := by
  dsimp only
  rw [State.amBoundary_of_defined hdef]
  have hlanes : (s.lanesMoved l).linkLanes l = s.linkLanes l := State.linkLanes_congr (s.lanesMoved_mode l (by omega))
  have hmoved := s.lanesMoved_onlyNotesLinks l
  have hstays := s.lanesMoved_logStays hl
  have hjoins := (s.lanesMoved l).joinsNoted_sameObjs l (s.linkSt l) (s.joining l (s.peerMode l))
  have hframe := hmoved.trans ((s.lanesMoved l).joinsNoted_onlyNotesLinks l (s.linkSt l) (s.joining l (s.peerMode l)))
  have hup : s.linkSt l = 0 → LogStays s ((s.lanesMoved l).joinsNoted l (s.linkSt l) (s.joining l (s.peerMode l))) := fun h => by
    rw [h]
    exact hstays.trans (State.joinsNoted_logStays ..)
  generalize (s.lanesMoved l).joinsNoted l (s.linkSt l) (s.joining l (s.peerMode l)) = u at hjoins hframe hup ⊢
  have hwidth := u.widthNoted_sameObjs l (s.linkSt l) (s.peerMode l)
  rw [State.widthNoted_linkSt, hwidth.inService (by simp)]
  refine ⟨fun k hk => ?_, ?_, fun hold hnew hroom => ?_, hframe.trans (u.widthNoted_onlyNotesLinks _ _ _)⟩
  · rw [hwidth.laneSt (by simp), hjoins.laneSt (by simp), State.lanesMoved_laneSt hk]
  · unfold State.linkWidth
    rw [hjoins.linkLanes (by simp), hlanes]
  · have hup := hup hold
    rw [hold]
    exact State.widthNoted_logged hnew hup hroom

end Sys2Proof.Machine

end

section
/-! What the operations on one lane and on a link leave: a link that starts again, a lane that leaves or returns, its fibre
(R250, R251, R253, R255). -/

namespace Sys2Proof.Machine

variable {s t u : State}

/-! ### A link starts again (R250) -/

theorem State.linkRestart_of_down {l : Nat} (hdef : s.linkDefined l = true) (hlit : s.portLit (l / 4) = true) (hst : s.linkSt l = 0) :
    s.linkRestart l = (s.setLanes ((s.linkLanes l).filter fun k => s.obj (0x4020 + k) 2 = 1) 1).countSat (0x4000 + l / 4) 0x10 32 1 := by
  have hP : ∀ t : State, ∀ j ∈ s.linkLanes l, ∀ k, k ≠ j → ((t.setLane j 1).obj (0x4020 + k) 2 = 1 ↔ t.obj (0x4020 + k) 2 = 1) :=
    fun t j _ k _ => by rw [t.setLane_sameObjs j 1 _ _ (by decide) (by simp)]
  have heach := State.each_setLane_if (P := fun t k => t.obj (0x4020 + k) 2 = 1) (s.linkLanes_nodup l) hP s
  unfold State.linkRestart
  rw [hdef, hlit, hst, if_neg (by decide)]
  exact congrArg (fun x : State => x.countSat (0x4000 + l / 4) 0x10 32 1) heach

/-- LINK_START_TIMEOUT: the lanes in SERVICE train again, and the restart is counted. -/
theorem State.linkRestart_spec {l : Nat} (hdef : s.linkDefined l = true) (hlit : s.portLit (l / 4) = true) (hst : s.linkSt l = 0) :
    let t := s.linkRestart l
    (∀ k ∈ s.linkLanes l, t.laneSt k = if s.obj (0x4020 + k) 2 = 1 then 1 else s.laneSt k)
      ∧ t.obj (0x4000 + l / 4) 0x10 = saturateAt 32 (s.obj (0x4000 + l / 4) 0x10 + 1)
      ∧ SameObjs s t ([(0x4000 + l / 4, 0x10)] ++ (s.linkLanes l).map fun k => (0x4020 + k, 1)) ∧ OnlyRegs s t := by
  have hlanes := s.setLanes_sameObjs ((s.linkLanes l).filter fun k => s.obj (0x4020 + k) 2 = 1) 1
  have honly := s.setLanes_onlyRegs ((s.linkLanes l).filter fun k => s.obj (0x4020 + k) 2 = 1) 1
  have hcount := State.countSat_sameObjs (s.setLanes ((s.linkLanes l).filter fun k => s.obj (0x4020 + k) 2 = 1) 1)
    (i := 0x4000 + l / 4) (k := 0x10) 32 1 (by decide)
  dsimp only
  rw [State.linkRestart_of_down hdef hlit hst]
  refine ⟨fun k hk => ?_, ?_, (hlanes.append hcount).mono fun x hx => ?_, honly.setObj ..⟩
  · rw [hcount.laneSt (by simp), State.setLanes_laneSt]
    simp [hk]
  · rw [State.countSat_eq, State.setObj_obj_self, hlanes _ _ (by decide) (by simp)]
  · simp only [List.mem_append, List.mem_map, List.mem_filter] at hx ⊢
    exact hx.symm.imp_right fun ⟨k, hk, e⟩ => ⟨k, hk.1, e⟩

/-! ### A lane leaves (R253) -/

theorem State.laneLeaves_eq (s : State) (lane st : Nat) (c : LaneCause) :
    s.laneLeaves lane st c =
      if s.laneSt lane ≠ 4 then s.setLane lane st
      else
        let v := (s.setLane lane st).portEvent 0x0803 (s.linkOfLane lane) (lane % 4) (causeNum c)
        if v.obj (0x4040 + s.linkOfLane lane) 9 = 2 ∧ !(v.inService (s.linkOfLane lane)).isEmpty then v
        else v.linkDown (s.linkOfLane lane) := rfl

theorem State.laneLeaves_sameObjs (s : State) (lane st : Nat) (c : LaneCause) :
    SameObjs s (s.laneLeaves lane st c)
      [(0x4020 + lane, 1), (0x2400, 5), (0x4040 + s.linkOfLane lane, 8), (0x4040 + s.linkOfLane lane, 9), (0x2400, 5)] := by
  have hlane := s.setLane_sameObjs lane st
  have hev := hlane.append (State.portEvent_sameObjs _ 0x0803 (s.linkOfLane lane) (lane % 4) (causeNum c))
  rw [State.laneLeaves_eq]
  dsimp only
  split
  · exact hlane.mono (by simp)
  · split
    · exact hev.mono (by simp)
    · exact hev.append (State.linkDown_sameObjs _ _)

theorem State.laneLeaves_onlyNotesLinks (s : State) (lane st : Nat) (c : LaneCause) : OnlyNotesLinks s (s.laneLeaves lane st c) := by
  have hlane : OnlyNotesLinks s (s.setLane lane st) := rfl
  have hev := hlane.trans (State.portEvent_onlyNotesLinks _ 0x0803 (s.linkOfLane lane) (lane % 4) (causeNum c))
  rw [State.laneLeaves_eq]
  dsimp only
  split
  · exact hlane
  · split
    · exact hev
    · exact hev.trans (State.linkDown_onlyNotesLinks _ _)

theorem State.laneLeaves_laneSt (s : State) (lane st k : Nat) (c : LaneCause) :
    (s.laneLeaves lane st c).laneSt k = if k = lane then st else s.laneSt k := by
  have hev : ∀ v : State, SameObjs (s.setLane lane st) v [(0x2400, 5), (0x4040 + s.linkOfLane lane, 8), (0x4040 + s.linkOfLane lane, 9),
      (0x2400, 5)] → v.laneSt k = if k = lane then st else s.laneSt k := fun v h =>
    (h.laneSt (by simp) k).trans (s.setLane_laneSt lane st k)
  have hnoted := (s.setLane lane st).portEvent_sameObjs 0x0803 (s.linkOfLane lane) (lane % 4) (causeNum c)
  rw [State.laneLeaves_eq]
  dsimp only
  split
  · exact s.setLane_laneSt lane st k
  · split
    · exact hev _ (hnoted.mono (by simp))
    · exact hev _ (hnoted.append (State.linkDown_sameObjs _ _))

/-- With no other lane in service, or out of peer mode, the link of a lane that was in service goes DOWN. -/
theorem State.laneLeaves_linkSt {lane st : Nat} (c : LaneCause) (hlane : lane < 32) (hst : st ≠ 4) (hwas : s.laneSt lane = 4)
    (h : s.obj (0x4040 + s.linkOfLane lane) 9 ≠ 2 ∨ ∀ k ∈ s.inService (s.linkOfLane lane), k = lane) :
    (s.laneLeaves lane st c).linkSt (s.linkOfLane lane) = 0 := by
  have hl := s.linkOfLane_le lane
  have hset := s.setLane_sameObjs lane st
  have hev := hset.append ((s.setLane lane st).portEvent_sameObjs 0x0803 (s.linkOfLane lane) (lane % 4) (causeNum c))
  have hnoted := (s.setLane lane st).portEvent_sameObjs 0x0803 (s.linkOfLane lane) (lane % 4) (causeNum c)
  rw [State.laneLeaves_eq, if_neg (not_not.2 hwas)]
  dsimp only
  rw [if_neg, State.linkDown_linkSt_self]
  rintro ⟨hpeer, hon⟩
  rw [hev _ _ (by decide) (by simp)] at hpeer
  have hothers := h.resolve_left (not_not.2 hpeer)
  rw [hnoted.inService (by simp)] at hon
  obtain ⟨k, hk⟩ := List.exists_mem_of_ne_nil _ (show (s.setLane lane st).inService (s.linkOfLane lane) ≠ [] by simpa using hon)
  obtain ⟨hkl, hk4⟩ := List.mem_filter.1 hk
  rw [State.linkLanes_congr (State.setLane_mode _ _ _ (by omega))] at hkl
  rw [beq_iff_eq, State.setLane_laneSt] at hk4
  split at hk4
  · exact hst hk4
  · next hne => exact hne (hothers k (List.mem_filter.2 ⟨hkl, by simpa using hk4⟩))

theorem State.laneLeaves_logged {lane : Nat} (st : Nat) (c : LaneCause) (hlane : lane < 32) (hwas : s.laneSt lane = 4) (hr : s.logRoom) :
    LoggedWithin 2 s (s.laneLeaves lane st c) (0x30 + s.linkOfLane lane / 4) 0x0803
      (s.linkOfLane lane + lane % 4 * 256 + causeNum c * 65536) := by
  have hset : LogStays s (s.setLane lane st) := s.setObj_logStays _ (by decide) (by simp; omega)
  have hroom : (s.setLane lane st).logRoom := by
    unfold State.logRoom
    rw [hset.now]
    exact hr
  obtain ⟨e, he, hseq, hrest⟩ := State.logEvent_within (unit := 0x30 + s.linkOfLane lane / 4) (code := 0x0803)
    (detail := s.linkOfLane lane + lane % 4 * 256 + causeNum c * 65536) hroom
  have hev : LoggedWithin 1 s ((s.setLane lane st).portEvent 0x0803 (s.linkOfLane lane) (lane % 4) (causeNum c))
      (0x30 + s.linkOfLane lane / 4) 0x0803 (s.linkOfLane lane + lane % 4 * 256 + causeNum c * 65536) := ⟨e, he, hseq, hrest⟩
  rw [State.laneLeaves_eq, if_neg (not_not.2 hwas)]
  dsimp only
  split
  · exact hev.mono (by decide)
  · exact hev.linkDown (by decide) _

/-! ### The fibre (R251) -/

/-- FIBRE as the lanes in LOS and the light at the transmit monitors give it. -/
def State.fibreOf (s : State) (p : Nat) (lit : Bool) : Nat :=
  let n := ((portFour p).filter fun k => s.los.get k == 1).length
  if n = 0 then 0 else if n = 4 then (if lit then 1 else 3) else 2

theorem State.fibre_eq (s : State) (p : Nat) (lit : Bool) :
    s.fibre p lit =
      let v := s.setObj (0x4000 + p) 7 (s.fibreOf p lit)
      if s.fibreOf p lit = s.obj (0x4000 + p) 7 then v
      else if s.fibreOf p lit = 1 then v.portEvent 0x0806 (4 * p) 0 0
      else if s.fibreOf p lit = 2 then v.portEvent 0x0807 (4 * p) 0 0
      else v := rfl

/-- Beside FIBRE an event at most is left to log. -/
theorem State.fibre_noted (s : State) (p : Nat) (lit : Bool) :
    let v := s.setObj (0x4000 + p) 7 (s.fibreOf p lit)
    s.fibre p lit = v.noting (s.fibre p lit) ∧ SameObjs v (s.fibre p lit) [(0x2400, 5)] := by
  rw [State.fibre_eq]
  dsimp only
  split_ifs
  · exact ⟨rfl, (SameObjs.refl _).mono (by simp)⟩
  · exact ⟨State.logEvent_noting .., State.portEvent_sameObjs _ _ _ _ _⟩
  · exact ⟨State.logEvent_noting .., State.portEvent_sameObjs _ _ _ _ _⟩
  · exact ⟨rfl, (SameObjs.refl _).mono (by simp)⟩

theorem State.fibre_noting (s : State) (p : Nat) (lit : Bool) : s.fibre p lit = s.noting (s.fibre p lit) :=
  State.noting_trans rfl (s.fibre_noted p lit).1

theorem State.fibre_sameObjs (s : State) (p : Nat) (lit : Bool) : SameObjs s (s.fibre p lit) [(0x4000 + p, 7), (0x2400, 5)] :=
  (State.setObj_sameObjs (by decide)).append (s.fibre_noted p lit).2

theorem State.fibre_obj (s : State) (p : Nat) (lit : Bool) : (s.fibre p lit).obj (0x4000 + p) 7 = s.fibreOf p lit :=
  ((s.fibre_noted p lit).2 _ _ (by decide) (by simp)).trans (State.setObj_obj_self ..)

theorem LoggedWithin.fibre {k unit code detail : Nat} (h : LoggedWithin k s t unit code detail) (hk : k < 4096) (p : Nat) (lit : Bool) :
    LoggedWithin (k + 1) s (t.fibre p lit) unit code detail := by
  have hset : LoggedWithin k s (t.setObj (0x4000 + p) 7 (t.fibreOf p lit)) unit code detail := h
  rw [State.fibre_eq]
  dsimp only
  split_ifs
  · exact hset.mono (Nat.le_succ k)
  · exact hset.logEvent hk _ _ _
  · exact hset.logEvent hk _ _ _
  · exact hset.mono (Nat.le_succ k)

/-- With no lane in LOS the fibre is good. -/
theorem State.fibreOf_of_clear {p : Nat} (lit : Bool) (h : ∀ k ∈ portFour p, s.los.get k ≠ 1) : s.fibreOf p lit = 0 := by
  have hnone : (portFour p).filter (fun k => s.los.get k == 1) = [] := List.filter_eq_nil_iff.2 fun k hk => by simpa using h k hk
  unfold State.fibreOf
  rw [hnone]
  rfl

/-! ### LANE_OUT (R251, R253, R255) -/

/-- LOS of a lane kept. -/
def State.withLos (s : State) (lane v : Nat) : State := { s with los := s.los.set lane v }

/-- What a lane that leaves into state `st` leaves of lanes, links and the log. -/
structure LaneLeft (s t : State) (lane st : Nat) (c : LaneCause) : Prop where
  self : t.laneSt lane = st
  down : s.laneSt lane = 4 → (s.obj (0x4040 + s.linkOfLane lane) 9 ≠ 2 ∨ (∀ k ∈ s.inService (s.linkOfLane lane), k = lane)) →
    t.linkSt (s.linkOfLane lane) = 0
  logged : s.laneSt lane = 4 → s.logRoom → Logged s t (0x30 + s.linkOfLane lane / 4) 0x0803
    (s.linkOfLane lane + lane % 4 * 256 + causeNum c * 65536)
  others : ∀ k : Nat, k ≠ lane → t.laneSt k = s.laneSt k

theorem State.laneLeaves_left (s : State) {lane st : Nat} (c : LaneCause) (hlane : lane < 32) (hst : st ≠ 4) :
    LaneLeft s (s.laneLeaves lane st c) lane st c where
  self := (s.laneLeaves_laneSt lane st lane c).trans (if_pos rfl)
  down := State.laneLeaves_linkSt c hlane hst
  logged h4 hr := (State.laneLeaves_logged st c hlane h4 hr).logged
  others k hk := (s.laneLeaves_laneSt lane st k c).trans (if_neg hk)

/-- Of the state only registers, logs, outputs, links and LOS of lanes have changed. -/
def OnlyNotesLinksLos (s u : State) : Prop := u = { s.noting u with links := u.links, los := u.los }

theorem OnlyNotesLinksLos.trans (h : OnlyNotesLinksLos s t) (g : OnlyNotesLinksLos t u) : OnlyNotesLinksLos s u :=
  Eq.trans g (congrArg (fun x : State => { x.noting u with links := u.links, los := u.los }) h)

theorem OnlyNotesLinks.withLos (h : OnlyNotesLinks s u) : OnlyNotesLinksLos s u :=
  Eq.trans h (congrArg (fun x : NatTab => { s.noting u with links := u.links, los := x }) h.los.symm)

/-- A lane that leaves for another cause than LOS goes OFF. -/
theorem State.laneOut_of_off {lane : Nat} {c : LaneCause} (hc : c ≠ .los) (lit : Bool) (h : s.laneSt lane ≠ 0) :
    s.laneOut lane c lit = s.laneLeaves lane 0 c := by
  cases c with
  | user => exact if_neg h
  | fec => exact if_neg h
  | los => exact absurd rfl hc

theorem State.laneOut_of_los {lane : Nat} (lit : Bool) (h : s.laneSt lane ≠ 0) :
    s.laneOut lane .los lit = ((s.withLos lane 1).laneLeaves lane 2 .los).fibre (lane / 4) lit := if_neg h

/-- What LANE_OUT leaves: a lane in LOS is held in training, one out for another cause is OFF. -/
theorem State.laneOut_left (s : State) {lane : Nat} (c : LaneCause) (lit : Bool) (hlane : lane < 32) (h : s.laneSt lane ≠ 0) :
    LaneLeft s (s.laneOut lane c lit) lane (if c = .los then 2 else 0) c := by
  by_cases hc : c = .los
  · subst hc
    obtain ⟨hself, hdown, -, hothers⟩ := (s.withLos lane 1).laneLeaves_left (st := 2) .los hlane (by decide)
    rw [State.laneOut_of_los lit h, if_pos rfl]
    have hfibre := ((s.withLos lane 1).laneLeaves lane 2 .los).fibre_sameObjs (lane / 4) lit
    refine ⟨(hfibre.laneSt (by simp) lane).trans hself, fun h4 hon => ?_, fun h4 hr => ?_, fun k hk => ?_⟩
    · exact (hfibre _ _ (by decide) (by simp)).trans (hdown h4 hon)
    · exact ((State.laneLeaves_logged (s := s.withLos lane 1) 2 .los hlane h4 hr).fibre (by decide) _ lit).logged
    · exact (hfibre.laneSt (by simp) k).trans (hothers k hk)
  · rw [State.laneOut_of_off hc lit h, if_neg hc]
    exact s.laneLeaves_left c hlane (by decide)

theorem State.laneOut_frame (s : State) {lane : Nat} (c : LaneCause) (lit : Bool) (h : s.laneSt lane ≠ 0) :
    (∀ k : Nat, (s.laneOut lane c lit).los.get k = if c = .los ∧ k = lane then 1 else s.los.get k)
      ∧ OnlyNotesLinksLos s (s.laneOut lane c lit) := by
  by_cases hc : c = .los
  · subst hc
    have hlos : OnlyNotesLinksLos s (s.withLos lane 1) := rfl
    have hleaves := (s.withLos lane 1).laneLeaves_onlyNotesLinks lane 2 .los
    have hfibre := OnlyNotesLinks.of_noting (((s.withLos lane 1).laneLeaves lane 2 .los).fibre_noting (lane / 4) lit)
    rw [State.laneOut_of_los lit h]
    refine ⟨fun k => ?_, hlos.trans (hleaves.trans hfibre).withLos⟩
    rw [(hleaves.trans hfibre).los, if_congr (and_iff_right rfl) rfl rfl]
    exact Tab.get_set ..
  · have hleaves := s.laneLeaves_onlyNotesLinks lane 0 c
    rw [State.laneOut_of_off hc lit h]
    exact ⟨fun k => by rw [hleaves.los, if_neg fun e => hc e.1], hleaves.withLos⟩

/-- LOS_CLEAR: the fibre is looked at without the lane. -/
theorem State.losClear_spec {lane : Nat} (lit : Bool) (h : s.los.get lane ≠ 0) :
    let t := s.losClear lane lit
    t.los.get lane = 0
      ∧ ((∀ k ∈ portFour (lane / 4), k ≠ lane → s.los.get k ≠ 1) → t.obj (0x4000 + lane / 4) 7 = 0)
      ∧ SameObjs s t [(0x4000 + lane / 4, 7), (0x2400, 5)] ∧ t = { s.noting t with los := t.los } := by
  have heq : s.losClear lane lit = (s.withLos lane 0).fibre (lane / 4) lit := if_neg h
  have hframe := (s.withLos lane 0).fibre_noting (lane / 4) lit
  have hregs := (s.withLos lane 0).fibre_sameObjs (lane / 4) lit
  have hobj := (s.withLos lane 0).fibre_obj (lane / 4) lit
  dsimp only
  rw [heq]
  generalize (s.withLos lane 0).fibre (lane / 4) lit = t at hframe hregs hobj ⊢
  have hlos : t.los = s.los.set lane 0 := Eq.trans (congrArg State.los hframe) rfl
  refine ⟨by rw [hlos, Tab.get_set_self], fun hk => ?_, hregs, hframe.trans (by rw [hlos]; rfl)⟩
  rw [hobj]
  refine State.fibreOf_of_clear lit fun k hk' => ?_
  by_cases e : k = lane
  · rw [e]
    exact fun h0 => absurd ((Tab.get_set_self s.los lane 0).symm.trans h0) (by decide)
  · exact fun h1 => hk k hk' e ((Tab.get_set_of_ne s.los 0 e).symm.trans h1)

/-! ### SERVICE (R253, R417) -/

/-- SERVICE written. -/
def State.serviceSet (s : State) (lane v : Nat) : State := s.setObj (0x4020 + lane) 2 v

theorem State.serviceSet_sameObjs (s : State) (lane v : Nat) : SameObjs s (s.serviceSet lane v) [(0x4020 + lane, 2)] :=
  State.setObj_sameObjs (by decide)

theorem State.serviceSet_obj (s : State) (lane v : Nat) : (s.serviceSet lane v).obj (0x4020 + lane) 2 = v := State.setObj_obj_self ..

theorem State.serviceSet_lit (s : State) {lane : Nat} (v : Nat) {p : Nat} (hp : p < 32) : (s.serviceSet lane v).portLit p = s.portLit p := by
  have hregs := s.serviceSet_sameObjs lane v
  unfold State.portLit
  rw [hregs.mode (by simp), hregs (0x4000 + p) 2 (by decide) (by simp; omega), hregs 0x2000 1 (by decide) (by simp),
    hregs 0x2000 5 (by decide) (by simp)]

theorem serviceAct_one {lane : Nat} (hlane : lane < 32) (hst : u.laneSt lane = 0) (htest : u.obj (0x5000 + lane) 1 = 0)
    (hlit : u.portLit (lane / 4) = true) : serviceAct lane 1 u = ((u.serviceSet lane 1).setLane lane 1, stOk) := by
  have hregs := u.serviceSet_sameObjs lane 1
  have hon : (u.serviceSet lane 1).laneSt lane = 0 ∧ (u.serviceSet lane 1).obj (0x5000 + lane) 1 = 0
      ∧ (u.serviceSet lane 1).portLit (lane / 4) = true := by
    rw [hregs.laneSt (by simp), hregs _ _ (by decide) (by simp), u.serviceSet_lit 1 (by omega)]
    exact ⟨hst, htest, hlit⟩
  exact congrArg (·, stOk) ((if_neg (by decide)).trans (if_pos hon))

/-- A lane returned to service trains again. -/
theorem State.serviceOn_spec (s : State) (lane : Nat) :
    let t := (s.serviceSet lane 1).setLane lane 1
    t.obj (0x4020 + lane) 2 = 1 ∧ t.laneSt lane = 1 ∧ SameObjs s t [(0x4020 + lane, 1), (0x4020 + lane, 2)] ∧ OnlyRegs s t := by
  have hlane := (s.serviceSet lane 1).setLane_sameObjs lane 1
  refine ⟨?_, ?_, ((s.serviceSet_sameObjs lane 1).append hlane).mono (by simp), ((OnlyRegs.refl s).setObj ..).setObj ..⟩
  · rw [hlane _ _ (by decide) (by simp), State.serviceSet_obj]
  · rw [State.setLane_laneSt, if_pos rfl]

theorem serviceAct_zero (lane : Nat) (u : State) : serviceAct lane 0 u = ((u.serviceSet lane 0).laneLeaves lane 0 .user, stOk) := rfl

/-- A lane taken out of service is OFF. -/
theorem State.serviceOff_spec (s : State) (lane : Nat) :
    let t := (s.serviceSet lane 0).laneLeaves lane 0 .user
    t.obj (0x4020 + lane) 2 = 0 ∧ t.laneSt lane = 0 ∧ (∀ k : Nat, k ≠ lane → t.laneSt k = s.laneSt k) ∧ OnlyNotesLinks s t := by
  have hset : OnlyNotesLinks s (s.serviceSet lane 0) := rfl
  have hlane : ∀ k, ((s.serviceSet lane 0).laneLeaves lane 0 .user).laneSt k = if k = lane then 0 else s.laneSt k := fun k => by
    rw [State.laneLeaves_laneSt, (s.serviceSet_sameObjs lane 0).laneSt (by simp)]
  refine ⟨?_, (hlane lane).trans (if_pos rfl), fun k hk => (hlane k).trans (if_neg hk), hset.trans (State.laneLeaves_onlyNotesLinks ..)⟩
  rw [(s.serviceSet lane 0).laneLeaves_sameObjs lane 0 .user _ _ (by decide) (by simp), State.serviceSet_obj]

end Sys2Proof.Machine

open Sys2Proof.Machine

/-- Settles O54: each clause is what its operation leaves, by the lemmas above on it. -/
theorem portsFollowLanes : Obligations.PortsFollowLanes := by
  refine ⟨?enabled, ?disabled, ?ready, ?boundary, ?restart, ?out, ?clear, ?returned, ?taken, ?status, ?down⟩
  case enabled =>
    refine fun port => takes_of_act (f := portEnableAct port 1) (fun _ _ => rfl) ?_
    rintro u ⟨hmode, hpow, hmove⟩
    obtain ⟨hen, hlaser, hlanes, hregs, hframe⟩ := u.portEnabled_spec port.isLt
    refine ⟨_, portEnableAct_of_lit port.isLt (State.portEnabled_lit hmode hpow hmove), fun o => ⟨hen, hlaser, hlanes, hregs, ?_⟩⟩
    exact congrArg (State.emit · o) hframe
  case disabled =>
    refine fun port => takes_of_act (f := portEnableAct port 0) (fun _ _ => rfl) fun u _ =>
      ⟨(u.setObj (0x4000 + port) 2 0).portOff port, rfl, fun o => ?_⟩
    have hspec := u.portDisabled_spec port
    dsimp only at hspec
    generalize (u.setObj (0x4000 + port) 2 0).portOff port = v at hspec ⊢
    exact hspec
  case ready =>
    exact fun lane a phys s hst hlos hord => ⟨s.laneReady lane a phys, rfl, State.laneReady_spec hst hlos hord⟩
  case boundary => exact fun l s hdef => ⟨s.amBoundary l, rfl, State.amBoundary_spec l.isLt hdef⟩
  case restart => exact fun l s hdef hlit hst => ⟨s.linkRestart l, rfl, State.linkRestart_spec hdef hlit hst⟩
  case out =>
    intro lane c lit s h
    obtain ⟨hself, hdown, hlog, hothers⟩ := s.laneOut_left c lit lane.isLt h
    obtain ⟨hlos, hframe⟩ := s.laneOut_frame c lit h
    exact ⟨s.laneOut lane c lit, rfl, hself, hlos, hdown, hlog, hothers, hframe⟩
  case clear => exact fun lane lit s h => ⟨s.losClear lane lit, rfl, State.losClear_spec lit h⟩
  case returned =>
    refine fun lane => takes_of_act (f := serviceAct lane 1) (fun _ _ => rfl) ?_
    rintro u ⟨hst, htest, hlit⟩
    obtain ⟨hsvc, hlane, hregs, hframe⟩ := u.serviceOn_spec lane
    exact ⟨_, serviceAct_one lane.isLt hst htest hlit, fun o => ⟨hsvc, hlane, hregs, congrArg (State.emit · o) hframe⟩⟩
  case taken =>
    refine fun lane => takes_of_act (f := serviceAct lane 0) (fun _ _ => rfl) fun u _ => ⟨_, serviceAct_zero lane u, fun o => ?_⟩
    obtain ⟨hsvc, hlane, hothers, hframe⟩ := u.serviceOff_spec lane
    generalize (u.serviceSet lane 0).laneLeaves lane 0 .user = v at hsvc hlane hothers hframe ⊢
    exact ⟨hsvc, hlane, hothers, congrArg (State.emit · o) hframe⟩
  case status =>
    intro l st s hpeer hup
    exact ⟨s.setLink l { s.link l with peerStatus := st, newPeer := true }, congrArg Host.Outcome.next (if_pos ⟨hpeer, hup⟩),
      by rw [State.setLink_link_self], by rw [State.setLink_link_self], fun k hk => State.setLink_link_ne _ _ _ _ hk, rfl⟩
  case down =>
    intro s h
    exact ⟨s.reportFailure .portsDown, congrArg Host.Outcome.next (if_pos (by simpa using h)), rfl⟩

end

section
/-! Why RTP_PACKET does not always stay inside its capture ring (R144, R272): the bytes that the stream engine writes are counted in the
registers of a bulk channel, and a context whose REGION is past the 64 region records has its region's size there. -/

namespace Sys2Proof.Machine

/-- Context 0 fills slot 4,675 of a ring that begins where bulk memory does. Its REGION is 0x50: the record has its size, 1, in the count
of bytes written of channel 0, and CLASS 5 beside it. Line 0 of the frame is the last 64 bytes of the ring, line 1 lies behind it. -/
def strayStream : State :=
  let s := (State.reset.setObj 0x3470 2 1).setObj 0x3470 3 (5 * 2 ^ 3)
  let s := (((s.setObj 0x4100 1 1).setObj 0x4100 0x0A 21).setObj 0x4100 0x0B 4).setObj 0x4100 0x0D 0x50
  s.setStream 0 { filling := some 4675 }

/-- A byte of line 0, then a byte of line 1. -/
def strayPacket : RtpPacket where
  ts := 0
  marker := false
  ssrc := 0
  fbit := false
  sampling := 0
  overRate := false
  gap := 0
  segs := [(0, 0, [1]), (1, 0, [1])]

/-- What the clause asks of the context and of the packet. -/
theorem strayStream_premises :
    strayStream.strReg 0 1 = 1 ∧ strayStream.strReg 0 2 = 0 ∧ strayStream.strReg 0 7 % 2 ≠ 1
      ∧ strayPacket.sampling.toNat = strayStream.strReg 0 9 ∧ (strayStream.stream 0).filling = some 4675
      ∧ strayPacket.ts = (strayStream.capSlot 0 4675).ts := by decide +kernel

theorem strayStream_ringEnd :
    strayStream.ringAddr 0 + (strayStream.region (strayStream.strReg 0 0x0D)).bytes = bulkBase + 0x200000 := by decide +kernel

/-- Once the byte of line 0 is counted the region is larger, and the byte of line 1 is written behind the ring. -/
theorem strayStream_written :
    strayStream.rawByte (bulkBase + 0x200000) = 0
      ∧ (strayStream.rtpPacket 0 strayPacket).rawByte (bulkBase + 0x200000) = 1 := by decide +kernel

end Sys2Proof.Machine

open Sys2Proof.Machine

/-- Refutes O55: the clause on RTP_PACKET takes the end of the ring as it stands before the packet's bytes are counted, and in
`strayStream` the count moves it. The dictionary takes 0 to 63 for REGION (R276), but the clause does not ask that REGION names one of the
64 region records. -/
theorem not_macFollowsFrames : ¬ Obligations.MacFollowsFrames := by
  rintro ⟨-, -, -, -, -, -, -, -, -, -, -, hpacket, -⟩
  obtain ⟨henabled, hvideo, hssrc, hsampling, hfilling, hts⟩ := strayStream_premises
  obtain ⟨t, ht, -, -, -, houtside, -⟩ := hpacket 0 4675 strayPacket strayStream henabled hvideo (fun h => absurd h hssrc) rfl rfl
    hsampling hfilling hts rfl
  obtain rfl : strayStream.rtpPacket 0 strayPacket = t := Host.Outcome.next.inj ht
  obtain ⟨hbefore, hafter⟩ := strayStream_written
  have hsame := houtside (bulkBase + 0x200000) (.inr (Nat.le_of_eq strayStream_ringEnd))
  rw [hbefore, hafter] at hsame
  exact absurd hsame (by decide)

end

section
/-! What Bore sends on a connection (R279, R283, R295, R304): packets, acknowledgements, CLOSE; and what a packet taken leaves. -/

namespace Sys2Proof.Machine

variable {s t u : State} {c d : Nat} {p q : Packet}

/-- From `s` to `t` connection `c` has sent or changed, at most: beside it only registers, the model's counter of free values and what
is sent have changed. -/
structure Sends (s t : State) (c : Nat) : Prop where
  frame  : t = { s with objs := t.objs, conns := t.conns, freeCtr := t.freeCtr, out := t.out }
  others : ∀ d, d ≠ c → t.conn d = s.conn d
  sent   : s.out ⊆ t.out

theorem Sends.refl (s : State) (c : Nat) : Sends s s c := ⟨rfl, fun _ _ => rfl, List.Subset.refl _⟩

theorem Sends.trans (h : Sends s t c) (g : Sends t u c) : Sends s u c where
  frame := Eq.trans g.frame
    (congrArg (fun x : State => { x with objs := u.objs, conns := u.conns, freeCtr := u.freeCtr, out := u.out }) h.frame)
  others d hd := (g.others d hd).trans (h.others d hd)
  sent := List.Subset.trans h.sent g.sent

theorem Sends.mem (h : Sends s t c) : t.mem = s.mem := Eq.trans (congrArg State.mem h.frame) rfl

theorem Sends.of_onlyCounts (h : OnlyCounts s t) (ho : s.out ⊆ t.out) : Sends s t c where
  frame := Eq.trans h (congrArg (fun x => { s with objs := t.objs, conns := x, freeCtr := t.freeCtr, out := t.out }) h.conns.symm)
  others d _ := h.conn d
  sent := ho

theorem State.setConn_sends (s : State) (c : Nat) (x : Conn) : Sends s (s.setConn c x) c :=
  ⟨rfl, fun _ hd => State.setConn_conn_ne _ _ _ _ hd, List.Subset.refl _⟩

/-- Reads of server memory are sent to it (R377). -/
theorem State.countBulk_sends (s : State) (k a n : Nat) : Sends s (s.countBulk k a n) c := by
  refine .of_onlyCounts ((OnlyCounts.refl s).countBulk ..) ?_
  have hhost : ∀ (t : State) (k a n : Nat), (t.countHost k a n).out = t.out := fun t k a n => by
    unfold State.countHost
    split <;> rfl
  unfold State.countBulk
  split
  · refine List.foldlRecOn _ _ (motive := fun t : State => s.out ⊆ t.out) (List.Subset.refl _) fun t h m _ => ?_
    dsimp only
    split <;> exact h
  · split
    · unfold State.hostGet
      dsimp only
      split
      · rw [hhost]
        exact List.subset_cons_self ..
      · rw [hhost, State.emit_out, hhost]
        exact List.subset_cons_of_subset _ (List.subset_cons_self ..)
    · exact List.Subset.refl _

/-! ### Packets -/

/-- A packet that passes checks 1 and 2 differs from what was received in its payload only (R291). -/
theorem State.admitPacket_dconn (h : s.admitPacket p = (u, some q)) : q.dconn = p.dconn := by
  obtain ⟨-, bs, rfl⟩ := State.admitPacket_of_some h
  rfl

theorem State.admitPacket_kind (h : s.admitPacket p = (u, some q)) : q.kind = p.kind := by
  obtain ⟨-, bs, rfl⟩ := State.admitPacket_of_some h
  rfl

/-- A seal changes the payload and the tag of a packet only (R304). -/
theorem State.sendPacket_sealed (s : State) (c : Nat) (p : Packet) :
    ∃ a : Packet, (s.sendPacket c p).out = .packet c a :: s.out ∧ a = { p with payload := a.payload, tag := a.tag } := by
  have hframe : ∀ (u : State) (l : Nat) (a : Packet), (u.countFrame l a).out = u.out := fun u l a => by
    unfold State.countFrame
    split <;> rfl
  unfold State.sendPacket
  dsimp only
  rw [State.emit_out, hframe]
  refine ⟨_, rfl, ?_⟩
  split <;> rfl

theorem State.sendPacket_conn (s : State) (c : Nat) (p : Packet) (d : Nat) : (s.sendPacket c p).conn d = s.conn d :=
  (s.sendPacket_onlyCounts c p).conn d

theorem State.sendPacket_sends (s : State) (c : Nat) (p : Packet) (d : Nat) : Sends s (s.sendPacket c p) d := by
  obtain ⟨a, hout, -⟩ := s.sendPacket_sealed c p
  exact .of_onlyCounts (s.sendPacket_onlyCounts c p) (hout ▸ List.subset_cons_self ..)

/-! ### Acknowledgements (R281, R295) -/

theorem State.sendAck_eq (s : State) (c syndrome : Nat) :
    s.sendAck c syndrome = (s.sendPacket c { blankPacket s c .ack ((s.conn c).epsn - 1) with
      offset := BitVec.ofNat 31 syndrome, ece := (s.conn c).ceSeen }).setConn c { s.conn c with unacked := 0, ceSeen := false } := by
  unfold State.sendAck
  dsimp only
  rw [State.sendPacket_conn]

theorem State.sendAck_sends (s : State) (c syndrome : Nat) : Sends s (s.sendAck c syndrome) c := by
  rw [State.sendAck_eq]
  exact (s.sendPacket_sends ..).trans (State.setConn_sends ..)

theorem State.sendAck_conn (s : State) (c syndrome : Nat) :
    (s.sendAck c syndrome).conn c = { s.conn c with unacked := 0, ceSeen := false } := by
  rw [State.sendAck_eq, State.setConn_conn_self]

theorem State.sendAck_out (s : State) (c syndrome : Nat) :
    ∃ a : Packet, (s.sendAck c syndrome).out = .packet c a :: s.out ∧ a.kind = .ack ∧ a.psn = (s.conn c).epsn - 1 := by
  rw [State.sendAck_eq, State.setConn_out]
  obtain ⟨a, hout, ha⟩ := s.sendPacket_sealed c { blankPacket s c .ack ((s.conn c).epsn - 1) with
    offset := BitVec.ofNat 31 syndrome, ece := (s.conn c).ceSeen }
  exact ⟨a, hout, by rw [ha]; rfl, by rw [ha]; rfl⟩

/-! ### Packets taken (R294, R295) -/

theorem State.taken_sends (s : State) (c : Nat) (p : Packet) (n syndrome : Nat) : Sends s (s.taken c p n syndrome) c := by
  unfold State.taken
  dsimp only
  split
  · exact (s.setConn_sends ..).trans (State.sendAck_sends ..)
  · exact s.setConn_sends ..

/-- Of its connection a packet that is taken changes the next PSN expected and what is yet to be acknowledged. -/
theorem State.taken_conn (s : State) (c : Nat) (p : Packet) (n syndrome : Nat) :
    let x := (s.taken c p n syndrome).conn c
    x = { s.conn c with epsn := (s.conn c).epsn + BitVec.ofNat 24 n, rwraps := x.rwraps, unacked := x.unacked, ceSeen := x.ceSeen } := by
  unfold State.taken
  dsimp only
  split
  · rw [State.sendAck_conn, State.setConn_conn_self]
    rfl
  · rw [State.setConn_conn_self]
    rfl

/-! ### CLOSE (R283) -/

theorem State.sendClose_eq (s : State) (c : Nat) :
    s.sendClose c = (s.sendPacket c (blankPacket s c .close (s.conn c).spsn)).setConn c
      { (s.conn c).advance 1 with closePsn := some (s.conn c).spsn } := by
  unfold State.sendClose
  dsimp only
  rw [State.sendPacket_conn]

theorem State.sendClose_sends (s : State) (c : Nat) : Sends s (s.sendClose c) c := by
  rw [State.sendClose_eq]
  exact (s.sendPacket_sends ..).trans (State.setConn_sends ..)

theorem State.sendClose_conn (s : State) (c : Nat) :
    (s.sendClose c).conn c = { (s.conn c).advance 1 with closePsn := some (s.conn c).spsn } := by
  rw [State.sendClose_eq, State.setConn_conn_self]

theorem State.sendClose_out (s : State) (c : Nat) :
    ∃ a : Packet, (s.sendClose c).out = .packet c a :: s.out ∧ a.kind = .close ∧ a.psn = (s.conn c).spsn := by
  rw [State.sendClose_eq, State.setConn_out]
  obtain ⟨a, hout, ha⟩ := s.sendPacket_sealed c (blankPacket s c .close (s.conn c).spsn)
  exact ⟨a, hout, by rw [ha]; rfl, by rw [ha]; rfl⟩

theorem State.closeTry_sends (s : State) (c : Nat) : Sends s (s.closeTry c) c := by
  unfold State.closeTry
  dsimp only
  split
  · exact s.sendClose_sends c
  · exact .refl s c

theorem State.closeTry_conn (s : State) (c : Nat) :
    let x := (s.closeTry c).conn c
    x = { s.conn c with spsn := x.spsn, wraps := x.wraps, closePsn := x.closePsn } := by
  unfold State.closeTry
  dsimp only
  split
  · rw [State.sendClose_conn]
    rfl
  · rfl

end Sys2Proof.Machine

end

section
/-! What Bore stores and completes (R283, R286, R299): a store leaves every connection, a completion all of them but the queues, the
completion ring and the count of its own; what has been sent stays sent. -/

namespace Sys2Proof.Machine

variable {s t u : State} {c d : Nat} {e : WorkEntry}

/-- From `s` to `t` no connection has changed, and what was sent stays sent. -/
structure ConnsStay (s t : State) : Prop where
  conns : t.conns = s.conns
  sent  : s.out ⊆ t.out

theorem ConnsStay.refl (s : State) : ConnsStay s s := ⟨rfl, List.Subset.refl _⟩

theorem ConnsStay.trans (h : ConnsStay s t) (g : ConnsStay t u) : ConnsStay s u := ⟨g.conns.trans h.conns, List.Subset.trans h.sent g.sent⟩

theorem ConnsStay.of_same (hc : t.conns = s.conns) (ho : t.out = s.out) : ConnsStay s t := ⟨hc, ho ▸ List.Subset.refl _⟩

theorem ConnsStay.conn (h : ConnsStay s t) (d : Nat) : t.conn d = s.conn d := congrArg (fun x : Tab connReset => x.get d) h.conns

theorem ConnsStay.ite {q : Prop} [Decidable q] (h : q → ConnsStay s t) (g : ¬ q → ConnsStay s u) : ConnsStay s (if q then t else u) := by
  split
  · next hq => exact h hq
  · next hq => exact g hq

/-! ### Stores -/

theorem State.putBytes_connsStay (s : State) (a : Nat) (bs : List Byte) : ConnsStay s (s.putBytes a bs) :=
  .of_same (by rw [State.putBytes_frame]) (s.putBytes_out a bs)

theorem State.putHalves_connsStay (s : State) (a n : Nat) (bs : List Byte) : ConnsStay s (s.putHalves a n bs) := by
  induction n generalizing s a bs with
  | zero => exact .refl s
  | succ n ih =>
    unfold State.putHalves
    exact .ite (fun _ => .refl s) fun _ => ConnsStay.trans (.ite (fun _ => .refl s) fun _ => s.putBytes_connsStay ..) (ih ..)

theorem State.hostPut_connsStay (s : State) (a : Nat) (bs : List Byte) : ConnsStay s (s.hostPut a bs) := by
  have hpart : ∀ (t : State) (o : Output) (a n : Nat), ConnsStay t ((t.emit o).countHost 4 a n) := fun t o a n =>
    ConnsStay.trans (t := t.emit o) ⟨rfl, List.subset_cons_self ..⟩ (.ite (fun _ => .refl _) fun _ => .of_same rfl rfl)
  unfold State.hostPut
  exact .ite (fun _ => hpart ..) fun _ => (hpart ..).trans (hpart ..)

theorem State.boreWrite_connsStay (s : State) (a : Nat) (bs : List Byte) : ConnsStay s (s.boreWrite a bs) := by
  unfold State.boreWrite
  exact .ite (fun _ => s.hostPut_connsStay a bs) fun _ => .ite (fun _ => s.putBytes_connsStay a bs) fun _ =>
    (s.putHalves_connsStay ..).trans (.of_same rfl rfl)

theorem State.boreStore_connsStay (s : State) (p a : Nat) (bs : List Byte) : ConnsStay s (s.boreStore p a bs) :=
  .ite (fun _ => s.boreWrite_connsStay a bs) fun _ => .refl s

/-! ### Completions -/

/-- From `s` to `t` connection `c` has changed in its queues, what a SEND has left in its buffer, its completion ring and its count, at
most, and no other has changed; what was sent stays sent. -/
structure Completes (s t : State) (c : Nat) : Prop where
  conn   : t.conn c = { s.conn c with
    sendQ := (t.conn c).sendQ, recvQ := (t.conn c).recvQ, recvGot := (t.conn c).recvGot, trunc := (t.conn c).trunc
    cqPos := (t.conn c).cqPos, lap := (t.conn c).lap, ccount := (t.conn c).ccount }
  others : ∀ d, d ≠ c → t.conn d = s.conn d
  sent   : s.out ⊆ t.out

theorem Completes.refl (s : State) (c : Nat) : Completes s s c := ⟨rfl, fun _ _ => rfl, List.Subset.refl _⟩

theorem Completes.trans (h : Completes s t c) (g : Completes t u c) : Completes s u c where
  conn := by rw [g.conn, h.conn]
  others d hd := (g.others d hd).trans (h.others d hd)
  sent := List.Subset.trans h.sent g.sent

/-- What a connection is configured with stays. -/
theorem Completes.freed (h : Completes s t c) : (t.conn c).freed = (s.conn c).freed := by
  rw [h.conn]
  rfl

/-- From `s` to `t` connection `c` has changed in its completion ring and its count, at most, and no other has changed. -/
structure RingOnly (s t : State) (c : Nat) : Prop where
  conn   : t.conn c = { s.conn c with cqPos := (t.conn c).cqPos, lap := (t.conn c).lap, ccount := (t.conn c).ccount }
  others : ∀ d, d ≠ c → t.conn d = s.conn d
  sent   : s.out ⊆ t.out

theorem ConnsStay.ringOnly (h : ConnsStay s t) (c : Nat) : RingOnly s t c := ⟨by rw [h.conn], fun d _ => h.conn d, h.sent⟩

theorem RingOnly.refl (s : State) (c : Nat) : RingOnly s s c := (ConnsStay.refl s).ringOnly c

theorem RingOnly.trans (h : RingOnly s t c) (g : RingOnly t u c) : RingOnly s u c where
  conn := by rw [g.conn, h.conn]
  others d hd := (g.others d hd).trans (h.others d hd)
  sent := List.Subset.trans h.sent g.sent

theorem RingOnly.ite {q : Prop} [Decidable q] (h : q → RingOnly s t c) (g : ¬ q → RingOnly s u c) : RingOnly s (if q then t else u) c := by
  split
  · next hq => exact h hq
  · next hq => exact g hq

theorem State.setConn_ringOnly (s : State) {x : Conn}
    (h : x = { s.conn c with cqPos := x.cqPos, lap := x.lap, ccount := x.ccount }) : RingOnly s (s.setConn c x) c where
  conn := by rw [State.setConn_conn_self]; exact h
  others _ hd := State.setConn_conn_ne _ _ _ _ hd
  sent := List.Subset.refl _

theorem State.writeCqe_ringOnly (s : State) (c : Nat) (wid : Word) (code : Nat) (recv immv : Bool) (bytes imm : Nat) :
    RingOnly s (s.writeCqe c wid code recv immv bytes imm) c := by
  have hstore := s.boreStore_connsStay (s.conn c).part ((s.conn c).cqbase + 16 * (s.conn c).cqPos)
    (cqeBytes wid code recv immv c (s.conn c).lap bytes imm)
  exact (hstore.ringOnly c).trans (State.setConn_ringOnly _ (by rw [hstore.conn]))

theorem State.slotReady_connsStay (s : State) (core key : Nat) : ConnsStay s (s.slotReady core key) := .of_same rfl rfl

theorem State.recordEffect_connsStay (s : State) (core ctx index : Nat) : ConnsStay s (s.recordEffect core ctx index) := .of_same rfl rfl

theorem State.finish_ringOnly (s : State) (c : Nat) (e : WorkEntry) (code : Nat) (recv immv : Bool) (bytes imm : Nat) :
    RingOnly s (s.finish c e code recv immv bytes imm) c := by
  unfold State.finish
  refine .ite (fun _ => .refl s c) fun _ => ?_
  extract_lets s1 x s2 s3
  have h1 : RingOnly s s1 c := .ite (fun _ => s.writeCqe_ringOnly ..) fun _ => .refl s c
  have h2 : RingOnly s1 s2 c := .ite (fun _ => s1.setConn_ringOnly rfl) fun _ => .refl s1 c
  have h3 : RingOnly s2 s3 c := by
    unfold s3
    split
    · exact (s2.slotReady_connsStay ..).ringOnly c
    · exact .refl s2 c
  exact ((h1.trans h2).trans h3).trans (.ite (fun _ => (s3.recordEffect_connsStay ..).ringOnly c) fun _ => .refl s3 c)

/-- A completion after its connection has changed: the queues are then the connection's, and what is left of a SEND with them. -/
theorem State.setConn_finish_spec (s : State) {x : Conn} (c : Nat) (e : WorkEntry) (code : Nat) (recv immv : Bool) (bytes imm : Nat)
    (hx : x = { s.conn c with sendQ := x.sendQ, recvQ := x.recvQ, recvGot := x.recvGot, trunc := x.trunc }) :
    let t := (s.setConn c x).finish c e code recv immv bytes imm
    Completes s t c ∧ (t.conn c).sendQ = x.sendQ ∧ (t.conn c).recvQ = x.recvQ := by
  have h := (s.setConn c x).finish_ringOnly c e code recv immv bytes imm
  have hconn := h.conn
  rw [State.setConn_conn_self] at hconn
  refine ⟨⟨?_, fun d hd => (h.others d hd).trans (State.setConn_conn_ne _ _ _ _ hd), h.sent⟩, ?_, ?_⟩
  · rw [hconn, hx]
  · rw [hconn]
  · rw [hconn]

/-- A send entry that completes leaves its queue. -/
theorem State.finishSend_spec (s : State) (c : Nat) (e : WorkEntry) (code bytes imm : Nat) :
    let t := s.finishSend c e code bytes imm
    Completes s t c ∧ (t.conn c).sendQ = (s.conn c).sendQ.filter (·.id != e.id) ∧ (t.conn c).recvQ = (s.conn c).recvQ :=
  s.setConn_finish_spec c e code false false bytes imm rfl

/-- A buffer that completes leaves its queue. -/
theorem State.finishRecv_spec (s : State) (c : Nat) (e : WorkEntry) (code bytes : Nat) (immv : Bool) (imm : Nat) :
    let t := s.finishRecv c e code bytes immv imm
    Completes s t c ∧ (t.conn c).sendQ = (s.conn c).sendQ ∧ (t.conn c).recvQ = (s.conn c).recvQ.filter (·.id != e.id) :=
  s.setConn_finish_spec c e code true immv bytes imm rfl

/-- Send entries that complete one after the other leave their queue. -/
theorem State.finishSends_spec (l : List WorkEntry) (code bytes : WorkEntry → Nat) (imm c : Nat) (s : State) :
    let t := l.foldl (fun s e => s.finishSend c e (code e) (bytes e) imm) s
    Completes s t c ∧ (t.conn c).sendQ = (s.conn c).sendQ.filter (fun y => l.all fun e => y.id != e.id)
      ∧ (t.conn c).recvQ = (s.conn c).recvQ := by
  induction l generalizing s with
  | nil => exact ⟨.refl s c, by simp, rfl⟩
  | cons e l ih =>
    obtain ⟨hone, hsend, hrecv⟩ := s.finishSend_spec c e (code e) (bytes e) imm
    obtain ⟨hall, hsends, hrecvs⟩ := ih (s.finishSend c e (code e) (bytes e) imm)
    refine ⟨hone.trans hall, hsends.trans ?_, hrecvs.trans hrecv⟩
    rw [hsend, List.filter_filter]
    exact List.filter_congr fun y _ => Bool.and_comm ..

/-- Buffers that complete FLUSHED one after the other leave their queue. -/
theorem State.flushRecvs_spec (l : List WorkEntry) (c : Nat) (s : State) :
    let t := l.foldl (fun s e => s.finishRecv c e ccFlushed 0 false 0) s
    Completes s t c ∧ (t.conn c).sendQ = (s.conn c).sendQ
      ∧ (t.conn c).recvQ = (s.conn c).recvQ.filter (fun y => l.all fun e => y.id != e.id) := by
  induction l generalizing s with
  | nil => exact ⟨.refl s c, rfl, by simp⟩
  | cons e l ih =>
    obtain ⟨hone, hsend, hrecv⟩ := s.finishRecv_spec c e ccFlushed 0 false 0
    obtain ⟨hall, hsends, hrecvs⟩ := ih (s.finishRecv c e ccFlushed 0 false 0)
    refine ⟨hone.trans hall, hsends.trans hsend, hrecvs.trans ?_⟩
    rw [hrecv, List.filter_filter]
    exact List.filter_congr fun y _ => Bool.and_comm ..

/-- Entries that do not bear the number of any of them: none. -/
theorem filter_other_ids_self (l : List WorkEntry) : (l.filter fun y => l.all fun e => y.id != e.id) = [] := by
  rw [List.filter_eq_nil_iff]
  intro y hy hall
  simpa using List.all_eq_true.1 hall y hy

/-- A connection that is flushed has no entry left (R283). -/
theorem State.flushConn_spec (s : State) (c : Nat) :
    let t := s.flushConn c
    Completes s t c ∧ (t.conn c).sendQ = [] ∧ (t.conn c).recvQ = [] := by
  unfold State.flushConn
  extract_lets u
  obtain ⟨hsends, hsend, hrecv⟩ := State.finishSends_spec (s.conn c).sendQ (fun _ => ccFlushed) (fun _ => 0) 0 c s
  obtain ⟨hrecvs, hsend', hrecv'⟩ := u.flushRecvs_spec (u.conn c).recvQ c
  rw [filter_other_ids_self] at hsend hrecv'
  exact ⟨hsends.trans hrecvs, hsend'.trans hsend, hrecv'⟩

end Sys2Proof.Machine

end

section
/-! Bore connections (R282, R283): opened, closed, in ERROR and freed. -/

namespace Sys2Proof.Machine

variable {s t u v : State} {c d : Nat} {p q : Packet} {m : Master} {f : Act}

/-! ### Dictionary writes of CONTROL (R282, R289) -/

/-- A write that the dictionary takes and its object's rules take is answered OK after what it does (R346). -/
theorem act_of_taken {i k : Nat} (h : Accepts s m i k) (hf : f (s.heard m.path) = (v, stOk)) :
    s.act m i k f = v.emit (.status m stOk) := by
  rw [act_of_accepts f h, State.guarded_of_taken h hf]

/-- CSEL or KSEL, subindex 0 of its object, names entry `n`. -/
def State.selected (s : State) (i n : Nat) : State := s.setObj i 0 n

theorem State.selected_obj (s : State) (i n j : Nat) {k : Nat} (h0 : 0 < k) (hk : k < 256) : (s.selected i n).obj j k = s.obj j k :=
  State.setObj_obj_ne _ _ _ _ _ _ (by decide) hk (by simp; omega)

@[simp] theorem State.selected_conn (s : State) (i n d : Nat) : (s.selected i n).conn d = s.conn d := State.setObj_conn ..

theorem State.selected_isSealed (s : State) (i n x : Nat) : (s.selected i n).isSealed x = s.isSealed x := by
  unfold State.isSealed
  rw [State.selected_obj _ _ _ _ (by decide) (by decide)]

/-! ### Opening (R283) -/

theorem State.sendConnect_out (s : State) (c : Nat) (k : PktKind) :
    ∃ a : Packet, (s.sendConnect c k).out = .packet c a :: s.out ∧ a.kind = k ∧ a.psn = (s.conn c).upsn
      ∧ a.jobId = BitVec.ofNat 32 (s.obj 0x3500 1) := by
  obtain ⟨a, hout, ha⟩ := s.sendPacket_sealed c (blankPacket s c k (s.conn c).upsn)
  exact ⟨a, hout, by rw [ha]; rfl, by rw [ha]; rfl, by rw [ha]; rfl⟩

theorem State.sendConnect_onlyCounts (s : State) (c : Nat) (k : PktKind) : OnlyCounts s (s.sendConnect c k) := s.sendPacket_onlyCounts ..

/-- A connection OPENING on a drawn PSN, as its CONNECT goes out. -/
def State.drawn (s : State) (c : Nat) : State :=
  s.takeFree.2.setConn c { s.conn c with
    st := .opening, spsn := s.takeFree.1.truncate 24, upsn := s.takeFree.1.truncate 24, cwnd := s.obj 0x4200 7 * 1024 }

theorem State.openConn_of_free (hst : (s.conn c).st = .free) (hseal : s.isSealed (s.conn c).part = false ∨ (s.conn c).keysel ≠ 0)
    (hnode : s.obj 0x1100 3 ≠ 0xFFFF) (hframe : s.frameOk (s.conn c).link = true) (hlen : 16 ≤ (s.conn c).cqlen) :
    s.openConn c = ((s.drawn c).sendConnect c .connect, stOk) := by
  have hopen : ¬ ((s.conn c).st = .free ∧ s.isSealed (s.conn c).part = true ∧ (s.conn c).keysel = 0) := by
    rintro ⟨-, h, h'⟩
    rcases hseal with hs | hs
    · rw [hs] at h
      cases h
    · exact hs h'
  unfold State.openConn
  dsimp only
  rw [if_neg hopen, if_neg (by simp [hst, hnode]), if_neg (by simp [hframe]; omega)]
  rfl

theorem State.selected_frameOk (s : State) (i n l : Nat) : (s.selected i n).frameOk l = s.frameOk l := by
  have hlinks : (s.selected i n).linksOf l = s.linksOf l := by
    unfold State.linksOf
    simp only [State.selected_obj _ _ _ _ (show 0 < 7 by decide) (by decide)]
  unfold State.frameOk
  rw [hlinks]
  simp only [State.selected_obj _ _ _ _ (show 0 < 3 by decide) (by decide)]

/-- CONTROL = 1 on a FREE connection that is configured in full: CONNECT goes out on a drawn PSN. -/
theorem State.selected_openConn {i n : Nat} (hst : (s.conn c).st = .free)
    (hseal : s.isSealed (s.conn c).part = false ∨ (s.conn c).keysel ≠ 0) (hnode : s.obj 0x1100 3 ≠ 0xFFFF)
    (hframe : s.frameOk (s.conn c).link = true) (hlen : 16 ≤ (s.conn c).cqlen) :
    (s.selected i n).openConn c = (((s.selected i n).drawn c).sendConnect c .connect, stOk) :=
  State.openConn_of_free hst (by rwa [State.selected_isSealed]) (by rwa [State.selected_obj _ _ _ _ (by decide) (by decide)])
    (by rwa [State.selected_frameOk]) hlen

/-! ### Matched (R283, R299) -/

theorem OnlyCounts.sameMem (h : OnlyCounts s t) : SameMem s t := fun a => by
  unfold State.byteAt
  rw [h.redirects]
  exact State.rawByte_congr h.mem (fun d => by rw [State.core_congr h.cores]) _

theorem State.countOpen_conn (s : State) (d : Nat) : s.countOpen.conn d = s.conn d := rfl

theorem State.received_onlyCounts (s : State) (p : Packet) : OnlyCounts s (s.received p) := ((OnlyCounts.refl s).count ..).count ..

/-- A packet that passes its tag, as it is counted: of its connection only the row of failures has changed (R304). -/
def State.heardOn (s : State) (p : Packet) : State := (s.received p).authPass p.dconn.toNat

theorem State.heardOn_conn (s : State) (p : Packet) (d : Nat) :
    (s.heardOn p).conn d = if d = p.dconn.toNat then { s.conn d with authFails := 0 } else s.conn d := by
  unfold State.heardOn State.authPass
  rw [State.setConn_conn_eq, (s.received_onlyCounts p).conn, (s.received_onlyCounts p).conn]
  split
  · next hd => rw [hd]
  · rfl

theorem State.heardOn_mem (s : State) (p : Packet) : (s.heardOn p).mem = s.mem := (s.received_onlyCounts p).mem

theorem State.heardOn_out (s : State) (p : Packet) : (s.heardOn p).out = s.out := by
  unfold State.heardOn State.authPass State.received State.count
  rw [State.setConn_out, State.setObj_out, State.setObj_out]

theorem State.opened_conn (s : State) (p : Packet) (d : Nat) :
    (s.opened p).conn d = if d = p.dconn.toNat then { s.conn p.dconn.toNat with
      st := .isOpen, atomicAgreed := (s.conn p.dconn.toNat).atomic && p.atomic, epsn := p.psn, peerEpoch := p.epoch, ccount := 0
      wraps := 0, rwraps := 0 } else s.conn d := by
  unfold State.opened
  dsimp only
  rw [State.countOpen_conn, State.setConn_conn_eq]

theorem State.opened_mem (s : State) (p : Packet) : (s.opened p).mem = s.mem := by
  unfold State.opened State.countOpen
  rw [State.setObj_mem, State.setConn_mem]

theorem State.opened_out (s : State) (p : Packet) : (s.opened p).out = s.out := by
  unfold State.opened State.countOpen
  rw [State.setObj_out, State.setConn_out]

/-- A CONNECT or ACCEPT that matches opens its connection. -/
theorem State.opened_openedBy (s : State) (p : Packet) : OpenedBy s ((s.heardOn p).opened p) p := by
  have hother : ∀ d, d ≠ p.dconn.toNat → ((s.heardOn p).opened p).conn d = s.conn d := fun d hd => by
    rw [State.opened_conn, if_neg hd, State.heardOn_conn, if_neg hd]
  unfold OpenedBy
  rw [State.opened_conn, if_pos rfl, State.heardOn_conn, if_pos rfl]
  exact ⟨rfl, rfl, rfl, rfl, rfl, hother, by rw [State.opened_mem, State.heardOn_mem]⟩

theorem OpenedBy.onlyCounts (h : OpenedBy s t p) (g : OnlyCounts t u) : OpenedBy s u p := by
  unfold OpenedBy at *
  simp only [g.conn, g.mem]
  exact h

theorem State.rxConnect_of_match (hst : (s.conn p.dconn.toNat).st = .opening) (hm : (s.received p).matchesConn p = true)
    (ho : (s.received p).connectOpens p = true) :
    s.rxConnect p = ((s.heardOn p).opened p).sendConnect p.dconn.toNat .accept := by
  have hst' : ((s.received p).conn p.dconn.toNat).st = .opening := by rw [(s.received_onlyCounts p).conn, hst]
  unfold State.rxConnect
  dsimp only
  rw [if_neg (by simp [hm, hst']), if_neg (by simp [ho]), if_pos hst']
  rfl

theorem State.rxAccept_of_match (hst : (s.conn p.dconn.toNat).st = .opening) (hm : (s.received p).matchesConn p = true)
    (ho : (s.received p).connectOpens p = true) :
    s.rxAccept p = (s.heardOn p).opened p := by
  have hst' : ((s.received p).conn p.dconn.toNat).st = .opening := by rw [(s.received_onlyCounts p).conn, hst]
  unfold State.rxAccept
  dsimp only
  rw [if_neg (by simp [hm, hst']), if_neg (by simp [ho]), if_pos hst']
  rfl

/-! ### ERROR (R283, R299) -/

/-- Chains that a connection breaks are those of other connections. -/
theorem State.breakChains_conn (s : State) (c : Nat) : (s.breakChains c).conn c = s.conn c := by
  unfold State.breakChains
  refine List.foldlRecOn _ _ (motive := fun t : State => t.conn c = s.conn c) rfl fun t h d _ => ?_
  split
  · split
    · next hd => exact ((t.finishSend_spec d _ ccChainBroken 0 0).1.others c (Ne.symm hd.1)).trans h
    · exact h
  · exact h

/-- A connection in ERROR has its code and no entry. -/
theorem State.connError_spec (s : State) (c err : Nat) :
    let x := (s.connError c err).conn c
    x.st = .error ∧ x.err = BitVec.ofNat 8 err ∧ x.sendQ = [] ∧ x.recvQ = [] := by
  unfold State.connError
  dsimp only
  generalize hu : s.setConn c { s.conn c with st := .error, err := BitVec.ofNat 8 err } = u
  have hlog : (u.logEvent 0x79 0x0903 (c * 2 ^ 16 + err * 2 ^ 28)).conn c = { s.conn c with st := .error, err := BitVec.ofNat 8 err } := by
    rw [State.logEvent_noting, ← hu]
    exact State.setConn_conn_self ..
  obtain ⟨hflush, hsend, hrecv⟩ := (u.logEvent 0x79 0x0903 (c * 2 ^ 16 + err * 2 ^ 28)).flushConn_spec c
  have hconn := hflush.conn
  rw [hlog] at hconn
  rw [State.countOpen_conn, State.breakChains_conn]
  exact ⟨by rw [hconn], by rw [hconn], hsend, hrecv⟩

/-! ### Closing (R283) -/

/-- CONTROL = 2 on an OPEN connection without entries: it is CLOSING, and its CLOSE goes out. -/
theorem State.closeConn_of_open (hst : (s.conn c).st = .isOpen) (hs : (s.conn c).sendQ = []) (hr : (s.conn c).recvQ = [])
    (hn : (s.conn c).closePsn = none) :
    s.closeConn c = ((s.setConn c { s.conn c with st := .closing }).countOpen.sendClose c, stOk) := by
  have hself : (s.setConn c { s.conn c with st := .closing }).countOpen.conn c = { s.conn c with st := .closing } := by
    rw [State.countOpen_conn, State.setConn_conn_self]
  have hready : (s.setConn c { s.conn c with st := .closing }).countOpen.closeTry c
      = (s.setConn c { s.conn c with st := .closing }).countOpen.sendClose c := by
    unfold State.closeTry
    dsimp only
    rw [hself, if_pos (by simp [hs, hr, hn])]
  unfold State.closeConn
  dsimp only
  rw [hst]
  exact congrArg (fun x => (x, stOk)) hready

/-- On a connection in ERROR it sends CLOSE and frees it. -/
theorem State.closeConn_of_error (hst : (s.conn c).st = .error) :
    s.closeConn c = ((s.sendClose c).setConn c (s.conn c).freed, stOk) := by
  unfold State.closeConn
  dsimp only
  rw [hst]

/-- What is left of a CLOSING connection completes FLUSHED, and its CLOSE goes out where it has not gone. -/
def State.closed (s : State) (c : Nat) : State :=
  if ((s.flushConn c).conn c).closePsn.isNone then (s.flushConn c).sendClose c else s.flushConn c

theorem execCloseTimeout_of_closing {c : ConnId} (hst : (s.conn c).st = .closing) :
    execCloseTimeout c s = .next ((s.closed c).setConn c ((s.closed c).conn c).freed) := by
  unfold execCloseTimeout
  rw [if_pos hst]
  rfl

theorem Conn.advance_freed (x : Conn) (n : Nat) (y : Option (BitVec 24)) : { x.advance n with closePsn := y }.freed = x.freed := rfl

theorem State.closed_freed (s : State) (c : Nat) : ((s.closed c).conn c).freed = (s.conn c).freed := by
  have hflush := (s.flushConn_spec c).1.freed
  unfold State.closed
  split
  · rw [State.sendClose_conn, Conn.advance_freed, hflush]
  · exact hflush

/-- What is left of a connection completes FLUSHED, and it is FREE. -/
def State.flushedFree (s : State) (c : Nat) : State := ((s.flushConn c).setConn c ((s.flushConn c).conn c).freed).countOpen

theorem State.flushedFree_conn (s : State) (c : Nat) : (s.flushedFree c).conn c = (s.conn c).freed := by
  unfold State.flushedFree
  rw [State.countOpen_conn, State.setConn_conn_self, (s.flushConn_spec c).1.freed]

theorem State.flushedFree_sent (s : State) (c : Nat) : s.out ⊆ (s.flushedFree c).out := by
  unfold State.flushedFree State.countOpen
  rw [State.setObj_out, State.setConn_out]
  exact (s.flushConn_spec c).1.sent

/-- A CLOSE from the peer is acknowledged on an OPEN connection, and what is outstanding completes FLUSHED. -/
theorem State.rxClose_of_open (hk : p.kind = .close) (hst : (s.conn p.dconn.toNat).st = .isOpen) (hadmit : s.admitPacket p = (u, some q)) :
    s.rxClose p
      = ((u.setConn p.dconn.toNat ((u.conn p.dconn.toNat).expect 1)).sendAck p.dconn.toNat 0).flushedFree p.dconn.toNat := by
  unfold State.rxClose
  dsimp only
  rw [if_neg (not_not.2 hk), hst, if_neg (by decide), hadmit]
  rfl

theorem State.admitPacket_freed (h : s.admitPacket p = (u, some q)) (d : Nat) : (u.conn d).freed = (s.conn d).freed := by
  have hu : u = s.heardOn p := (State.admitPacket_of_some h).1
  rw [hu, State.heardOn_conn]
  split <;> rfl

end Sys2Proof.Machine

open Sys2Proof Sys2Proof.Machine

/-- Settles O31: each clause reads off what its operation leaves of the connection and what it sends, by the lemmas above on it. -/
theorem connectionsOpenAndClose : Obligations.ConnectionsOpenAndClose := by
  refine ⟨⟨?opens, ?waits, ?matched⟩, ?closes, ?late, ?peer⟩
  case opens =>
    intro m c s ha u x hst hseal hnode hframe hlen
    have hrun := State.selected_openConn (i := 0x4210) (n := c) hst hseal hnode hframe hlen
    have hcounts := ((u.selected 0x4210 c).drawn c).sendConnect_onlyCounts c .connect
    obtain ⟨a, hout, hkind, hpsn, hjob⟩ := ((u.selected 0x4210 c).drawn c).sendConnect_out c .connect
    have hself : ((u.selected 0x4210 c).drawn c).conn c = { x with
      st := .opening, spsn := (u.selected 0x4210 c).takeFree.1.truncate 24, upsn := (u.selected 0x4210 c).takeFree.1.truncate 24
      cwnd := (u.selected 0x4210 c).obj 0x4200 7 * 1024 } := State.setConn_conn_self ..
    refine ⟨_, congrArg Host.Outcome.next (act_of_taken ha hrun), rfl, ?_⟩
    simp only [State.emit_conn, State.emit_out, hcounts.conn, hself, hout]
    refine ⟨trivial, trivial, ?_, fun d hd => State.setConn_conn_ne _ _ _ _ hd, a, by simp, hkind, ?_, ?_⟩
    · rw [State.selected_obj _ _ _ _ (by decide) (by decide)]
    · rw [hpsn, hself]
    · rw [hjob, BitVec.toNat_ofNat]
      exact congrArg (· % 2 ^ 32) (State.selected_obj _ _ _ _ (by decide) (by decide))
  case waits =>
    intro c s hst
    refine ⟨⟨_, congrArg Host.Outcome.next (if_pos hst), ?_⟩, ⟨_, congrArg Host.Outcome.next (if_pos hst), ?_⟩⟩
    · have hcounts := s.sendConnect_onlyCounts c .connect
      obtain ⟨a, hout, hkind, hpsn, -⟩ := s.sendConnect_out c .connect
      exact ⟨hcounts.conns, hcounts.sameMem, a, by rw [hout]; rfl, hkind, hpsn⟩
    · exact s.connError_spec c ccConnectTimeout
  case matched =>
    intro p s hst hmatch hopens
    have hopened := s.opened_openedBy p
    refine ⟨⟨_, congrArg Host.Outcome.next (State.rxConnect_of_match hst hmatch hopens), ?_⟩,
      ⟨_, congrArg Host.Outcome.next (State.rxAccept_of_match hst hmatch hopens), hopened, by rw [State.opened_out, State.heardOn_out]⟩⟩
    obtain ⟨a, hout, hkind, -⟩ := ((s.heardOn p).opened p).sendConnect_out p.dconn.toNat .accept
    exact ⟨hopened.onlyCounts (State.sendConnect_onlyCounts ..), a, by rw [hout]; rfl, hkind⟩
  case closes =>
    intro m c s ha u x
    refine ⟨fun hst hsend hrecv hnone => ?_, fun hst => ?_⟩
    · have hrun := State.closeConn_of_open (s := u.selected 0x4210 c) hst hsend hrecv hnone
      refine ⟨_, congrArg Host.Outcome.next (act_of_taken ha hrun), rfl, ?_⟩
      generalize hw : ((u.selected 0x4210 c).setConn c { (u.selected 0x4210 c).conn c with st := .closing }).countOpen = w
      have hself : w.conn c = { x with st := .closing } := by
        rw [← hw, State.countOpen_conn, State.setConn_conn_self, State.selected_conn]
      obtain ⟨a, hout, hkind, hpsn⟩ := w.sendClose_out c
      simp only [State.emit_conn, State.emit_out, State.sendClose_conn, hself, hout]
      exact ⟨rfl, trivial, rfl, a, by simp, hkind, by rw [hpsn, hself]⟩
    · have hrun := State.closeConn_of_error (s := u.selected 0x4210 c) hst
      refine ⟨_, congrArg Host.Outcome.next (act_of_taken ha hrun), rfl, ?_⟩
      rw [State.emit_conn, State.setConn_conn_self, State.selected_conn]
  case late =>
    intro c s hst
    exact ⟨_, execCloseTimeout_of_closing hst, by rw [State.setConn_conn_self, State.closed_freed]⟩
  case peer =>
    intro p q u s hk hst hadmit
    refine ⟨_, congrArg Host.Outcome.next (State.rxClose_of_open hk hst hadmit), ?_⟩
    have hconfig := State.admitPacket_freed hadmit p.dconn.toNat
    generalize p.dconn.toNat = c at *
    obtain ⟨a, hout, hkind, -⟩ := (u.setConn c ((u.conn c).expect 1)).sendAck_out c 0
    refine ⟨?_, a, State.flushedFree_sent _ c (hout ▸ List.mem_cons_self), hkind⟩
    rw [State.flushedFree_conn, State.sendAck_conn, State.setConn_conn_self, ← hconfig]
    rfl

end

section
/-! Memory keys (R289, R290, R326): what selecting an entry leaves of the checks, and REGISTER where they pass. -/

namespace Sys2Proof.Machine

variable {s u v : State} {i n : Nat}

theorem State.noting_mem (s t : State) : (s.noting t).mem = s.mem := rfl

theorem State.bumpEpoch_mem (s : State) (i : Nat) : (s.bumpEpoch i).mem = s.mem := rfl

theorem State.advanceEpoch_mem (s : State) (i : Nat) : (s.advanceEpoch i).mem = s.mem := by
  have hself : s = s.noting s := rfl
  rw [State.advanceEpoch_noting hself i, State.noting_mem, State.bumpEpoch_mem]

/-- Receiving a request leaves memory (R354, R369). -/
theorem State.heard_mem (s : State) (p : Path) : (s.heard p).mem = s.mem := by
  unfold State.heard State.chainHeard
  split
  · dsimp only
    generalize hu : (if s.obj 0x1100 6 = 1 then s.setObj 0x1100 6 0 else s) = u
    have hmem : u.mem = s.mem := by
      rw [← hu]
      split
      · rw [State.setObj_mem]
      · rfl
    split
    · rw [State.advanceEpoch_mem]
      exact hmem
    · exact hmem
  · rfl

/-! ### An entry selected: no register that a check reads has changed -/

theorem State.selected_keys (s : State) (i n : Nat) : (s.selected i n).keys = s.keys := State.setObj_keys ..

theorem State.selected_partOf (s : State) (i n c : Nat) : (s.selected i n).partOf c = s.partOf c := by
  unfold State.partOf
  rw [State.selected_obj _ _ _ _ (by decide) (by decide)]

theorem State.selected_region (s : State) (i n r : Nat) : (s.selected i n).region r = s.region r := by
  unfold State.region
  rw [State.selected_obj _ _ _ _ (by decide) (by decide), State.selected_obj _ _ _ _ (by decide) (by decide),
    State.selected_obj _ _ _ _ (by decide) (by decide), State.selected_obj _ _ _ _ (by decide) (by decide),
    State.selected_obj _ _ _ _ (by decide) (by decide)]

theorem State.selected_regionOf (s : State) (i n off k : Nat) : (s.selected i n).regionOf off k = s.regionOf off k := by
  unfold State.regionOf
  simp only [State.selected_region]

theorem State.selected_hostOpen (s : State) (i n w : Nat) : (s.selected i n).hostOpen w = s.hostOpen w := by
  unfold State.hostOpen
  rw [State.selected_obj _ _ _ _ (by decide) (by decide)]
  rfl

theorem State.selected_keySealed (s : State) (i n : Nat) (k : Key) : (s.selected i n).keySealed k = s.keySealed k := by
  unfold State.keySealed
  simp only [State.selected_partOf, State.selected_regionOf, State.selected_region, State.selected_isSealed]

theorem State.selected_keyBound (s : State) (i n : Nat) (k : Key) (p : Nat) : (s.selected i n).keyBound k p = s.keyBound k p := by
  unfold State.keyBound
  rw [State.selected_conn]

theorem State.selected_keyOk (s : State) (i n : Nat) (k : Key) : (s.selected i n).keyOk k = s.keyOk k := by
  unfold State.keyOk
  simp only [State.selected_partOf, State.selected_regionOf, State.selected_region, State.selected_hostOpen]

/-! ### CONTROL (R290) -/

/-- Key `k` holds `x`. -/
def State.keySet (s : State) (k : Nat) (x : Key) : State := { s with keys := s.keys.set k x }

theorem State.keySet_spec (s : State) (k : Nat) (x : Key) :
    (s.keySet k x).keys.get k = x ∧ (∀ j, j ≠ k → (s.keySet k x).keys.get j = s.keys.get j) ∧ (s.keySet k x).mem = s.mem :=
  ⟨Tab.get_set_self .., fun _ hj => Tab.get_set_of_ne _ _ hj, rfl⟩

/-- A key whose memory allows its range and rights is registered; over sealed memory it must be bound to the partition (R326). -/
theorem State.register_of_allowed {k : Nat}
    (hseal : s.keySealed (s.keys.get k) = none ∨ ∃ p, s.keySealed (s.keys.get k) = some p ∧ s.keyBound (s.keys.get k) p = true)
    (hok : s.keyOk (s.keys.get k) = true) (hlen : 64 ≤ (s.keys.get k).len) :
    s.register k = (s.keySet k { s.keys.get k with valid := true }, stOk) := by
  have hrange : (s.keyOk (s.keys.get k) && decide (64 ≤ (s.keys.get k).len)) = true := by rw [hok, decide_eq_true hlen]; rfl
  unfold State.register
  dsimp only
  obtain hnone | ⟨p, hsome, hbound⟩ := hseal
  · rw [hnone]
    exact if_pos hrange
  · rw [hsome]
    dsimp only
    rw [hbound, if_neg (by decide)]
    exact if_pos hrange

end Sys2Proof.Machine

open Sys2Proof Sys2Proof.Machine

/-- Settles O32: the write takes, and of the keys it sets the one that is selected. -/
theorem keysRegisterAndInvalidate : Obligations.KeysRegisterAndInvalidate := by
  intro m k s ha u x
  have hmem : u.mem = s.mem := s.heard_mem m.path
  refine ⟨fun hseal hok hlen => ?registered, ?invalidated⟩
  case registered =>
    have hrun := State.register_of_allowed (s := u.selected 0x4220 k) (k := k)
      (by simpa only [State.selected_keySealed, State.selected_keyBound, State.selected_keys] using hseal) (by rwa [State.selected_keyOk]) hlen
    obtain ⟨hself, hother, hkept⟩ := (u.selected 0x4220 k).keySet_spec k { x with valid := true }
    exact ⟨_, congrArg Host.Outcome.next (act_of_taken ha hrun), rfl, hself, hother, hkept.trans hmem⟩
  case invalidated =>
    obtain ⟨hself, hother, hkept⟩ := (u.selected 0x4220 k).keySet_spec k { x with valid := false, tag := x.tag + 1 }
    have hrun : (u.selected 0x4220 k).invalidate k
        = ((u.selected 0x4220 k).keySet k { x with valid := false, tag := x.tag + 1 }, stOk) := rfl
    exact ⟨_, congrArg Host.Outcome.next (act_of_taken ha hrun), rfl, hself, hother, hkept.trans hmem⟩

end

section
/-! Work entries on the wire (R279, R285, R297): the next packets of an entry leave on the connection's next PSNs. -/

namespace Sys2Proof.Machine

variable {s t u : State} {c op n : Nat} {e : WorkEntry}

/-- Packets of an entry sent one after the other, each counted as it is read from its source. -/
def State.packetsSent (s : State) (c : Nat) (e : WorkEntry) (n : Nat) : State :=
  (List.range n).foldl (fun s i =>
    (s.countBulk 1 (e.laddr + 4096 * (e.sent + i)) (e.pay (e.sent + i))).sendPacket c (s.entryPacket c e (e.sent + i))) s

/-- An entry that starts takes the connection's next PSN as its first. -/
def WorkEntry.numbered (e : WorkEntry) (psn : BitVec 24) : WorkEntry := if e.sent = 0 then { e with psn := psn } else e

theorem WorkEntry.numbered_eq (e : WorkEntry) (psn : BitVec 24) : e.numbered psn = { e with psn := if e.sent = 0 then psn else e.psn } := by
  unfold WorkEntry.numbered
  split <;> rfl

theorem State.transmit_eq (s : State) (c : Nat) (e : WorkEntry) (n : Nat) :
    s.transmit c e n = (let e' := e.numbered (s.conn c).spsn
      let u := s.packetsSent c e' n
      let x := (u.conn c).advance (if e'.isData then n else e'.psns)
      u.setConn c { x with inflight := x.inflight + e'.payNext n, sendQ := putEntry x.sendQ { e' with sent := e'.sent + n } }) := rfl

theorem State.packetsSent_onlyCounts (s : State) (c : Nat) (e : WorkEntry) (n : Nat) : OnlyCounts s (s.packetsSent c e n) :=
  List.foldlRecOn _ _ (motive := OnlyCounts s) (.refl s) fun _ h _ _ => (h.countBulk ..).trans (State.sendPacket_onlyCounts ..)

theorem State.entryPacket_fields (s : State) (c : Nat) (e : WorkEntry) (i : Nat) :
    (s.entryPacket c e i).kind = entryKind e.op ∧ (s.entryPacket c e i).psn = e.psn + BitVec.ofNat 24 i := by
  unfold State.entryPacket
  dsimp only
  split <;> exact ⟨rfl, rfl⟩

/-- Each packet goes out on its PSN. -/
theorem State.packetsSent_out (s : State) (c : Nat) (e : WorkEntry) (n i : Nat) (hi : i < n) :
    ∃ p, Output.packet c p ∈ (s.packetsSent c e n).out ∧ p.kind = entryKind e.op ∧ p.psn = e.psn + BitVec.ofNat 24 (e.sent + i) := by
  have hall := mem_out_of_foldl
    (P := fun i o => ∃ p, o = .packet c p ∧ p.kind = entryKind e.op ∧ p.psn = e.psn + BitVec.ofNat 24 (e.sent + i))
    (f := fun s i => (s.countBulk 1 (e.laddr + 4096 * (e.sent + i)) (e.pay (e.sent + i))).sendPacket c
      (s.entryPacket c e (e.sent + i)))
    (fun t i o ho => ?grow) (fun t i => ?send) (List.range n) s i (List.mem_range.2 hi)
  case grow => exact (State.sendPacket_sends _ c _ c).sent ((t.countBulk_sends (c := c) 1 _ _).sent ho)
  case send =>
    obtain ⟨a, hout, ha⟩ := (t.countBulk 1 (e.laddr + 4096 * (e.sent + i)) (e.pay (e.sent + i))).sendPacket_sealed c
      (t.entryPacket c e (e.sent + i))
    obtain ⟨hkind, hpsn⟩ := t.entryPacket_fields c e (e.sent + i)
    exact ⟨_, hout ▸ List.mem_cons_self, a, rfl, by rw [ha, ← hkind], by rw [ha, ← hpsn]⟩
  obtain ⟨_, ho, p, rfl, hkind, hpsn⟩ := hall
  exact ⟨p, ho, hkind, hpsn⟩

/-- The next packets of an entry are on the wire: a data entry has used a PSN for each, any other the PSNs of its message. -/
theorem State.transmit_transmitted (s : State) (c : Nat) (e : WorkEntry) (n : Nat) :
    Transmitted s (s.transmit c e n) c e n (if e.isData then n else e.psns) := by
  rw [State.transmit_eq, WorkEntry.numbered_eq]
  dsimp only
  have hcounts := s.packetsSent_onlyCounts c { e with psn := if e.sent = 0 then (s.conn c).spsn else e.psn } n
  have hout := s.packetsSent_out c { e with psn := if e.sent = 0 then (s.conn c).spsn else e.psn } n
  generalize s.packetsSent c { e with psn := if e.sent = 0 then (s.conn c).spsn else e.psn } n = u at *
  unfold Transmitted
  rw [State.setConn_conn_self, hcounts.conn]
  exact ⟨⟨rfl, hout⟩, rfl, rfl, fun d hd => (State.setConn_conn_ne _ _ _ _ hd).trans (hcounts.conn d), hcounts.mem, hcounts.cores⟩

/-! ### No barrier packet waits (R303) -/

theorem State.pumpBarrier_of_none (h : ∀ y ∈ (s.conn c).sendQ, y.isBarrier = false) : s.pumpBarrier c = s := by
  unfold State.pumpBarrier
  refine List.foldlRecOn _ _ (motive := fun t => t = s) rfl fun t ht _ _ => ?_
  rw [ht]
  split
  · next e he => exact if_neg (by rw [h e (List.mem_of_find?_eq_some he)]; decide)
  · rfl

/-- An entry whose turn it is stands on the send queue. -/
theorem Conn.mayWork_spec {x : Conn} (h : x.mayWork op = some e) : e ∈ x.sendQ ∧ e.op = op := by
  unfold Conn.mayWork at h
  split at h
  · split at h
    · next y hy =>
      split at h
      · next hop =>
        obtain rfl := Option.some.inj h
        exact ⟨List.mem_of_find?_eq_some hy, hop.1⟩
      · cases h
    · cases h
  · cases h

theorem mem_putEntry {q : List WorkEntry} {y : WorkEntry} (h : y ∈ putEntry q e) : y = e ∨ y ∈ q := by
  obtain ⟨z, hz, rfl⟩ := List.mem_map.1 h
  split
  · exact .inl rfl
  · exact .inr hz

theorem State.transmit_pumpBarrier (he : e ∈ (s.conn c).sendQ) (h : ∀ y ∈ (s.conn c).sendQ, y.isBarrier = false) :
    (s.transmit c e n).pumpBarrier c = s.transmit c e n := by
  obtain ⟨⟨hqueue, -⟩, -⟩ := s.transmit_transmitted c e n
  refine State.pumpBarrier_of_none fun y hy => ?_
  rw [hqueue] at hy
  obtain rfl | hy := mem_putEntry hy
  · exact h e he
  · exact h y hy

/-! ### Entries whose turn it is (R285, R297) -/

theorem State.workData_of_ready (hmay : (s.conn c).mayWork op = some e) (hplain : ∀ y ∈ (s.conn c).sendQ, y.isBarrier = false)
    (hn : 0 < (s.conn c).packetsNow e)
    (herr : s.sramError (e.laddr + 4096 * e.sent) (e.payNext ((s.conn c).packetsNow e)) = false)
    (hready : s.sourceReady e.core (e.laddr + 4096 * e.sent) (e.payNext ((s.conn c).packetsNow e)) = true) :
    s.workData c op = s.transmit c e ((s.conn c).packetsNow e) := by
  unfold State.workData
  rw [hmay]
  dsimp only
  rw [if_neg (Nat.ne_of_gt hn), if_neg (by rw [herr]; decide), if_pos hready,
    State.transmit_pumpBarrier (Conn.mayWork_spec hmay).1 hplain]

theorem State.workRequest_of_room (hmay : (s.conn c).mayWork op = some e) (hplain : ∀ y ∈ (s.conn c).sendQ, y.isBarrier = false)
    (hfew : (if op = 5 then (s.conn c).outstanding (·.op == 5) else (s.conn c).outstanding WorkEntry.isAtomic) < 16)
    (hroom : e.psns ≤ (s.conn c).psnRoom) : s.workRequest c op = s.transmit c e 1 := by
  unfold State.workRequest
  rw [hmay]
  dsimp only
  rw [if_pos ⟨hfew, hroom⟩, State.transmit_pumpBarrier (Conn.mayWork_spec hmay).1 hplain]

/-- SEND, WRITE and WRITE_ACC: a fresh PSN for each packet. -/
theorem State.workData_transmitted (hop : op = 1 ∨ op = 3 ∨ op = 4) (hmay : (s.conn c).mayWork op = some e)
    (hplain : ∀ y ∈ (s.conn c).sendQ, y.isBarrier = false) (hn : 0 < (s.conn c).packetsNow e)
    (herr : s.sramError (e.laddr + 4096 * e.sent) (e.payNext ((s.conn c).packetsNow e)) = false)
    (hready : s.sourceReady e.core (e.laddr + 4096 * e.sent) (e.payNext ((s.conn c).packetsNow e)) = true) :
    Transmitted s (s.workData c op) c e ((s.conn c).packetsNow e) ((s.conn c).packetsNow e) := by
  have hdata : e.isData = true := by
    rw [← (Conn.mayWork_spec hmay).2] at hop
    unfold WorkEntry.isData
    rcases hop with h | h | h <;> rw [h] <;> rfl
  have hsent := s.transmit_transmitted c e ((s.conn c).packetsNow e)
  rwa [if_pos hdata, ← State.workData_of_ready hmay hplain hn herr hready] at hsent

/-- READ and the atomics: one packet, on the PSNs of the message. -/
theorem State.workRequest_transmitted (hop : op = 5 ∨ op = 6 ∨ op = 7) (hmay : (s.conn c).mayWork op = some e)
    (hplain : ∀ y ∈ (s.conn c).sendQ, y.isBarrier = false)
    (hfew : (if op = 5 then (s.conn c).outstanding (·.op == 5) else (s.conn c).outstanding WorkEntry.isAtomic) < 16)
    (hroom : e.psns ≤ (s.conn c).psnRoom) : Transmitted s (s.workRequest c op) c e 1 e.psns := by
  have hdata : e.isData = false := by
    rw [← (Conn.mayWork_spec hmay).2] at hop
    unfold WorkEntry.isData
    rcases hop with h | h | h <;> rw [h] <;> rfl
  have hsent := s.transmit_transmitted c e 1
  rwa [hdata, if_neg Bool.false_ne_true, ← State.workRequest_of_room hmay hplain hfew hroom] at hsent

end Sys2Proof.Machine

open Sys2Proof Sys2Proof.Machine

/-- Settles O34: the window, the source and the limits let the packets go, and `transmit` sends them. -/
theorem workEntriesTransmit : Obligations.WorkEntriesTransmit := by
  constructor
  · intro x hx c e s hmay hplain hn herr hready
    obtain rfl | rfl | rfl : x = (.weSend, 1) ∨ x = (.weWrite, 3) ∨ x = (.weWriteAcc, 4) := by simpa using hx
    all_goals exact ⟨_, rfl, State.workData_transmitted (by decide) hmay hplain hn herr hready⟩
  · intro x hx c e s hmay hplain hfew hroom
    obtain rfl | rfl | rfl : x = (.weRead, 5) ∨ x = (.weFetchAdd, 6) ∨ x = (.weCmpSwap, 7) := by simpa using hx
    all_goals exact ⟨_, rfl, State.workRequest_transmitted (by decide) hmay hplain hfew hroom⟩

end

section
/-! RECV, chains and the timer of acknowledgements (R285, R295, R299). -/

namespace Sys2Proof.Machine

variable {s : State} {c : Nat} {e : WorkEntry}

theorem State.workRecv_of_unarmed (h : (s.conn c).recvQ.find? (fun e => !e.armed) = some e) :
    s.workRecv c = (s.setConn c { s.conn c with recvQ := putEntry (s.conn c).recvQ { e with armed := true } }).recordEffect
      e.core e.ctx e.index := by
  unfold State.workRecv
  dsimp only
  rw [h]

/-- The count wraps: a target lies behind it by less than half its range (R299). -/
theorem State.chainRelease_of_reached (hturn : (s.conn c).toSend = some e) (hchain : e.chain = true) (hsent : e.sent = 0)
    (hlive : (s.conn e.cconn).st ≠ .error) (hreached : ((s.conn e.cconn).ccount - e.ctgt).toNat < 2 ^ 31) :
    s.chainRelease c = s.setConn c { s.conn c with sendQ := putEntry (s.conn c).sendQ { e with chain := false } } := by
  unfold State.chainRelease
  rw [hturn]
  dsimp only
  rw [if_pos ⟨hchain, hsent⟩, if_neg fun h => hlive h.1, if_pos hreached]

end Sys2Proof.Machine

open Sys2Proof Sys2Proof.Machine

/-- Settles O35: the three operations take the branch that acts, and the lemmas on them say what they leave. -/
theorem recvChainAndAckTimer : Obligations.RecvChainAndAckTimer := by
  refine ⟨?posted, ?released, ?late⟩
  case posted =>
    intro c e s h
    refine ⟨_, congrArg Host.Outcome.next (State.workRecv_of_unarmed h), ?_, ?_, fun d hd => State.setConn_conn_ne _ _ _ _ hd, rfl⟩
    · exact congrArg Conn.recvQ (State.setConn_conn_self ..)
    · rw [State.recordEffect_ctx]
      exact mem_recordedEffects ..
  case released =>
    intro c e s hturn hchain hsent hlive hreached
    refine ⟨_, congrArg Host.Outcome.next (State.chainRelease_of_reached hturn hchain hsent hlive hreached), ?_, rfl⟩
    rw [State.setConn_conn_self]
  case late =>
    intro c s hunacked hst
    obtain ⟨a, hout, hkind, hpsn⟩ := s.sendAck_out c 0
    refine ⟨_, congrArg Host.Outcome.next (if_pos ⟨hunacked, hst⟩), ?_, ?_, a, by rw [hout]; rfl, hkind, hpsn⟩
    · rw [State.sendAck_conn]
    · rw [State.sendAck_conn]

end

section
/-! Resending (R288, R295, R297, R298): what the timers, NAK RNR and NAK BUSY leave. -/

namespace Sys2Proof.Machine

variable {s t u v : State} {c k : Nat} {e : WorkEntry} {p q : Packet}

/-- From `s` to `t` packets have gone again: beside counts, of which none is of timeouts or NAKs, and what is sent nothing has
changed. -/
structure Resends (s t : State) : Prop where
  counts : OnlyCounts s t
  obj    : ∀ i j, 5 < j → j < 256 → t.obj i j = s.obj i j

theorem Resends.refl (s : State) : Resends s s := ⟨.refl s, fun _ _ _ _ => rfl⟩

theorem Resends.trans (h : Resends s t) (g : Resends t u) : Resends s u :=
  ⟨h.counts.trans g.counts, fun i j h5 hj => (g.obj i j h5 hj).trans (h.obj i j h5 hj)⟩

theorem Resends.ite {r : Prop} [Decidable r] (h : r → Resends s t) (g : ¬ r → Resends s u) : Resends s (if r then t else u) := by
  split
  · next hr => exact h hr
  · next hr => exact g hr

theorem Resends.foldl {α : Type} {f : State → α → State} (l : List α) (hf : ∀ t y, Resends t (f t y)) : Resends s (l.foldl f s) :=
  List.foldlRecOn l f (motive := Resends s) (.refl s) fun t h y _ => h.trans (hf t y)

/-- A packet that goes again is counted (R306). -/
theorem State.sendPacket_resends (s : State) (c : Nat) (p : Packet) : Resends s ((s.sendPacket c p).count 0x4201 5 32 1) where
  counts := (s.sendPacket_onlyCounts c p).count ..
  obj i j h5 hj := by
    unfold State.count
    rw [State.setObj_obj_ne _ _ _ _ _ _ (by decide) hj (by simp; omega), State.sendPacket_obj _ _ _ _ hj (by omega)]

theorem State.countBulk_resends (s : State) (a n : Nat) : Resends s (s.countBulk 1 a n) where
  counts := (OnlyCounts.refl s).countBulk ..
  obj _ _ h5 hj := s.countBulk_obj a n (by decide) hj (by omega) (by omega)

theorem State.resendFrom_resends (s : State) (c : Nat) (psn : BitVec 24) : Resends s (s.resendFrom c psn) := by
  unfold State.resendFrom
  extract_lets u
  have hu : Resends s u := .foldl _ fun t e => .foldl _ fun w i =>
    .ite (fun _ => (w.countBulk_resends ..).trans (State.sendPacket_resends ..)) fun _ => .refl w
  clear_value u
  split
  · exact hu.trans (u.sendPacket_resends ..)
  · exact hu

/-! ### Timers (R288, R295, R298) -/

/-- A timeout without progress: the window falls to its least, the timeout doubles, and the packets go again. -/
theorem State.retransmitTimeout_of_sent (hst : (s.conn c).st = .isOpen) (hstall : (s.conn c).stall = 0)
    (he : (s.conn c).sendQ.find? (fun e => decide (0 < e.sent)) = some e) (hfew : (s.conn c).timeouts + 1 < 8) :
    s.retransmitTimeout c = ((s.count 0x4201 6 32 1).setConn c { s.conn c with
      timeouts := (s.conn c).timeouts + 1, rto := min (2 * (s.conn c).rto) 6400000, cwnd := 8192, acked := 0 }).resendFrom c
        (s.conn c).upsn := by
  unfold State.retransmitTimeout
  dsimp only
  rw [if_neg (not_not.2 ⟨.inl hst, hstall⟩), he]
  exact if_neg (by omega)

theorem State.resume_of_waiting (hst : (s.conn c).st = .isOpen) (hstall : (s.conn c).stall = k) :
    s.resume c k = (s.setConn c { s.conn c with stall := 0 }).resendFrom c (s.conn c).resendAt := by
  unfold State.resume
  exact if_pos ⟨hstall, .inl hst⟩

/-- The packets go again on a connection whose wait has ended. -/
theorem State.resume_spec (hst : (s.conn c).st = .isOpen) (hstall : (s.conn c).stall = k) :
    ((s.resume c k).conn c).stall = 0 ∧ ((s.resume c k).conn c).sendQ = (s.conn c).sendQ ∧ (s.resume c k).mem = s.mem := by
  have hgone := (s.setConn c { s.conn c with stall := 0 }).resendFrom_resends c (s.conn c).resendAt
  rw [State.resume_of_waiting hst hstall, hgone.counts.conn, hgone.counts.mem, State.setConn_conn_self]
  exact ⟨rfl, rfl, rfl⟩

/-! ### NAKs (R281, R288, R297, R298) -/

/-- The cut of the window, at most once in a smoothed round trip. -/
theorem State.congestionCut_conn (s : State) (c : Nat) :
    let x := (s.congestionCut c).conn c
    x = { s.conn c with
      cwnd := if (s.conn c).tcut + (s.conn c).srtt ≤ s.now then max ((s.conn c).cwnd / 2) 8192 else (s.conn c).cwnd
      tcut := x.tcut, acked := x.acked } := by
  unfold State.congestionCut
  dsimp only
  split
  · rw [State.setConn_conn_self]
  · rfl

/-- A NAK that is met goes by its syndrome; a mark of congestion is counted. -/
def State.nakMet (s : State) (p : Packet) : State := if p.ece then s.count 0x4201 9 32 1 else s

theorem State.nakMet_onlyCounts (s : State) (p : Packet) : OnlyCounts s (s.nakMet p) := by
  unfold State.nakMet
  split
  · exact (OnlyCounts.refl s).count ..
  · exact .refl s

theorem State.nakMet_obj (s : State) (p : Packet) (i k : Nat) (hk : k < 256) (h : (i, k) ≠ (0x4201, 9)) :
    (s.nakMet p).obj i k = s.obj i k := by
  unfold State.nakMet
  split
  · exact State.setObj_obj_ne _ _ _ _ _ _ (by decide) hk h
  · rfl

theorem State.rxNak_of_rnr (hk : p.kind = .nak) (hadmit : s.admitPacket p = (u, some q)) (hsyn : q.offset.toNat % 256 = 2) :
    s.rxNak p = (u.nakMet q).nakRnr q.dconn.toNat q.psn := by
  unfold State.rxNak
  rw [if_neg (not_not.2 hk), hadmit]
  dsimp only
  rw [hsyn]
  rfl

theorem State.rxNak_of_busy (hk : p.kind = .nak) (hadmit : s.admitPacket p = (u, some q)) (hsyn : q.offset.toNat % 256 = 3) :
    s.rxNak p = ((u.nakMet q).congestionCut q.dconn.toNat).setConn q.dconn.toNat
      { ((u.nakMet q).congestionCut q.dconn.toNat).conn q.dconn.toNat with stall := 2, resendAt := q.psn } := by
  unfold State.rxNak
  rw [if_neg (not_not.2 hk), hadmit]
  dsimp only
  rw [hsyn]
  rfl

/-- Below RNR_LIMIT, or without one, the sender waits with the packets of the entry. -/
theorem State.nakRnr_of_below {psn : BitVec 24} (he : (s.conn c).entryAt psn = some e)
    (hlimit : s.obj 0x4200 9 = 0 ∨ e.rnr + 1 < s.obj 0x4200 9) :
    s.nakRnr c psn = (s.count 0x4201 7 32 1).setConn c { s.conn c with
      stall := 1, resendAt := e.psn, sendQ := putEntry (s.conn c).sendQ { e with rnr := e.rnr + 1 } } := by
  have hcounted : OnlyCounts s (s.count 0x4201 7 32 1) := (OnlyCounts.refl s).count ..
  have hobj : (s.count 0x4201 7 32 1).obj 0x4200 9 = s.obj 0x4200 9 := State.setObj_obj_ne _ _ _ _ _ _ (by decide) (by decide) (by decide)
  unfold State.nakRnr
  dsimp only
  rw [hcounted.conn, he]
  dsimp only
  rw [hobj]
  exact if_neg (by omega)

end Sys2Proof.Machine

open Sys2Proof Sys2Proof.Machine

/-- Settles O36: each event takes the branch that waits or resends, and packets that go again leave the connection. -/
theorem retransmissionsRecover : Obligations.RetransmissionsRecover := by
  refine ⟨?timeout, ?waited, fun p q u s hk hadmit => ⟨?rnr, ?busy⟩⟩
  case timeout =>
    intro c e s hst hstall he hfew
    refine ⟨_, congrArg Host.Outcome.next (State.retransmitTimeout_of_sent hst hstall he hfew), ?_⟩
    have hgone := ((s.count 0x4201 6 32 1).setConn c { s.conn c with
      timeouts := (s.conn c).timeouts + 1, rto := min (2 * (s.conn c).rto) 6400000, cwnd := 8192, acked := 0 }).resendFrom_resends c
        (s.conn c).upsn
    rw [hgone.counts.conn, hgone.counts.mem, hgone.obj _ _ (by decide) (by decide), State.setConn_conn_self, State.setConn_obj]
    exact ⟨rfl, rfl, rfl, rfl, State.count_obj_self .., rfl⟩
  case waited =>
    intro x hx c s hstall hst
    obtain rfl | rfl : x = (.rnrResend, 1) ∨ x = (.busyResend, 2) := by simpa using hx
    all_goals exact ⟨_, rfl, State.resume_spec hst hstall⟩
  case rnr =>
    intro hsyn e he hlimit
    have hconn : (u.nakMet q).conn q.dconn.toNat = u.conn q.dconn.toNat := (u.nakMet_onlyCounts q).conn _
    have hobj : (u.nakMet q).obj 0x4200 9 = u.obj 0x4200 9 := u.nakMet_obj q _ _ (by decide) (by decide)
    rw [← State.admitPacket_dconn hadmit] at he ⊢
    have hrun := State.nakRnr_of_below (s := u.nakMet q) (by rwa [hconn]) (by rwa [hobj])
    refine ⟨_, congrArg Host.Outcome.next ((State.rxNak_of_rnr hk hadmit hsyn).trans hrun), ?_⟩
    rw [State.setConn_conn_self, hconn]
    exact ⟨rfl, rfl, rfl⟩
  case busy =>
    intro hsyn
    have hconn : (u.nakMet q).conn q.dconn.toNat = u.conn q.dconn.toNat := (u.nakMet_onlyCounts q).conn _
    have hnow : (u.nakMet q).now = u.now := u.nakMet_obj q _ _ (by decide) (by decide)
    rw [← State.admitPacket_dconn hadmit]
    have hcut := (u.nakMet q).congestionCut_conn q.dconn.toNat
    rw [hconn, hnow] at hcut
    refine ⟨_, congrArg Host.Outcome.next (State.rxNak_of_busy hk hadmit hsyn), ?_⟩
    rw [State.setConn_conn_self, hcut]
    exact ⟨rfl, rfl, rfl⟩

end

section
/-! ACK (R281, R286, R295, R297): the entries that are acknowledged whole complete, and progress is noted. -/

namespace Sys2Proof.Machine

variable {s t u : State} {c rtt : Nat} {p q : Packet} {x : Conn}

/-! ### Entries acknowledged -/

theorem ackEntries_ids (l : List WorkEntry) (psn : BitVec 24) : (ackEntries l psn).map (·.id) = l.map (·.id) := by
  unfold ackEntries
  rw [List.map_map]
  refine List.map_congr_left fun e _ => ?_
  dsimp only [Function.comp]
  split <;> rfl

/-- Where no number stands twice, the entries that bear the number of none that `f` picks are those it does not pick. -/
theorem filter_other_ids {l : List WorkEntry} (f : WorkEntry → Bool) (h : (l.map (·.id)).Nodup) :
    (l.filter fun y => (l.filter f).all fun e => y.id != e.id) = l.filter fun e => !f e := by
  refine List.filter_congr fun y hy => ?_
  rw [Bool.eq_iff_iff, List.all_eq_true]
  constructor
  · intro hall
    by_contra hf
    simpa using hall y (List.mem_filter.2 ⟨hy, by simpa using hf⟩)
  · intro hf e he
    obtain ⟨he, hfe⟩ := List.mem_filter.1 he
    rw [bne_iff_ne]
    rintro hid
    rw [List.inj_on_of_nodup_map h hy he hid, hfe] at hf
    cases hf

/-- The entries acknowledged whole leave the send queue. -/
theorem State.completeAcked_spec (s : State) (c syndrome : Nat) (psn : BitVec 24) (h : ((s.conn c).sendQ.map (·.id)).Nodup) :
    Completes s (s.completeAcked c syndrome psn) c
      ∧ ((s.completeAcked c syndrome psn).conn c).sendQ = (s.conn c).sendQ.filter fun e => !e.allAcked := by
  obtain ⟨hdone, hsend, -⟩ := State.finishSends_spec ((s.conn c).sendQ.filter WorkEntry.allAcked) (fun e => e.ackCode syndrome psn)
    (fun e => ((List.range e.sent).map e.pay).sum) syndrome c s
  exact ⟨hdone, hsend.trans (filter_other_ids _ h)⟩

/-! ### The acknowledgement -/

/-- An ACK within what is unacknowledged marks what it covers and completes what is acknowledged whole. -/
def State.ackMarked (s : State) (q : Packet) : State :=
  (s.setConn q.dconn.toNat { s.conn q.dconn.toNat with sendQ := ackEntries (s.conn q.dconn.toNat).sendQ q.psn }).completeAcked
    q.dconn.toNat (q.offset.toNat % 256) q.psn

theorem State.ackMarked_spec (s : State) (q : Packet) (h : ((s.conn q.dconn.toNat).sendQ.map (·.id)).Nodup) :
    let y := (s.ackMarked q).conn q.dconn.toNat
    y.sendQ = (ackEntries (s.conn q.dconn.toNat).sendQ q.psn).filter (fun e => !e.allAcked)
      ∧ y.closePsn = (s.conn q.dconn.toNat).closePsn := by
  obtain ⟨hdone, hsend⟩ := (s.setConn q.dconn.toNat { s.conn q.dconn.toNat with
    sendQ := ackEntries (s.conn q.dconn.toNat).sendQ q.psn }).completeAcked_spec q.dconn.toNat (q.offset.toNat % 256) q.psn
      (by rw [State.setConn_conn_self, ackEntries_ids]; exact h)
  unfold State.ackMarked
  rw [hdone.conn, hsend, State.setConn_conn_self]
  exact ⟨rfl, rfl⟩

/-- Progress on a connection: what is in flight is counted anew, the window rises, and the count of timeouts ends. -/
def Conn.progressed (x : Conn) (before rtt ai : Nat) : Conn := (x.settle.rise (before - x.settle.inflight) rtt ai).progress

/-- The connection as a fresh acknowledgement leaves it. -/
def State.ackConn (s : State) (q : Packet) (rtt : Nat) : Conn :=
  ((s.ackMarked q).conn q.dconn.toNat).progressed (s.conn q.dconn.toNat).inflight rtt ((s.ackMarked q).obj 0x4200 8)

theorem State.ackConn_spec (s : State) (q : Packet) (rtt : Nat) (h : ((s.conn q.dconn.toNat).sendQ.map (·.id)).Nodup) :
    (s.ackConn q rtt).sendQ = (ackEntries (s.conn q.dconn.toNat).sendQ q.psn).filter (fun e => !e.allAcked)
      ∧ (s.ackConn q rtt).closePsn = (s.conn q.dconn.toNat).closePsn
      ∧ (s.ackConn q rtt).timeouts = 0 ∧ (s.ackConn q rtt).rto = 50000 := by
  obtain ⟨hsend, hclose⟩ := s.ackMarked_spec q h
  unfold State.ackConn
  generalize (s.ackMarked q).conn q.dconn.toNat = x at *
  exact ⟨hsend, hclose, rfl, rfl⟩

/-- A mark of congestion on an ACK is counted, and cuts the window (R297). -/
def State.ackCut (s : State) (q : Packet) : State := if q.ece then (s.count 0x4201 9 32 1).congestionCut q.dconn.toNat else s

theorem State.ackCut_conn (s : State) (q : Packet) :
    let y := (s.ackCut q).conn q.dconn.toNat
    y = { s.conn q.dconn.toNat with cwnd := y.cwnd, tcut := y.tcut, acked := y.acked } := by
  unfold State.ackCut
  dsimp only
  split
  · have hcounted : OnlyCounts s (s.count 0x4201 9 32 1) := (OnlyCounts.refl s).count ..
    rw [State.congestionCut_conn, hcounted.conn]
  · rfl

/-- The cut and a CLOSE that is due leave the send queue, the timeout and its count. -/
theorem State.ackCut_closeTry_fields (s : State) (q : Packet) (x : Conn) :
    let y := (((s.setConn q.dconn.toNat x).ackCut q).closeTry q.dconn.toNat).conn q.dconn.toNat
    y.sendQ = x.sendQ ∧ y.timeouts = x.timeouts ∧ y.rto = x.rto := by
  rw [State.closeTry_conn, State.ackCut_conn, State.setConn_conn_self]
  exact ⟨rfl, rfl, rfl⟩

/-- A fresh ACK on a connection that has sent no CLOSE. -/
theorem State.rxAck_of_fresh (hk : p.kind = .ack) (hadmit : s.admitPacket p = (u, some q))
    (hfresh : (q.psn - (u.conn q.dconn.toNat).upsn).toNat < ((u.conn q.dconn.toNat).spsn - (u.conn q.dconn.toNat).upsn).toNat)
    (hopen : (u.ackConn q rtt).closePsn = none) :
    s.rxAck p rtt = (((u.ackMarked q).setConn q.dconn.toNat (u.ackConn q rtt)).ackCut q).closeTry q.dconn.toNat := by
  have hclose : ((((u.ackMarked q).setConn q.dconn.toNat (u.ackConn q rtt)).ackCut q).conn q.dconn.toNat).closeAcked q.psn = false := by
    rw [State.ackCut_conn, State.setConn_conn_self]
    unfold Conn.closeAcked
    dsimp only
    rw [hopen]
  unfold State.rxAck
  rw [if_neg (not_not.2 hk), hadmit]
  dsimp only
  rw [decide_eq_true hfresh]
  simp only [if_true]
  exact if_neg fun h => Bool.false_ne_true (hclose.symm.trans h)

end Sys2Proof.Machine

open Sys2Proof Sys2Proof.Machine

/-- Settles O37: what is acknowledged whole completes, and what follows leaves the send queue and the count of timeouts. -/
theorem ackCompletesEntries : Obligations.AckCompletesEntries := by
  intro p q rtt u s hk hadmit
  rw [← State.admitPacket_dconn hadmit]
  dsimp only
  intro hopen hids hfresh
  obtain ⟨hqueue, hclose, htimeouts, hrto⟩ := u.ackConn_spec q rtt hids
  obtain ⟨hqueue', htimeouts', hrto'⟩ := (u.ackMarked q).ackCut_closeTry_fields q (u.ackConn q rtt)
  exact ⟨_, congrArg Host.Outcome.next (State.rxAck_of_fresh hk hadmit hfresh (hclose.trans hopen)), hqueue'.trans hqueue,
    htimeouts'.trans htimeouts, hrto'.trans hrto⟩

end

section
/-! Bore's responder places data (R285, R288, R291, R294, R300): what a WRITE, a WRITE_ACC and a SEND leave of memory and of their
connection. -/

namespace Sys2Proof.Machine

variable {s t u v : State} {c a n : Nat} {p q : Packet} {e : WorkEntry}

theorem Expected.psn {k : PktKind} (h : Expected s p k q v) : q.psn = (v.conn q.dconn.toNat).epsn := by
  have hto := h.dconn
  obtain ⟨-, u, -, -, hpsn⟩ := h
  rwa [hto]

theorem State.taken_mem (s : State) (c : Nat) (p : Packet) (n syndrome : Nat) : (s.taken c p n syndrome).mem = s.mem :=
  (s.taken_sends c p n syndrome).mem

/-- The packet that is expected is taken by its body. -/
theorem Expected.rxData_eq {k : PktKind} {body : State → Packet → Option State} {again : State → Packet → State}
    (h : Expected s p k q v) (hbody : body v q = some t) : s.rxData p k body again = t := by
  rw [State.rxData_of_expected h, hbody]
  rfl

/-- A packet of one PSN that is taken leaves its connection but for what it expects and has yet to acknowledge. -/
theorem State.taken_fields (s : State) (c : Nat) (p : Packet) (syndrome : Nat) :
    let x := (s.taken c p 1 syndrome).conn c
    x.epsn = (s.conn c).epsn + 1 ∧ x.msgOk = (s.conn c).msgOk ∧ x.origins = (s.conn c).origins ∧ x.recvQ = (s.conn c).recvQ
      ∧ x.ccount = (s.conn c).ccount := by
  rw [State.taken_conn]
  exact ⟨rfl, rfl, rfl, rfl, rfl⟩

/-- What a check that fails on the message's first packet has noted is seen by its other packets. -/
theorem not_discarded {first ok : Bool} (h : first = true ∨ ok = true) : (!first && !ok) = false := by
  rcases h with h | h <;> simp [h]

/-! ### WRITE (R285) -/

/-- A WRITE packet in its place. -/
def State.writePlaced (s : State) (c : Nat) (q : Packet) : State :=
  (s.boreWrite (q.raddr.toNat + q.offset.toNat) q.payload).setConn c { s.conn c with msgOk := !q.last }

theorem State.writePlaced_conn (s : State) (c : Nat) (q : Packet) : (s.writePlaced c q).conn c = { s.conn c with msgOk := !q.last } :=
  State.setConn_conn_self ..

/-- A WRITE that has no immediate to deliver completes nothing. -/
theorem State.writeDone_of_plain (h : q.last = false ∨ q.immv = false) :
    s.writeDone c q = s.setConn c { s.conn c with msgOk := !q.last } := by
  unfold State.writeDone
  exact if_neg (by rcases h with h | h <;> simp [h])

theorem State.takeWrite_of_clean (hkey : v.keyFail q.dconn.toNat .write q = none)
    (hgoes : q.first = true ∨ (v.conn q.dconn.toNat).msgOk = true)
    (hwait : v.rxWaits (q.raddr.toNat + q.offset.toNat) q.payload.length = false)
    (hsram : v.sramPartial (q.raddr.toNat + q.offset.toNat) q.payload.length = false) (hplain : q.last = false ∨ q.immv = false) :
    v.takeWrite q = some ((v.writePlaced q.dconn.toNat q).taken q.dconn.toNat q 1 0) := by
  unfold State.takeWrite
  dsimp only
  rw [hkey]
  dsimp only
  rw [not_discarded hgoes, hwait, hsram, if_neg Bool.false_ne_true, if_neg Bool.false_ne_true, if_neg Bool.false_ne_true,
    State.writeDone_of_plain hplain, (v.boreWrite_connsStay _ _).conn]
  rfl

/-! ### WRITE_ACC (R300) -/

theorem Conn.le_added_noteAdded (x : Conn) (o : Word) (n : Nat) : n ≤ (x.noteAdded o n).added o := by
  unfold Conn.noteAdded Conn.added
  dsimp only
  split
  · next h =>
    obtain ⟨r, hr, ho⟩ := List.any_eq_true.1 h
    rw [List.find?_map]
    cases hfind : x.origins.find? ((fun r => r.origin == o) ∘ fun r => if r.origin = o then ⟨o, max r.bytes n⟩ else r) with
    | none => exact absurd (List.find?_eq_none.1 hfind r hr) (by simp [beq_iff_eq.1 ho])
    | some y =>
      have hy : y.origin = o := by
        by_contra hne
        exact absurd (List.find?_some hfind) (by simp [hne])
      simp [hy]
  · simp

/-- A WRITE_ACC packet of which its ORIGIN has added nothing: all its values are added. -/
def State.accPlaced (s : State) (c : Nat) (q : Packet) : State :=
  (s.boreWrite (q.raddr.toNat + q.offset.toNat)
    (accBytes q.accf (s.bytesAt (q.raddr.toNat + q.offset.toNat) q.payload.length) q.payload)).setConn c
      { (s.conn c).noteAdded q.origin (q.offset.toNat + q.payload.length) with msgOk := !q.last }

theorem State.accPlaced_conn (s : State) (c : Nat) (q : Packet) :
    (s.accPlaced c q).conn c = { (s.conn c).noteAdded q.origin (q.offset.toNat + q.payload.length) with msgOk := !q.last } :=
  State.setConn_conn_self ..

theorem State.addPacket_of_new (hnew : (s.conn c).added q.origin ≤ q.offset.toNat) (hp : q.payload ≠ []) :
    s.addPacket c q = s.accPlaced c q := by
  have hskip : min q.payload.length ((s.conn c).added q.origin - q.offset.toNat) = 0 := by omega
  unfold State.addPacket
  dsimp only
  rw [hskip, List.drop_zero, Nat.add_zero, if_neg (by simpa using hp), (s.boreWrite_connsStay _ _).conn]
  rfl

theorem State.takeWriteAcc_of_clean (hkey : v.keyFail q.dconn.toNat .write q = none)
    (hgoes : q.first = true ∨ (v.conn q.dconn.toNat).msgOk = true)
    (hwait : v.rxWaits (q.raddr.toNat + q.offset.toNat) q.payload.length = false)
    (hsram : v.sramError (q.raddr.toNat + q.offset.toNat) q.payload.length = false)
    (hnew : (v.conn q.dconn.toNat).added q.origin ≤ q.offset.toNat) (hp : q.payload ≠ []) :
    v.takeWriteAcc q = some ((v.accPlaced q.dconn.toNat q).taken q.dconn.toNat q 1 0) := by
  unfold State.takeWriteAcc
  dsimp only
  rw [hkey]
  dsimp only
  rw [not_discarded hgoes, hwait, hsram, Bool.and_false, if_neg Bool.false_ne_true, if_neg Bool.false_ne_true, if_neg Bool.false_ne_true,
    State.addPacket_of_new hnew hp]

/-! ### SEND (R288) -/

/-- What a completion marks at the core of its command: the RDY slot READY, and a send command completed (R209). -/
def State.completionMarked (s : State) (e : WorkEntry) (recv : Bool) : State :=
  let s := match e.rdy with
    | some k => s.slotReady e.core k
    | none => s
  if !recv then s.recordEffect e.core e.ctx e.index else s

theorem State.completionMarked_spec (s : State) (e : WorkEntry) (recv : Bool) :
    (s.completionMarked e recv).conns = s.conns ∧ (s.completionMarked e recv).mem = s.mem := by
  unfold State.completionMarked
  extract_lets u
  have hu : u.conns = s.conns ∧ u.mem = s.mem := by
    unfold u
    split <;> exact ⟨rfl, rfl⟩
  split <;> exact hu

/-- A completion that asks for no ring entry advances the count (R286, R299). -/
theorem State.finish_of_ok (he : e.isBarrier = false) (hcqe : e.cqe = false) (recv immv : Bool) (bytes imm : Nat) :
    s.finish c e ccOk recv immv bytes imm
      = (s.setConn c { s.conn c with ccount := (s.conn c).ccount + 1 }).completionMarked e recv := by
  unfold State.finish
  rw [if_neg (by rw [he]; decide), hcqe]
  rfl

/-- A buffer that completes without a ring entry: it leaves the queue, and the count advances. -/
theorem State.finishRecv_of_ok (he : e.isBarrier = false) (hcqe : e.cqe = false) (bytes : Nat) (immv : Bool) (imm : Nat) :
    (s.finishRecv c e ccOk bytes immv imm).conn c = { s.conn c with
        recvQ := (s.conn c).recvQ.filter (·.id != e.id), recvGot := 0, trunc := false, ccount := (s.conn c).ccount + 1 }
      ∧ (s.finishRecv c e ccOk bytes immv imm).mem = s.mem := by
  unfold State.finishRecv
  dsimp only
  rw [State.finish_of_ok he hcqe, State.setConn_conn_self]
  generalize hu : State.setConn _ c _ = u
  obtain ⟨hconns, hmem⟩ := u.completionMarked_spec e true
  have hconn : (u.completionMarked e true).conn c = u.conn c := congrArg (fun x : Tab connReset => x.get c) hconns
  rw [hconn, hmem, ← hu, State.setConn_conn_self, State.setConn_mem, State.setConn_mem]
  exact ⟨rfl, rfl⟩

/-- A SEND packet in its buffer: all its bytes, none truncated. -/
def State.sendPlaced (s : State) (c : Nat) (q : Packet) (e : WorkEntry) : State :=
  (s.boreStore (s.conn c).part (e.laddr + q.offset.toNat) q.payload).setConn c { s.conn c with
    recvGot := (if q.first then 0 else (s.conn c).recvGot) + q.payload.length, trunc := false, msgOk := !q.last }

theorem State.sendPlaced_fields (s : State) (c : Nat) (q : Packet) (e : WorkEntry) :
    let x := (s.sendPlaced c q e).conn c
    x.epsn = (s.conn c).epsn ∧ x.recvQ = (s.conn c).recvQ ∧ x.ccount = (s.conn c).ccount := by
  unfold State.sendPlaced
  rw [State.setConn_conn_self]
  exact ⟨rfl, rfl, rfl⟩

/-- With its last packet the message completes its buffer. -/
def State.sendDone (s : State) (c : Nat) (q : Packet) (e : WorkEntry) : State :=
  if q.last then (s.sendPlaced c q e).finishRecv c e ccOk q.len.toNat q.immv q.imm.toNat else s.sendPlaced c q e

theorem State.sendDone_spec (he : e.isBarrier = false) (hcqe : e.cqe = false) :
    ((s.sendDone c q e).conn c).epsn = (s.conn c).epsn
      ∧ (s.sendDone c q e).mem = (s.boreStore (s.conn c).part (e.laddr + q.offset.toNat) q.payload).mem
      ∧ (q.last = true → ((s.sendDone c q e).conn c).recvQ = (s.conn c).recvQ.filter (·.id != e.id)
        ∧ ((s.sendDone c q e).conn c).ccount = (s.conn c).ccount + 1) := by
  obtain ⟨hepsn, hrecv, hcount⟩ := s.sendPlaced_fields c q e
  have hmem : (s.sendPlaced c q e).mem = (s.boreStore (s.conn c).part (e.laddr + q.offset.toNat) q.payload).mem := State.setConn_mem ..
  unfold State.sendDone
  generalize s.sendPlaced c q e = w at *
  split
  · obtain ⟨hconn, hkept⟩ := w.finishRecv_of_ok (c := c) he hcqe q.len.toNat q.immv q.imm.toNat
    rw [hconn, hkept, ← hepsn, ← hrecv, ← hcount]
    exact ⟨rfl, hmem, fun _ => ⟨rfl, rfl⟩⟩
  · next h => exact ⟨hepsn, hmem, fun hl => absurd hl h⟩

/-- The expected packet of a SEND that its buffer holds: placed, and at its end the buffer completes. -/
theorem State.takeSend_of_buffer (hgoes : q.first = true ∨ (v.conn q.dconn.toNat).msgOk = true)
    (hbuf : (v.conn q.dconn.toNat).recvQ.find? (·.armed) = some e) (habrt : q.abrt = false)
    (hfits : q.offset.toNat + q.payload.length ≤ e.len) (hwhole : q.first = true ∨ (v.conn q.dconn.toNat).trunc = false)
    (hwait : v.rxWaits (e.laddr + q.offset.toNat) q.payload.length = false)
    (hsram : v.sramPartial (e.laddr + q.offset.toNat) q.payload.length = false) :
    v.takeSend q = some ((v.sendDone q.dconn.toNat q e).taken q.dconn.toNat q 1 0) := by
  have hbytes : q.payload.take (e.len - q.offset.toNat) = q.payload := List.take_of_length_le (by omega)
  have htrunc : (decide (e.len < q.offset.toNat + q.payload.length) || ((v.conn q.dconn.toNat).trunc && !q.first)) = false := by
    rw [decide_eq_false (by omega)]
    rcases hwhole with h | h <;> simp [h]
  have hconn := (v.boreStore_connsStay (v.conn q.dconn.toNat).part (e.laddr + q.offset.toNat) q.payload).conn q.dconn.toNat
  unfold State.takeSend
  dsimp only
  rw [not_discarded hgoes, if_neg Bool.false_ne_true, hbuf]
  dsimp only
  unfold State.placeSend
  dsimp only
  rw [hbytes, htrunc, hwait, hsram, habrt, hconn]
  unfold State.sendDone State.sendPlaced
  cases q.last <;> simp only [Bool.not_false, Bool.not_true, Bool.and_false, Bool.false_and, Bool.false_eq_true, if_true, if_false]

end Sys2Proof.Machine

open Sys2Proof Sys2Proof.Machine

/-- Settles O38: the bodies place their packets, and a packet that is taken leaves memory and takes its PSN. -/
theorem responderPlacesData : Obligations.ResponderPlacesData := by
  intro p q s v
  refine ⟨fun hexp => ?write, fun hexp => ?writeAcc, fun e hexp => ?send⟩ <;> rw [← hexp.dconn]
  case write =>
    intro hkey hgoes hwait hsram hplain
    obtain ⟨hepsn, hmsg, -⟩ := (v.writePlaced q.dconn.toNat q).taken_fields q.dconn.toNat q 0
    rw [State.writePlaced_conn] at hepsn hmsg
    exact ⟨_, congrArg Host.Outcome.next (hexp.rxData_eq (State.takeWrite_of_clean hkey hgoes hwait hsram hplain)),
      State.taken_mem .., by rw [hepsn, hexp.psn], hmsg⟩
  case writeAcc =>
    intro hkey hgoes hwait hsram hnew hp
    obtain ⟨hepsn, -, horigins, -⟩ := (v.accPlaced q.dconn.toNat q).taken_fields q.dconn.toNat q 0
    rw [State.accPlaced_conn] at hepsn horigins
    refine ⟨_, congrArg Host.Outcome.next (hexp.rxData_eq (State.takeWriteAcc_of_clean hkey hgoes hwait hsram hnew hp)),
      ?_, State.taken_mem .., ?_⟩
    · rw [hepsn, hexp.psn]
      rfl
    · unfold Conn.added
      rw [horigins]
      exact (v.conn q.dconn.toNat).le_added_noteAdded ..
  case send =>
    intro hgoes hbuf he hcqe habrt hfits hwhole hwait hsram
    obtain ⟨hepsn, hmem, hdone⟩ := State.sendDone_spec (s := v) (c := q.dconn.toNat) (q := q) he hcqe
    have htake := State.takeSend_of_buffer hgoes hbuf habrt hfits hwhole hwait hsram
    generalize v.sendDone q.dconn.toNat q e = w at *
    obtain ⟨hepsn', -, -, hrecv', hcount'⟩ := w.taken_fields q.dconn.toNat q 0
    refine ⟨_, congrArg Host.Outcome.next (hexp.rxData_eq htake), ?_, (State.taken_mem ..).trans hmem, fun hl => ?_⟩
    · rw [hepsn', hepsn, hexp.psn]
    · rw [hrecv', hcount']
      exact hdone hl

end

section
/-! Bore's responder reads and adds, and answers end requests (R285, R293): atomics, READ_REQ, ATOMIC_RESP and READ_RESP. -/

namespace Sys2Proof.Machine

variable {s t u v : State} {c add : Nat} {p q : Packet} {e : WorkEntry} {old : BitVec 64}

theorem Expected.kind {k : PktKind} (h : Expected s p k q v) : q.kind = k := by
  obtain ⟨hk, u, hadmit, -, -⟩ := h
  exact (State.admitPacket_kind hadmit).trans hk

/-! ### Atomics (R293) -/

/-- An atomic made: its 8 bytes, and its result kept by PSN and by ORIGIN. -/
def State.atomicMade (s : State) (c : Nat) (q : Packet) (old : BitVec 64) : State :=
  (s.boreWrite q.raddr.toNat (bytesOf 8 (atomicNew q old).toNat)).setConn c ((s.conn c).keepAtomic q old)

theorem State.atomicMade_conn (s : State) (c : Nat) (q : Packet) (old : BitVec 64) :
    (s.atomicMade c q old).conn c = (s.conn c).keepAtomic q old := State.setConn_conn_self ..

theorem State.takeAtomic_of_new (hkey : v.keyFail q.dconn.toNat .atomic q = none)
    (hnew : (v.conn q.dconn.toNat).atomicStep.find? (fun r => r.origin == q.origin) = none) (hwait : v.rxWaits q.raddr.toNat 8 = false)
    (hsram : v.sramError q.raddr.toNat 8 = false) (hbulk : v.bulkError q.raddr.toNat 8 = false)
    (hold : BitVec.ofNat 64 (v.natAt q.raddr.toNat 8) = old) :
    v.takeAtomic q = some (((v.atomicMade q.dconn.toNat q old).sendOld q.dconn.toNat q old).taken q.dconn.toNat q 1 0) := by
  unfold State.takeAtomic
  dsimp only
  rw [hkey]
  dsimp only
  rw [hnew]
  dsimp only
  rw [hwait, hsram, hbulk, hold, if_neg Bool.false_ne_true, if_neg Bool.false_ne_true, if_neg Bool.false_ne_true,
    (v.boreWrite_connsStay _ _).conn]
  rfl

theorem State.sendOld_out (s : State) (c : Nat) (q : Packet) (old : BitVec 64) :
    ∃ a, Output.packet c a ∈ (s.sendOld c q old).out ∧ a.kind = .atomicResp ∧ a.opnd1 = old := by
  obtain ⟨a, hout, ha⟩ := s.sendPacket_sealed c
    { blankPacket s c .atomicResp q.psn with first := true, last := true, len := 8, origin := q.origin, opnd1 := old }
  exact ⟨a, List.mem_of_mem_head? (congrArg List.head? hout), by rw [ha]; rfl, by rw [ha]⟩

/-- An expected atomic that no ORIGIN of the step has made: its bytes change once, and the old value goes back. -/
theorem State.takeAtomic_spec (s : State) (c : Nat) (q : Packet) (old : BitVec 64) :
    let t := ((s.atomicMade c q old).sendOld c q old).taken c q 1 0
    (t.conn c).epsn = (s.conn c).epsn + 1 ∧ t.mem = (s.boreWrite q.raddr.toNat (bytesOf 8 (atomicNew q old).toNat)).mem
      ∧ ∃ a, Output.packet c a ∈ t.out ∧ a.kind = .atomicResp ∧ a.opnd1 = old := by
  have hconn := s.atomicMade_conn c q old
  have hmem : (s.atomicMade c q old).mem = (s.boreWrite q.raddr.toNat (bytesOf 8 (atomicNew q old).toNat)).mem := State.setConn_mem ..
  generalize s.atomicMade c q old = w at *
  have hcounts : OnlyCounts w (w.sendOld c q old) := w.sendPacket_onlyCounts ..
  obtain ⟨a, hout, hkind, hold⟩ := w.sendOld_out c q old
  generalize w.sendOld c q old = x at *
  obtain ⟨hepsn, -⟩ := x.taken_fields c q 0
  refine ⟨?_, ?_, a, (x.taken_sends c q 1 0).sent hout, hkind, hold⟩
  · rw [hepsn, hcounts.conn, hconn]
    rfl
  · rw [State.taken_mem, hcounts.mem, hmem]

/-! ### READ_REQ (R285) -/

/-- A read that its memory serves: what it reads is counted, and its responses go out. -/
def State.readServed (s : State) (c : Nat) (q : Packet) (a : Nat) : State :=
  ((s.touch a).countBulk 1 a q.len.toNat).sendResponses c q a

theorem State.readServed_spec (s : State) (c : Nat) (q : Packet) (a : Nat) :
    (s.readServed c q a).mem = s.mem ∧ (∀ d, (s.readServed c q a).conn d = s.conn d)
      ∧ ∀ i, i < packetsOf q.len.toNat → ∃ r, Output.packet c r ∈ (s.readServed c q a).out ∧ r.kind = .readResp
        ∧ r.psn = q.psn + BitVec.ofNat 24 i := by
  obtain ⟨hmem, hconns⟩ := s.readCounted_spec a q.len.toNat
  unfold State.readServed
  generalize (s.touch a).countBulk 1 a q.len.toNat = w at *
  obtain ⟨hcounts, hout⟩ := w.sendResponses_spec c q a
  exact ⟨hcounts.mem.trans hmem, fun d => congrArg (fun x : Tab connReset => x.get d) (hcounts.conns.trans hconns), hout⟩

theorem State.takeRead_of_clean (hkey : v.keyFail q.dconn.toNat .read q = none) (hwait : v.rxWaits q.raddr.toNat q.len.toNat = false)
    (hread : v.readState q = .serve add) (hsram : v.sramError (q.raddr.toNat + add) q.len.toNat = false)
    (hbulk : v.bulkError (q.raddr.toNat + add) q.len.toNat = false) :
    v.takeRead q = some ((v.readServed q.dconn.toNat q (q.raddr.toNat + add)).taken q.dconn.toNat q (packetsOf q.len.toNat) 0) := by
  unfold State.takeRead
  dsimp only
  rw [hkey]
  dsimp only
  rw [hwait, hread, State.answerRead_of_clean hsram hbulk, if_neg Bool.false_ne_true]
  rfl

/-! ### Answers (R285, R301) -/

theorem WorkEntry.not_isBarrier_of_isAtomic (h : e.isAtomic = true) : e.isBarrier = false := by
  simp only [WorkEntry.isAtomic, WorkEntry.isBarrier, Bool.or_eq_true, beq_iff_eq, decide_eq_false_iff_not] at *
  omega

theorem WorkEntry.not_isBarrier_of_read (h : e.op = 5) : e.isBarrier = false := by
  simp only [WorkEntry.isBarrier, decide_eq_false_iff_not]
  omega

/-- A send entry that completes without a ring entry: it leaves the queue, and memory stays. -/
theorem State.finishSend_of_ok (he : e.isBarrier = false) (hcqe : e.cqe = false) (bytes imm : Nat) :
    ((s.finishSend c e ccOk bytes imm).conn c).sendQ = (s.conn c).sendQ.filter (·.id != e.id)
      ∧ (s.finishSend c e ccOk bytes imm).mem = s.mem := by
  refine ⟨(s.finishSend_spec c e ccOk bytes imm).2.1, ?_⟩
  unfold State.finishSend
  rw [State.finish_of_ok he hcqe, (State.completionMarked_spec ..).2, State.setConn_mem, State.setConn_mem]

/-- The answer to a request that is not withdrawn ends it. -/
theorem State.answered_spec (he : e.isBarrier = false) (hcqe : e.cqe = false) (hstays : e.withdrawn = false) (bytes : Nat) :
    ((s.answered c e bytes).conn c).sendQ = (s.conn c).sendQ.filter (·.id != e.id) ∧ (s.answered c e bytes).mem = s.mem := by
  obtain ⟨hsend, hmem⟩ := State.finishSend_of_ok (s := s) (c := c) he hcqe bytes 0
  unfold State.answered
  rw [hstays, if_neg Bool.false_ne_true]
  dsimp only
  generalize s.finishSend c e ccOk bytes 0 = w at *
  rw [State.closeTry_conn, (State.closeTry_sends ..).mem, State.setConn_conn_self]
  exact ⟨hsend, hmem⟩

theorem State.rxAtomicResp_of_waiting (hk : p.kind = .atomicResp) (hadmit : s.admitPacket p = (u, some q))
    (he : (u.conn q.dconn.toNat).sendQ.find? (fun e => e.isAtomic && decide (0 < e.sent) && e.psn == q.psn) = some e)
    (hstays : e.withdrawn = false) (hwait : u.rxWaits e.laddr 8 = false) :
    s.rxAtomicResp p
      = (u.boreStore (u.conn q.dconn.toNat).part e.laddr (bytesOf 8 q.opnd1.toNat)).answered q.dconn.toNat e 8 := by
  unfold State.rxAtomicResp
  rw [if_neg (not_not.2 hk), hadmit]
  dsimp only
  rw [he]
  dsimp only
  rw [hstays, hwait, if_neg Bool.false_ne_true, if_neg Bool.false_ne_true]

/-- The next bytes of a READ in their place, and the entry as it then stands. -/
def State.readPlaced (s : State) (c : Nat) (e : WorkEntry) (bs : List Byte) : State :=
  (s.boreStore (s.conn c).part (e.laddr + e.got) bs).setConn c
    { s.conn c with sendQ := putEntry (s.conn c).sendQ { e with got := e.got + bs.length } }

theorem State.readPlaced_spec (s : State) (c : Nat) (e : WorkEntry) (bs : List Byte) :
    ((s.readPlaced c e bs).conn c).sendQ = putEntry (s.conn c).sendQ { e with got := e.got + bs.length }
      ∧ (s.readPlaced c e bs).mem = (s.boreStore (s.conn c).part (e.laddr + e.got) bs).mem := by
  unfold State.readPlaced
  rw [State.setConn_conn_self]
  exact ⟨rfl, State.setConn_mem ..⟩

theorem State.rxReadResp_of_next (hk : p.kind = .readResp) (hadmit : s.admitPacket p = (u, some q))
    (he : (u.conn q.dconn.toNat).sendQ.find? (fun e => e.op == 5 && decide (0 < e.sent)
      && decide ((q.psn - e.psn).toNat < packetsOf e.len)) = some e)
    (hoff : 4096 * (q.psn - e.psn).toNat = e.got) (hstays : e.withdrawn = false)
    (hwait : u.rxWaits (e.laddr + e.got) (q.payload.take (e.len - e.got)).length = false) :
    s.rxReadResp p = (let bs := q.payload.take (e.len - e.got)
      let w := u.readPlaced q.dconn.toNat e bs
      if e.len ≤ e.got + bs.length then w.answered q.dconn.toNat { e with got := e.got + bs.length } e.len
      else w.setConn q.dconn.toNat (w.conn q.dconn.toNat).settle.progress) := by
  unfold State.rxReadResp
  rw [if_neg (not_not.2 hk), hadmit]
  dsimp only
  rw [he]
  dsimp only
  have hplaced : ¬ e.withdrawn = true := by rw [hstays]; decide
  rw [if_neg (not_not.2 hoff), hoff, hwait, Bool.and_false, if_neg Bool.false_ne_true, if_neg hplaced,
    (u.boreStore_connsStay _ _ _).conn]
  unfold State.readPlaced
  rfl

end Sys2Proof.Machine

open Sys2Proof Sys2Proof.Machine

/-- Settles O39: the bodies of the requests and the answers take the branch that acts, and the lemmas above say what they leave. -/
theorem responderReadsAndAtomics : Obligations.ResponderReadsAndAtomics := by
  intro p q s v
  refine ⟨?atomic, ?read, ?atomicResp, ?readResp⟩
  case atomic =>
    intro x hx hexp
    rw [← hexp.dconn]
    intro hkey hnew hwait hsram hbulk
    obtain ⟨hepsn, hmem, hsent⟩ := v.takeAtomic_spec q.dconn.toNat q (BitVec.ofNat 64 (v.natAt q.raddr.toNat 8))
    have htake := State.takeAtomic_of_new hkey hnew hwait hsram hbulk rfl
    generalize State.taken _ q.dconn.toNat q 1 0 = t at *
    rw [← hexp.psn] at hepsn
    obtain rfl | rfl : x = (.rxFetchAdd, .fetchAdd, fun old => old + q.opnd1)
        ∨ x = (.rxCmpSwap, .cmpSwap, fun old => if old = q.opnd1 then q.opnd2 else old) := by simpa using hx
    · have hkind : q.kind = .fetchAdd := hexp.kind
      rw [atomicNew, if_pos hkind] at hmem
      dsimp only
      exact ⟨t, congrArg Host.Outcome.next (hexp.rxData_eq htake), hepsn, hmem, hsent⟩
    · have hkind : q.kind = .cmpSwap := hexp.kind
      rw [atomicNew, if_neg (by rw [hkind]; decide)] at hmem
      dsimp only
      exact ⟨t, congrArg Host.Outcome.next (hexp.rxData_eq htake), hepsn, hmem, hsent⟩
  case read =>
    intro add hexp
    rw [← hexp.dconn]
    intro hkey hwait hread hsram hbulk
    have htake := State.takeRead_of_clean hkey hwait hread hsram hbulk
    obtain ⟨hmem, hconn, hout⟩ := v.readServed_spec q.dconn.toNat q (q.raddr.toNat + add)
    generalize v.readServed q.dconn.toNat q (q.raddr.toNat + add) = w at *
    refine ⟨_, congrArg Host.Outcome.next (hexp.rxData_eq htake), ?_, fun i hi => ?_, (State.taken_mem ..).trans hmem⟩
    · rw [(w.taken_spec ..).1, hconn, hexp.psn]
    · obtain ⟨a, ha, hkind, hpsn⟩ := hout i hi
      exact ⟨a, (w.taken_sends ..).sent ha, hkind, hpsn⟩
  case atomicResp =>
    intro e u hk hadmit
    rw [← State.admitPacket_dconn hadmit]
    intro he hstays hcqe hwait
    have hreq := List.find?_some he
    simp only [Bool.and_eq_true] at hreq
    obtain ⟨hsend, hmem⟩ := State.answered_spec (s := u.boreStore (u.conn q.dconn.toNat).part e.laddr (bytesOf 8 q.opnd1.toNat))
      (c := q.dconn.toNat) (WorkEntry.not_isBarrier_of_isAtomic hreq.1.1) hcqe hstays 8
    rw [(u.boreStore_connsStay _ _ _).conn] at hsend
    exact ⟨_, congrArg Host.Outcome.next (State.rxAtomicResp_of_waiting hk hadmit he hstays hwait), hmem, hsend⟩
  case readResp =>
    intro e u hk hadmit
    rw [← State.admitPacket_dconn hadmit]
    intro he hoff hstays hcqe bs hwait
    have hreq := List.find?_some he
    simp only [Bool.and_eq_true, beq_iff_eq] at hreq
    have hrun := State.rxReadResp_of_next hk hadmit he hoff hstays hwait
    obtain ⟨hqueue, hmem⟩ := u.readPlaced_spec q.dconn.toNat e bs
    dsimp only at hrun
    generalize u.readPlaced q.dconn.toNat e bs = w at *
    refine ⟨_, congrArg Host.Outcome.next hrun, ?_⟩
    split
    · next hlast =>
      obtain ⟨hsend, hkept⟩ := State.answered_spec (s := w) (c := q.dconn.toNat) (e := { e with got := e.got + bs.length })
        (WorkEntry.not_isBarrier_of_read hreq.1.1) hcqe hstays e.len
      refine ⟨hkept.trans hmem, fun h => absurd h (Nat.not_lt.2 hlast), fun _ y hy => ?_⟩
      rw [hsend] at hy
      simpa using (List.mem_filter.1 hy).2
    · next hmore =>
      refine ⟨hmem, fun _ => ?_, fun h => absurd h hmore⟩
      rw [State.setConn_conn_self]
      exact hqueue

end
